-- ==== Sys2Proof/Word.lean ====
section
/-! DEFINITION. The word types of the block: a 32-bit register or Psiul word, a 64-bit instruction word, a byte of
memory, and a sparse table keyed by instance, in which an absent key reads as the default its reader names. -/

namespace Sys2Proof

/-- A register word of the management map and a Psiul register (R19, R209). -/
abbrev Word := BitVec 32

/-- A Psiul instruction word (R236). -/
abbrev Word64 := BitVec 64

/-- A byte of a memory. -/
abbrev Byte := BitVec 8

/-- A sparse table: the instances that differ from, or were written over, their default. -/
abbrev Tab (α : Type) := List (Nat × α)

end Sys2Proof
end

