-- ==== Sys2Proof/Machine/RegMap.lean ====
section
/-! DEFINITION. The register map: every register of the spec (one constructor of `Reg` each), where it lies
(R18, R88, R117, R145, R175, R207, R235, R310, R338, R355, R380, R411, R437, R460, R490, R494), and every
field of it with its bits, access code (R21) and reset value, transcribed from the register tables of the chapters.
A reserved bit has no field: it reads 0 (R23). An instance is numbered outer * n1 + inner. -/

namespace Sys2Proof.Machine

/-- The access codes of R21. -/
inductive Access where
  | RW | RO | WO | W1C | RC | RWL
  deriving DecidableEq, Repr

/-- The registers of the management map; `SLOT_SHADOW` and `SLOT_ACTIVE` are the coefficient slot words of R127,
`CAP_VALS` the five values CAP_P_LAST, CAP_MEAN_1MS, CAP_MEAN_10MS, CAP_EWMA, CAP_BUDGET, `CAP_LIM` the three
limits, `DESC_Wk` word k of a unit descriptor, `CREW_AB` the pair CREW_AB_A and CREW_AB_B. -/
inductive Reg where
  | DESC_W0 | DESC_W1 | DESC_W2 | DESC_W3 | DESC_W4 | DESC_W5
  | DESC_W6 | DESC_W7 | ID_UOP_LO | ID_UOP_HI | ID_UOP_CTL | ID_UOP_STAT
  | CREW_MOD_CTL | CREW_RING_CTL | CREW_RING_STAT | CREW_STEP_CNT | CREW_HOLD_CNT | CREW_FSC_CTL
  | CREW_DEAD_CTL | CREW_OVL_CTL | CREW_OVL_STAT | CREW_OVL_FILT | CREW_OVL_CNT | CREW_PH_STATE
  | CREW_PH_CAUSE | CREW_PH_RESTORE | CREW_PH_RESTORE_STAT | CREW_DITHER_SEED | CREW_GATE_TB | CREW_GATE_SEL
  | CREW_PH_TRIM | CREW_PH_CNT | CREW_AB_CTL | CREW_AB_STAT | CREW_AB | CREW_AB_TRIG
  | CREW_AB_TRIM | CREW_AB_OVR_CNT | CREW_H_CTL | CREW_H_STAT | CREW_H_REF | CREW_OW_CTL
  | CREW_OW_STAT | CREW_H_GTRIM0 | CREW_H_GTRIM1 | CREW_H_SEQ | CREW_H_RES | CREW_DP_CTL
  | CREW_DP_STAT | CREW_DP_GS | CREW_DP_EDGES | CREW_DP_COMMIT | CREW_DP_COMMIT_ERR | CREW_DP_LLS
  | CREW_DP_TRIM | CREW_DP_IFILT | CREW_DP_OUT | CREW_DP_IINIT | CREW_DP_MISS_CNT | CREW_DP_MISS_WIN
  | CREW_DP_TIME | CREW_DP_FALLBACKS | CREW_SP_STAT | CREW_SP_REF | CREW_SP_SEQ | CREW_SP_SUP_CNT
  | SLOT_SHADOW | SLOT_ACTIVE | CREW_SH_CTL | CREW_TR_CTL | CREW_TR_STAT | CREW_TR_CNT
  | CREW_GB_CTL | CREW_GB_STAT | CREW_PWR_CTL | CREW_PWR_STAT | CREW_VMIN | CREW_VMIN_MARK
  | CAP_MON_AGE_SLACK | CAP_MON_AGE_TRIM | CAP_MON_AGE_CTL | CAP_MON_DIE_VMIN | CAP_MON_DIE_VMIN_MARK | FCW_CFG
  | FCW_RING | FCW_STAT | FCW_ARRIVALS | FCW_PTR | FCW_EARLY | FCW_LATE
  | FCW_END | FCW_TICKS | FCW_SUM | MSH_CTL | MSH_STAT | MSH_HEAT_CNT
  | MSH_REQ_CNT | MSH_REG_CFG | MSH_XMAP | MSH_STR_CNT | MSH_STR_MARK | MSH_ALIGN_CTL
  | LANE_CTL | LANE_ARG | LANE_STAT | LANE_IMAGE | LANE_GRANT | LANE_GRANTX
  | LANE_LOAD_STAT | LANE_SIG | LANE_WDOG | LANE_ISSUE_CNT | LANE_JOB | CAP_CTL
  | CAP_STAT | CAP_LIM | CAP_VALS | CAP_OVR_CNT | CAP_CLASS | CAP_CLASS_HW
  | CAP_ALLOC | CAP_PLANE | CAP_RATE_REG | CAP_HEAT | EST_CTL | EST_STAT
  | EST_FW_ADDR | EST_MODELS | EST_MACS | EST_MISS_CNT | EST_DUMP | EST_CREW_EST
  | EST_CREW_MEAS | EST_CREW_CAL | EST_CREW_STAT | THM_CTL | THM_STAT | THM_THRESH0
  | THM_THRESH1 | THM_RISE | THM_DRC1 | THM_LOG_STAT | THM_LOG_SEQ | THM_REG
  | THM_PLANE | THM_SENS | THM_SUBST | THM_POS | RGT_CTL | RGT_GROUP
  | RGT_MEMBER | RGT_LIMIT | RGT_POOL | RGT_STAT | RGT_GRANT | RGT_SLACK
  | RGT_BAR_WAIT | RGT_SLOW | RGT_CNT | FLT_CTL | FLT_STAT | FLT_CLEAR
  | FLT_CLEAR_STAT | FLT_CNT | FLT_DROP | FLT_HIST_HEAD | FLT_INJECT0 | FLT_INJECT1
  | TB_CTL | TB_STAT | TB_NOW_MARK | TB_NOW_TICKS | TB_SNAP | TB_SNAP_CTL
  | TB_CAL_CTL | TB_CAL | CREW_VMAX | CREW_VMAX_MARK | CREW_HIST_CTL | CREW_HIST_MARK
  | CREW_HIST_V | CREW_HIST_T | CAP_MON_SCTL | CAP_MON_SBUF | CAP_MON_STRIG | CAP_MON_STRIG_MARK
  | CAP_MON_SSTAT | CAP_MON_SSEQ | CAP_MON_SGAP | REC_HEAD | REC_OLDEST | REC_CUR
  | REC_CTL | REC_WIN | ID_MEM_CTL | ID_MEM_STAT | ID_ECC_CNT | ID_ECC_ADDR
  | ID_MARCH_CTL | ID_MARCH_STAT | ID_MARCH_FAIL | ID_FW_STAT | ID_FW_SVN | ID_SAFE_DOM
  | ID_SAFE_LIM0 | ID_SAFE_LIM1 | ID_SAFE_FLOOR | ID_SAFE_CRC | ID_RGN | ID_MBX_CFG
  | ID_MBX_SUM | ID_MBX_CTL | ID_MBX_DATA | ID_BOOT_STAT | ID_RST_CTL | ID_RST_STAT
  | ID_PWR_CTL | ID_PWR_STAT | ID_BOOT_ENTRY | ID_FLASH_CTL | ID_FLASH_ADDR | ID_FLASH_MEM
  | ID_FLASH_LEN | ID_FLASH_STAT | ID_PMB_CFG | STG_CTL | STG_STAT | STG_SUM
  | STG_ERR | STG_DIE_STAT | STG_DIE_MEAS | ID_VENDOR | ID_VERSION | ID_HOST
  | ID_FUSE | ID_SERIAL | ID_LOCK | ID_LOCK_VIOL | ID_LOCK_ADDR | ID_ERR_CNT
  | ID_ERR_ADDR | ID_CAP0 | ID_CAP1 | ID_CAP2 | ID_CAP3
  deriving DecidableEq, Repr

/-- Where the instances of a register lie: base + outer * st2 + inner * st1, inner below n1, outer below n2. -/
structure RegInfo where
  base : Nat
  n1 : Nat
  st1 : Nat
  n2 : Nat
  st2 : Nat

/-- The layout of each register (the address tables of the chapters). -/
def Reg.info : Reg → RegInfo
  | .DESC_W0 => ⟨0x900000, 1, 0x4, 2048, 0x20⟩
  | .DESC_W1 => ⟨0x900004, 1, 0x4, 2048, 0x20⟩
  | .DESC_W2 => ⟨0x900008, 1, 0x4, 2048, 0x20⟩
  | .DESC_W3 => ⟨0x90000C, 1, 0x4, 2048, 0x20⟩
  | .DESC_W4 => ⟨0x900010, 1, 0x4, 2048, 0x20⟩
  | .DESC_W5 => ⟨0x900014, 1, 0x4, 2048, 0x20⟩
  | .DESC_W6 => ⟨0x900018, 1, 0x4, 2048, 0x20⟩
  | .DESC_W7 => ⟨0x90001C, 1, 0x4, 2048, 0x20⟩
  | .ID_UOP_LO => ⟨0x010600, 1, 0x4, 1, 0x1000000⟩
  | .ID_UOP_HI => ⟨0x010604, 1, 0x4, 1, 0x1000000⟩
  | .ID_UOP_CTL => ⟨0x010608, 1, 0x4, 1, 0x1000000⟩
  | .ID_UOP_STAT => ⟨0x01060C, 1, 0x4, 1, 0x1000000⟩
  | .CREW_MOD_CTL => ⟨0x100000, 1, 0x4, 192, 0x1000⟩
  | .CREW_RING_CTL => ⟨0x100004, 1, 0x4, 192, 0x1000⟩
  | .CREW_RING_STAT => ⟨0x100008, 1, 0x4, 192, 0x1000⟩
  | .CREW_STEP_CNT => ⟨0x10000C, 1, 0x4, 192, 0x1000⟩
  | .CREW_HOLD_CNT => ⟨0x100010, 1, 0x4, 192, 0x1000⟩
  | .CREW_FSC_CTL => ⟨0x100014, 1, 0x4, 192, 0x1000⟩
  | .CREW_DEAD_CTL => ⟨0x100018, 1, 0x4, 192, 0x1000⟩
  | .CREW_OVL_CTL => ⟨0x10001C, 1, 0x4, 192, 0x1000⟩
  | .CREW_OVL_STAT => ⟨0x100020, 1, 0x4, 192, 0x1000⟩
  | .CREW_OVL_FILT => ⟨0x100024, 1, 0x4, 192, 0x1000⟩
  | .CREW_OVL_CNT => ⟨0x100028, 1, 0x4, 192, 0x1000⟩
  | .CREW_PH_STATE => ⟨0x10002C, 1, 0x4, 192, 0x1000⟩
  | .CREW_PH_CAUSE => ⟨0x100030, 1, 0x4, 192, 0x1000⟩
  | .CREW_PH_RESTORE => ⟨0x100034, 1, 0x4, 192, 0x1000⟩
  | .CREW_PH_RESTORE_STAT => ⟨0x100038, 1, 0x4, 192, 0x1000⟩
  | .CREW_DITHER_SEED => ⟨0x10003C, 1, 0x4, 192, 0x1000⟩
  | .CREW_GATE_TB => ⟨0x100040, 6, 0x4, 192, 0x1000⟩
  | .CREW_GATE_SEL => ⟨0x100058, 1, 0x4, 192, 0x1000⟩
  | .CREW_PH_TRIM => ⟨0x10005C, 1, 0x4, 192, 0x1000⟩
  | .CREW_PH_CNT => ⟨0x100060, 8, 0x4, 192, 0x1000⟩
  | .CREW_AB_CTL => ⟨0x100080, 1, 0x4, 192, 0x1000⟩
  | .CREW_AB_STAT => ⟨0x100084, 1, 0x4, 192, 0x1000⟩
  | .CREW_AB => ⟨0x100088, 2, 0x4, 192, 0x1000⟩
  | .CREW_AB_TRIG => ⟨0x100090, 1, 0x4, 192, 0x1000⟩
  | .CREW_AB_TRIM => ⟨0x100094, 1, 0x4, 192, 0x1000⟩
  | .CREW_AB_OVR_CNT => ⟨0x100098, 1, 0x4, 192, 0x1000⟩
  | .CREW_H_CTL => ⟨0x10009C, 1, 0x4, 192, 0x1000⟩
  | .CREW_H_STAT => ⟨0x1000A0, 1, 0x4, 192, 0x1000⟩
  | .CREW_H_REF => ⟨0x1000A4, 1, 0x4, 192, 0x1000⟩
  | .CREW_OW_CTL => ⟨0x1000A8, 1, 0x4, 192, 0x1000⟩
  | .CREW_OW_STAT => ⟨0x1000AC, 1, 0x4, 192, 0x1000⟩
  | .CREW_H_GTRIM0 => ⟨0x1000B0, 1, 0x4, 192, 0x1000⟩
  | .CREW_H_GTRIM1 => ⟨0x1000B4, 1, 0x4, 192, 0x1000⟩
  | .CREW_H_SEQ => ⟨0x1000C0, 16, 0x4, 192, 0x1000⟩
  | .CREW_H_RES => ⟨0x100100, 16, 0x4, 192, 0x1000⟩
  | .CREW_DP_CTL => ⟨0x100200, 1, 0x4, 192, 0x1000⟩
  | .CREW_DP_STAT => ⟨0x100204, 1, 0x4, 192, 0x1000⟩
  | .CREW_DP_GS => ⟨0x100208, 1, 0x4, 192, 0x1000⟩
  | .CREW_DP_EDGES => ⟨0x10020C, 1, 0x4, 192, 0x1000⟩
  | .CREW_DP_COMMIT => ⟨0x100210, 1, 0x4, 192, 0x1000⟩
  | .CREW_DP_COMMIT_ERR => ⟨0x100214, 1, 0x4, 192, 0x1000⟩
  | .CREW_DP_LLS => ⟨0x100218, 1, 0x4, 192, 0x1000⟩
  | .CREW_DP_TRIM => ⟨0x10021C, 1, 0x4, 192, 0x1000⟩
  | .CREW_DP_IFILT => ⟨0x100220, 1, 0x4, 192, 0x1000⟩
  | .CREW_DP_OUT => ⟨0x100224, 1, 0x4, 192, 0x1000⟩
  | .CREW_DP_IINIT => ⟨0x100228, 1, 0x4, 192, 0x1000⟩
  | .CREW_DP_MISS_CNT => ⟨0x10022C, 1, 0x4, 192, 0x1000⟩
  | .CREW_DP_MISS_WIN => ⟨0x100230, 1, 0x4, 192, 0x1000⟩
  | .CREW_DP_TIME => ⟨0x100234, 1, 0x4, 192, 0x1000⟩
  | .CREW_DP_FALLBACKS => ⟨0x100238, 1, 0x4, 192, 0x1000⟩
  | .CREW_SP_STAT => ⟨0x100240, 1, 0x4, 192, 0x1000⟩
  | .CREW_SP_REF => ⟨0x100244, 1, 0x4, 192, 0x1000⟩
  | .CREW_SP_SEQ => ⟨0x100248, 1, 0x4, 192, 0x1000⟩
  | .CREW_SP_SUP_CNT => ⟨0x10024C, 1, 0x4, 192, 0x1000⟩
  | .SLOT_SHADOW => ⟨0x100800, 256, 0x4, 192, 0x1000⟩
  | .SLOT_ACTIVE => ⟨0x100C00, 256, 0x4, 192, 0x1000⟩
  | .CREW_SH_CTL => ⟨0x100280, 1, 0x4, 192, 0x1000⟩
  | .CREW_TR_CTL => ⟨0x100284, 1, 0x4, 192, 0x1000⟩
  | .CREW_TR_STAT => ⟨0x100288, 1, 0x4, 192, 0x1000⟩
  | .CREW_TR_CNT => ⟨0x10028C, 1, 0x4, 192, 0x1000⟩
  | .CREW_GB_CTL => ⟨0x100290, 1, 0x4, 192, 0x1000⟩
  | .CREW_GB_STAT => ⟨0x100294, 1, 0x4, 192, 0x1000⟩
  | .CREW_PWR_CTL => ⟨0x100298, 1, 0x4, 192, 0x1000⟩
  | .CREW_PWR_STAT => ⟨0x10029C, 1, 0x4, 192, 0x1000⟩
  | .CREW_VMIN => ⟨0x1002A0, 1, 0x4, 192, 0x1000⟩
  | .CREW_VMIN_MARK => ⟨0x1002A4, 1, 0x4, 192, 0x1000⟩
  | .CAP_MON_AGE_SLACK => ⟨0x35C000, 96, 0x4, 1, 0x1000000⟩
  | .CAP_MON_AGE_TRIM => ⟨0x35C200, 24, 0x4, 1, 0x1000000⟩
  | .CAP_MON_AGE_CTL => ⟨0x35C280, 1, 0x4, 1, 0x1000000⟩
  | .CAP_MON_DIE_VMIN => ⟨0x35C284, 1, 0x4, 1, 0x1000000⟩
  | .CAP_MON_DIE_VMIN_MARK => ⟨0x35C288, 1, 0x4, 1, 0x1000000⟩
  | .FCW_CFG => ⟨0x280000, 1, 0x4, 64, 0x100⟩
  | .FCW_RING => ⟨0x280004, 1, 0x4, 64, 0x100⟩
  | .FCW_STAT => ⟨0x280008, 1, 0x4, 64, 0x100⟩
  | .FCW_ARRIVALS => ⟨0x28000C, 1, 0x4, 64, 0x100⟩
  | .FCW_PTR => ⟨0x280010, 1, 0x4, 64, 0x100⟩
  | .FCW_EARLY => ⟨0x280014, 1, 0x4, 64, 0x100⟩
  | .FCW_LATE => ⟨0x280018, 1, 0x4, 64, 0x100⟩
  | .FCW_END => ⟨0x28001C, 1, 0x4, 64, 0x100⟩
  | .FCW_TICKS => ⟨0x280020, 1, 0x4, 64, 0x100⟩
  | .FCW_SUM => ⟨0x280040, 16, 0x4, 64, 0x100⟩
  | .MSH_CTL => ⟨0x360000, 1, 0x4, 8, 0x100⟩
  | .MSH_STAT => ⟨0x360004, 1, 0x4, 8, 0x100⟩
  | .MSH_HEAT_CNT => ⟨0x360008, 1, 0x4, 8, 0x100⟩
  | .MSH_REQ_CNT => ⟨0x36000C, 1, 0x4, 8, 0x100⟩
  | .MSH_REG_CFG => ⟨0x361000, 1, 0x4, 24, 0x10⟩
  | .MSH_XMAP => ⟨0x361004, 1, 0x4, 24, 0x10⟩
  | .MSH_STR_CNT => ⟨0x361008, 1, 0x4, 24, 0x10⟩
  | .MSH_STR_MARK => ⟨0x36100C, 1, 0x4, 24, 0x10⟩
  | .MSH_ALIGN_CTL => ⟨0x362000, 1, 0x4, 1, 0x1000000⟩
  | .LANE_CTL => ⟨0x200000, 1, 0x4, 12, 0x100⟩
  | .LANE_ARG => ⟨0x200004, 1, 0x4, 12, 0x100⟩
  | .LANE_STAT => ⟨0x200008, 1, 0x4, 12, 0x100⟩
  | .LANE_IMAGE => ⟨0x20000C, 1, 0x4, 12, 0x100⟩
  | .LANE_GRANT => ⟨0x200010, 6, 0x4, 12, 0x100⟩
  | .LANE_GRANTX => ⟨0x200028, 1, 0x4, 12, 0x100⟩
  | .LANE_LOAD_STAT => ⟨0x20002C, 1, 0x4, 12, 0x100⟩
  | .LANE_SIG => ⟨0x200030, 1, 0x4, 12, 0x100⟩
  | .LANE_WDOG => ⟨0x200034, 1, 0x4, 12, 0x100⟩
  | .LANE_ISSUE_CNT => ⟨0x200038, 1, 0x4, 12, 0x100⟩
  | .LANE_JOB => ⟨0x20003C, 1, 0x4, 12, 0x100⟩
  | .CAP_CTL => ⟨0x320000, 1, 0x4, 1, 0x1000000⟩
  | .CAP_STAT => ⟨0x320004, 1, 0x4, 1, 0x1000000⟩
  | .CAP_LIM => ⟨0x320008, 3, 0x4, 1, 0x1000000⟩
  | .CAP_VALS => ⟨0x320014, 5, 0x4, 1, 0x1000000⟩
  | .CAP_OVR_CNT => ⟨0x320028, 1, 0x4, 1, 0x1000000⟩
  | .CAP_CLASS => ⟨0x320030, 4, 0x4, 1, 0x1000000⟩
  | .CAP_CLASS_HW => ⟨0x320040, 4, 0x4, 1, 0x1000000⟩
  | .CAP_ALLOC => ⟨0x320050, 4, 0x4, 1, 0x1000000⟩
  | .CAP_PLANE => ⟨0x320080, 32, 0x4, 1, 0x1000000⟩
  | .CAP_RATE_REG => ⟨0x320100, 24, 0x4, 1, 0x1000000⟩
  | .CAP_HEAT => ⟨0x320160, 8, 0x4, 1, 0x1000000⟩
  | .EST_CTL => ⟨0x321000, 1, 0x4, 1, 0x1000000⟩
  | .EST_STAT => ⟨0x321004, 1, 0x4, 1, 0x1000000⟩
  | .EST_FW_ADDR => ⟨0x321008, 1, 0x4, 1, 0x1000000⟩
  | .EST_MODELS => ⟨0x32100C, 1, 0x4, 1, 0x1000000⟩
  | .EST_MACS => ⟨0x321010, 1, 0x4, 1, 0x1000000⟩
  | .EST_MISS_CNT => ⟨0x321014, 1, 0x4, 1, 0x1000000⟩
  | .EST_DUMP => ⟨0x321018, 1, 0x4, 1, 0x1000000⟩
  | .EST_CREW_EST => ⟨0x322000, 1, 0x4, 192, 0x10⟩
  | .EST_CREW_MEAS => ⟨0x322004, 1, 0x4, 192, 0x10⟩
  | .EST_CREW_CAL => ⟨0x322008, 1, 0x4, 192, 0x10⟩
  | .EST_CREW_STAT => ⟨0x32200C, 1, 0x4, 192, 0x10⟩
  | .THM_CTL => ⟨0x310000, 1, 0x4, 1, 0x1000000⟩
  | .THM_STAT => ⟨0x310004, 1, 0x4, 1, 0x1000000⟩
  | .THM_THRESH0 => ⟨0x310008, 1, 0x4, 1, 0x1000000⟩
  | .THM_THRESH1 => ⟨0x31000C, 1, 0x4, 1, 0x1000000⟩
  | .THM_RISE => ⟨0x310010, 1, 0x4, 1, 0x1000000⟩
  | .THM_DRC1 => ⟨0x310014, 1, 0x4, 1, 0x1000000⟩
  | .THM_LOG_STAT => ⟨0x310018, 1, 0x4, 1, 0x1000000⟩
  | .THM_LOG_SEQ => ⟨0x31001C, 1, 0x4, 1, 0x1000000⟩
  | .THM_REG => ⟨0x310100, 24, 0x4, 1, 0x1000000⟩
  | .THM_PLANE => ⟨0x310200, 32, 0x4, 1, 0x1000000⟩
  | .THM_SENS => ⟨0x311000, 960, 0x4, 1, 0x1000000⟩
  | .THM_SUBST => ⟨0x313000, 960, 0x4, 1, 0x1000000⟩
  | .THM_POS => ⟨0x315000, 960, 0x4, 1, 0x1000000⟩
  | .RGT_CTL => ⟨0x330000, 1, 0x4, 1, 0x1000000⟩
  | .RGT_GROUP => ⟨0x330004, 1, 0x4, 1, 0x1000000⟩
  | .RGT_MEMBER => ⟨0x330008, 1, 0x4, 1, 0x1000000⟩
  | .RGT_LIMIT => ⟨0x33000C, 1, 0x4, 1, 0x1000000⟩
  | .RGT_POOL => ⟨0x330010, 1, 0x4, 1, 0x1000000⟩
  | .RGT_STAT => ⟨0x330014, 1, 0x4, 1, 0x1000000⟩
  | .RGT_GRANT => ⟨0x330018, 1, 0x4, 1, 0x1000000⟩
  | .RGT_SLACK => ⟨0x33001C, 1, 0x4, 1, 0x1000000⟩
  | .RGT_BAR_WAIT => ⟨0x330020, 1, 0x4, 1, 0x1000000⟩
  | .RGT_SLOW => ⟨0x330024, 1, 0x4, 1, 0x1000000⟩
  | .RGT_CNT => ⟨0x330028, 1, 0x4, 1, 0x1000000⟩
  | .FLT_CTL => ⟨0x300000, 1, 0x4, 1, 0x1000000⟩
  | .FLT_STAT => ⟨0x300004, 1, 0x4, 1, 0x1000000⟩
  | .FLT_CLEAR => ⟨0x300008, 1, 0x4, 1, 0x1000000⟩
  | .FLT_CLEAR_STAT => ⟨0x30000C, 1, 0x4, 1, 0x1000000⟩
  | .FLT_CNT => ⟨0x300010, 1, 0x4, 1, 0x1000000⟩
  | .FLT_DROP => ⟨0x300014, 1, 0x4, 1, 0x1000000⟩
  | .FLT_HIST_HEAD => ⟨0x300018, 1, 0x4, 1, 0x1000000⟩
  | .FLT_INJECT0 => ⟨0x30001C, 1, 0x4, 1, 0x1000000⟩
  | .FLT_INJECT1 => ⟨0x300020, 1, 0x4, 1, 0x1000000⟩
  | .TB_CTL => ⟨0x370000, 1, 0x4, 1, 0x1000000⟩
  | .TB_STAT => ⟨0x370004, 1, 0x4, 1, 0x1000000⟩
  | .TB_NOW_MARK => ⟨0x370008, 1, 0x4, 1, 0x1000000⟩
  | .TB_NOW_TICKS => ⟨0x37000C, 1, 0x4, 1, 0x1000000⟩
  | .TB_SNAP => ⟨0x370010, 1, 0x4, 1, 0x1000000⟩
  | .TB_SNAP_CTL => ⟨0x370014, 1, 0x4, 1, 0x1000000⟩
  | .TB_CAL_CTL => ⟨0x370018, 1, 0x4, 1, 0x1000000⟩
  | .TB_CAL => ⟨0x370100, 192, 0x4, 1, 0x1000000⟩
  | .CREW_VMAX => ⟨0x1002A8, 1, 0x4, 192, 0x1000⟩
  | .CREW_VMAX_MARK => ⟨0x1002AC, 1, 0x4, 192, 0x1000⟩
  | .CREW_HIST_CTL => ⟨0x1002B0, 1, 0x4, 192, 0x1000⟩
  | .CREW_HIST_MARK => ⟨0x1002B4, 1, 0x4, 192, 0x1000⟩
  | .CREW_HIST_V => ⟨0x100400, 64, 0x4, 192, 0x1000⟩
  | .CREW_HIST_T => ⟨0x100500, 64, 0x4, 192, 0x1000⟩
  | .CAP_MON_SCTL => ⟨0x350000, 1, 0x4, 4, 0x40⟩
  | .CAP_MON_SBUF => ⟨0x350004, 1, 0x4, 4, 0x40⟩
  | .CAP_MON_STRIG => ⟨0x350008, 1, 0x4, 4, 0x40⟩
  | .CAP_MON_STRIG_MARK => ⟨0x35000C, 1, 0x4, 4, 0x40⟩
  | .CAP_MON_SSTAT => ⟨0x350010, 1, 0x4, 4, 0x40⟩
  | .CAP_MON_SSEQ => ⟨0x350014, 1, 0x4, 4, 0x40⟩
  | .CAP_MON_SGAP => ⟨0x350018, 1, 0x4, 4, 0x40⟩
  | .REC_HEAD => ⟨0x340000, 1, 0x4, 1, 0x1000000⟩
  | .REC_OLDEST => ⟨0x340004, 1, 0x4, 1, 0x1000000⟩
  | .REC_CUR => ⟨0x340008, 1, 0x4, 1, 0x1000000⟩
  | .REC_CTL => ⟨0x34000C, 1, 0x4, 1, 0x1000000⟩
  | .REC_WIN => ⟨0x340020, 8, 0x4, 1, 0x1000000⟩
  | .ID_MEM_CTL => ⟨0x010000, 1, 0x4, 1, 0x1000000⟩
  | .ID_MEM_STAT => ⟨0x010004, 1, 0x4, 1, 0x1000000⟩
  | .ID_ECC_CNT => ⟨0x010008, 1, 0x4, 1, 0x1000000⟩
  | .ID_ECC_ADDR => ⟨0x01000C, 1, 0x4, 1, 0x1000000⟩
  | .ID_MARCH_CTL => ⟨0x010010, 1, 0x4, 1, 0x1000000⟩
  | .ID_MARCH_STAT => ⟨0x010014, 1, 0x4, 1, 0x1000000⟩
  | .ID_MARCH_FAIL => ⟨0x010018, 1, 0x4, 1, 0x1000000⟩
  | .ID_FW_STAT => ⟨0x010020, 1, 0x4, 1, 0x1000000⟩
  | .ID_FW_SVN => ⟨0x010024, 1, 0x4, 1, 0x1000000⟩
  | .ID_SAFE_DOM => ⟨0x010100, 4, 0x4, 1, 0x1000000⟩
  | .ID_SAFE_LIM0 => ⟨0x010110, 1, 0x4, 1, 0x1000000⟩
  | .ID_SAFE_LIM1 => ⟨0x010114, 1, 0x4, 1, 0x1000000⟩
  | .ID_SAFE_FLOOR => ⟨0x010118, 4, 0x4, 1, 0x1000000⟩
  | .ID_SAFE_CRC => ⟨0x010128, 1, 0x4, 1, 0x1000000⟩
  | .ID_RGN => ⟨0x010400, 16, 0x4, 6, 0x40⟩
  | .ID_MBX_CFG => ⟨0x010800, 1, 0x4, 1, 0x1000000⟩
  | .ID_MBX_SUM => ⟨0x010804, 1, 0x4, 1, 0x1000000⟩
  | .ID_MBX_CTL => ⟨0x011000, 1, 0x4, 16, 0x40⟩
  | .ID_MBX_DATA => ⟨0x011004, 15, 0x4, 16, 0x40⟩
  | .ID_BOOT_STAT => ⟨0x010200, 1, 0x4, 1, 0x1000000⟩
  | .ID_RST_CTL => ⟨0x010204, 1, 0x4, 1, 0x1000000⟩
  | .ID_RST_STAT => ⟨0x010208, 1, 0x4, 1, 0x1000000⟩
  | .ID_PWR_CTL => ⟨0x01020C, 1, 0x4, 1, 0x1000000⟩
  | .ID_PWR_STAT => ⟨0x010210, 1, 0x4, 1, 0x1000000⟩
  | .ID_BOOT_ENTRY => ⟨0x010214, 4, 0x4, 1, 0x1000000⟩
  | .ID_FLASH_CTL => ⟨0x010300, 1, 0x4, 1, 0x1000000⟩
  | .ID_FLASH_ADDR => ⟨0x010304, 1, 0x4, 1, 0x1000000⟩
  | .ID_FLASH_MEM => ⟨0x010308, 1, 0x4, 1, 0x1000000⟩
  | .ID_FLASH_LEN => ⟨0x01030C, 1, 0x4, 1, 0x1000000⟩
  | .ID_FLASH_STAT => ⟨0x010310, 1, 0x4, 1, 0x1000000⟩
  | .ID_PMB_CFG => ⟨0x010320, 1, 0x4, 1, 0x1000000⟩
  | .STG_CTL => ⟨0x380000, 1, 0x4, 1, 0x1000000⟩
  | .STG_STAT => ⟨0x380004, 1, 0x4, 1, 0x1000000⟩
  | .STG_SUM => ⟨0x380008, 1, 0x4, 1, 0x1000000⟩
  | .STG_ERR => ⟨0x38000C, 1, 0x4, 1, 0x1000000⟩
  | .STG_DIE_STAT => ⟨0x380100, 1, 0x4, 16, 0x8⟩
  | .STG_DIE_MEAS => ⟨0x380104, 1, 0x4, 16, 0x8⟩
  | .ID_VENDOR => ⟨0x000000, 1, 0x4, 1, 0x1000000⟩
  | .ID_VERSION => ⟨0x000004, 1, 0x4, 1, 0x1000000⟩
  | .ID_HOST => ⟨0x000008, 1, 0x4, 1, 0x1000000⟩
  | .ID_FUSE => ⟨0x00000C, 1, 0x4, 1, 0x1000000⟩
  | .ID_SERIAL => ⟨0x000010, 2, 0x4, 1, 0x1000000⟩
  | .ID_LOCK => ⟨0x000040, 1, 0x4, 1, 0x1000000⟩
  | .ID_LOCK_VIOL => ⟨0x000044, 1, 0x4, 1, 0x1000000⟩
  | .ID_LOCK_ADDR => ⟨0x000048, 1, 0x4, 1, 0x1000000⟩
  | .ID_ERR_CNT => ⟨0x00004C, 1, 0x4, 1, 0x1000000⟩
  | .ID_ERR_ADDR => ⟨0x000050, 1, 0x4, 1, 0x1000000⟩
  | .ID_CAP0 => ⟨0x000020, 1, 0x4, 1, 0x1000000⟩
  | .ID_CAP1 => ⟨0x000024, 1, 0x4, 1, 0x1000000⟩
  | .ID_CAP2 => ⟨0x000028, 1, 0x4, 1, 0x1000000⟩
  | .ID_CAP3 => ⟨0x00002C, 1, 0x4, 1, 0x1000000⟩

/-- One field of a register: its bits [hi:lo], its access code and its reset value by instance. -/
structure Fld where
  reg : Reg
  hi : Nat
  lo : Nat
  acc : Access
  reset : Nat → Nat

/-- The name of one field of one instance, as the state keeps it. -/
structure FKey where
  reg : Reg
  inst : Nat
  lo : Nat
  deriving DecidableEq, Repr

/-- The name of field f of instance i. -/
def Fld.key (f : Fld) (i : Nat) : FKey := ⟨f.reg, i, f.lo⟩

/-- A place in a fixed order of the fields, so that equal register files are equal lists. -/
def FKey.rank (k : FKey) : Nat := (k.reg.ctorIdx * 1048576 + k.inst) * 32 + k.lo

/-- The width of a field in bits. -/
def Fld.width (f : Fld) : Nat := f.hi - f.lo + 1

/-! Reset values that the tables give per domain, per band, per entry or per unit, and those the boot ROM loads from
fuses: the values the manual states for the Stavmor SX (assumption log 2). -/

/-- The domain code of crew c (R36). -/
def domainOf (c : Nat) : Nat := if c % 24 < 18 then 0 else if c % 24 < 22 then 1 else if c % 24 = 22 then 2 else 3

/-- A value per domain of crew c. -/
def perDomain (c vlg vma vlk vmi : Nat) : Nat := [vlg, vma, vlk, vmi].getD (domainOf c) 0

/-- Lower window code of a domain (R29, R428). -/
def windowMin (d : Nat) : Nat := [600, 800, 900, 1300].getD d 0
/-- Upper window code of a domain (R29, R428). -/
def windowMax (d : Nat) : Nat := [1200, 1300, 1300, 1800].getD d 0

/-- KIND of the entry of unit u (R35, R37): 0xF where the boot ROM leaves it unassigned. -/
def descKind (u : Nat) : Nat :=
  if u < 0x600 then 0 else if u < 0x6C0 then 1 else if u < 0x6E0 then 2 else if u < 0x6E8 then 3
  else if u < 0x6EC then 4 else if u = 0x6FF then 5 else 15

/-- PARENT of the entry of unit u (the canonical parent). -/
def descParent (u : Nat) : Nat :=
  if u < 0x600 then 0x600 + u / 8
  else if u < 0x6C0 then 0x6C0 + 4 * ((u - 0x600) / 24) + domainOf (u - 0x600)
  else if u < 0x6E0 then 0x6E0 + (u - 0x6C0) / 4
  else if u < 0x6EC then 0x6FF
  else 0xFFF

/-- FIRST of the entry of unit u (R499). -/
def descFirst (u : Nat) : Nat :=
  if u < 0x600 then 0
  else if u < 0x6C0 then 8 * (u - 0x600)
  else if u < 0x6E0 then 0x600 + 24 * ((u - 0x6C0) / 4) + [0, 18, 22, 23].getD ((u - 0x6C0) % 4) 0
  else if u < 0x6E8 then 0x6C0 + 4 * (u - 0x6E0)
  else if u < 0x6EC then 0x6C0 + (u - 0x6E8)
  else if u = 0x6FF then 0x6E0 else 0

/-- STRIDE of the entry of unit u (R499). -/
def descStride (u : Nat) : Nat :=
  if u < 0x600 then 0 else if u < 0x6E8 then 1 else if u < 0x6EC then 4 else if u = 0x6FF then 1 else 0

/-- COUNT of the entry of unit u (R499). -/
def descCount (u : Nat) : Nat :=
  if u < 0x600 then 0 else if u < 0x6C0 then 8
  else if u < 0x6E0 then [18, 4, 1, 1].getD ((u - 0x6C0) % 4) 0
  else if u < 0x6E8 then 4 else if u < 0x6EC then 8 else if u = 0x6FF then 8 else 0

/-- DEPTH of the entry of unit u (R499). -/
def descDepth (u : Nat) : Nat :=
  if u < 0x600 then 0 else if u < 0x6C0 then 1 else if u < 0x6E0 then 2 else if u < 0x6EC then 3
  else if u = 0x6FF then 4 else 0

/-- Leaf phases of unit u while none is fused or struck. -/
def descPhases (u : Nat) : Nat :=
  if u < 0x600 then 1 else if u < 0x6C0 then 8
  else if u < 0x6E0 then 8 * [18, 4, 1, 1].getD ((u - 0x6C0) % 4) 0
  else if u < 0x6E8 then 192 else if u < 0x6EC then 64 * [18, 4, 1, 1].getD (u - 0x6E8) 0
  else if u = 0x6FF then 1536 else 0

/-- The one domain that unit u feeds, 4 where its window is empty (R31, R32). -/
def descDomain (u : Nat) : Nat :=
  if u < 0x600 then domainOf (u / 8) else if u < 0x6C0 then domainOf (u - 0x600)
  else if u < 0x6E0 then (u - 0x6C0) % 4 else if u < 0x6E8 then 4 else if u < 0x6EC then u - 0x6E8 else 4

/-- The region code within the field of crew c (R27): 0 CW, 1 CE, 2 CM. -/
def regionCode (c : Nat) : Nat := if c % 24 < 9 then 0 else if c % 24 < 18 then 1 else 2

/-- REGION of the entry of unit u. -/
def descRegion (u : Nat) : Nat :=
  if u < 0x600 then regionCode (u / 8) else if u < 0x6C0 then regionCode (u - 0x600) else 3

/-- FIELD_MASK of the entry of unit u. -/
def descFieldMask (u : Nat) : Nat :=
  if u < 0x600 then 2 ^ (u / 192) else if u < 0x6C0 then 2 ^ ((u - 0x600) / 24)
  else if u < 0x6E0 then 2 ^ ((u - 0x6C0) / 4) else if u < 0x6E8 then 2 ^ (u - 0x6E0)
  else if u < 0x6EC then 0xFF else if u = 0x6FF then 0xFF else 0

/-- DOMAIN_MASK of the entry of unit u. -/
def descDomainMask (u : Nat) : Nat :=
  if u < 0x6E0 then 2 ^ descDomain u else if u < 0x6E8 then 0xF else if u < 0x6EC then 2 ^ (u - 0x6E8)
  else if u = 0x6FF then 0xF else 0

/-- MSH_XMAP of region r on the Stavmor SX (R205). -/
def xmapReset (r : Nat) : Nat :=
  let f := r / 3
  let own := 2 ^ (3 * f) + 2 ^ (3 * f + 1) + 2 ^ (3 * f + 2) - 2 ^ r
  if r % 3 = 2 then
    own + (if f % 4 = 0 then 0 else 2 ^ (r - 3)) + (if f % 4 = 3 then 0 else 2 ^ (r + 3))
      + (if f < 4 then 2 ^ (r + 12) else 2 ^ (r - 12))
  else own

/-- The word of a coefficient slot that the boot ROM loads (R133); i counts 256 words per crew, 16 per region. -/
def slotReset (i : Nat) : Nat :=
  let c := i / 256
  let k := (i % 256) / 16
  let pb := k / 4
  let notch := domainOf c = 0
  match i % 16 with
  | 0 => [0x800000, 0xA00000, 0xC00000, 0xE00000, 0x700000, 0x900000, 0xA00000, 0xC00000,
          0x600000, 0x800000, 0x900000, 0xA00000, 0x500000, 0x700000, 0x800000, 0x800000].getD k 0
  | 1 => if pb < 2 then 0xC00000 else 0x800000
  | 2 => [0x2000000, 0x1C00000, 0x1800000, 0x1400000].getD pb 0
  | 3 => 0x800000
  | 4 => if notch then 14806375 else 0x1000000
  | 5 => if notch then 1116110 else 0
  | 6 => if notch then 14806375 else 0
  | 7 => if notch then 1106589 else 0
  | 8 => if notch then 12845056 else 0
  | 9 => 0x1000000
  | 10 => 4 * 2 ^ 5
  | 11 => 7 * 2 ^ 15
  | 12 => 1536
  | 13 => 1600 * 2 ^ 16 + (2 ^ 16 - 1600)
  | _ => 0

/-! The fields. -/

/-- DESC_W0.KIND (R37). -/
def DESC_W0.KIND : Fld := ⟨.DESC_W0, 31, 28, .RW, descKind⟩
/-- DESC_W0.VALID (R37). -/
def DESC_W0.VALID : Fld := ⟨.DESC_W0, 27, 27, .RW, fun u => if descKind u = 15 then 0 else 1⟩
/-- DESC_W0.PARENT (R37). -/
def DESC_W0.PARENT : Fld := ⟨.DESC_W0, 23, 12, .RO, descParent⟩
/-- DESC_W0.UNIT_ID (R37). -/
def DESC_W0.UNIT_ID : Fld := ⟨.DESC_W0, 11, 0, .RO, fun u => u⟩
/-- DESC_W1.LIST (R37). -/
def DESC_W1.LIST : Fld := ⟨.DESC_W1, 31, 31, .RW, fun _ => 0x0⟩
/-- DESC_W1.STRIDE (R37). -/
def DESC_W1.STRIDE : Fld := ⟨.DESC_W1, 27, 24, .RW, descStride⟩
/-- DESC_W1.COUNT (R37). -/
def DESC_W1.COUNT : Fld := ⟨.DESC_W1, 23, 12, .RW, descCount⟩
/-- DESC_W1.FIRST (R37). -/
def DESC_W1.FIRST : Fld := ⟨.DESC_W1, 11, 0, .RW, descFirst⟩
/-- DESC_W2.LIST_PTR (R37). -/
def DESC_W2.LIST_PTR : Fld := ⟨.DESC_W2, 21, 3, .RW, fun _ => 0x00000⟩
/-- DESC_W3.PEAK_RATING (R37). -/
def DESC_W3.PEAK_RATING : Fld := ⟨.DESC_W3, 31, 16, .RO, fun u => 40 * descPhases u⟩
/-- DESC_W3.CONT_RATING (R37). -/
def DESC_W3.CONT_RATING : Fld := ⟨.DESC_W3, 15, 0, .RO, fun u => 28 * descPhases u⟩
/-- DESC_W4.WIN_EMPTY (R37). -/
def DESC_W4.WIN_EMPTY : Fld := ⟨.DESC_W4, 24, 24, .RO, fun u => if descDomain u = 4 then 1 else 0⟩
/-- DESC_W4.VMAX_CODE (R37). -/
def DESC_W4.VMAX_CODE : Fld := ⟨.DESC_W4, 23, 12, .RO, fun u => if descDomain u = 4 then 0 else windowMax (descDomain u)⟩
/-- DESC_W4.VMIN_CODE (R37). -/
def DESC_W4.VMIN_CODE : Fld := ⟨.DESC_W4, 11, 0, .RO, fun u => if descDomain u = 4 then 0 else windowMin (descDomain u)⟩
/-- DESC_W5.REGION (R37). -/
def DESC_W5.REGION : Fld := ⟨.DESC_W5, 29, 28, .RO, descRegion⟩
/-- DESC_W5.FIELD_MASK (R37). -/
def DESC_W5.FIELD_MASK : Fld := ⟨.DESC_W5, 27, 20, .RO, descFieldMask⟩
/-- DESC_W5.DOMAIN_MASK (R37). -/
def DESC_W5.DOMAIN_MASK : Fld := ⟨.DESC_W5, 19, 16, .RO, descDomainMask⟩
/-- DESC_W5.STRUCK (R37). -/
def DESC_W5.STRUCK : Fld := ⟨.DESC_W5, 12, 12, .RO, fun _ => 0x0⟩
/-- DESC_W5.FUSED (R37). -/
def DESC_W5.FUSED : Fld := ⟨.DESC_W5, 11, 11, .RO, fun _ => 0x0⟩
/-- DESC_W5.ACTIVE_PHASES (R37). -/
def DESC_W5.ACTIVE_PHASES : Fld := ⟨.DESC_W5, 10, 0, .RO, descPhases⟩
/-- DESC_W6.GEN (R37). -/
def DESC_W6.GEN : Fld := ⟨.DESC_W6, 31, 16, .RO, fun _ => 0x0000⟩
/-- DESC_W6.STATUS (R37). -/
def DESC_W6.STATUS : Fld := ⟨.DESC_W6, 15, 8, .RO, fun _ => 0x00⟩
/-- DESC_W6.GRANTED (R37). -/
def DESC_W6.GRANTED : Fld := ⟨.DESC_W6, 3, 3, .RO, fun _ => 0x0⟩
/-- DESC_W6.LANE (R37). -/
def DESC_W6.LANE : Fld := ⟨.DESC_W6, 2, 0, .RO, fun _ => 0x0⟩
/-- DESC_W7.GROUP_REFS (R37). -/
def DESC_W7.GROUP_REFS : Fld := ⟨.DESC_W7, 28, 20, .RO, fun _ => 0x000⟩
/-- DESC_W7.DEPTH (R37). -/
def DESC_W7.DEPTH : Fld := ⟨.DESC_W7, 19, 16, .RO, descDepth⟩
/-- DESC_W7.PROG_REFS (R37). -/
def DESC_W7.PROG_REFS : Fld := ⟨.DESC_W7, 7, 0, .RO, fun _ => 0x00⟩
/-- ID_UOP_LO.IMM32 (R50). -/
def ID_UOP_LO.IMM32 : Fld := ⟨.ID_UOP_LO, 31, 0, .RW, fun _ => 0x00000000⟩
/-- ID_UOP_HI.OPCODE (R50). -/
def ID_UOP_HI.OPCODE : Fld := ⟨.ID_UOP_HI, 31, 24, .RW, fun _ => 0x00⟩
/-- ID_UOP_HI.PRED (R50). -/
def ID_UOP_HI.PRED : Fld := ⟨.ID_UOP_HI, 23, 20, .RW, fun _ => 0x0⟩
/-- ID_UOP_HI.UNIT (R50). -/
def ID_UOP_HI.UNIT : Fld := ⟨.ID_UOP_HI, 19, 8, .RW, fun _ => 0x000⟩
/-- ID_UOP_HI.RD (R50). -/
def ID_UOP_HI.RD : Fld := ⟨.ID_UOP_HI, 7, 4, .RW, fun _ => 0x0⟩
/-- ID_UOP_HI.RS (R50). -/
def ID_UOP_HI.RS : Fld := ⟨.ID_UOP_HI, 3, 0, .RW, fun _ => 0x0⟩
/-- ID_UOP_CTL.GO (R50). -/
def ID_UOP_CTL.GO : Fld := ⟨.ID_UOP_CTL, 0, 0, .WO, fun _ => 0x0⟩
/-- ID_UOP_STAT.BUSY (R50). -/
def ID_UOP_STAT.BUSY : Fld := ⟨.ID_UOP_STAT, 31, 31, .RO, fun _ => 0x0⟩
/-- ID_UOP_STAT.RESULT (R50). -/
def ID_UOP_STAT.RESULT : Fld := ⟨.ID_UOP_STAT, 30, 28, .RO, fun _ => 0x0⟩
/-- ID_UOP_STAT.ISSUED (R50). -/
def ID_UOP_STAT.ISSUED : Fld := ⟨.ID_UOP_STAT, 15, 0, .RC, fun _ => 0x0000⟩
/-- CREW_MOD_CTL.K_ON (R88). -/
def CREW_MOD_CTL.K_ON : Fld := ⟨.CREW_MOD_CTL, 27, 16, .RWL, fun _ => 914⟩
/-- CREW_MOD_CTL.RIPPLE (R88). -/
def CREW_MOD_CTL.RIPPLE : Fld := ⟨.CREW_MOD_CTL, 14, 12, .RW, fun c => perDomain c 2 3 5 5⟩
/-- CREW_MOD_CTL.DITHER_DEPTH (R88). -/
def CREW_MOD_CTL.DITHER_DEPTH : Fld := ⟨.CREW_MOD_CTL, 11, 10, .RW, fun _ => 0x3⟩
/-- CREW_MOD_CTL.BAL_EN (R88). -/
def CREW_MOD_CTL.BAL_EN : Fld := ⟨.CREW_MOD_CTL, 9, 9, .RW, fun _ => 0x1⟩
/-- CREW_RING_CTL.ROT_EN (R88). -/
def CREW_RING_CTL.ROT_EN : Fld := ⟨.CREW_RING_CTL, 12, 12, .RW, fun _ => 0x1⟩
/-- CREW_RING_CTL.STROKE_OD (R88). -/
def CREW_RING_CTL.STROKE_OD : Fld := ⟨.CREW_RING_CTL, 11, 8, .RW, fun _ => 0x5⟩
/-- CREW_RING_CTL.SPACING (R88). -/
def CREW_RING_CTL.SPACING : Fld := ⟨.CREW_RING_CTL, 3, 0, .RW, fun _ => 0x4⟩
/-- CREW_RING_STAT.ACTIVE_MASK (R88). -/
def CREW_RING_STAT.ACTIVE_MASK : Fld := ⟨.CREW_RING_STAT, 23, 16, .RO, fun _ => 0x00⟩
/-- CREW_RING_STAT.ACTIVE_COUNT (R88). -/
def CREW_RING_STAT.ACTIVE_COUNT : Fld := ⟨.CREW_RING_STAT, 15, 12, .RO, fun _ => 0x0⟩
/-- CREW_RING_STAT.HOLD (R88). -/
def CREW_RING_STAT.HOLD : Fld := ⟨.CREW_RING_STAT, 9, 9, .RO, fun _ => 0x0⟩
/-- CREW_RING_STAT.STEP_EVENT (R88). -/
def CREW_RING_STAT.STEP_EVENT : Fld := ⟨.CREW_RING_STAT, 8, 8, .RO, fun _ => 0x0⟩
/-- CREW_RING_STAT.STROKE (R88). -/
def CREW_RING_STAT.STROKE : Fld := ⟨.CREW_RING_STAT, 6, 4, .RO, fun _ => 0x0⟩
/-- CREW_RING_STAT.POINTER (R88). -/
def CREW_RING_STAT.POINTER : Fld := ⟨.CREW_RING_STAT, 2, 0, .RO, fun _ => 0x0⟩
/-- CREW_STEP_CNT.STEPS (R88). -/
def CREW_STEP_CNT.STEPS : Fld := ⟨.CREW_STEP_CNT, 31, 0, .RC, fun _ => 0x00000000⟩
/-- CREW_HOLD_CNT.HOLDS (R88). -/
def CREW_HOLD_CNT.HOLDS : Fld := ⟨.CREW_HOLD_CNT, 31, 0, .RC, fun _ => 0x00000000⟩
/-- CREW_FSC_CTL.TRIP_MAX (R88). -/
def CREW_FSC_CTL.TRIP_MAX : Fld := ⟨.CREW_FSC_CTL, 15, 11, .RW, fun _ => 0x10⟩
/-- CREW_FSC_CTL.BLANK (R88). -/
def CREW_FSC_CTL.BLANK : Fld := ⟨.CREW_FSC_CTL, 10, 8, .RW, fun _ => 0x1⟩
/-- CREW_FSC_CTL.LIMIT (R88). -/
def CREW_FSC_CTL.LIMIT : Fld := ⟨.CREW_FSC_CTL, 6, 0, .RWL, fun _ => 0x3C⟩
/-- CREW_DEAD_CTL.NC_MAX (R88). -/
def CREW_DEAD_CTL.NC_MAX : Fld := ⟨.CREW_DEAD_CTL, 15, 8, .RW, fun _ => 0x20⟩
/-- CREW_OVL_CTL.FOLD_LEVEL (R88). -/
def CREW_OVL_CTL.FOLD_LEVEL : Fld := ⟨.CREW_OVL_CTL, 2, 0, .RW, fun _ => 0x5⟩
/-- CREW_OVL_STAT.FOLD_OFFSET (R88). -/
def CREW_OVL_STAT.FOLD_OFFSET : Fld := ⟨.CREW_OVL_STAT, 31, 16, .RO, fun _ => 0x0000⟩
/-- CREW_OVL_STAT.FLOOR (R88). -/
def CREW_OVL_STAT.FLOOR : Fld := ⟨.CREW_OVL_STAT, 1, 1, .RO, fun _ => 0x0⟩
/-- CREW_OVL_STAT.FOLD (R88). -/
def CREW_OVL_STAT.FOLD : Fld := ⟨.CREW_OVL_STAT, 0, 0, .RO, fun _ => 0x0⟩
/-- CREW_OVL_FILT.FILT_MA (R88). -/
def CREW_OVL_FILT.FILT_MA : Fld := ⟨.CREW_OVL_FILT, 31, 0, .RO, fun _ => 0x00000000⟩
/-- CREW_OVL_CNT.FOLDS (R88). -/
def CREW_OVL_CNT.FOLDS : Fld := ⟨.CREW_OVL_CNT, 31, 0, .RC, fun _ => 0x00000000⟩
/-- CREW_PH_STATE.STICKY (R88). -/
def CREW_PH_STATE.STICKY : Fld := ⟨.CREW_PH_STATE, 31, 24, .RO, fun _ => 0x00⟩
/-- CREW_PH_STATE.STRUCK (R88). -/
def CREW_PH_STATE.STRUCK : Fld := ⟨.CREW_PH_STATE, 23, 16, .RO, fun _ => 0x00⟩
/-- CREW_PH_STATE.FUSED (R88). -/
def CREW_PH_STATE.FUSED : Fld := ⟨.CREW_PH_STATE, 15, 8, .RO, fun _ => 0⟩
/-- CREW_PH_STATE.BLANKED (R88). -/
def CREW_PH_STATE.BLANKED : Fld := ⟨.CREW_PH_STATE, 7, 0, .RO, fun _ => 0x00⟩
/-- CREW_PH_CAUSE.OT_LIVE (R88). -/
def CREW_PH_CAUSE.OT_LIVE : Fld := ⟨.CREW_PH_CAUSE, 23, 16, .RO, fun _ => 0x00⟩
/-- CREW_PH_CAUSE.CAUSE (R88). -/
def CREW_PH_CAUSE.CAUSE : Fld := ⟨.CREW_PH_CAUSE, 15, 0, .RO, fun _ => 0x0000⟩
/-- CREW_PH_RESTORE.RESTORE (R88). -/
def CREW_PH_RESTORE.RESTORE : Fld := ⟨.CREW_PH_RESTORE, 7, 0, .WO, fun _ => 0x00⟩
/-- CREW_PH_RESTORE_STAT.RESULT (R88). -/
def CREW_PH_RESTORE_STAT.RESULT : Fld := ⟨.CREW_PH_RESTORE_STAT, 15, 0, .RO, fun _ => 0x0000⟩
/-- CREW_DITHER_SEED.SEED (R88). -/
def CREW_DITHER_SEED.SEED : Fld := ⟨.CREW_DITHER_SEED, 14, 0, .RW, fun c => 0x1000 + c⟩
/-- CREW_GATE_TB.SLEW (R88). -/
def CREW_GATE_TB.SLEW : Fld := ⟨.CREW_GATE_TB, 26, 24, .RW, fun i => [4, 4, 3, 3, 3, 2].getD (i % 6) 0⟩
/-- CREW_GATE_TB.DT_F (R88). -/
def CREW_GATE_TB.DT_F : Fld := ⟨.CREW_GATE_TB, 21, 16, .RW, fun i => [10, 9, 8, 8, 9, 11].getD (i % 6) 0⟩
/-- CREW_GATE_TB.DT_R (R88). -/
def CREW_GATE_TB.DT_R : Fld := ⟨.CREW_GATE_TB, 13, 8, .RW, fun i => [12, 11, 10, 10, 11, 13].getD (i % 6) 0⟩
/-- CREW_GATE_TB.LS_DRV (R88). -/
def CREW_GATE_TB.LS_DRV : Fld := ⟨.CREW_GATE_TB, 7, 4, .RW, fun i => [10, 11, 12, 13, 14, 15].getD (i % 6) 0⟩
/-- CREW_GATE_TB.HS_DRV (R88). -/
def CREW_GATE_TB.HS_DRV : Fld := ⟨.CREW_GATE_TB, 3, 0, .RW, fun i => [9, 10, 11, 12, 13, 15].getD (i % 6) 0⟩
/-- CREW_GATE_SEL.BAND (R88). -/
def CREW_GATE_SEL.BAND : Fld := ⟨.CREW_GATE_SEL, 2, 0, .RO, fun _ => 0x0⟩
/-- CREW_PH_TRIM.TRIM (R88). -/
def CREW_PH_TRIM.TRIM : Fld := ⟨.CREW_PH_TRIM, 31, 0, .RO, fun _ => 0x00000000⟩
/-- CREW_PH_CNT.FSC_TRIPS (R88). -/
def CREW_PH_CNT.FSC_TRIPS : Fld := ⟨.CREW_PH_CNT, 31, 16, .RC, fun _ => 0x0000⟩
/-- CREW_PH_CNT.NC_RUN (R88). -/
def CREW_PH_CNT.NC_RUN : Fld := ⟨.CREW_PH_CNT, 15, 8, .RO, fun _ => 0x00⟩
/-- CREW_AB_CTL.PHASE (R117). -/
def CREW_AB_CTL.PHASE : Fld := ⟨.CREW_AB_CTL, 7, 5, .RW, fun _ => 0x0⟩
/-- CREW_AB_CTL.B_SEL (R117). -/
def CREW_AB_CTL.B_SEL : Fld := ⟨.CREW_AB_CTL, 4, 3, .RW, fun _ => 0x0⟩
/-- CREW_AB_CTL.A_SEL (R117). -/
def CREW_AB_CTL.A_SEL : Fld := ⟨.CREW_AB_CTL, 2, 1, .RW, fun _ => 0x0⟩
/-- CREW_AB_CTL.MODE (R117). -/
def CREW_AB_CTL.MODE : Fld := ⟨.CREW_AB_CTL, 0, 0, .RW, fun _ => 0x0⟩
/-- CREW_AB_STAT.TRIG_DROPS (R117). -/
def CREW_AB_STAT.TRIG_DROPS : Fld := ⟨.CREW_AB_STAT, 15, 8, .RC, fun _ => 0x00⟩
/-- CREW_AB_STAT.SENSE (R117). -/
def CREW_AB_STAT.SENSE : Fld := ⟨.CREW_AB_STAT, 4, 4, .RO, fun _ => 0x0⟩
/-- CREW_AB_STAT.MODE_REFUSED (R117). -/
def CREW_AB_STAT.MODE_REFUSED : Fld := ⟨.CREW_AB_STAT, 3, 3, .W1C, fun _ => 0x0⟩
/-- CREW_AB_STAT.B_OVR (R117). -/
def CREW_AB_STAT.B_OVR : Fld := ⟨.CREW_AB_STAT, 2, 2, .W1C, fun _ => 0x0⟩
/-- CREW_AB_STAT.A_OVR (R117). -/
def CREW_AB_STAT.A_OVR : Fld := ⟨.CREW_AB_STAT, 1, 1, .W1C, fun _ => 0x0⟩
/-- CREW_AB_STAT.MODE_ACT (R117). -/
def CREW_AB_STAT.MODE_ACT : Fld := ⟨.CREW_AB_STAT, 0, 0, .RO, fun _ => 0x0⟩
/-- CREW_AB.NEW (R117). -/
def CREW_AB.NEW : Fld := ⟨.CREW_AB, 31, 31, .RO, fun _ => 0x0⟩
/-- CREW_AB.OVR (R117). -/
def CREW_AB.OVR : Fld := ⟨.CREW_AB, 30, 30, .RO, fun _ => 0x0⟩
/-- CREW_AB.INPUT (R117). -/
def CREW_AB.INPUT : Fld := ⟨.CREW_AB, 29, 28, .RO, fun _ => 0x0⟩
/-- CREW_AB.MODE (R117). -/
def CREW_AB.MODE : Fld := ⟨.CREW_AB, 27, 27, .RO, fun _ => 0x0⟩
/-- CREW_AB.SAMPLE (R117). -/
def CREW_AB.SAMPLE : Fld := ⟨.CREW_AB, 15, 0, .RO, fun _ => 0x0000⟩
/-- CREW_AB_TRIG.FIRE (R117). -/
def CREW_AB_TRIG.FIRE : Fld := ⟨.CREW_AB_TRIG, 16, 16, .WO, fun _ => 0x0⟩
/-- CREW_AB_TRIG.DELAY (R117). -/
def CREW_AB_TRIG.DELAY : Fld := ⟨.CREW_AB_TRIG, 15, 8, .RW, fun _ => 0x00⟩
/-- CREW_AB_TRIG.PDIV (R117). -/
def CREW_AB_TRIG.PDIV : Fld := ⟨.CREW_AB_TRIG, 5, 2, .RW, fun _ => 0x0⟩
/-- CREW_AB_TRIG.SRC (R117). -/
def CREW_AB_TRIG.SRC : Fld := ⟨.CREW_AB_TRIG, 1, 0, .RW, fun _ => 0x0⟩
/-- CREW_AB_TRIM.SKEW (R117). -/
def CREW_AB_TRIM.SKEW : Fld := ⟨.CREW_AB_TRIM, 31, 26, .RW, fun _ => 0⟩
/-- CREW_AB_TRIM.B_GAIN (R117). -/
def CREW_AB_TRIM.B_GAIN : Fld := ⟨.CREW_AB_TRIM, 25, 20, .RW, fun _ => 0⟩
/-- CREW_AB_TRIM.A_GAIN (R117). -/
def CREW_AB_TRIM.A_GAIN : Fld := ⟨.CREW_AB_TRIM, 19, 14, .RW, fun _ => 0⟩
/-- CREW_AB_TRIM.B_OFS (R117). -/
def CREW_AB_TRIM.B_OFS : Fld := ⟨.CREW_AB_TRIM, 13, 7, .RW, fun _ => 0⟩
/-- CREW_AB_TRIM.A_OFS (R117). -/
def CREW_AB_TRIM.A_OFS : Fld := ⟨.CREW_AB_TRIM, 6, 0, .RW, fun _ => 0⟩
/-- CREW_AB_OVR_CNT.B_OVRS (R117). -/
def CREW_AB_OVR_CNT.B_OVRS : Fld := ⟨.CREW_AB_OVR_CNT, 31, 16, .RC, fun _ => 0x0000⟩
/-- CREW_AB_OVR_CNT.A_OVRS (R117). -/
def CREW_AB_OVR_CNT.A_OVRS : Fld := ⟨.CREW_AB_OVR_CNT, 15, 0, .RC, fun _ => 0x0000⟩
/-- CREW_H_CTL.GAIN (R117). -/
def CREW_H_CTL.GAIN : Fld := ⟨.CREW_H_CTL, 21, 20, .RW, fun _ => 0x0⟩
/-- CREW_H_CTL.STIME (R117). -/
def CREW_H_CTL.STIME : Fld := ⟨.CREW_H_CTL, 19, 14, .RW, fun _ => 0x00⟩
/-- CREW_H_CTL.CH (R117). -/
def CREW_H_CTL.CH : Fld := ⟨.CREW_H_CTL, 13, 9, .RW, fun _ => 0x08⟩
/-- CREW_H_CTL.ALIGN (R117). -/
def CREW_H_CTL.ALIGN : Fld := ⟨.CREW_H_CTL, 8, 8, .RW, fun _ => 0x0⟩
/-- CREW_H_CTL.SEQ_LEN (R117). -/
def CREW_H_CTL.SEQ_LEN : Fld := ⟨.CREW_H_CTL, 7, 4, .RW, fun _ => 0xF⟩
/-- CREW_H_CTL.MODE (R117). -/
def CREW_H_CTL.MODE : Fld := ⟨.CREW_H_CTL, 0, 0, .RW, fun _ => 0x0⟩
/-- CREW_H_STAT.ENTRY (R117). -/
def CREW_H_STAT.ENTRY : Fld := ⟨.CREW_H_STAT, 19, 16, .RO, fun _ => 0x0⟩
/-- CREW_H_STAT.URG_BUSY (R117). -/
def CREW_H_STAT.URG_BUSY : Fld := ⟨.CREW_H_STAT, 15, 15, .RO, fun _ => 0x0⟩
/-- CREW_H_STAT.REF_SETTLED (R117). -/
def CREW_H_STAT.REF_SETTLED : Fld := ⟨.CREW_H_STAT, 14, 14, .RO, fun _ => 0x0⟩
/-- CREW_H_STAT.MODE_REFUSED (R117). -/
def CREW_H_STAT.MODE_REFUSED : Fld := ⟨.CREW_H_STAT, 13, 13, .W1C, fun _ => 0x0⟩
/-- CREW_H_STAT.REF_FAIL (R117). -/
def CREW_H_STAT.REF_FAIL : Fld := ⟨.CREW_H_STAT, 12, 12, .W1C, fun _ => 0x0⟩
/-- CREW_H_STAT.PREEMPTS (R117). -/
def CREW_H_STAT.PREEMPTS : Fld := ⟨.CREW_H_STAT, 7, 0, .RC, fun _ => 0x00⟩
/-- CREW_H_REF.REF_SEL (R117). -/
def CREW_H_REF.REF_SEL : Fld := ⟨.CREW_H_REF, 1, 0, .RW, fun _ => 0x0⟩
/-- CREW_OW_CTL.CONFIRM (R117). -/
def CREW_OW_CTL.CONFIRM : Fld := ⟨.CREW_OW_CTL, 2, 2, .WO, fun _ => 0x0⟩
/-- CREW_OW_CTL.RETRY (R117). -/
def CREW_OW_CTL.RETRY : Fld := ⟨.CREW_OW_CTL, 1, 1, .WO, fun _ => 0x0⟩
/-- CREW_OW_CTL.BG_EN (R117). -/
def CREW_OW_CTL.BG_EN : Fld := ⟨.CREW_OW_CTL, 0, 0, .RW, fun _ => 0x1⟩
/-- CREW_OW_STAT.DV_NEG (R117). -/
def CREW_OW_STAT.DV_NEG : Fld := ⟨.CREW_OW_STAT, 23, 16, .RO, fun _ => 0x00⟩
/-- CREW_OW_STAT.DV_POS (R117). -/
def CREW_OW_STAT.DV_POS : Fld := ⟨.CREW_OW_STAT, 15, 8, .RO, fun _ => 0x00⟩
/-- CREW_OW_STAT.SUSPECT (R117). -/
def CREW_OW_STAT.SUSPECT : Fld := ⟨.CREW_OW_STAT, 3, 3, .RO, fun _ => 0x0⟩
/-- CREW_OW_STAT.CONFIRM_RUN (R117). -/
def CREW_OW_STAT.CONFIRM_RUN : Fld := ⟨.CREW_OW_STAT, 2, 2, .RO, fun _ => 0x0⟩
/-- CREW_OW_STAT.OPEN_NEG (R117). -/
def CREW_OW_STAT.OPEN_NEG : Fld := ⟨.CREW_OW_STAT, 1, 1, .RO, fun _ => 0x0⟩
/-- CREW_OW_STAT.OPEN_POS (R117). -/
def CREW_OW_STAT.OPEN_POS : Fld := ⟨.CREW_OW_STAT, 0, 0, .RO, fun _ => 0x0⟩
/-- CREW_H_GTRIM0.TB0_3 (R117). -/
def CREW_H_GTRIM0.TB0_3 : Fld := ⟨.CREW_H_GTRIM0, 31, 0, .RW, fun _ => 0⟩
/-- CREW_H_GTRIM1.TB4_5 (R117). -/
def CREW_H_GTRIM1.TB4_5 : Fld := ⟨.CREW_H_GTRIM1, 15, 0, .RW, fun _ => 0⟩
/-- CREW_H_SEQ.GAIN (R117). -/
def CREW_H_SEQ.GAIN : Fld := ⟨.CREW_H_SEQ, 12, 11, .RW, fun _ => 0⟩
/-- CREW_H_SEQ.STIME (R117). -/
def CREW_H_SEQ.STIME : Fld := ⟨.CREW_H_SEQ, 10, 5, .RW, fun i => [1, 0, 3, 0, 1, 0, 15, 0, 1, 0, 7, 0, 1, 0, 3, 0].getD (i % 16) 0⟩
/-- CREW_H_SEQ.CH (R117). -/
def CREW_H_SEQ.CH : Fld := ⟨.CREW_H_SEQ, 4, 0, .RW, fun i => [16, 8, 9, 8, 16, 8, 10, 8, 16, 8, 17, 8, 16, 8, 9, 8].getD (i % 16) 0⟩
/-- CREW_H_RES.VALID (R117). -/
def CREW_H_RES.VALID : Fld := ⟨.CREW_H_RES, 31, 31, .RO, fun _ => 0x0⟩
/-- CREW_H_RES.SAT (R117). -/
def CREW_H_RES.SAT : Fld := ⟨.CREW_H_RES, 30, 30, .RO, fun _ => 0x0⟩
/-- CREW_H_RES.UNSETTLED (R117). -/
def CREW_H_RES.UNSETTLED : Fld := ⟨.CREW_H_RES, 29, 29, .RO, fun _ => 0x0⟩
/-- CREW_H_RES.URGENT (R117). -/
def CREW_H_RES.URGENT : Fld := ⟨.CREW_H_RES, 28, 28, .RO, fun _ => 0x0⟩
/-- CREW_H_RES.GAIN (R117). -/
def CREW_H_RES.GAIN : Fld := ⟨.CREW_H_RES, 27, 26, .RO, fun _ => 0x0⟩
/-- CREW_H_RES.COUNT (R117). -/
def CREW_H_RES.COUNT : Fld := ⟨.CREW_H_RES, 23, 16, .RO, fun _ => 0x00⟩
/-- CREW_H_RES.RESULT (R117). -/
def CREW_H_RES.RESULT : Fld := ⟨.CREW_H_RES, 15, 0, .RO, fun _ => 0x0000⟩
/-- CREW_DP_CTL.WARN_TH (R145). -/
def CREW_DP_CTL.WARN_TH : Fld := ⟨.CREW_DP_CTL, 31, 24, .RW, fun _ => 0x34⟩
/-- CREW_DP_CTL.IFILT_K (R145). -/
def CREW_DP_CTL.IFILT_K : Fld := ⟨.CREW_DP_CTL, 19, 16, .RW, fun _ => 0x3⟩
/-- CREW_DP_CTL.RESUME (R145). -/
def CREW_DP_CTL.RESUME : Fld := ⟨.CREW_DP_CTL, 0, 0, .WO, fun _ => 0x0⟩
/-- CREW_DP_STAT.LAW (R145). -/
def CREW_DP_STAT.LAW : Fld := ⟨.CREW_DP_STAT, 31, 31, .RO, fun _ => 0x0⟩
/-- CREW_DP_STAT.COMMIT_PEND (R145). -/
def CREW_DP_STAT.COMMIT_PEND : Fld := ⟨.CREW_DP_STAT, 30, 30, .RO, fun _ => 0x0⟩
/-- CREW_DP_STAT.RESUME_STAT (R145). -/
def CREW_DP_STAT.RESUME_STAT : Fld := ⟨.CREW_DP_STAT, 29, 28, .RO, fun _ => 0x0⟩
/-- CREW_DP_STAT.AUTO_REGION (R145). -/
def CREW_DP_STAT.AUTO_REGION : Fld := ⟨.CREW_DP_STAT, 19, 16, .RO, fun _ => 0x0⟩
/-- CREW_DP_STAT.REGION (R145). -/
def CREW_DP_STAT.REGION : Fld := ⟨.CREW_DP_STAT, 15, 12, .RO, fun _ => 0x0⟩
/-- CREW_DP_STAT.PB (R145). -/
def CREW_DP_STAT.PB : Fld := ⟨.CREW_DP_STAT, 11, 10, .RO, fun _ => 0x0⟩
/-- CREW_DP_STAT.CB (R145). -/
def CREW_DP_STAT.CB : Fld := ⟨.CREW_DP_STAT, 9, 8, .RO, fun _ => 0x0⟩
/-- CREW_DP_STAT.MISS_RUN (R145). -/
def CREW_DP_STAT.MISS_RUN : Fld := ⟨.CREW_DP_STAT, 1, 0, .RO, fun _ => 0x0⟩
/-- CREW_DP_GS.FORCE (R145). -/
def CREW_DP_GS.FORCE : Fld := ⟨.CREW_DP_GS, 4, 4, .RO, fun _ => 0x0⟩
/-- CREW_DP_GS.FORCE_REGION (R145). -/
def CREW_DP_GS.FORCE_REGION : Fld := ⟨.CREW_DP_GS, 3, 0, .RO, fun _ => 0x0⟩
/-- CREW_DP_EDGES.E3 (R145). -/
def CREW_DP_EDGES.E3 : Fld := ⟨.CREW_DP_EDGES, 23, 16, .RW, fun _ => 0xA8⟩
/-- CREW_DP_EDGES.E2 (R145). -/
def CREW_DP_EDGES.E2 : Fld := ⟨.CREW_DP_EDGES, 15, 8, .RW, fun _ => 0x70⟩
/-- CREW_DP_EDGES.E1 (R145). -/
def CREW_DP_EDGES.E1 : Fld := ⟨.CREW_DP_EDGES, 7, 0, .RW, fun _ => 0x38⟩
/-- CREW_DP_COMMIT.MASK (R145). -/
def CREW_DP_COMMIT.MASK : Fld := ⟨.CREW_DP_COMMIT, 15, 0, .WO, fun _ => 0x0000⟩
/-- CREW_DP_COMMIT_ERR.ERR (R145). -/
def CREW_DP_COMMIT_ERR.ERR : Fld := ⟨.CREW_DP_COMMIT_ERR, 15, 0, .W1C, fun _ => 0x0000⟩
/-- CREW_DP_LLS.LLS (R145). -/
def CREW_DP_LLS.LLS : Fld := ⟨.CREW_DP_LLS, 9, 0, .RO, fun _ => 0x000⟩
/-- CREW_DP_TRIM.TRIM (R145). -/
def CREW_DP_TRIM.TRIM : Fld := ⟨.CREW_DP_TRIM, 11, 0, .RO, fun _ => 0x000⟩
/-- CREW_DP_IFILT.I_F (R145). -/
def CREW_DP_IFILT.I_F : Fld := ⟨.CREW_DP_IFILT, 31, 0, .RO, fun _ => 0x00000000⟩
/-- CREW_DP_OUT.U (R145). -/
def CREW_DP_OUT.U : Fld := ⟨.CREW_DP_OUT, 15, 0, .RO, fun _ => 0x0000⟩
/-- CREW_DP_IINIT.IINIT (R145). -/
def CREW_DP_IINIT.IINIT : Fld := ⟨.CREW_DP_IINIT, 15, 0, .RW, fun _ => 0x0000⟩
/-- CREW_DP_MISS_CNT.MISSES (R145). -/
def CREW_DP_MISS_CNT.MISSES : Fld := ⟨.CREW_DP_MISS_CNT, 31, 0, .RC, fun _ => 0x00000000⟩
/-- CREW_DP_MISS_WIN.WIN (R145). -/
def CREW_DP_MISS_WIN.WIN : Fld := ⟨.CREW_DP_MISS_WIN, 16, 0, .RO, fun _ => 0x00000⟩
/-- CREW_DP_TIME.TMAX (R145). -/
def CREW_DP_TIME.TMAX : Fld := ⟨.CREW_DP_TIME, 31, 24, .RC, fun _ => 0x00⟩
/-- CREW_DP_TIME.TLAST (R145). -/
def CREW_DP_TIME.TLAST : Fld := ⟨.CREW_DP_TIME, 23, 16, .RO, fun _ => 0x00⟩
/-- CREW_DP_TIME.SLOW_CNT (R145). -/
def CREW_DP_TIME.SLOW_CNT : Fld := ⟨.CREW_DP_TIME, 15, 0, .RC, fun _ => 0x0000⟩
/-- CREW_DP_FALLBACKS.SHADOW_LATE (R145). -/
def CREW_DP_FALLBACKS.SHADOW_LATE : Fld := ⟨.CREW_DP_FALLBACKS, 31, 16, .RC, fun _ => 0x0000⟩
/-- CREW_DP_FALLBACKS.FB_ENTRIES (R145). -/
def CREW_DP_FALLBACKS.FB_ENTRIES : Fld := ⟨.CREW_DP_FALLBACKS, 15, 0, .RC, fun _ => 0x0000⟩
/-- CREW_SP_STAT.TARGET (R145). -/
def CREW_SP_STAT.TARGET : Fld := ⟨.CREW_SP_STAT, 31, 20, .RO, fun c => perDomain c 840 1000 1100 1600⟩
/-- CREW_SP_STAT.SLEW (R145). -/
def CREW_SP_STAT.SLEW : Fld := ⟨.CREW_SP_STAT, 19, 8, .RO, fun _ => 0x190⟩
/-- CREW_SP_STAT.SLEWING (R145). -/
def CREW_SP_STAT.SLEWING : Fld := ⟨.CREW_SP_STAT, 7, 7, .RO, fun _ => 0x0⟩
/-- CREW_SP_STAT.DIR (R145). -/
def CREW_SP_STAT.DIR : Fld := ⟨.CREW_SP_STAT, 6, 6, .RO, fun _ => 0x0⟩
/-- CREW_SP_STAT.OPEN_OFS (R145). -/
def CREW_SP_STAT.OPEN_OFS : Fld := ⟨.CREW_SP_STAT, 5, 5, .RO, fun _ => 0x0⟩
/-- CREW_SP_REF.REF (R145). -/
def CREW_SP_REF.REF : Fld := ⟨.CREW_SP_REF, 31, 0, .RO, fun _ => 0x00000000⟩
/-- CREW_SP_SEQ.ACCEPTED (R145). -/
def CREW_SP_SEQ.ACCEPTED : Fld := ⟨.CREW_SP_SEQ, 15, 8, .RO, fun _ => 0x00⟩
/-- CREW_SP_SEQ.DONE_SEQ (R145). -/
def CREW_SP_SEQ.DONE_SEQ : Fld := ⟨.CREW_SP_SEQ, 7, 0, .RO, fun _ => 0x00⟩
/-- CREW_SP_SUP_CNT.SUPERSEDED (R145). -/
def CREW_SP_SUP_CNT.SUPERSEDED : Fld := ⟨.CREW_SP_SUP_CNT, 31, 0, .RC, fun _ => 0x00000000⟩
/-- SLOT_SHADOW.W (R127). -/
def SLOT_SHADOW.W : Fld := ⟨.SLOT_SHADOW, 31, 0, .RW, slotReset⟩
/-- SLOT_ACTIVE.W (R127). -/
def SLOT_ACTIVE.W : Fld := ⟨.SLOT_ACTIVE, 31, 0, .RO, slotReset⟩
/-- CREW_SH_CTL.AT_LIM (R175). -/
def CREW_SH_CTL.AT_LIM : Fld := ⟨.CREW_SH_CTL, 31, 31, .RO, fun _ => 0x0⟩
/-- CREW_SH_CTL.PART (R175). -/
def CREW_SH_CTL.PART : Fld := ⟨.CREW_SH_CTL, 16, 16, .RW, fun _ => 0x1⟩
/-- CREW_SH_CTL.TRIM_MAX (R175). -/
def CREW_SH_CTL.TRIM_MAX : Fld := ⟨.CREW_SH_CTL, 15, 8, .RW, fun _ => 0x80⟩
/-- CREW_SH_CTL.DB (R175). -/
def CREW_SH_CTL.DB : Fld := ⟨.CREW_SH_CTL, 7, 0, .RW, fun _ => 0x08⟩
/-- CREW_TR_CTL.STR_EN (R175). -/
def CREW_TR_CTL.STR_EN : Fld := ⟨.CREW_TR_CTL, 31, 31, .RW, fun _ => 0x1⟩
/-- CREW_TR_CTL.RES_EN (R175). -/
def CREW_TR_CTL.RES_EN : Fld := ⟨.CREW_TR_CTL, 30, 30, .RW, fun _ => 0x1⟩
/-- CREW_TR_CTL.CLAMP_EN (R175). -/
def CREW_TR_CTL.CLAMP_EN : Fld := ⟨.CREW_TR_CTL, 29, 29, .RW, fun _ => 0x1⟩
/-- CREW_TR_CTL.DROOP_EN (R175). -/
def CREW_TR_CTL.DROOP_EN : Fld := ⟨.CREW_TR_CTL, 28, 28, .RW, fun _ => 0x1⟩
/-- CREW_TR_CTL.I_CLAMP (R175). -/
def CREW_TR_CTL.I_CLAMP : Fld := ⟨.CREW_TR_CTL, 18, 16, .RW, fun _ => 0x7⟩
/-- CREW_TR_CTL.OV_TH (R175). -/
def CREW_TR_CTL.OV_TH : Fld := ⟨.CREW_TR_CTL, 12, 8, .RW, fun _ => 0x06⟩
/-- CREW_TR_CTL.DROOP_TH (R175). -/
def CREW_TR_CTL.DROOP_TH : Fld := ⟨.CREW_TR_CTL, 4, 0, .RW, fun _ => 0x08⟩
/-- CREW_TR_STAT.CLAMP_ON (R175). -/
def CREW_TR_STAT.CLAMP_ON : Fld := ⟨.CREW_TR_STAT, 3, 3, .RO, fun _ => 0x0⟩
/-- CREW_TR_STAT.DROOP (R175). -/
def CREW_TR_STAT.DROOP : Fld := ⟨.CREW_TR_STAT, 2, 2, .RO, fun _ => 0x0⟩
/-- CREW_TR_STAT.ARM_PEND (R175). -/
def CREW_TR_STAT.ARM_PEND : Fld := ⟨.CREW_TR_STAT, 1, 1, .RO, fun _ => 0x0⟩
/-- CREW_TR_STAT.RES_READY (R175). -/
def CREW_TR_STAT.RES_READY : Fld := ⟨.CREW_TR_STAT, 0, 0, .RO, fun _ => 0x0⟩
/-- CREW_TR_CNT.DROOPS (R175). -/
def CREW_TR_CNT.DROOPS : Fld := ⟨.CREW_TR_CNT, 31, 24, .RC, fun _ => 0x00⟩
/-- CREW_TR_CNT.DUMPS (R175). -/
def CREW_TR_CNT.DUMPS : Fld := ⟨.CREW_TR_CNT, 23, 16, .RC, fun _ => 0x00⟩
/-- CREW_TR_CNT.CLAMPS (R175). -/
def CREW_TR_CNT.CLAMPS : Fld := ⟨.CREW_TR_CNT, 15, 8, .RC, fun _ => 0x00⟩
/-- CREW_TR_CNT.ARM_SKIPS (R175). -/
def CREW_TR_CNT.ARM_SKIPS : Fld := ⟨.CREW_TR_CNT, 7, 0, .RC, fun _ => 0x00⟩
/-- CREW_GB_CTL.GB_FC (R175). -/
def CREW_GB_CTL.GB_FC : Fld := ⟨.CREW_GB_CTL, 25, 19, .RW, fun _ => 0x1E⟩
/-- CREW_GB_CTL.GB_DEF (R175). -/
def CREW_GB_CTL.GB_DEF : Fld := ⟨.CREW_GB_CTL, 18, 12, .RW, fun _ => 0x50⟩
/-- CREW_GB_CTL.HMIN (R175). -/
def CREW_GB_CTL.HMIN : Fld := ⟨.CREW_GB_CTL, 11, 0, .RW, fun _ => 0⟩
/-- CREW_GB_STAT.FLOOR (R175). -/
def CREW_GB_STAT.FLOOR : Fld := ⟨.CREW_GB_STAT, 31, 20, .RO, fun _ => 0x000⟩
/-- CREW_GB_STAT.GB (R175). -/
def CREW_GB_STAT.GB : Fld := ⟨.CREW_GB_STAT, 18, 12, .RO, fun _ => 0x50⟩
/-- CREW_GB_STAT.COVERED (R175). -/
def CREW_GB_STAT.COVERED : Fld := ⟨.CREW_GB_STAT, 11, 11, .RO, fun _ => 0x0⟩
/-- CREW_GB_STAT.AGE_VALID (R175). -/
def CREW_GB_STAT.AGE_VALID : Fld := ⟨.CREW_GB_STAT, 10, 10, .RO, fun _ => 0x0⟩
/-- CREW_GB_STAT.RAISED (R175). -/
def CREW_GB_STAT.RAISED : Fld := ⟨.CREW_GB_STAT, 9, 9, .RO, fun _ => 0x0⟩
/-- CREW_GB_STAT.UNREACH (R175). -/
def CREW_GB_STAT.UNREACH : Fld := ⟨.CREW_GB_STAT, 8, 8, .RO, fun _ => 0x0⟩
/-- CREW_PWR_CTL.IDLE (R175). -/
def CREW_PWR_CTL.IDLE : Fld := ⟨.CREW_PWR_CTL, 31, 24, .RW, fun c => perDomain c 12 8 10 10⟩
/-- CREW_PWR_CTL.SS_SLEW (R175). -/
def CREW_PWR_CTL.SS_SLEW : Fld := ⟨.CREW_PWR_CTL, 23, 12, .RW, fun _ => 0x190⟩
/-- CREW_PWR_CTL.UNLOCK (R175). -/
def CREW_PWR_CTL.UNLOCK : Fld := ⟨.CREW_PWR_CTL, 5, 5, .WO, fun _ => 0x0⟩
/-- CREW_PWR_CTL.REJOIN (R175). -/
def CREW_PWR_CTL.REJOIN : Fld := ⟨.CREW_PWR_CTL, 4, 4, .WO, fun _ => 0x0⟩
/-- CREW_PWR_CTL.STAND_KIND (R175). -/
def CREW_PWR_CTL.STAND_KIND : Fld := ⟨.CREW_PWR_CTL, 3, 3, .RW, fun _ => 0x0⟩
/-- CREW_PWR_CTL.STAND (R175). -/
def CREW_PWR_CTL.STAND : Fld := ⟨.CREW_PWR_CTL, 2, 2, .WO, fun _ => 0x0⟩
/-- CREW_PWR_STAT.STATE (R175). -/
def CREW_PWR_STAT.STATE : Fld := ⟨.CREW_PWR_STAT, 31, 28, .RO, fun _ => 0x0⟩
/-- CREW_PWR_STAT.STAND_RES (R175). -/
def CREW_PWR_STAT.STAND_RES : Fld := ⟨.CREW_PWR_STAT, 27, 24, .RO, fun _ => 0x0⟩
/-- CREW_PWR_STAT.TRIES (R175). -/
def CREW_PWR_STAT.TRIES : Fld := ⟨.CREW_PWR_STAT, 23, 22, .RO, fun _ => 0x0⟩
/-- CREW_PWR_STAT.FORCED (R175). -/
def CREW_PWR_STAT.FORCED : Fld := ⟨.CREW_PWR_STAT, 21, 21, .RO, fun _ => 0x0⟩
/-- CREW_PWR_STAT.ADMIT_ROUNDS (R175). -/
def CREW_PWR_STAT.ADMIT_ROUNDS : Fld := ⟨.CREW_PWR_STAT, 15, 0, .RO, fun _ => 0x0000⟩
/-- CREW_VMIN.TICKS (R175). -/
def CREW_VMIN.TICKS : Fld := ⟨.CREW_VMIN, 31, 24, .RO, fun _ => 0x00⟩
/-- CREW_VMIN.SENSE (R175). -/
def CREW_VMIN.SENSE : Fld := ⟨.CREW_VMIN, 23, 23, .RO, fun _ => 0x0⟩
/-- CREW_VMIN.REARM (R175). -/
def CREW_VMIN.REARM : Fld := ⟨.CREW_VMIN, 22, 22, .WO, fun _ => 0x0⟩
/-- CREW_VMIN.VMIN (R175). -/
def CREW_VMIN.VMIN : Fld := ⟨.CREW_VMIN, 15, 0, .RO, fun _ => 0xFFFF⟩
/-- CREW_VMIN_MARK.MARK (R175). -/
def CREW_VMIN_MARK.MARK : Fld := ⟨.CREW_VMIN_MARK, 31, 0, .RO, fun _ => 0x00000000⟩
/-- CAP_MON_AGE_SLACK.SLACK (R175). -/
def CAP_MON_AGE_SLACK.SLACK : Fld := ⟨.CAP_MON_AGE_SLACK, 15, 0, .RO, fun _ => 0x0000⟩
/-- CAP_MON_AGE_TRIM.FACTORY (R175). -/
def CAP_MON_AGE_TRIM.FACTORY : Fld := ⟨.CAP_MON_AGE_TRIM, 13, 8, .RO, fun _ => 0⟩
/-- CAP_MON_AGE_TRIM.TRIM (R175). -/
def CAP_MON_AGE_TRIM.TRIM : Fld := ⟨.CAP_MON_AGE_TRIM, 5, 0, .RW, fun _ => 0⟩
/-- CAP_MON_AGE_CTL.DIE_REARM (R175). -/
def CAP_MON_AGE_CTL.DIE_REARM : Fld := ⟨.CAP_MON_AGE_CTL, 31, 31, .WO, fun _ => 0x0⟩
/-- CAP_MON_AGE_CTL.VALID (R175). -/
def CAP_MON_AGE_CTL.VALID : Fld := ⟨.CAP_MON_AGE_CTL, 23, 0, .RW, fun _ => 0x000000⟩
/-- CAP_MON_DIE_VMIN.CREW (R175). -/
def CAP_MON_DIE_VMIN.CREW : Fld := ⟨.CAP_MON_DIE_VMIN, 31, 24, .RO, fun _ => 0x00⟩
/-- CAP_MON_DIE_VMIN.TICKS (R175). -/
def CAP_MON_DIE_VMIN.TICKS : Fld := ⟨.CAP_MON_DIE_VMIN, 23, 16, .RO, fun _ => 0x00⟩
/-- CAP_MON_DIE_VMIN.VMIN (R175). -/
def CAP_MON_DIE_VMIN.VMIN : Fld := ⟨.CAP_MON_DIE_VMIN, 15, 0, .RO, fun _ => 0xFFFF⟩
/-- CAP_MON_DIE_VMIN_MARK.MARK (R175). -/
def CAP_MON_DIE_VMIN_MARK.MARK : Fld := ⟨.CAP_MON_DIE_VMIN_MARK, 31, 0, .RO, fun _ => 0x00000000⟩
/-- FCW_CFG.EN (R207). -/
def FCW_CFG.EN : Fld := ⟨.FCW_CFG, 31, 31, .RW, fun _ => 0x0⟩
/-- FCW_CFG.KEEP (R207). -/
def FCW_CFG.KEEP : Fld := ⟨.FCW_CFG, 30, 30, .RW, fun _ => 0x0⟩
/-- FCW_CFG.CREDITS (R207). -/
def FCW_CFG.CREDITS : Fld := ⟨.FCW_CFG, 26, 24, .RW, fun _ => 0x1⟩
/-- FCW_CFG.MIN_LEAD (R207). -/
def FCW_CFG.MIN_LEAD : Fld := ⟨.FCW_CFG, 23, 16, .RW, fun _ => 0x20⟩
/-- FCW_CFG.SUPER (R207). -/
def FCW_CFG.SUPER : Fld := ⟨.FCW_CFG, 8, 8, .RW, fun _ => 0x0⟩
/-- FCW_CFG.OWNER (R207). -/
def FCW_CFG.OWNER : Fld := ⟨.FCW_CFG, 2, 0, .RW, fun _ => 0x0⟩
/-- FCW_RING.BASE (R207). -/
def FCW_RING.BASE : Fld := ⟨.FCW_RING, 11, 0, .RW, fun _ => 0x000⟩
/-- FCW_STAT.STATE (R207). -/
def FCW_STAT.STATE : Fld := ⟨.FCW_STAT, 31, 30, .RO, fun _ => 0x0⟩
/-- FCW_STAT.CFG_ERR (R207). -/
def FCW_STAT.CFG_ERR : Fld := ⟨.FCW_STAT, 29, 29, .W1C, fun _ => 0x0⟩
/-- FCW_STAT.STAMPS_VALID (R207). -/
def FCW_STAT.STAMPS_VALID : Fld := ⟨.FCW_STAT, 28, 28, .RO, fun _ => 0x0⟩
/-- FCW_STAT.END_OPEN (R207). -/
def FCW_STAT.END_OPEN : Fld := ⟨.FCW_STAT, 27, 27, .RO, fun _ => 0x0⟩
/-- FCW_STAT.OUT (R207). -/
def FCW_STAT.OUT : Fld := ⟨.FCW_STAT, 26, 16, .RO, fun _ => 0x000⟩
/-- FCW_STAT.SHORTS (R207). -/
def FCW_STAT.SHORTS : Fld := ⟨.FCW_STAT, 15, 8, .RC, fun _ => 0x00⟩
/-- FCW_STAT.DISCARDS (R207). -/
def FCW_STAT.DISCARDS : Fld := ⟨.FCW_STAT, 7, 0, .RC, fun _ => 0x00⟩
/-- FCW_ARRIVALS.ARRIVALS (R207). -/
def FCW_ARRIVALS.ARRIVALS : Fld := ⟨.FCW_ARRIVALS, 31, 0, .RO, fun _ => 0x00000000⟩
/-- FCW_PTR.WR (R207). -/
def FCW_PTR.WR : Fld := ⟨.FCW_PTR, 25, 16, .RO, fun _ => 0x000⟩
/-- FCW_PTR.RD (R207). -/
def FCW_PTR.RD : Fld := ⟨.FCW_PTR, 9, 0, .RW, fun _ => 0x000⟩
/-- FCW_EARLY.MARK (R207). -/
def FCW_EARLY.MARK : Fld := ⟨.FCW_EARLY, 31, 0, .RO, fun _ => 0x00000000⟩
/-- FCW_LATE.MARK (R207). -/
def FCW_LATE.MARK : Fld := ⟨.FCW_LATE, 31, 0, .RO, fun _ => 0x00000000⟩
/-- FCW_END.MARK (R207). -/
def FCW_END.MARK : Fld := ⟨.FCW_END, 31, 0, .RO, fun _ => 0x00000000⟩
/-- FCW_TICKS.END (R207). -/
def FCW_TICKS.END : Fld := ⟨.FCW_TICKS, 23, 16, .RO, fun _ => 0x00⟩
/-- FCW_TICKS.LATE (R207). -/
def FCW_TICKS.LATE : Fld := ⟨.FCW_TICKS, 15, 8, .RO, fun _ => 0x00⟩
/-- FCW_TICKS.EARLY (R207). -/
def FCW_TICKS.EARLY : Fld := ⟨.FCW_TICKS, 7, 0, .RO, fun _ => 0x00⟩
/-- FCW_SUM.SUM (R207). -/
def FCW_SUM.SUM : Fld := ⟨.FCW_SUM, 31, 0, .RO, fun _ => 0x00000000⟩
/-- MSH_CTL.MODE (R207). -/
def MSH_CTL.MODE : Fld := ⟨.MSH_CTL, 31, 31, .RW, fun _ => 0x0⟩
/-- MSH_CTL.SCOPE (R207). -/
def MSH_CTL.SCOPE : Fld := ⟨.MSH_CTL, 30, 30, .RW, fun _ => 0x0⟩
/-- MSH_CTL.BUDGET (R207). -/
def MSH_CTL.BUDGET : Fld := ⟨.MSH_CTL, 25, 16, .RW, fun _ => 0x0A0⟩
/-- MSH_CTL.SPACING (R207). -/
def MSH_CTL.SPACING : Fld := ⟨.MSH_CTL, 12, 8, .RW, fun _ => 0x06⟩
/-- MSH_CTL.STALL_TO (R207). -/
def MSH_CTL.STALL_TO : Fld := ⟨.MSH_CTL, 7, 0, .RW, fun _ => 0x64⟩
/-- MSH_STAT.SEQ (R207). -/
def MSH_STAT.SEQ : Fld := ⟨.MSH_STAT, 31, 28, .RO, fun _ => 0x0⟩
/-- MSH_STAT.QUEUED (R207). -/
def MSH_STAT.QUEUED : Fld := ⟨.MSH_STAT, 26, 16, .RO, fun _ => 0x000⟩
/-- MSH_STAT.Q_STEP (R207). -/
def MSH_STAT.Q_STEP : Fld := ⟨.MSH_STAT, 15, 0, .RO, fun _ => 0x0000⟩
/-- MSH_HEAT_CNT.HEATS (R207). -/
def MSH_HEAT_CNT.HEATS : Fld := ⟨.MSH_HEAT_CNT, 31, 0, .RC, fun _ => 0x00000000⟩
/-- MSH_REQ_CNT.DUPS (R207). -/
def MSH_REQ_CNT.DUPS : Fld := ⟨.MSH_REQ_CNT, 31, 16, .RC, fun _ => 0x0000⟩
/-- MSH_REQ_CNT.STALLS (R207). -/
def MSH_REQ_CNT.STALLS : Fld := ⟨.MSH_REQ_CNT, 15, 0, .RC, fun _ => 0x0000⟩
/-- MSH_REG_CFG.RATE (R207). -/
def MSH_REG_CFG.RATE : Fld := ⟨.MSH_REG_CFG, 20, 16, .RO, fun _ => 0x10⟩
/-- MSH_REG_CFG.PERIOD (R207). -/
def MSH_REG_CFG.PERIOD : Fld := ⟨.MSH_REG_CFG, 11, 0, .RO, fun r => if r % 3 = 2 then 625 else 500⟩
/-- MSH_XMAP.MAP (R207). -/
def MSH_XMAP.MAP : Fld := ⟨.MSH_XMAP, 23, 0, .RO, xmapReset⟩
/-- MSH_STR_CNT.STRETCHES (R207). -/
def MSH_STR_CNT.STRETCHES : Fld := ⟨.MSH_STR_CNT, 31, 0, .RO, fun _ => 0x00000000⟩
/-- MSH_STR_MARK.ALIGN (R207). -/
def MSH_STR_MARK.ALIGN : Fld := ⟨.MSH_STR_MARK, 31, 16, .RO, fun _ => 0x0000⟩
/-- MSH_STR_MARK.DROOP (R207). -/
def MSH_STR_MARK.DROOP : Fld := ⟨.MSH_STR_MARK, 15, 0, .RO, fun _ => 0x0000⟩
/-- MSH_ALIGN_CTL.ALIGN_EN (R207). -/
def MSH_ALIGN_CTL.ALIGN_EN : Fld := ⟨.MSH_ALIGN_CTL, 31, 31, .RW, fun _ => 0x1⟩
/-- MSH_ALIGN_CTL.ALIGN_TH (R207). -/
def MSH_ALIGN_CTL.ALIGN_TH : Fld := ⟨.MSH_ALIGN_CTL, 1, 0, .RW, fun _ => 0x3⟩
/-- LANE_CTL.UNLOAD (R235). -/
def LANE_CTL.UNLOAD : Fld := ⟨.LANE_CTL, 2, 2, .WO, fun _ => 0x0⟩
/-- LANE_CTL.STOP (R235). -/
def LANE_CTL.STOP : Fld := ⟨.LANE_CTL, 1, 1, .WO, fun _ => 0x0⟩
/-- LANE_CTL.START (R235). -/
def LANE_CTL.START : Fld := ⟨.LANE_CTL, 0, 0, .WO, fun _ => 0x0⟩
/-- LANE_ARG.ARG (R235). -/
def LANE_ARG.ARG : Fld := ⟨.LANE_ARG, 31, 0, .RW, fun _ => 0x00000000⟩
/-- LANE_STAT.STATE (R235). -/
def LANE_STAT.STATE : Fld := ⟨.LANE_STAT, 31, 28, .RO, fun _ => 0x0⟩
/-- LANE_STAT.FAULT (R235). -/
def LANE_STAT.FAULT : Fld := ⟨.LANE_STAT, 27, 24, .RO, fun _ => 0x0⟩
/-- LANE_STAT.CTL_REFUSED (R235). -/
def LANE_STAT.CTL_REFUSED : Fld := ⟨.LANE_STAT, 16, 16, .W1C, fun _ => 0x0⟩
/-- LANE_STAT.PC (R235). -/
def LANE_STAT.PC : Fld := ⟨.LANE_STAT, 14, 0, .RO, fun _ => 0x0000⟩
/-- LANE_IMAGE.COUNT (R235). -/
def LANE_IMAGE.COUNT : Fld := ⟨.LANE_IMAGE, 31, 16, .RO, fun _ => 0x0000⟩
/-- LANE_IMAGE.BASE (R235). -/
def LANE_IMAGE.BASE : Fld := ⟨.LANE_IMAGE, 14, 0, .RO, fun _ => 0x0000⟩
/-- LANE_GRANT.CREWS (R235). -/
def LANE_GRANT.CREWS : Fld := ⟨.LANE_GRANT, 31, 0, .RO, fun _ => 0x00000000⟩
/-- LANE_GRANTX.REGATTA (R235). -/
def LANE_GRANTX.REGATTA : Fld := ⟨.LANE_GRANTX, 8, 8, .RO, fun _ => 0x0⟩
/-- LANE_GRANTX.FIELDS (R235). -/
def LANE_GRANTX.FIELDS : Fld := ⟨.LANE_GRANTX, 7, 0, .RO, fun _ => 0x00⟩
/-- LANE_LOAD_STAT.REASON (R235). -/
def LANE_LOAD_STAT.REASON : Fld := ⟨.LANE_LOAD_STAT, 31, 24, .RO, fun _ => 0x00⟩
/-- LANE_LOAD_STAT.IS_UNIT (R235). -/
def LANE_LOAD_STAT.IS_UNIT : Fld := ⟨.LANE_LOAD_STAT, 15, 15, .RO, fun _ => 0x0⟩
/-- LANE_LOAD_STAT.INDEX (R235). -/
def LANE_LOAD_STAT.INDEX : Fld := ⟨.LANE_LOAD_STAT, 14, 0, .RO, fun _ => 0x0000⟩
/-- LANE_SIG.SIG (R235). -/
def LANE_SIG.SIG : Fld := ⟨.LANE_SIG, 11, 0, .RO, fun _ => 0x000⟩
/-- LANE_WDOG.REMAIN (R235). -/
def LANE_WDOG.REMAIN : Fld := ⟨.LANE_WDOG, 19, 0, .RO, fun _ => 0x00000⟩
/-- LANE_ISSUE_CNT.ISSUED (R235). -/
def LANE_ISSUE_CNT.ISSUED : Fld := ⟨.LANE_ISSUE_CNT, 31, 0, .RC, fun _ => 0x00000000⟩
/-- LANE_JOB.JOB_ID (R235). -/
def LANE_JOB.JOB_ID : Fld := ⟨.LANE_JOB, 31, 0, .RO, fun _ => 0x00000000⟩
/-- CAP_CTL.UP_INT (R310). -/
def CAP_CTL.UP_INT : Fld := ⟨.CAP_CTL, 23, 16, .RW, fun _ => 0x0A⟩
/-- CAP_CTL.THR_INT (R310). -/
def CAP_CTL.THR_INT : Fld := ⟨.CAP_CTL, 15, 8, .RW, fun _ => 0x0A⟩
/-- CAP_CTL.RATE_MIN (R310). -/
def CAP_CTL.RATE_MIN : Fld := ⟨.CAP_CTL, 4, 0, .RW, fun _ => 0x04⟩
/-- CAP_STAT.MODE (R310). -/
def CAP_STAT.MODE : Fld := ⟨.CAP_STAT, 31, 31, .RO, fun _ => 0x0⟩
/-- CAP_STAT.FLOOR_HELD (R310). -/
def CAP_STAT.FLOOR_HELD : Fld := ⟨.CAP_STAT, 30, 30, .RO, fun _ => 0x0⟩
/-- CAP_STAT.CFG_ERR (R310). -/
def CAP_STAT.CFG_ERR : Fld := ⟨.CAP_STAT, 29, 29, .W1C, fun _ => 0x0⟩
/-- CAP_STAT.BIND_SUS (R310). -/
def CAP_STAT.BIND_SUS : Fld := ⟨.CAP_STAT, 28, 28, .RO, fun _ => 0x0⟩
/-- CAP_STAT.BIND_10MS (R310). -/
def CAP_STAT.BIND_10MS : Fld := ⟨.CAP_STAT, 27, 27, .RO, fun _ => 0x0⟩
/-- CAP_STAT.BIND_1MS (R310). -/
def CAP_STAT.BIND_1MS : Fld := ⟨.CAP_STAT, 26, 26, .RO, fun _ => 0x0⟩
/-- CAP_STAT.GOVERN (R310). -/
def CAP_STAT.GOVERN : Fld := ⟨.CAP_STAT, 25, 24, .RO, fun _ => 0x0⟩
/-- CAP_STAT.THROTTLE (R310). -/
def CAP_STAT.THROTTLE : Fld := ⟨.CAP_STAT, 23, 16, .RO, fun _ => 0x00⟩
/-- CAP_STAT.CEIL_BOUND (R310). -/
def CAP_STAT.CEIL_BOUND : Fld := ⟨.CAP_STAT, 15, 12, .RO, fun _ => 0x0⟩
/-- CAP_LIM.MAX (R310). -/
def CAP_LIM.MAX : Fld := ⟨.CAP_LIM, 31, 16, .RO, fun k => [16000, 14000, 12500].getD k 0⟩
/-- CAP_LIM.LIMIT (R310). -/
def CAP_LIM.LIMIT : Fld := ⟨.CAP_LIM, 15, 0, .RWL, fun k => [16000, 14000, 12500].getD k 0⟩
/-- CAP_VALS.VALUE (R310). -/
def CAP_VALS.VALUE : Fld := ⟨.CAP_VALS, 31, 0, .RO, fun _ => 0x00000000⟩
/-- CAP_OVR_CNT.SUS (R310). -/
def CAP_OVR_CNT.SUS : Fld := ⟨.CAP_OVR_CNT, 23, 16, .RC, fun _ => 0x00⟩
/-- CAP_OVR_CNT.M10 (R310). -/
def CAP_OVR_CNT.M10 : Fld := ⟨.CAP_OVR_CNT, 15, 8, .RC, fun _ => 0x00⟩
/-- CAP_OVR_CNT.M1 (R310). -/
def CAP_OVR_CNT.M1 : Fld := ⟨.CAP_OVR_CNT, 7, 0, .RC, fun _ => 0x00⟩
/-- CAP_CLASS.CEIL (R310). -/
def CAP_CLASS.CEIL : Fld := ⟨.CAP_CLASS, 31, 16, .RW, fun d => [14500, 3400, 850, 1075].getD d 0⟩
/-- CAP_CLASS.FLOOR (R310). -/
def CAP_CLASS.FLOOR : Fld := ⟨.CAP_CLASS, 15, 0, .RW, fun d => [3000, 1200, 300, 500].getD d 0⟩
/-- CAP_CLASS_HW.HW_FLOOR (R310). -/
def CAP_CLASS_HW.HW_FLOOR : Fld := ⟨.CAP_CLASS_HW, 15, 0, .RO, fun d => [2000, 800, 250, 400].getD d 0⟩
/-- CAP_ALLOC.DEMAND (R310). -/
def CAP_ALLOC.DEMAND : Fld := ⟨.CAP_ALLOC, 31, 16, .RO, fun _ => 0x0000⟩
/-- CAP_ALLOC.ALLOC (R310). -/
def CAP_ALLOC.ALLOC : Fld := ⟨.CAP_ALLOC, 15, 0, .RO, fun _ => 0x0000⟩
/-- CAP_PLANE.MEAS (R310). -/
def CAP_PLANE.MEAS : Fld := ⟨.CAP_PLANE, 31, 16, .RO, fun _ => 0x0000⟩
/-- CAP_PLANE.ALLOW (R310). -/
def CAP_PLANE.ALLOW : Fld := ⟨.CAP_PLANE, 15, 0, .RO, fun _ => 0x0000⟩
/-- CAP_RATE_REG.THM (R310). -/
def CAP_RATE_REG.THM : Fld := ⟨.CAP_RATE_REG, 20, 16, .RO, fun _ => 0x10⟩
/-- CAP_RATE_REG.CAP (R310). -/
def CAP_RATE_REG.CAP : Fld := ⟨.CAP_RATE_REG, 12, 8, .RO, fun _ => 0x10⟩
/-- CAP_RATE_REG.FW (R310). -/
def CAP_RATE_REG.FW : Fld := ⟨.CAP_RATE_REG, 4, 0, .RW, fun _ => 0x10⟩
/-- CAP_HEAT.BUDGET (R310). -/
def CAP_HEAT.BUDGET : Fld := ⟨.CAP_HEAT, 9, 0, .RO, fun _ => 0x3FF⟩
/-- EST_CTL.FW_LOAD (R310). -/
def EST_CTL.FW_LOAD : Fld := ⟨.EST_CTL, 8, 8, .WO, fun _ => 0x0⟩
/-- EST_CTL.SRC (R310). -/
def EST_CTL.SRC : Fld := ⟨.EST_CTL, 3, 0, .RW, fun _ => 0x0⟩
/-- EST_STAT.RUN (R310). -/
def EST_STAT.RUN : Fld := ⟨.EST_STAT, 31, 31, .RO, fun _ => 0x0⟩
/-- EST_STAT.OK (R310). -/
def EST_STAT.OK : Fld := ⟨.EST_STAT, 30, 30, .RO, fun _ => 0x0⟩
/-- EST_STAT.LOAD_REASON (R310). -/
def EST_STAT.LOAD_REASON : Fld := ⟨.EST_STAT, 23, 16, .RO, fun _ => 0x00⟩
/-- EST_STAT.PERIOD (R310). -/
def EST_STAT.PERIOD : Fld := ⟨.EST_STAT, 12, 8, .RO, fun _ => 0x00⟩
/-- EST_STAT.NOT_CONV (R310). -/
def EST_STAT.NOT_CONV : Fld := ⟨.EST_STAT, 7, 0, .RO, fun _ => 0x00⟩
/-- EST_FW_ADDR.ADDR (R310). -/
def EST_FW_ADDR.ADDR : Fld := ⟨.EST_FW_ADDR, 31, 0, .RW, fun _ => 0x00000000⟩
/-- EST_MODELS.FW (R310). -/
def EST_MODELS.FW : Fld := ⟨.EST_MODELS, 8, 8, .RO, fun _ => 0x0⟩
/-- EST_MODELS.LANES (R310). -/
def EST_MODELS.LANES : Fld := ⟨.EST_MODELS, 7, 0, .RO, fun _ => 0x00⟩
/-- EST_MACS.MACS (R310). -/
def EST_MACS.MACS : Fld := ⟨.EST_MACS, 31, 0, .RO, fun _ => 0x00000000⟩
/-- EST_MISS_CNT.MISSES (R310). -/
def EST_MISS_CNT.MISSES : Fld := ⟨.EST_MISS_CNT, 31, 0, .RC, fun _ => 0x00000000⟩
/-- EST_DUMP.EN (R310). -/
def EST_DUMP.EN : Fld := ⟨.EST_DUMP, 31, 31, .RW, fun _ => 0x0⟩
/-- EST_DUMP.PTR (R310). -/
def EST_DUMP.PTR : Fld := ⟨.EST_DUMP, 21, 3, .RW, fun _ => 0x00000⟩
/-- EST_CREW_EST.MW (R310). -/
def EST_CREW_EST.MW : Fld := ⟨.EST_CREW_EST, 31, 0, .RO, fun _ => 0x00000000⟩
/-- EST_CREW_MEAS.MW (R310). -/
def EST_CREW_MEAS.MW : Fld := ⟨.EST_CREW_MEAS, 31, 0, .RO, fun _ => 0x00000000⟩
/-- EST_CREW_CAL.GAIN (R310). -/
def EST_CREW_CAL.GAIN : Fld := ⟨.EST_CREW_CAL, 31, 16, .RO, fun _ => 0x4000⟩
/-- EST_CREW_CAL.OFFSET (R310). -/
def EST_CREW_CAL.OFFSET : Fld := ⟨.EST_CREW_CAL, 15, 0, .RO, fun _ => 0x0000⟩
/-- EST_CREW_STAT.UNCONV (R310). -/
def EST_CREW_STAT.UNCONV : Fld := ⟨.EST_CREW_STAT, 31, 31, .RO, fun _ => 0x1⟩
/-- EST_CREW_STAT.DIV (R310). -/
def EST_CREW_STAT.DIV : Fld := ⟨.EST_CREW_STAT, 30, 30, .RO, fun _ => 0x0⟩
/-- EST_CREW_STAT.ERR_WIN (R310). -/
def EST_CREW_STAT.ERR_WIN : Fld := ⟨.EST_CREW_STAT, 23, 16, .RO, fun _ => 0x00⟩
/-- EST_CREW_STAT.CONV_CNT (R310). -/
def EST_CREW_STAT.CONV_CNT : Fld := ⟨.EST_CREW_STAT, 10, 0, .RO, fun _ => 0x000⟩
/-- THM_CTL.MODE (R338). -/
def THM_CTL.MODE : Fld := ⟨.THM_CTL, 31, 31, .RW, fun _ => 0x0⟩
/-- THM_CTL.HELD_RATE (R338). -/
def THM_CTL.HELD_RATE : Fld := ⟨.THM_CTL, 30, 26, .RW, fun _ => 0x0C⟩
/-- THM_CTL.GRACE (R338). -/
def THM_CTL.GRACE : Fld := ⟨.THM_CTL, 24, 16, .RW, fun _ => 0x014⟩
/-- THM_CTL.ENF_INT (R338). -/
def THM_CTL.ENF_INT : Fld := ⟨.THM_CTL, 15, 8, .RW, fun _ => 0x0A⟩
/-- THM_CTL.RATE_MIN (R338). -/
def THM_CTL.RATE_MIN : Fld := ⟨.THM_CTL, 4, 0, .RW, fun _ => 0x04⟩
/-- THM_STAT.COOLANT (R338). -/
def THM_STAT.COOLANT : Fld := ⟨.THM_STAT, 31, 31, .RO, fun _ => 0x0⟩
/-- THM_STAT.STOPPING (R338). -/
def THM_STAT.STOPPING : Fld := ⟨.THM_STAT, 30, 30, .RO, fun _ => 0x0⟩
/-- THM_STAT.STOP_KIND (R338). -/
def THM_STAT.STOP_KIND : Fld := ⟨.THM_STAT, 29, 28, .RO, fun _ => 0x0⟩
/-- THM_STAT.CFG_ERR (R338). -/
def THM_STAT.CFG_ERR : Fld := ⟨.THM_STAT, 27, 27, .W1C, fun _ => 0x0⟩
/-- THM_STAT.THROTTLE (R338). -/
def THM_STAT.THROTTLE : Fld := ⟨.THM_STAT, 23, 0, .RO, fun _ => 0x000000⟩
/-- THM_THRESH0.T_THROTTLE (R338). -/
def THM_THRESH0.T_THROTTLE : Fld := ⟨.THM_THRESH0, 31, 16, .RW, fun _ => 0x0190⟩
/-- THM_THRESH0.T_WARN (R338). -/
def THM_THRESH0.T_WARN : Fld := ⟨.THM_THRESH0, 15, 0, .RW, fun _ => 0x017C⟩
/-- THM_THRESH1.T_CRIT_MAX (R338). -/
def THM_THRESH1.T_CRIT_MAX : Fld := ⟨.THM_THRESH1, 31, 16, .RO, fun _ => 0x1CC⟩
/-- THM_THRESH1.T_CRIT (R338). -/
def THM_THRESH1.T_CRIT : Fld := ⟨.THM_THRESH1, 15, 0, .RWL, fun _ => 0x01B8⟩
/-- THM_RISE.FAST (R338). -/
def THM_RISE.FAST : Fld := ⟨.THM_RISE, 15, 8, .RWL, fun _ => 0x20⟩
/-- THM_RISE.SLOW (R338). -/
def THM_RISE.SLOW : Fld := ⟨.THM_RISE, 7, 0, .RW, fun _ => 0x08⟩
/-- THM_DRC1.K (R338). -/
def THM_DRC1.K : Fld := ⟨.THM_DRC1, 7, 0, .RW, fun _ => 0x0A⟩
/-- THM_LOG_STAT.BUSY (R338). -/
def THM_LOG_STAT.BUSY : Fld := ⟨.THM_LOG_STAT, 31, 31, .RO, fun _ => 0x0⟩
/-- THM_LOG_STAT.FAIL (R338). -/
def THM_LOG_STAT.FAIL : Fld := ⟨.THM_LOG_STAT, 30, 30, .W1C, fun _ => 0x0⟩
/-- THM_LOG_STAT.FIRST_USED (R338). -/
def THM_LOG_STAT.FIRST_USED : Fld := ⟨.THM_LOG_STAT, 23, 20, .RO, fun _ => 0x0⟩
/-- THM_LOG_STAT.PENDING (R338). -/
def THM_LOG_STAT.PENDING : Fld := ⟨.THM_LOG_STAT, 19, 16, .RO, fun _ => 0x0⟩
/-- THM_LOG_STAT.DROPPED (R338). -/
def THM_LOG_STAT.DROPPED : Fld := ⟨.THM_LOG_STAT, 15, 8, .RC, fun _ => 0x00⟩
/-- THM_LOG_STAT.NEXT_SLOT (R338). -/
def THM_LOG_STAT.NEXT_SLOT : Fld := ⟨.THM_LOG_STAT, 5, 0, .RO, fun _ => 0x00⟩
/-- THM_LOG_SEQ.NEXT_SEQ (R338). -/
def THM_LOG_SEQ.NEXT_SEQ : Fld := ⟨.THM_LOG_SEQ, 31, 0, .RO, fun _ => 0x00000000⟩
/-- THM_REG.T_R (R338). -/
def THM_REG.T_R : Fld := ⟨.THM_REG, 31, 16, .RO, fun _ => 0x0000⟩
/-- THM_REG.BAND (R338). -/
def THM_REG.BAND : Fld := ⟨.THM_REG, 15, 13, .RO, fun _ => 0x5⟩
/-- THM_REG.ENFORCE (R338). -/
def THM_REG.ENFORCE : Fld := ⟨.THM_REG, 12, 12, .RO, fun _ => 0x0⟩
/-- THM_REG.GRACE (R338). -/
def THM_REG.GRACE : Fld := ⟨.THM_REG, 11, 11, .RO, fun _ => 0x0⟩
/-- THM_REG.HELD (R338). -/
def THM_REG.HELD : Fld := ⟨.THM_REG, 10, 10, .RO, fun _ => 0x0⟩
/-- THM_REG.SLOW (R338). -/
def THM_REG.SLOW : Fld := ⟨.THM_REG, 9, 9, .RO, fun _ => 0x0⟩
/-- THM_REG.WARN (R338). -/
def THM_REG.WARN : Fld := ⟨.THM_REG, 8, 8, .RO, fun _ => 0x0⟩
/-- THM_PLANE.START (R338). -/
def THM_PLANE.START : Fld := ⟨.THM_PLANE, 31, 16, .RO, fun _ => 0x0000⟩
/-- THM_PLANE.CEIL (R338). -/
def THM_PLANE.CEIL : Fld := ⟨.THM_PLANE, 15, 0, .RO, fun _ => 0xFFFF⟩
/-- THM_SENS.T (R338). -/
def THM_SENS.T : Fld := ⟨.THM_SENS, 31, 16, .RO, fun _ => 0x0000⟩
/-- THM_SENS.RATE (R338). -/
def THM_SENS.RATE : Fld := ⟨.THM_SENS, 15, 14, .RO, fun _ => 0x0⟩
/-- THM_SENS.BROKEN (R338). -/
def THM_SENS.BROKEN : Fld := ⟨.THM_SENS, 13, 13, .RO, fun _ => 0x0⟩
/-- THM_SENS.SUBST (R338). -/
def THM_SENS.SUBST : Fld := ⟨.THM_SENS, 12, 12, .RO, fun _ => 0x0⟩
/-- THM_SENS.CAUSE (R338). -/
def THM_SENS.CAUSE : Fld := ⟨.THM_SENS, 11, 9, .RO, fun _ => 0x0⟩
/-- THM_SENS.RETEST (R338). -/
def THM_SENS.RETEST : Fld := ⟨.THM_SENS, 8, 8, .WO, fun _ => 0x0⟩
/-- THM_SUBST.EN (R338). -/
def THM_SUBST.EN : Fld := ⟨.THM_SUBST, 31, 31, .RW, fun _ => 0x0⟩
/-- THM_SUBST.RESULT (R338). -/
def THM_SUBST.RESULT : Fld := ⟨.THM_SUBST, 30, 28, .RO, fun _ => 0x0⟩
/-- THM_SUBST.OFS (R338). -/
def THM_SUBST.OFS : Fld := ⟨.THM_SUBST, 27, 20, .RW, fun _ => 0x00⟩
/-- THM_SUBST.SUB (R338). -/
def THM_SUBST.SUB : Fld := ⟨.THM_SUBST, 9, 0, .RW, fun _ => 0x000⟩
/-- THM_POS.Y (R338). -/
def THM_POS.Y : Fld := ⟨.THM_POS, 31, 16, .RO, fun _ => 0⟩
/-- THM_POS.X (R338). -/
def THM_POS.X : Fld := ⟨.THM_POS, 15, 0, .RO, fun _ => 0⟩
/-- RGT_CTL.EN (R355). -/
def RGT_CTL.EN : Fld := ⟨.RGT_CTL, 31, 31, .RW, fun _ => 0x0⟩
/-- RGT_CTL.APPLY (R355). -/
def RGT_CTL.APPLY : Fld := ⟨.RGT_CTL, 30, 30, .RW, fun _ => 0x0⟩
/-- RGT_CTL.FOLLOW (R355). -/
def RGT_CTL.FOLLOW : Fld := ⟨.RGT_CTL, 29, 29, .RW, fun _ => 0x0⟩
/-- RGT_CTL.SLACK_SRC (R355). -/
def RGT_CTL.SLACK_SRC : Fld := ⟨.RGT_CTL, 28, 28, .RW, fun _ => 0x0⟩
/-- RGT_CTL.PERIOD (R355). -/
def RGT_CTL.PERIOD : Fld := ⟨.RGT_CTL, 22, 16, .RW, fun _ => 0x0A⟩
/-- RGT_CTL.HEADROOM (R355). -/
def RGT_CTL.HEADROOM : Fld := ⟨.RGT_CTL, 15, 8, .RW, fun _ => 0x0A⟩
/-- RGT_CTL.FOLLOW_MAX (R355). -/
def RGT_CTL.FOLLOW_MAX : Fld := ⟨.RGT_CTL, 7, 0, .RW, fun _ => 0x40⟩
/-- RGT_GROUP.GROUP_ID (R355). -/
def RGT_GROUP.GROUP_ID : Fld := ⟨.RGT_GROUP, 31, 20, .RW, fun _ => 0x000⟩
/-- RGT_GROUP.SIZE (R355). -/
def RGT_GROUP.SIZE : Fld := ⟨.RGT_GROUP, 12, 0, .RW, fun _ => 0x0001⟩
/-- RGT_MEMBER.SERVED (R355). -/
def RGT_MEMBER.SERVED : Fld := ⟨.RGT_MEMBER, 23, 20, .RO, fun _ => 0x0⟩
/-- RGT_MEMBER.LEVELS (R355). -/
def RGT_MEMBER.LEVELS : Fld := ⟨.RGT_MEMBER, 19, 16, .RO, fun _ => 0x0⟩
/-- RGT_MEMBER.INDEX (R355). -/
def RGT_MEMBER.INDEX : Fld := ⟨.RGT_MEMBER, 11, 0, .RW, fun _ => 0x000⟩
/-- RGT_LIMIT.PMAX_EFF (R355). -/
def RGT_LIMIT.PMAX_EFF : Fld := ⟨.RGT_LIMIT, 31, 16, .RO, fun _ => 0x0000⟩
/-- RGT_LIMIT.PMAX (R355). -/
def RGT_LIMIT.PMAX : Fld := ⟨.RGT_LIMIT, 15, 0, .RW, fun _ => 0xFFFF⟩
/-- RGT_POOL.POOL (R355). -/
def RGT_POOL.POOL : Fld := ⟨.RGT_POOL, 31, 0, .RW, fun _ => 0x00000000⟩
/-- RGT_STAT.CONTACT (R355). -/
def RGT_STAT.CONTACT : Fld := ⟨.RGT_STAT, 31, 31, .RO, fun _ => 0x0⟩
/-- RGT_STAT.ROOT (R355). -/
def RGT_STAT.ROOT : Fld := ⟨.RGT_STAT, 30, 30, .RO, fun _ => 0x0⟩
/-- RGT_STAT.FOLLOWING (R355). -/
def RGT_STAT.FOLLOWING : Fld := ⟨.RGT_STAT, 29, 29, .RO, fun _ => 0x0⟩
/-- RGT_STAT.CEILED (R355). -/
def RGT_STAT.CEILED : Fld := ⟨.RGT_STAT, 28, 28, .RO, fun _ => 0x0⟩
/-- RGT_STAT.POOL_SHORT (R355). -/
def RGT_STAT.POOL_SHORT : Fld := ⟨.RGT_STAT, 27, 27, .RO, fun _ => 0x0⟩
/-- RGT_STAT.CFG_ERR (R355). -/
def RGT_STAT.CFG_ERR : Fld := ⟨.RGT_STAT, 26, 26, .W1C, fun _ => 0x0⟩
/-- RGT_STAT.ABSENT (R355). -/
def RGT_STAT.ABSENT : Fld := ⟨.RGT_STAT, 12, 0, .RO, fun _ => 0x0000⟩
/-- RGT_GRANT.G (R355). -/
def RGT_GRANT.G : Fld := ⟨.RGT_GRANT, 31, 0, .RO, fun _ => 0x00000000⟩
/-- RGT_SLACK.NONE (R355). -/
def RGT_SLACK.NONE : Fld := ⟨.RGT_SLACK, 31, 31, .RO, fun _ => 0x1⟩
/-- RGT_SLACK.BAND (R355). -/
def RGT_SLACK.BAND : Fld := ⟨.RGT_SLACK, 26, 24, .RO, fun _ => 0x7⟩
/-- RGT_SLACK.SLACK (R355). -/
def RGT_SLACK.SLACK : Fld := ⟨.RGT_SLACK, 23, 0, .RO, fun _ => 0x000000⟩
/-- RGT_BAR_WAIT.WAIT (R355). -/
def RGT_BAR_WAIT.WAIT : Fld := ⟨.RGT_BAR_WAIT, 31, 0, .RO, fun _ => 0x00000000⟩
/-- RGT_SLOW.S_IDX (R355). -/
def RGT_SLOW.S_IDX : Fld := ⟨.RGT_SLOW, 27, 16, .RO, fun _ => 0x000⟩
/-- RGT_SLOW.S_MAX (R355). -/
def RGT_SLOW.S_MAX : Fld := ⟨.RGT_SLOW, 15, 8, .RO, fun _ => 0x00⟩
/-- RGT_SLOW.S_OWN (R355). -/
def RGT_SLOW.S_OWN : Fld := ⟨.RGT_SLOW, 7, 0, .RO, fun _ => 0x00⟩
/-- RGT_CNT.BAD_MSG (R355). -/
def RGT_CNT.BAD_MSG : Fld := ⟨.RGT_CNT, 31, 16, .RC, fun _ => 0x0000⟩
/-- RGT_CNT.BAR_FULL (R355). -/
def RGT_CNT.BAR_FULL : Fld := ⟨.RGT_CNT, 15, 0, .RC, fun _ => 0x0000⟩
/-- FLT_CTL.PIN_CHECK (R380). -/
def FLT_CTL.PIN_CHECK : Fld := ⟨.FLT_CTL, 1, 1, .RWL, fun _ => 0x1⟩
/-- FLT_CTL.ALERT_FC1 (R380). -/
def FLT_CTL.ALERT_FC1 : Fld := ⟨.FLT_CTL, 0, 0, .RW, fun _ => 0x1⟩
/-- FLT_STAT.SAFE (R380). -/
def FLT_STAT.SAFE : Fld := ⟨.FLT_STAT, 31, 31, .RO, fun _ => 0x0⟩
/-- FLT_STAT.SELF (R380). -/
def FLT_STAT.SELF : Fld := ⟨.FLT_STAT, 30, 30, .RO, fun _ => 0x0⟩
/-- FLT_STAT.SELF_CAUSE (R380). -/
def FLT_STAT.SELF_CAUSE : Fld := ⟨.FLT_STAT, 29, 28, .RO, fun _ => 0x0⟩
/-- FLT_STAT.FC3 (R380). -/
def FLT_STAT.FC3 : Fld := ⟨.FLT_STAT, 27, 27, .RO, fun _ => 0x0⟩
/-- FLT_STAT.FIRST_VALID (R380). -/
def FLT_STAT.FIRST_VALID : Fld := ⟨.FLT_STAT, 26, 26, .RO, fun _ => 0x0⟩
/-- FLT_STAT.ALERT_PEND (R380). -/
def FLT_STAT.ALERT_PEND : Fld := ⟨.FLT_STAT, 25, 25, .W1C, fun _ => 0x0⟩
/-- FLT_STAT.PIN_P (R380). -/
def FLT_STAT.PIN_P : Fld := ⟨.FLT_STAT, 24, 24, .RO, fun _ => 0x0⟩
/-- FLT_STAT.PIN_N (R380). -/
def FLT_STAT.PIN_N : Fld := ⟨.FLT_STAT, 23, 23, .RO, fun _ => 0x0⟩
/-- FLT_STAT.FC2_OPEN (R380). -/
def FLT_STAT.FC2_OPEN : Fld := ⟨.FLT_STAT, 13, 8, .RO, fun _ => 0x00⟩
/-- FLT_CLEAR.ALL (R380). -/
def FLT_CLEAR.ALL : Fld := ⟨.FLT_CLEAR, 31, 31, .WO, fun _ => 0x0⟩
/-- FLT_CLEAR.INDEX (R380). -/
def FLT_CLEAR.INDEX : Fld := ⟨.FLT_CLEAR, 4, 0, .WO, fun _ => 0x00⟩
/-- FLT_CLEAR_STAT.CLEARED (R380). -/
def FLT_CLEAR_STAT.CLEARED : Fld := ⟨.FLT_CLEAR_STAT, 13, 8, .RO, fun _ => 0x00⟩
/-- FLT_CLEAR_STAT.RESULT (R380). -/
def FLT_CLEAR_STAT.RESULT : Fld := ⟨.FLT_CLEAR_STAT, 1, 0, .RO, fun _ => 0x0⟩
/-- FLT_CNT.FC3 (R380). -/
def FLT_CNT.FC3 : Fld := ⟨.FLT_CNT, 31, 24, .RC, fun _ => 0x00⟩
/-- FLT_CNT.FC2 (R380). -/
def FLT_CNT.FC2 : Fld := ⟨.FLT_CNT, 23, 16, .RC, fun _ => 0x00⟩
/-- FLT_CNT.FC1 (R380). -/
def FLT_CNT.FC1 : Fld := ⟨.FLT_CNT, 15, 8, .RC, fun _ => 0x00⟩
/-- FLT_CNT.FC0 (R380). -/
def FLT_CNT.FC0 : Fld := ⟨.FLT_CNT, 7, 0, .RC, fun _ => 0x00⟩
/-- FLT_DROP.FC1 (R380). -/
def FLT_DROP.FC1 : Fld := ⟨.FLT_DROP, 31, 16, .RC, fun _ => 0x0000⟩
/-- FLT_DROP.FC0 (R380). -/
def FLT_DROP.FC0 : Fld := ⟨.FLT_DROP, 15, 0, .RC, fun _ => 0x0000⟩
/-- FLT_HIST_HEAD.NEXT_SEQ (R380). -/
def FLT_HIST_HEAD.NEXT_SEQ : Fld := ⟨.FLT_HIST_HEAD, 31, 0, .RO, fun _ => 0x00000001⟩
/-- FLT_INJECT0.CODE (R380). -/
def FLT_INJECT0.CODE : Fld := ⟨.FLT_INJECT0, 31, 16, .RWL, fun _ => 0x0000⟩
/-- FLT_INJECT0.SRC_KIND (R380). -/
def FLT_INJECT0.SRC_KIND : Fld := ⟨.FLT_INJECT0, 15, 12, .RWL, fun _ => 0x0⟩
/-- FLT_INJECT0.SOURCE (R380). -/
def FLT_INJECT0.SOURCE : Fld := ⟨.FLT_INJECT0, 11, 0, .RWL, fun _ => 0x000⟩
/-- FLT_INJECT1.INJ_ERR (R380). -/
def FLT_INJECT1.INJ_ERR : Fld := ⟨.FLT_INJECT1, 1, 1, .W1C, fun _ => 0x0⟩
/-- FLT_INJECT1.GO (R380). -/
def FLT_INJECT1.GO : Fld := ⟨.FLT_INJECT1, 0, 0, .WO, fun _ => 0x0⟩
/-- TB_CTL.HIST_CLR (R411). -/
def TB_CTL.HIST_CLR : Fld := ⟨.TB_CTL, 31, 31, .WO, fun _ => 0x0⟩
/-- TB_CTL.SYNC (R411). -/
def TB_CTL.SYNC : Fld := ⟨.TB_CTL, 20, 16, .RW, fun _ => 0x00⟩
/-- TB_CTL.PERIOD (R411). -/
def TB_CTL.PERIOD : Fld := ⟨.TB_CTL, 7, 0, .RW, fun _ => 0x7D⟩
/-- TB_STAT.CFG_ERR (R411). -/
def TB_STAT.CFG_ERR : Fld := ⟨.TB_STAT, 31, 31, .W1C, fun _ => 0x0⟩
/-- TB_STAT.CAL_ERR (R411). -/
def TB_STAT.CAL_ERR : Fld := ⟨.TB_STAT, 30, 30, .W1C, fun _ => 0x0⟩
/-- TB_STAT.CAL_BUSY (R411). -/
def TB_STAT.CAL_BUSY : Fld := ⟨.TB_STAT, 29, 29, .RO, fun _ => 0x0⟩
/-- TB_STAT.CAL_BAD (R411). -/
def TB_STAT.CAL_BAD : Fld := ⟨.TB_STAT, 23, 16, .RO, fun _ => 0x00⟩
/-- TB_STAT.SLIPS (R411). -/
def TB_STAT.SLIPS : Fld := ⟨.TB_STAT, 15, 0, .RC, fun _ => 0x0000⟩
/-- TB_NOW_MARK.MARK (R411). -/
def TB_NOW_MARK.MARK : Fld := ⟨.TB_NOW_MARK, 31, 0, .RO, fun _ => 0x00000000⟩
/-- TB_NOW_TICKS.TICKS (R411). -/
def TB_NOW_TICKS.TICKS : Fld := ⟨.TB_NOW_TICKS, 7, 0, .RO, fun _ => 0x00⟩
/-- TB_SNAP.MARK (R411). -/
def TB_SNAP.MARK : Fld := ⟨.TB_SNAP, 31, 0, .RO, fun _ => 0x00000000⟩
/-- TB_SNAP_CTL.REQ (R411). -/
def TB_SNAP_CTL.REQ : Fld := ⟨.TB_SNAP_CTL, 31, 31, .WO, fun _ => 0x0⟩
/-- TB_SNAP_CTL.BUSY (R411). -/
def TB_SNAP_CTL.BUSY : Fld := ⟨.TB_SNAP_CTL, 30, 30, .RO, fun _ => 0x0⟩
/-- TB_SNAP_CTL.ERR (R411). -/
def TB_SNAP_CTL.ERR : Fld := ⟨.TB_SNAP_CTL, 29, 29, .W1C, fun _ => 0x0⟩
/-- TB_SNAP_CTL.PTR (R411). -/
def TB_SNAP_CTL.PTR : Fld := ⟨.TB_SNAP_CTL, 21, 3, .RW, fun _ => 0x00000⟩
/-- TB_CAL_CTL.ALL (R411). -/
def TB_CAL_CTL.ALL : Fld := ⟨.TB_CAL_CTL, 31, 31, .WO, fun _ => 0x0⟩
/-- TB_CAL_CTL.ONE (R411). -/
def TB_CAL_CTL.ONE : Fld := ⟨.TB_CAL_CTL, 30, 30, .WO, fun _ => 0x0⟩
/-- TB_CAL_CTL.CREW (R411). -/
def TB_CAL_CTL.CREW : Fld := ⟨.TB_CAL_CTL, 7, 0, .RW, fun _ => 0x00⟩
/-- TB_CAL.VALID (R411). -/
def TB_CAL.VALID : Fld := ⟨.TB_CAL, 31, 31, .RO, fun _ => 0x0⟩
/-- TB_CAL.FAIL (R411). -/
def TB_CAL.FAIL : Fld := ⟨.TB_CAL, 30, 30, .RO, fun _ => 0x0⟩
/-- TB_CAL.RTT (R411). -/
def TB_CAL.RTT : Fld := ⟨.TB_CAL, 23, 16, .RO, fun _ => 0x00⟩
/-- TB_CAL.HOLD (R411). -/
def TB_CAL.HOLD : Fld := ⟨.TB_CAL, 15, 8, .RO, fun _ => 0x00⟩
/-- TB_CAL.PHASE (R411). -/
def TB_CAL.PHASE : Fld := ⟨.TB_CAL, 1, 0, .RO, fun _ => 0x0⟩
/-- CREW_VMAX.TICKS (R411). -/
def CREW_VMAX.TICKS : Fld := ⟨.CREW_VMAX, 31, 24, .RO, fun _ => 0x00⟩
/-- CREW_VMAX.SENSE (R411). -/
def CREW_VMAX.SENSE : Fld := ⟨.CREW_VMAX, 23, 23, .RO, fun _ => 0x0⟩
/-- CREW_VMAX.REARM (R411). -/
def CREW_VMAX.REARM : Fld := ⟨.CREW_VMAX, 22, 22, .WO, fun _ => 0x0⟩
/-- CREW_VMAX.VMAX (R411). -/
def CREW_VMAX.VMAX : Fld := ⟨.CREW_VMAX, 15, 0, .RO, fun _ => 0x0000⟩
/-- CREW_VMAX_MARK.MARK (R411). -/
def CREW_VMAX_MARK.MARK : Fld := ⟨.CREW_VMAX_MARK, 31, 0, .RO, fun _ => 0x00000000⟩
/-- CREW_HIST_CTL.V_EN (R411). -/
def CREW_HIST_CTL.V_EN : Fld := ⟨.CREW_HIST_CTL, 31, 31, .RW, fun _ => 0x1⟩
/-- CREW_HIST_CTL.T_EN (R411). -/
def CREW_HIST_CTL.T_EN : Fld := ⟨.CREW_HIST_CTL, 30, 30, .RW, fun _ => 0x1⟩
/-- CREW_HIST_CTL.CLEAR (R411). -/
def CREW_HIST_CTL.CLEAR : Fld := ⟨.CREW_HIST_CTL, 29, 29, .WO, fun _ => 0x0⟩
/-- CREW_HIST_CTL.CLR_PEND (R411). -/
def CREW_HIST_CTL.CLR_PEND : Fld := ⟨.CREW_HIST_CTL, 28, 28, .RO, fun _ => 0x0⟩
/-- CREW_HIST_MARK.MARK (R411). -/
def CREW_HIST_MARK.MARK : Fld := ⟨.CREW_HIST_MARK, 31, 0, .RO, fun _ => 0x00000000⟩
/-- CREW_HIST_V.COUNT (R411). -/
def CREW_HIST_V.COUNT : Fld := ⟨.CREW_HIST_V, 31, 0, .RO, fun _ => 0x00000000⟩
/-- CREW_HIST_T.COUNT (R411). -/
def CREW_HIST_T.COUNT : Fld := ⟨.CREW_HIST_T, 31, 0, .RO, fun _ => 0x00000000⟩
/-- CAP_MON_SCTL.ARM (R411). -/
def CAP_MON_SCTL.ARM : Fld := ⟨.CAP_MON_SCTL, 31, 31, .RW, fun _ => 0x0⟩
/-- CAP_MON_SCTL.MODE (R411). -/
def CAP_MON_SCTL.MODE : Fld := ⟨.CAP_MON_SCTL, 30, 29, .RW, fun _ => 0x0⟩
/-- CAP_MON_SCTL.CODING (R411). -/
def CAP_MON_SCTL.CODING : Fld := ⟨.CAP_MON_SCTL, 28, 28, .RW, fun _ => 0x0⟩
/-- CAP_MON_SCTL.K (R411). -/
def CAP_MON_SCTL.K : Fld := ⟨.CAP_MON_SCTL, 27, 26, .RW, fun _ => 0x0⟩
/-- CAP_MON_SCTL.SRC (R411). -/
def CAP_MON_SCTL.SRC : Fld := ⟨.CAP_MON_SCTL, 25, 24, .RW, fun _ => 0x0⟩
/-- CAP_MON_SCTL.CREW (R411). -/
def CAP_MON_SCTL.CREW : Fld := ⟨.CAP_MON_SCTL, 7, 0, .RW, fun _ => 0x00⟩
/-- CAP_MON_SBUF.PAGES (R411). -/
def CAP_MON_SBUF.PAGES : Fld := ⟨.CAP_MON_SBUF, 27, 16, .RW, fun _ => 0x000⟩
/-- CAP_MON_SBUF.BASE (R411). -/
def CAP_MON_SBUF.BASE : Fld := ⟨.CAP_MON_SBUF, 11, 0, .RW, fun _ => 0x000⟩
/-- CAP_MON_STRIG.TSRC (R411). -/
def CAP_MON_STRIG.TSRC : Fld := ⟨.CAP_MON_STRIG, 31, 30, .RW, fun _ => 0x0⟩
/-- CAP_MON_STRIG.FIRE (R411). -/
def CAP_MON_STRIG.FIRE : Fld := ⟨.CAP_MON_STRIG, 29, 29, .WO, fun _ => 0x0⟩
/-- CAP_MON_STRIG.CLASS (R411). -/
def CAP_MON_STRIG.CLASS : Fld := ⟨.CAP_MON_STRIG, 27, 26, .RW, fun _ => 0x0⟩
/-- CAP_MON_STRIG.TICKS (R411). -/
def CAP_MON_STRIG.TICKS : Fld := ⟨.CAP_MON_STRIG, 23, 16, .RW, fun _ => 0x00⟩
/-- CAP_MON_STRIG.POST (R411). -/
def CAP_MON_STRIG.POST : Fld := ⟨.CAP_MON_STRIG, 11, 0, .RW, fun _ => 0x000⟩
/-- CAP_MON_STRIG_MARK.MARK (R411). -/
def CAP_MON_STRIG_MARK.MARK : Fld := ⟨.CAP_MON_STRIG_MARK, 31, 0, .RW, fun _ => 0x00000000⟩
/-- CAP_MON_SSTAT.STATE (R411). -/
def CAP_MON_SSTAT.STATE : Fld := ⟨.CAP_MON_SSTAT, 31, 29, .RO, fun _ => 0x0⟩
/-- CAP_MON_SSTAT.CFG_ERR (R411). -/
def CAP_MON_SSTAT.CFG_ERR : Fld := ⟨.CAP_MON_SSTAT, 28, 28, .W1C, fun _ => 0x0⟩
/-- CAP_MON_SSTAT.NEXT (R411). -/
def CAP_MON_SSTAT.NEXT : Fld := ⟨.CAP_MON_SSTAT, 27, 16, .RO, fun _ => 0x000⟩
/-- CAP_MON_SSTAT.TRIG_PAGE (R411). -/
def CAP_MON_SSTAT.TRIG_PAGE : Fld := ⟨.CAP_MON_SSTAT, 11, 0, .RO, fun _ => 0x000⟩
/-- CAP_MON_SSEQ.PAGE_SEQ (R411). -/
def CAP_MON_SSEQ.PAGE_SEQ : Fld := ⟨.CAP_MON_SSEQ, 31, 0, .RO, fun _ => 0x00000000⟩
/-- CAP_MON_SGAP.MISSED (R411). -/
def CAP_MON_SGAP.MISSED : Fld := ⟨.CAP_MON_SGAP, 31, 0, .RC, fun _ => 0x00000000⟩
/-- REC_HEAD.NEXT_SEQ (R411). -/
def REC_HEAD.NEXT_SEQ : Fld := ⟨.REC_HEAD, 31, 0, .RO, fun _ => 0x00000001⟩
/-- REC_OLDEST.OLDEST (R411). -/
def REC_OLDEST.OLDEST : Fld := ⟨.REC_OLDEST, 31, 0, .RO, fun _ => 0x00000000⟩
/-- REC_CUR.SEQ (R411). -/
def REC_CUR.SEQ : Fld := ⟨.REC_CUR, 31, 0, .RW, fun _ => 0x00000001⟩
/-- REC_CTL.AREA (R411). -/
def REC_CTL.AREA : Fld := ⟨.REC_CTL, 31, 31, .RW, fun _ => 0x0⟩
/-- REC_CTL.AUTO (R411). -/
def REC_CTL.AUTO : Fld := ⟨.REC_CTL, 30, 30, .RW, fun _ => 0x1⟩
/-- REC_CTL.FIRST_USED (R411). -/
def REC_CTL.FIRST_USED : Fld := ⟨.REC_CTL, 9, 0, .RO, fun _ => 0x000⟩
/-- REC_WIN.WORD (R411). -/
def REC_WIN.WORD : Fld := ⟨.REC_WIN, 31, 0, .RO, fun _ => 0x00000000⟩
/-- ID_MEM_CTL.SCRUB (R437). -/
def ID_MEM_CTL.SCRUB : Fld := ⟨.ID_MEM_CTL, 0, 0, .RW, fun _ => 0x1⟩
/-- ID_MEM_STAT.CLEARED (R437). -/
def ID_MEM_STAT.CLEARED : Fld := ⟨.ID_MEM_STAT, 31, 31, .RO, fun _ => 0x0⟩
/-- ID_MEM_STAT.BANKS (R437). -/
def ID_MEM_STAT.BANKS : Fld := ⟨.ID_MEM_STAT, 23, 0, .RO, fun _ => 0x000000⟩
/-- ID_ECC_CNT.UNCORR (R437). -/
def ID_ECC_CNT.UNCORR : Fld := ⟨.ID_ECC_CNT, 31, 16, .RC, fun _ => 0x0000⟩
/-- ID_ECC_CNT.CORR (R437). -/
def ID_ECC_CNT.CORR : Fld := ⟨.ID_ECC_CNT, 15, 0, .RC, fun _ => 0x0000⟩
/-- ID_ECC_ADDR.ADDR (R437). -/
def ID_ECC_ADDR.ADDR : Fld := ⟨.ID_ECC_ADDR, 31, 0, .RO, fun _ => 0x00000000⟩
/-- ID_MARCH_CTL.GO (R437). -/
def ID_MARCH_CTL.GO : Fld := ⟨.ID_MARCH_CTL, 31, 31, .WO, fun _ => 0x0⟩
/-- ID_MARCH_CTL.PRESERVE (R437). -/
def ID_MARCH_CTL.PRESERVE : Fld := ⟨.ID_MARCH_CTL, 30, 30, .RW, fun _ => 0x0⟩
/-- ID_MARCH_CTL.BANK (R437). -/
def ID_MARCH_CTL.BANK : Fld := ⟨.ID_MARCH_CTL, 3, 0, .RW, fun _ => 0x0⟩
/-- ID_MARCH_STAT.RESULT (R437). -/
def ID_MARCH_STAT.RESULT : Fld := ⟨.ID_MARCH_STAT, 31, 28, .RO, fun _ => 0x0⟩
/-- ID_MARCH_STAT.BANK (R437). -/
def ID_MARCH_STAT.BANK : Fld := ⟨.ID_MARCH_STAT, 27, 24, .RO, fun _ => 0x0⟩
/-- ID_MARCH_STAT.ELAPSED (R437). -/
def ID_MARCH_STAT.ELAPSED : Fld := ⟨.ID_MARCH_STAT, 19, 0, .RO, fun _ => 0x00000⟩
/-- ID_MARCH_FAIL.WORD (R437). -/
def ID_MARCH_FAIL.WORD : Fld := ⟨.ID_MARCH_FAIL, 31, 16, .RO, fun _ => 0x0000⟩
/-- ID_MARCH_FAIL.ELEMENT (R437). -/
def ID_MARCH_FAIL.ELEMENT : Fld := ⟨.ID_MARCH_FAIL, 14, 12, .RO, fun _ => 0x0⟩
/-- ID_MARCH_FAIL.BIT (R437). -/
def ID_MARCH_FAIL.BIT : Fld := ⟨.ID_MARCH_FAIL, 6, 0, .RO, fun _ => 0x00⟩
/-- ID_FW_STAT.MODE (R437). -/
def ID_FW_STAT.MODE : Fld := ⟨.ID_FW_STAT, 31, 28, .RO, fun _ => 0x0⟩
/-- ID_FW_STAT.SLOT (R437). -/
def ID_FW_STAT.SLOT : Fld := ⟨.ID_FW_STAT, 27, 27, .RO, fun _ => 0x0⟩
/-- ID_FW_STAT.REASON_A (R437). -/
def ID_FW_STAT.REASON_A : Fld := ⟨.ID_FW_STAT, 23, 16, .RO, fun _ => 0x00⟩
/-- ID_FW_STAT.REASON_B (R437). -/
def ID_FW_STAT.REASON_B : Fld := ⟨.ID_FW_STAT, 15, 8, .RO, fun _ => 0x00⟩
/-- ID_FW_STAT.REASON_REC (R437). -/
def ID_FW_STAT.REASON_REC : Fld := ⟨.ID_FW_STAT, 7, 0, .RO, fun _ => 0x00⟩
/-- ID_FW_SVN.SVN_MIN (R437). -/
def ID_FW_SVN.SVN_MIN : Fld := ⟨.ID_FW_SVN, 31, 16, .RO, fun _ => 0⟩
/-- ID_FW_SVN.SVN (R437). -/
def ID_FW_SVN.SVN : Fld := ⟨.ID_FW_SVN, 15, 0, .RO, fun _ => 0x0000⟩
/-- ID_SAFE_DOM.VMAX (R437). -/
def ID_SAFE_DOM.VMAX : Fld := ⟨.ID_SAFE_DOM, 23, 12, .RO, windowMax⟩
/-- ID_SAFE_DOM.VMIN (R437). -/
def ID_SAFE_DOM.VMIN : Fld := ⟨.ID_SAFE_DOM, 11, 0, .RO, windowMin⟩
/-- ID_SAFE_LIM0.SLEW_MAX (R437). -/
def ID_SAFE_LIM0.SLEW_MAX : Fld := ⟨.ID_SAFE_LIM0, 27, 16, .RO, fun _ => 2000⟩
/-- ID_SAFE_LIM0.FSC_MAX (R437). -/
def ID_SAFE_LIM0.FSC_MAX : Fld := ⟨.ID_SAFE_LIM0, 6, 0, .RO, fun _ => 60⟩
/-- ID_SAFE_LIM1.T_CRIT_MAX (R437). -/
def ID_SAFE_LIM1.T_CRIT_MAX : Fld := ⟨.ID_SAFE_LIM1, 15, 0, .RO, fun _ => 0x1CC⟩
/-- ID_SAFE_FLOOR.HW_FLOOR (R437). -/
def ID_SAFE_FLOOR.HW_FLOOR : Fld := ⟨.ID_SAFE_FLOOR, 15, 0, .RO, fun d => [2000, 800, 250, 400].getD d 0⟩
/-- ID_SAFE_CRC.CRC (R437). -/
def ID_SAFE_CRC.CRC : Fld := ⟨.ID_SAFE_CRC, 31, 0, .RO, fun _ => 0xF8045B67⟩
/-- ID_RGN.EN (R437). -/
def ID_RGN.EN : Fld := ⟨.ID_RGN, 31, 31, .RWL, fun _ => 0x0⟩
/-- ID_RGN.W (R437). -/
def ID_RGN.W : Fld := ⟨.ID_RGN, 30, 30, .RWL, fun _ => 0x0⟩
/-- ID_RGN.R (R437). -/
def ID_RGN.R : Fld := ⟨.ID_RGN, 29, 29, .RWL, fun _ => 0x0⟩
/-- ID_RGN.LAST (R437). -/
def ID_RGN.LAST : Fld := ⟨.ID_RGN, 27, 16, .RWL, fun _ => 0x000⟩
/-- ID_RGN.FIRST (R437). -/
def ID_RGN.FIRST : Fld := ⟨.ID_RGN, 11, 0, .RWL, fun _ => 0x000⟩
/-- ID_MBX_CFG.CTX (R437). -/
def ID_MBX_CFG.CTX : Fld := ⟨.ID_MBX_CFG, 9, 8, .RW, fun _ => 0x0⟩
/-- ID_MBX_CFG.SIG (R437). -/
def ID_MBX_CFG.SIG : Fld := ⟨.ID_MBX_CFG, 2, 0, .RW, fun _ => 0x0⟩
/-- ID_MBX_SUM.HOST (R437). -/
def ID_MBX_SUM.HOST : Fld := ⟨.ID_MBX_SUM, 15, 0, .RO, fun _ => 0x0000⟩
/-- ID_MBX_CTL.STATE (R437). -/
def ID_MBX_CTL.STATE : Fld := ⟨.ID_MBX_CTL, 31, 30, .RO, fun _ => 0x0⟩
/-- ID_MBX_CTL.REFUSED (R437). -/
def ID_MBX_CTL.REFUSED : Fld := ⟨.ID_MBX_CTL, 29, 29, .W1C, fun _ => 0x0⟩
/-- ID_MBX_CTL.SEQ (R437). -/
def ID_MBX_CTL.SEQ : Fld := ⟨.ID_MBX_CTL, 23, 16, .RO, fun _ => 0x00⟩
/-- ID_MBX_CTL.RELEASE (R437). -/
def ID_MBX_CTL.RELEASE : Fld := ⟨.ID_MBX_CTL, 3, 3, .WO, fun _ => 0x0⟩
/-- ID_MBX_CTL.DONE (R437). -/
def ID_MBX_CTL.DONE : Fld := ⟨.ID_MBX_CTL, 2, 2, .WO, fun _ => 0x0⟩
/-- ID_MBX_CTL.TAKE (R437). -/
def ID_MBX_CTL.TAKE : Fld := ⟨.ID_MBX_CTL, 1, 1, .WO, fun _ => 0x0⟩
/-- ID_MBX_CTL.POST (R437). -/
def ID_MBX_CTL.POST : Fld := ⟨.ID_MBX_CTL, 0, 0, .WO, fun _ => 0x0⟩
/-- ID_MBX_DATA.DATA (R437). -/
def ID_MBX_DATA.DATA : Fld := ⟨.ID_MBX_DATA, 31, 0, .RW, fun _ => 0x00000000⟩
/-- ID_BOOT_STAT.STEP (R460). -/
def ID_BOOT_STAT.STEP : Fld := ⟨.ID_BOOT_STAT, 31, 28, .RO, fun _ => 0x0⟩
/-- ID_BOOT_STAT.LATCH (R460). -/
def ID_BOOT_STAT.LATCH : Fld := ⟨.ID_BOOT_STAT, 27, 27, .RO, fun _ => 0x0⟩
/-- ID_BOOT_STAT.KIND (R460). -/
def ID_BOOT_STAT.KIND : Fld := ⟨.ID_BOOT_STAT, 25, 24, .RO, fun _ => 0x0⟩
/-- ID_BOOT_STAT.START_MASK (R460). -/
def ID_BOOT_STAT.START_MASK : Fld := ⟨.ID_BOOT_STAT, 23, 20, .RO, fun _ => 0x0⟩
/-- ID_BOOT_STAT.BOOT_US (R460). -/
def ID_BOOT_STAT.BOOT_US : Fld := ⟨.ID_BOOT_STAT, 19, 0, .RO, fun _ => 0x00000⟩
/-- ID_RST_CTL.KEY (R460). -/
def ID_RST_CTL.KEY : Fld := ⟨.ID_RST_CTL, 31, 24, .WO, fun _ => 0x00⟩
/-- ID_RST_CTL.KIND (R460). -/
def ID_RST_CTL.KIND : Fld := ⟨.ID_RST_CTL, 1, 0, .WO, fun _ => 0x0⟩
/-- ID_RST_STAT.REFUSED (R460). -/
def ID_RST_STAT.REFUSED : Fld := ⟨.ID_RST_STAT, 31, 31, .W1C, fun _ => 0x0⟩
/-- ID_RST_STAT.REQUESTER (R460). -/
def ID_RST_STAT.REQUESTER : Fld := ⟨.ID_RST_STAT, 27, 26, .RO, fun _ => 0x0⟩
/-- ID_RST_STAT.FULL_PEND (R460). -/
def ID_RST_STAT.FULL_PEND : Fld := ⟨.ID_RST_STAT, 25, 25, .RO, fun _ => 0x0⟩
/-- ID_RST_STAT.COUNT (R460). -/
def ID_RST_STAT.COUNT : Fld := ⟨.ID_RST_STAT, 15, 0, .RO, fun _ => 0x0000⟩
/-- ID_PWR_CTL.FS_EN (R460). -/
def ID_PWR_CTL.FS_EN : Fld := ⟨.ID_PWR_CTL, 31, 31, .RW, fun _ => 0x0⟩
/-- ID_PWR_CTL.HOST_RUN (R460). -/
def ID_PWR_CTL.HOST_RUN : Fld := ⟨.ID_PWR_CTL, 30, 30, .RW, fun _ => 0x0⟩
/-- ID_PWR_CTL.SHUTDOWN (R460). -/
def ID_PWR_CTL.SHUTDOWN : Fld := ⟨.ID_PWR_CTL, 29, 29, .WO, fun _ => 0x0⟩
/-- ID_PWR_CTL.SD_WAIT (R460). -/
def ID_PWR_CTL.SD_WAIT : Fld := ⟨.ID_PWR_CTL, 7, 0, .RW, fun _ => 0x0A⟩
/-- ID_PWR_STAT.PWR_EN (R460). -/
def ID_PWR_STAT.PWR_EN : Fld := ⟨.ID_PWR_STAT, 31, 31, .RO, fun _ => 0x0⟩
/-- ID_PWR_STAT.VIB_GOOD (R460). -/
def ID_PWR_STAT.VIB_GOOD : Fld := ⟨.ID_PWR_STAT, 30, 30, .RO, fun _ => 0x0⟩
/-- ID_PWR_STAT.FS_ON (R460). -/
def ID_PWR_STAT.FS_ON : Fld := ⟨.ID_PWR_STAT, 29, 29, .RO, fun _ => 0x0⟩
/-- ID_PWR_STAT.HOST_RESET (R460). -/
def ID_PWR_STAT.HOST_RESET : Fld := ⟨.ID_PWR_STAT, 28, 28, .RO, fun _ => 0x1⟩
/-- ID_PWR_STAT.XCAL (R460). -/
def ID_PWR_STAT.XCAL : Fld := ⟨.ID_PWR_STAT, 27, 26, .RO, fun _ => 0x0⟩
/-- ID_PWR_STAT.SD (R460). -/
def ID_PWR_STAT.SD : Fld := ⟨.ID_PWR_STAT, 25, 24, .RO, fun _ => 0x0⟩
/-- ID_PWR_STAT.SD_DOMAIN (R460). -/
def ID_PWR_STAT.SD_DOMAIN : Fld := ⟨.ID_PWR_STAT, 23, 22, .RO, fun _ => 0x0⟩
/-- ID_PWR_STAT.FS_REFUSED (R460). -/
def ID_PWR_STAT.FS_REFUSED : Fld := ⟨.ID_PWR_STAT, 3, 3, .W1C, fun _ => 0x0⟩
/-- ID_PWR_STAT.RUN_REFUSED (R460). -/
def ID_PWR_STAT.RUN_REFUSED : Fld := ⟨.ID_PWR_STAT, 2, 2, .W1C, fun _ => 0x0⟩
/-- ID_BOOT_ENTRY.ENTRY (R460). -/
def ID_BOOT_ENTRY.ENTRY : Fld := ⟨.ID_BOOT_ENTRY, 14, 0, .RO, fun _ => 0x0000⟩
/-- ID_FLASH_CTL.GO (R490). -/
def ID_FLASH_CTL.GO : Fld := ⟨.ID_FLASH_CTL, 31, 31, .WO, fun _ => 0x0⟩
/-- ID_FLASH_CTL.OP (R490). -/
def ID_FLASH_CTL.OP : Fld := ⟨.ID_FLASH_CTL, 30, 28, .RW, fun _ => 0x0⟩
/-- ID_FLASH_ADDR.ADDR (R490). -/
def ID_FLASH_ADDR.ADDR : Fld := ⟨.ID_FLASH_ADDR, 31, 0, .RW, fun _ => 0x00000000⟩
/-- ID_FLASH_MEM.MEM (R490). -/
def ID_FLASH_MEM.MEM : Fld := ⟨.ID_FLASH_MEM, 31, 0, .RW, fun _ => 0x00000000⟩
/-- ID_FLASH_LEN.LEN (R490). -/
def ID_FLASH_LEN.LEN : Fld := ⟨.ID_FLASH_LEN, 20, 0, .RW, fun _ => 0x000000⟩
/-- ID_FLASH_STAT.BUSY (R490). -/
def ID_FLASH_STAT.BUSY : Fld := ⟨.ID_FLASH_STAT, 31, 31, .RO, fun _ => 0x0⟩
/-- ID_FLASH_STAT.ERR (R490). -/
def ID_FLASH_STAT.ERR : Fld := ⟨.ID_FLASH_STAT, 27, 24, .RO, fun _ => 0x0⟩
/-- ID_FLASH_STAT.MHZ (R490). -/
def ID_FLASH_STAT.MHZ : Fld := ⟨.ID_FLASH_STAT, 15, 8, .RO, fun _ => 0x19⟩
/-- ID_FLASH_STAT.SIZE (R490). -/
def ID_FLASH_STAT.SIZE : Fld := ⟨.ID_FLASH_STAT, 7, 0, .RO, fun _ => 0x00⟩
/-- ID_PMB_CFG.WP (R490). -/
def ID_PMB_CFG.WP : Fld := ⟨.ID_PMB_CFG, 31, 31, .RO, fun _ => 1⟩
/-- ID_PMB_CFG.ADDR (R490). -/
def ID_PMB_CFG.ADDR : Fld := ⟨.ID_PMB_CFG, 22, 16, .RO, fun _ => 0x4C⟩
/-- ID_PMB_CFG.PAGE (R490). -/
def ID_PMB_CFG.PAGE : Fld := ⟨.ID_PMB_CFG, 15, 8, .RO, fun _ => 0x00⟩
/-- ID_PMB_CFG.REFUSED (R490). -/
def ID_PMB_CFG.REFUSED : Fld := ⟨.ID_PMB_CFG, 7, 0, .RC, fun _ => 0x00⟩
/-- STG_CTL.DIE_MASK (R490). -/
def STG_CTL.DIE_MASK : Fld := ⟨.STG_CTL, 31, 16, .RW, fun _ => 0xFFFF⟩
/-- STG_CTL.VIB_SET (R490). -/
def STG_CTL.VIB_SET : Fld := ⟨.STG_CTL, 5, 0, .RW, fun _ => 0x14⟩
/-- STG_STAT.READY (R490). -/
def STG_STAT.READY : Fld := ⟨.STG_STAT, 31, 16, .RO, fun _ => 0x0000⟩
/-- STG_STAT.UNAVAIL (R490). -/
def STG_STAT.UNAVAIL : Fld := ⟨.STG_STAT, 15, 0, .RO, fun _ => 0x0000⟩
/-- STG_SUM.CAP_A (R490). -/
def STG_SUM.CAP_A : Fld := ⟨.STG_SUM, 31, 16, .RO, fun _ => 0x0000⟩
/-- STG_SUM.DRAW_A (R490). -/
def STG_SUM.DRAW_A : Fld := ⟨.STG_SUM, 15, 0, .RO, fun _ => 0x0000⟩
/-- STG_ERR.CRC_ERR (R490). -/
def STG_ERR.CRC_ERR : Fld := ⟨.STG_ERR, 31, 16, .RC, fun _ => 0x0000⟩
/-- STG_ERR.TIMEOUTS (R490). -/
def STG_ERR.TIMEOUTS : Fld := ⟨.STG_ERR, 15, 0, .RC, fun _ => 0x0000⟩
/-- STG_DIE_STAT.READY (R490). -/
def STG_DIE_STAT.READY : Fld := ⟨.STG_DIE_STAT, 31, 31, .RO, fun _ => 0x0⟩
/-- STG_DIE_STAT.LOST (R490). -/
def STG_DIE_STAT.LOST : Fld := ⟨.STG_DIE_STAT, 30, 30, .RO, fun _ => 0x0⟩
/-- STG_DIE_STAT.FAULT (R490). -/
def STG_DIE_STAT.FAULT : Fld := ⟨.STG_DIE_STAT, 29, 29, .RO, fun _ => 0x0⟩
/-- STG_DIE_STAT.FCODE (R490). -/
def STG_DIE_STAT.FCODE : Fld := ⟨.STG_DIE_STAT, 23, 16, .RO, fun _ => 0x00⟩
/-- STG_DIE_STAT.T (R490). -/
def STG_DIE_STAT.T : Fld := ⟨.STG_DIE_STAT, 15, 0, .RO, fun _ => 0x0000⟩
/-- STG_DIE_MEAS.VIN (R490). -/
def STG_DIE_MEAS.VIN : Fld := ⟨.STG_DIE_MEAS, 31, 16, .RO, fun _ => 0x0000⟩
/-- STG_DIE_MEAS.IOUT (R490). -/
def STG_DIE_MEAS.IOUT : Fld := ⟨.STG_DIE_MEAS, 15, 0, .RO, fun _ => 0x0000⟩
/-- ID_VENDOR.VENDOR (R494). -/
def ID_VENDOR.VENDOR : Fld := ⟨.ID_VENDOR, 31, 16, .RO, fun _ => 0xAE15⟩
/-- ID_VENDOR.PART (R494). -/
def ID_VENDOR.PART : Fld := ⟨.ID_VENDOR, 15, 0, .RO, fun _ => 0xD2C2⟩
/-- ID_VERSION.MAJOR (R494). -/
def ID_VERSION.MAJOR : Fld := ⟨.ID_VERSION, 31, 24, .RO, fun _ => 0x02⟩
/-- ID_VERSION.MINOR (R494). -/
def ID_VERSION.MINOR : Fld := ⟨.ID_VERSION, 23, 16, .RO, fun _ => 0x00⟩
/-- ID_VERSION.STEP (R494). -/
def ID_VERSION.STEP : Fld := ⟨.ID_VERSION, 15, 8, .RO, fun _ => 0⟩
/-- ID_VERSION.MAP (R494). -/
def ID_VERSION.MAP : Fld := ⟨.ID_VERSION, 7, 0, .RO, fun _ => 0x01⟩
/-- ID_HOST.HOST (R494). -/
def ID_HOST.HOST : Fld := ⟨.ID_HOST, 31, 16, .RO, fun _ => 0x5358⟩
/-- ID_FUSE.JTAG_DBG (R494). -/
def ID_FUSE.JTAG_DBG : Fld := ⟨.ID_FUSE, 2, 2, .RO, fun _ => 0⟩
/-- ID_FUSE.PMB_WP (R494). -/
def ID_FUSE.PMB_WP : Fld := ⟨.ID_FUSE, 1, 1, .RO, fun _ => 1⟩
/-- ID_FUSE.BOOT_MARCH (R494). -/
def ID_FUSE.BOOT_MARCH : Fld := ⟨.ID_FUSE, 0, 0, .RO, fun _ => 1⟩
/-- ID_SERIAL.SERIAL (R494). -/
def ID_SERIAL.SERIAL : Fld := ⟨.ID_SERIAL, 31, 0, .RO, fun _ => 0⟩
/-- ID_LOCK.LOCK (R494). -/
def ID_LOCK.LOCK : Fld := ⟨.ID_LOCK, 31, 31, .RO, fun _ => 0x0⟩
/-- ID_LOCK.SET_LOCK (R494). -/
def ID_LOCK.SET_LOCK : Fld := ⟨.ID_LOCK, 0, 0, .WO, fun _ => 0x0⟩
/-- ID_LOCK_VIOL.COUNT (R494). -/
def ID_LOCK_VIOL.COUNT : Fld := ⟨.ID_LOCK_VIOL, 31, 16, .RC, fun _ => 0x0000⟩
/-- ID_LOCK_VIOL.MASTER (R494). -/
def ID_LOCK_VIOL.MASTER : Fld := ⟨.ID_LOCK_VIOL, 2, 0, .RO, fun _ => 0x0⟩
/-- ID_LOCK_ADDR.ADDR (R494). -/
def ID_LOCK_ADDR.ADDR : Fld := ⟨.ID_LOCK_ADDR, 31, 0, .RO, fun _ => 0x00000000⟩
/-- ID_ERR_CNT.COUNT (R494). -/
def ID_ERR_CNT.COUNT : Fld := ⟨.ID_ERR_CNT, 31, 16, .RC, fun _ => 0x0000⟩
/-- ID_ERR_CNT.CAUSE (R494). -/
def ID_ERR_CNT.CAUSE : Fld := ⟨.ID_ERR_CNT, 2, 0, .RO, fun _ => 0x0⟩
/-- ID_ERR_ADDR.ADDR (R494). -/
def ID_ERR_ADDR.ADDR : Fld := ⟨.ID_ERR_ADDR, 31, 0, .RO, fun _ => 0x00000000⟩
/-- ID_CAP0.FIELDS (R494). -/
def ID_CAP0.FIELDS : Fld := ⟨.ID_CAP0, 31, 28, .RO, fun _ => 0x8⟩
/-- ID_CAP0.DOMAINS (R494). -/
def ID_CAP0.DOMAINS : Fld := ⟨.ID_CAP0, 27, 24, .RO, fun _ => 0x4⟩
/-- ID_CAP0.CREWS (R494). -/
def ID_CAP0.CREWS : Fld := ⟨.ID_CAP0, 23, 16, .RO, fun _ => 0xC0⟩
/-- ID_CAP0.PLANES (R494). -/
def ID_CAP0.PLANES : Fld := ⟨.ID_CAP0, 15, 8, .RO, fun _ => 0x20⟩
/-- ID_CAP0.LANES (R494). -/
def ID_CAP0.LANES : Fld := ⟨.ID_CAP0, 7, 4, .RO, fun _ => 0x8⟩
/-- ID_CAP0.SUPERS (R494). -/
def ID_CAP0.SUPERS : Fld := ⟨.ID_CAP0, 3, 0, .RO, fun _ => 0x4⟩
/-- ID_CAP1.SENSORS (R494). -/
def ID_CAP1.SENSORS : Fld := ⟨.ID_CAP1, 31, 20, .RO, fun _ => 0x3C0⟩
/-- ID_CAP1.PORTS (R494). -/
def ID_CAP1.PORTS : Fld := ⟨.ID_CAP1, 19, 12, .RO, fun _ => 0x80⟩
/-- ID_CAP1.WINDOWS (R494). -/
def ID_CAP1.WINDOWS : Fld := ⟨.ID_CAP1, 11, 4, .RO, fun _ => 0x40⟩
/-- ID_CAP2.CM_MIB (R494). -/
def ID_CAP2.CM_MIB : Fld := ⟨.ID_CAP2, 31, 24, .RO, fun _ => 0x04⟩
/-- ID_CAP2.PS_KIB (R494). -/
def ID_CAP2.PS_KIB : Fld := ⟨.ID_CAP2, 23, 12, .RO, fun _ => 0x200⟩
/-- ID_CAP2.FS_DIES (R494). -/
def ID_CAP2.FS_DIES : Fld := ⟨.ID_CAP2, 11, 7, .RO, fun _ => 0x10⟩
/-- ID_CAP3.MEMBERS (R494). -/
def ID_CAP3.MEMBERS : Fld := ⟨.ID_CAP3, 31, 16, .RO, fun _ => 0x1000⟩
/-- ID_CAP3.TILES (R494). -/
def ID_CAP3.TILES : Fld := ⟨.ID_CAP3, 15, 0, .RO, fun _ => 0x2400⟩

/-- The fields of each register, high bits first. -/
def Reg.fields : Reg → List Fld
  | .DESC_W0 => [DESC_W0.KIND, DESC_W0.VALID, DESC_W0.PARENT, DESC_W0.UNIT_ID]
  | .DESC_W1 => [DESC_W1.LIST, DESC_W1.STRIDE, DESC_W1.COUNT, DESC_W1.FIRST]
  | .DESC_W2 => [DESC_W2.LIST_PTR]
  | .DESC_W3 => [DESC_W3.PEAK_RATING, DESC_W3.CONT_RATING]
  | .DESC_W4 => [DESC_W4.WIN_EMPTY, DESC_W4.VMAX_CODE, DESC_W4.VMIN_CODE]
  | .DESC_W5 => [DESC_W5.REGION, DESC_W5.FIELD_MASK, DESC_W5.DOMAIN_MASK, DESC_W5.STRUCK, DESC_W5.FUSED, DESC_W5.ACTIVE_PHASES]
  | .DESC_W6 => [DESC_W6.GEN, DESC_W6.STATUS, DESC_W6.GRANTED, DESC_W6.LANE]
  | .DESC_W7 => [DESC_W7.GROUP_REFS, DESC_W7.DEPTH, DESC_W7.PROG_REFS]
  | .ID_UOP_LO => [ID_UOP_LO.IMM32]
  | .ID_UOP_HI => [ID_UOP_HI.OPCODE, ID_UOP_HI.PRED, ID_UOP_HI.UNIT, ID_UOP_HI.RD, ID_UOP_HI.RS]
  | .ID_UOP_CTL => [ID_UOP_CTL.GO]
  | .ID_UOP_STAT => [ID_UOP_STAT.BUSY, ID_UOP_STAT.RESULT, ID_UOP_STAT.ISSUED]
  | .CREW_MOD_CTL => [CREW_MOD_CTL.K_ON, CREW_MOD_CTL.RIPPLE, CREW_MOD_CTL.DITHER_DEPTH, CREW_MOD_CTL.BAL_EN]
  | .CREW_RING_CTL => [CREW_RING_CTL.ROT_EN, CREW_RING_CTL.STROKE_OD, CREW_RING_CTL.SPACING]
  | .CREW_RING_STAT => [CREW_RING_STAT.ACTIVE_MASK, CREW_RING_STAT.ACTIVE_COUNT, CREW_RING_STAT.HOLD, CREW_RING_STAT.STEP_EVENT, CREW_RING_STAT.STROKE, CREW_RING_STAT.POINTER]
  | .CREW_STEP_CNT => [CREW_STEP_CNT.STEPS]
  | .CREW_HOLD_CNT => [CREW_HOLD_CNT.HOLDS]
  | .CREW_FSC_CTL => [CREW_FSC_CTL.TRIP_MAX, CREW_FSC_CTL.BLANK, CREW_FSC_CTL.LIMIT]
  | .CREW_DEAD_CTL => [CREW_DEAD_CTL.NC_MAX]
  | .CREW_OVL_CTL => [CREW_OVL_CTL.FOLD_LEVEL]
  | .CREW_OVL_STAT => [CREW_OVL_STAT.FOLD_OFFSET, CREW_OVL_STAT.FLOOR, CREW_OVL_STAT.FOLD]
  | .CREW_OVL_FILT => [CREW_OVL_FILT.FILT_MA]
  | .CREW_OVL_CNT => [CREW_OVL_CNT.FOLDS]
  | .CREW_PH_STATE => [CREW_PH_STATE.STICKY, CREW_PH_STATE.STRUCK, CREW_PH_STATE.FUSED, CREW_PH_STATE.BLANKED]
  | .CREW_PH_CAUSE => [CREW_PH_CAUSE.OT_LIVE, CREW_PH_CAUSE.CAUSE]
  | .CREW_PH_RESTORE => [CREW_PH_RESTORE.RESTORE]
  | .CREW_PH_RESTORE_STAT => [CREW_PH_RESTORE_STAT.RESULT]
  | .CREW_DITHER_SEED => [CREW_DITHER_SEED.SEED]
  | .CREW_GATE_TB => [CREW_GATE_TB.SLEW, CREW_GATE_TB.DT_F, CREW_GATE_TB.DT_R, CREW_GATE_TB.LS_DRV, CREW_GATE_TB.HS_DRV]
  | .CREW_GATE_SEL => [CREW_GATE_SEL.BAND]
  | .CREW_PH_TRIM => [CREW_PH_TRIM.TRIM]
  | .CREW_PH_CNT => [CREW_PH_CNT.FSC_TRIPS, CREW_PH_CNT.NC_RUN]
  | .CREW_AB_CTL => [CREW_AB_CTL.PHASE, CREW_AB_CTL.B_SEL, CREW_AB_CTL.A_SEL, CREW_AB_CTL.MODE]
  | .CREW_AB_STAT => [CREW_AB_STAT.TRIG_DROPS, CREW_AB_STAT.SENSE, CREW_AB_STAT.MODE_REFUSED, CREW_AB_STAT.B_OVR, CREW_AB_STAT.A_OVR, CREW_AB_STAT.MODE_ACT]
  | .CREW_AB => [CREW_AB.NEW, CREW_AB.OVR, CREW_AB.INPUT, CREW_AB.MODE, CREW_AB.SAMPLE]
  | .CREW_AB_TRIG => [CREW_AB_TRIG.FIRE, CREW_AB_TRIG.DELAY, CREW_AB_TRIG.PDIV, CREW_AB_TRIG.SRC]
  | .CREW_AB_TRIM => [CREW_AB_TRIM.SKEW, CREW_AB_TRIM.B_GAIN, CREW_AB_TRIM.A_GAIN, CREW_AB_TRIM.B_OFS, CREW_AB_TRIM.A_OFS]
  | .CREW_AB_OVR_CNT => [CREW_AB_OVR_CNT.B_OVRS, CREW_AB_OVR_CNT.A_OVRS]
  | .CREW_H_CTL => [CREW_H_CTL.GAIN, CREW_H_CTL.STIME, CREW_H_CTL.CH, CREW_H_CTL.ALIGN, CREW_H_CTL.SEQ_LEN, CREW_H_CTL.MODE]
  | .CREW_H_STAT => [CREW_H_STAT.ENTRY, CREW_H_STAT.URG_BUSY, CREW_H_STAT.REF_SETTLED, CREW_H_STAT.MODE_REFUSED, CREW_H_STAT.REF_FAIL, CREW_H_STAT.PREEMPTS]
  | .CREW_H_REF => [CREW_H_REF.REF_SEL]
  | .CREW_OW_CTL => [CREW_OW_CTL.CONFIRM, CREW_OW_CTL.RETRY, CREW_OW_CTL.BG_EN]
  | .CREW_OW_STAT => [CREW_OW_STAT.DV_NEG, CREW_OW_STAT.DV_POS, CREW_OW_STAT.SUSPECT, CREW_OW_STAT.CONFIRM_RUN, CREW_OW_STAT.OPEN_NEG, CREW_OW_STAT.OPEN_POS]
  | .CREW_H_GTRIM0 => [CREW_H_GTRIM0.TB0_3]
  | .CREW_H_GTRIM1 => [CREW_H_GTRIM1.TB4_5]
  | .CREW_H_SEQ => [CREW_H_SEQ.GAIN, CREW_H_SEQ.STIME, CREW_H_SEQ.CH]
  | .CREW_H_RES => [CREW_H_RES.VALID, CREW_H_RES.SAT, CREW_H_RES.UNSETTLED, CREW_H_RES.URGENT, CREW_H_RES.GAIN, CREW_H_RES.COUNT, CREW_H_RES.RESULT]
  | .CREW_DP_CTL => [CREW_DP_CTL.WARN_TH, CREW_DP_CTL.IFILT_K, CREW_DP_CTL.RESUME]
  | .CREW_DP_STAT => [CREW_DP_STAT.LAW, CREW_DP_STAT.COMMIT_PEND, CREW_DP_STAT.RESUME_STAT, CREW_DP_STAT.AUTO_REGION, CREW_DP_STAT.REGION, CREW_DP_STAT.PB, CREW_DP_STAT.CB, CREW_DP_STAT.MISS_RUN]
  | .CREW_DP_GS => [CREW_DP_GS.FORCE, CREW_DP_GS.FORCE_REGION]
  | .CREW_DP_EDGES => [CREW_DP_EDGES.E3, CREW_DP_EDGES.E2, CREW_DP_EDGES.E1]
  | .CREW_DP_COMMIT => [CREW_DP_COMMIT.MASK]
  | .CREW_DP_COMMIT_ERR => [CREW_DP_COMMIT_ERR.ERR]
  | .CREW_DP_LLS => [CREW_DP_LLS.LLS]
  | .CREW_DP_TRIM => [CREW_DP_TRIM.TRIM]
  | .CREW_DP_IFILT => [CREW_DP_IFILT.I_F]
  | .CREW_DP_OUT => [CREW_DP_OUT.U]
  | .CREW_DP_IINIT => [CREW_DP_IINIT.IINIT]
  | .CREW_DP_MISS_CNT => [CREW_DP_MISS_CNT.MISSES]
  | .CREW_DP_MISS_WIN => [CREW_DP_MISS_WIN.WIN]
  | .CREW_DP_TIME => [CREW_DP_TIME.TMAX, CREW_DP_TIME.TLAST, CREW_DP_TIME.SLOW_CNT]
  | .CREW_DP_FALLBACKS => [CREW_DP_FALLBACKS.SHADOW_LATE, CREW_DP_FALLBACKS.FB_ENTRIES]
  | .CREW_SP_STAT => [CREW_SP_STAT.TARGET, CREW_SP_STAT.SLEW, CREW_SP_STAT.SLEWING, CREW_SP_STAT.DIR, CREW_SP_STAT.OPEN_OFS]
  | .CREW_SP_REF => [CREW_SP_REF.REF]
  | .CREW_SP_SEQ => [CREW_SP_SEQ.ACCEPTED, CREW_SP_SEQ.DONE_SEQ]
  | .CREW_SP_SUP_CNT => [CREW_SP_SUP_CNT.SUPERSEDED]
  | .SLOT_SHADOW => [SLOT_SHADOW.W]
  | .SLOT_ACTIVE => [SLOT_ACTIVE.W]
  | .CREW_SH_CTL => [CREW_SH_CTL.AT_LIM, CREW_SH_CTL.PART, CREW_SH_CTL.TRIM_MAX, CREW_SH_CTL.DB]
  | .CREW_TR_CTL => [CREW_TR_CTL.STR_EN, CREW_TR_CTL.RES_EN, CREW_TR_CTL.CLAMP_EN, CREW_TR_CTL.DROOP_EN, CREW_TR_CTL.I_CLAMP, CREW_TR_CTL.OV_TH, CREW_TR_CTL.DROOP_TH]
  | .CREW_TR_STAT => [CREW_TR_STAT.CLAMP_ON, CREW_TR_STAT.DROOP, CREW_TR_STAT.ARM_PEND, CREW_TR_STAT.RES_READY]
  | .CREW_TR_CNT => [CREW_TR_CNT.DROOPS, CREW_TR_CNT.DUMPS, CREW_TR_CNT.CLAMPS, CREW_TR_CNT.ARM_SKIPS]
  | .CREW_GB_CTL => [CREW_GB_CTL.GB_FC, CREW_GB_CTL.GB_DEF, CREW_GB_CTL.HMIN]
  | .CREW_GB_STAT => [CREW_GB_STAT.FLOOR, CREW_GB_STAT.GB, CREW_GB_STAT.COVERED, CREW_GB_STAT.AGE_VALID, CREW_GB_STAT.RAISED, CREW_GB_STAT.UNREACH]
  | .CREW_PWR_CTL => [CREW_PWR_CTL.IDLE, CREW_PWR_CTL.SS_SLEW, CREW_PWR_CTL.UNLOCK, CREW_PWR_CTL.REJOIN, CREW_PWR_CTL.STAND_KIND, CREW_PWR_CTL.STAND]
  | .CREW_PWR_STAT => [CREW_PWR_STAT.STATE, CREW_PWR_STAT.STAND_RES, CREW_PWR_STAT.TRIES, CREW_PWR_STAT.FORCED, CREW_PWR_STAT.ADMIT_ROUNDS]
  | .CREW_VMIN => [CREW_VMIN.TICKS, CREW_VMIN.SENSE, CREW_VMIN.REARM, CREW_VMIN.VMIN]
  | .CREW_VMIN_MARK => [CREW_VMIN_MARK.MARK]
  | .CAP_MON_AGE_SLACK => [CAP_MON_AGE_SLACK.SLACK]
  | .CAP_MON_AGE_TRIM => [CAP_MON_AGE_TRIM.FACTORY, CAP_MON_AGE_TRIM.TRIM]
  | .CAP_MON_AGE_CTL => [CAP_MON_AGE_CTL.DIE_REARM, CAP_MON_AGE_CTL.VALID]
  | .CAP_MON_DIE_VMIN => [CAP_MON_DIE_VMIN.CREW, CAP_MON_DIE_VMIN.TICKS, CAP_MON_DIE_VMIN.VMIN]
  | .CAP_MON_DIE_VMIN_MARK => [CAP_MON_DIE_VMIN_MARK.MARK]
  | .FCW_CFG => [FCW_CFG.EN, FCW_CFG.KEEP, FCW_CFG.CREDITS, FCW_CFG.MIN_LEAD, FCW_CFG.SUPER, FCW_CFG.OWNER]
  | .FCW_RING => [FCW_RING.BASE]
  | .FCW_STAT => [FCW_STAT.STATE, FCW_STAT.CFG_ERR, FCW_STAT.STAMPS_VALID, FCW_STAT.END_OPEN, FCW_STAT.OUT, FCW_STAT.SHORTS, FCW_STAT.DISCARDS]
  | .FCW_ARRIVALS => [FCW_ARRIVALS.ARRIVALS]
  | .FCW_PTR => [FCW_PTR.WR, FCW_PTR.RD]
  | .FCW_EARLY => [FCW_EARLY.MARK]
  | .FCW_LATE => [FCW_LATE.MARK]
  | .FCW_END => [FCW_END.MARK]
  | .FCW_TICKS => [FCW_TICKS.END, FCW_TICKS.LATE, FCW_TICKS.EARLY]
  | .FCW_SUM => [FCW_SUM.SUM]
  | .MSH_CTL => [MSH_CTL.MODE, MSH_CTL.SCOPE, MSH_CTL.BUDGET, MSH_CTL.SPACING, MSH_CTL.STALL_TO]
  | .MSH_STAT => [MSH_STAT.SEQ, MSH_STAT.QUEUED, MSH_STAT.Q_STEP]
  | .MSH_HEAT_CNT => [MSH_HEAT_CNT.HEATS]
  | .MSH_REQ_CNT => [MSH_REQ_CNT.DUPS, MSH_REQ_CNT.STALLS]
  | .MSH_REG_CFG => [MSH_REG_CFG.RATE, MSH_REG_CFG.PERIOD]
  | .MSH_XMAP => [MSH_XMAP.MAP]
  | .MSH_STR_CNT => [MSH_STR_CNT.STRETCHES]
  | .MSH_STR_MARK => [MSH_STR_MARK.ALIGN, MSH_STR_MARK.DROOP]
  | .MSH_ALIGN_CTL => [MSH_ALIGN_CTL.ALIGN_EN, MSH_ALIGN_CTL.ALIGN_TH]
  | .LANE_CTL => [LANE_CTL.UNLOAD, LANE_CTL.STOP, LANE_CTL.START]
  | .LANE_ARG => [LANE_ARG.ARG]
  | .LANE_STAT => [LANE_STAT.STATE, LANE_STAT.FAULT, LANE_STAT.CTL_REFUSED, LANE_STAT.PC]
  | .LANE_IMAGE => [LANE_IMAGE.COUNT, LANE_IMAGE.BASE]
  | .LANE_GRANT => [LANE_GRANT.CREWS]
  | .LANE_GRANTX => [LANE_GRANTX.REGATTA, LANE_GRANTX.FIELDS]
  | .LANE_LOAD_STAT => [LANE_LOAD_STAT.REASON, LANE_LOAD_STAT.IS_UNIT, LANE_LOAD_STAT.INDEX]
  | .LANE_SIG => [LANE_SIG.SIG]
  | .LANE_WDOG => [LANE_WDOG.REMAIN]
  | .LANE_ISSUE_CNT => [LANE_ISSUE_CNT.ISSUED]
  | .LANE_JOB => [LANE_JOB.JOB_ID]
  | .CAP_CTL => [CAP_CTL.UP_INT, CAP_CTL.THR_INT, CAP_CTL.RATE_MIN]
  | .CAP_STAT => [CAP_STAT.MODE, CAP_STAT.FLOOR_HELD, CAP_STAT.CFG_ERR, CAP_STAT.BIND_SUS, CAP_STAT.BIND_10MS, CAP_STAT.BIND_1MS, CAP_STAT.GOVERN, CAP_STAT.THROTTLE, CAP_STAT.CEIL_BOUND]
  | .CAP_LIM => [CAP_LIM.MAX, CAP_LIM.LIMIT]
  | .CAP_VALS => [CAP_VALS.VALUE]
  | .CAP_OVR_CNT => [CAP_OVR_CNT.SUS, CAP_OVR_CNT.M10, CAP_OVR_CNT.M1]
  | .CAP_CLASS => [CAP_CLASS.CEIL, CAP_CLASS.FLOOR]
  | .CAP_CLASS_HW => [CAP_CLASS_HW.HW_FLOOR]
  | .CAP_ALLOC => [CAP_ALLOC.DEMAND, CAP_ALLOC.ALLOC]
  | .CAP_PLANE => [CAP_PLANE.MEAS, CAP_PLANE.ALLOW]
  | .CAP_RATE_REG => [CAP_RATE_REG.THM, CAP_RATE_REG.CAP, CAP_RATE_REG.FW]
  | .CAP_HEAT => [CAP_HEAT.BUDGET]
  | .EST_CTL => [EST_CTL.FW_LOAD, EST_CTL.SRC]
  | .EST_STAT => [EST_STAT.RUN, EST_STAT.OK, EST_STAT.LOAD_REASON, EST_STAT.PERIOD, EST_STAT.NOT_CONV]
  | .EST_FW_ADDR => [EST_FW_ADDR.ADDR]
  | .EST_MODELS => [EST_MODELS.FW, EST_MODELS.LANES]
  | .EST_MACS => [EST_MACS.MACS]
  | .EST_MISS_CNT => [EST_MISS_CNT.MISSES]
  | .EST_DUMP => [EST_DUMP.EN, EST_DUMP.PTR]
  | .EST_CREW_EST => [EST_CREW_EST.MW]
  | .EST_CREW_MEAS => [EST_CREW_MEAS.MW]
  | .EST_CREW_CAL => [EST_CREW_CAL.GAIN, EST_CREW_CAL.OFFSET]
  | .EST_CREW_STAT => [EST_CREW_STAT.UNCONV, EST_CREW_STAT.DIV, EST_CREW_STAT.ERR_WIN, EST_CREW_STAT.CONV_CNT]
  | .THM_CTL => [THM_CTL.MODE, THM_CTL.HELD_RATE, THM_CTL.GRACE, THM_CTL.ENF_INT, THM_CTL.RATE_MIN]
  | .THM_STAT => [THM_STAT.COOLANT, THM_STAT.STOPPING, THM_STAT.STOP_KIND, THM_STAT.CFG_ERR, THM_STAT.THROTTLE]
  | .THM_THRESH0 => [THM_THRESH0.T_THROTTLE, THM_THRESH0.T_WARN]
  | .THM_THRESH1 => [THM_THRESH1.T_CRIT_MAX, THM_THRESH1.T_CRIT]
  | .THM_RISE => [THM_RISE.FAST, THM_RISE.SLOW]
  | .THM_DRC1 => [THM_DRC1.K]
  | .THM_LOG_STAT => [THM_LOG_STAT.BUSY, THM_LOG_STAT.FAIL, THM_LOG_STAT.FIRST_USED, THM_LOG_STAT.PENDING, THM_LOG_STAT.DROPPED, THM_LOG_STAT.NEXT_SLOT]
  | .THM_LOG_SEQ => [THM_LOG_SEQ.NEXT_SEQ]
  | .THM_REG => [THM_REG.T_R, THM_REG.BAND, THM_REG.ENFORCE, THM_REG.GRACE, THM_REG.HELD, THM_REG.SLOW, THM_REG.WARN]
  | .THM_PLANE => [THM_PLANE.START, THM_PLANE.CEIL]
  | .THM_SENS => [THM_SENS.T, THM_SENS.RATE, THM_SENS.BROKEN, THM_SENS.SUBST, THM_SENS.CAUSE, THM_SENS.RETEST]
  | .THM_SUBST => [THM_SUBST.EN, THM_SUBST.RESULT, THM_SUBST.OFS, THM_SUBST.SUB]
  | .THM_POS => [THM_POS.Y, THM_POS.X]
  | .RGT_CTL => [RGT_CTL.EN, RGT_CTL.APPLY, RGT_CTL.FOLLOW, RGT_CTL.SLACK_SRC, RGT_CTL.PERIOD, RGT_CTL.HEADROOM, RGT_CTL.FOLLOW_MAX]
  | .RGT_GROUP => [RGT_GROUP.GROUP_ID, RGT_GROUP.SIZE]
  | .RGT_MEMBER => [RGT_MEMBER.SERVED, RGT_MEMBER.LEVELS, RGT_MEMBER.INDEX]
  | .RGT_LIMIT => [RGT_LIMIT.PMAX_EFF, RGT_LIMIT.PMAX]
  | .RGT_POOL => [RGT_POOL.POOL]
  | .RGT_STAT => [RGT_STAT.CONTACT, RGT_STAT.ROOT, RGT_STAT.FOLLOWING, RGT_STAT.CEILED, RGT_STAT.POOL_SHORT, RGT_STAT.CFG_ERR, RGT_STAT.ABSENT]
  | .RGT_GRANT => [RGT_GRANT.G]
  | .RGT_SLACK => [RGT_SLACK.NONE, RGT_SLACK.BAND, RGT_SLACK.SLACK]
  | .RGT_BAR_WAIT => [RGT_BAR_WAIT.WAIT]
  | .RGT_SLOW => [RGT_SLOW.S_IDX, RGT_SLOW.S_MAX, RGT_SLOW.S_OWN]
  | .RGT_CNT => [RGT_CNT.BAD_MSG, RGT_CNT.BAR_FULL]
  | .FLT_CTL => [FLT_CTL.PIN_CHECK, FLT_CTL.ALERT_FC1]
  | .FLT_STAT => [FLT_STAT.SAFE, FLT_STAT.SELF, FLT_STAT.SELF_CAUSE, FLT_STAT.FC3, FLT_STAT.FIRST_VALID, FLT_STAT.ALERT_PEND, FLT_STAT.PIN_P, FLT_STAT.PIN_N, FLT_STAT.FC2_OPEN]
  | .FLT_CLEAR => [FLT_CLEAR.ALL, FLT_CLEAR.INDEX]
  | .FLT_CLEAR_STAT => [FLT_CLEAR_STAT.CLEARED, FLT_CLEAR_STAT.RESULT]
  | .FLT_CNT => [FLT_CNT.FC3, FLT_CNT.FC2, FLT_CNT.FC1, FLT_CNT.FC0]
  | .FLT_DROP => [FLT_DROP.FC1, FLT_DROP.FC0]
  | .FLT_HIST_HEAD => [FLT_HIST_HEAD.NEXT_SEQ]
  | .FLT_INJECT0 => [FLT_INJECT0.CODE, FLT_INJECT0.SRC_KIND, FLT_INJECT0.SOURCE]
  | .FLT_INJECT1 => [FLT_INJECT1.INJ_ERR, FLT_INJECT1.GO]
  | .TB_CTL => [TB_CTL.HIST_CLR, TB_CTL.SYNC, TB_CTL.PERIOD]
  | .TB_STAT => [TB_STAT.CFG_ERR, TB_STAT.CAL_ERR, TB_STAT.CAL_BUSY, TB_STAT.CAL_BAD, TB_STAT.SLIPS]
  | .TB_NOW_MARK => [TB_NOW_MARK.MARK]
  | .TB_NOW_TICKS => [TB_NOW_TICKS.TICKS]
  | .TB_SNAP => [TB_SNAP.MARK]
  | .TB_SNAP_CTL => [TB_SNAP_CTL.REQ, TB_SNAP_CTL.BUSY, TB_SNAP_CTL.ERR, TB_SNAP_CTL.PTR]
  | .TB_CAL_CTL => [TB_CAL_CTL.ALL, TB_CAL_CTL.ONE, TB_CAL_CTL.CREW]
  | .TB_CAL => [TB_CAL.VALID, TB_CAL.FAIL, TB_CAL.RTT, TB_CAL.HOLD, TB_CAL.PHASE]
  | .CREW_VMAX => [CREW_VMAX.TICKS, CREW_VMAX.SENSE, CREW_VMAX.REARM, CREW_VMAX.VMAX]
  | .CREW_VMAX_MARK => [CREW_VMAX_MARK.MARK]
  | .CREW_HIST_CTL => [CREW_HIST_CTL.V_EN, CREW_HIST_CTL.T_EN, CREW_HIST_CTL.CLEAR, CREW_HIST_CTL.CLR_PEND]
  | .CREW_HIST_MARK => [CREW_HIST_MARK.MARK]
  | .CREW_HIST_V => [CREW_HIST_V.COUNT]
  | .CREW_HIST_T => [CREW_HIST_T.COUNT]
  | .CAP_MON_SCTL => [CAP_MON_SCTL.ARM, CAP_MON_SCTL.MODE, CAP_MON_SCTL.CODING, CAP_MON_SCTL.K, CAP_MON_SCTL.SRC, CAP_MON_SCTL.CREW]
  | .CAP_MON_SBUF => [CAP_MON_SBUF.PAGES, CAP_MON_SBUF.BASE]
  | .CAP_MON_STRIG => [CAP_MON_STRIG.TSRC, CAP_MON_STRIG.FIRE, CAP_MON_STRIG.CLASS, CAP_MON_STRIG.TICKS, CAP_MON_STRIG.POST]
  | .CAP_MON_STRIG_MARK => [CAP_MON_STRIG_MARK.MARK]
  | .CAP_MON_SSTAT => [CAP_MON_SSTAT.STATE, CAP_MON_SSTAT.CFG_ERR, CAP_MON_SSTAT.NEXT, CAP_MON_SSTAT.TRIG_PAGE]
  | .CAP_MON_SSEQ => [CAP_MON_SSEQ.PAGE_SEQ]
  | .CAP_MON_SGAP => [CAP_MON_SGAP.MISSED]
  | .REC_HEAD => [REC_HEAD.NEXT_SEQ]
  | .REC_OLDEST => [REC_OLDEST.OLDEST]
  | .REC_CUR => [REC_CUR.SEQ]
  | .REC_CTL => [REC_CTL.AREA, REC_CTL.AUTO, REC_CTL.FIRST_USED]
  | .REC_WIN => [REC_WIN.WORD]
  | .ID_MEM_CTL => [ID_MEM_CTL.SCRUB]
  | .ID_MEM_STAT => [ID_MEM_STAT.CLEARED, ID_MEM_STAT.BANKS]
  | .ID_ECC_CNT => [ID_ECC_CNT.UNCORR, ID_ECC_CNT.CORR]
  | .ID_ECC_ADDR => [ID_ECC_ADDR.ADDR]
  | .ID_MARCH_CTL => [ID_MARCH_CTL.GO, ID_MARCH_CTL.PRESERVE, ID_MARCH_CTL.BANK]
  | .ID_MARCH_STAT => [ID_MARCH_STAT.RESULT, ID_MARCH_STAT.BANK, ID_MARCH_STAT.ELAPSED]
  | .ID_MARCH_FAIL => [ID_MARCH_FAIL.WORD, ID_MARCH_FAIL.ELEMENT, ID_MARCH_FAIL.BIT]
  | .ID_FW_STAT => [ID_FW_STAT.MODE, ID_FW_STAT.SLOT, ID_FW_STAT.REASON_A, ID_FW_STAT.REASON_B, ID_FW_STAT.REASON_REC]
  | .ID_FW_SVN => [ID_FW_SVN.SVN_MIN, ID_FW_SVN.SVN]
  | .ID_SAFE_DOM => [ID_SAFE_DOM.VMAX, ID_SAFE_DOM.VMIN]
  | .ID_SAFE_LIM0 => [ID_SAFE_LIM0.SLEW_MAX, ID_SAFE_LIM0.FSC_MAX]
  | .ID_SAFE_LIM1 => [ID_SAFE_LIM1.T_CRIT_MAX]
  | .ID_SAFE_FLOOR => [ID_SAFE_FLOOR.HW_FLOOR]
  | .ID_SAFE_CRC => [ID_SAFE_CRC.CRC]
  | .ID_RGN => [ID_RGN.EN, ID_RGN.W, ID_RGN.R, ID_RGN.LAST, ID_RGN.FIRST]
  | .ID_MBX_CFG => [ID_MBX_CFG.CTX, ID_MBX_CFG.SIG]
  | .ID_MBX_SUM => [ID_MBX_SUM.HOST]
  | .ID_MBX_CTL => [ID_MBX_CTL.STATE, ID_MBX_CTL.REFUSED, ID_MBX_CTL.SEQ, ID_MBX_CTL.RELEASE, ID_MBX_CTL.DONE, ID_MBX_CTL.TAKE, ID_MBX_CTL.POST]
  | .ID_MBX_DATA => [ID_MBX_DATA.DATA]
  | .ID_BOOT_STAT => [ID_BOOT_STAT.STEP, ID_BOOT_STAT.LATCH, ID_BOOT_STAT.KIND, ID_BOOT_STAT.START_MASK, ID_BOOT_STAT.BOOT_US]
  | .ID_RST_CTL => [ID_RST_CTL.KEY, ID_RST_CTL.KIND]
  | .ID_RST_STAT => [ID_RST_STAT.REFUSED, ID_RST_STAT.REQUESTER, ID_RST_STAT.FULL_PEND, ID_RST_STAT.COUNT]
  | .ID_PWR_CTL => [ID_PWR_CTL.FS_EN, ID_PWR_CTL.HOST_RUN, ID_PWR_CTL.SHUTDOWN, ID_PWR_CTL.SD_WAIT]
  | .ID_PWR_STAT => [ID_PWR_STAT.PWR_EN, ID_PWR_STAT.VIB_GOOD, ID_PWR_STAT.FS_ON, ID_PWR_STAT.HOST_RESET, ID_PWR_STAT.XCAL, ID_PWR_STAT.SD, ID_PWR_STAT.SD_DOMAIN, ID_PWR_STAT.FS_REFUSED, ID_PWR_STAT.RUN_REFUSED]
  | .ID_BOOT_ENTRY => [ID_BOOT_ENTRY.ENTRY]
  | .ID_FLASH_CTL => [ID_FLASH_CTL.GO, ID_FLASH_CTL.OP]
  | .ID_FLASH_ADDR => [ID_FLASH_ADDR.ADDR]
  | .ID_FLASH_MEM => [ID_FLASH_MEM.MEM]
  | .ID_FLASH_LEN => [ID_FLASH_LEN.LEN]
  | .ID_FLASH_STAT => [ID_FLASH_STAT.BUSY, ID_FLASH_STAT.ERR, ID_FLASH_STAT.MHZ, ID_FLASH_STAT.SIZE]
  | .ID_PMB_CFG => [ID_PMB_CFG.WP, ID_PMB_CFG.ADDR, ID_PMB_CFG.PAGE, ID_PMB_CFG.REFUSED]
  | .STG_CTL => [STG_CTL.DIE_MASK, STG_CTL.VIB_SET]
  | .STG_STAT => [STG_STAT.READY, STG_STAT.UNAVAIL]
  | .STG_SUM => [STG_SUM.CAP_A, STG_SUM.DRAW_A]
  | .STG_ERR => [STG_ERR.CRC_ERR, STG_ERR.TIMEOUTS]
  | .STG_DIE_STAT => [STG_DIE_STAT.READY, STG_DIE_STAT.LOST, STG_DIE_STAT.FAULT, STG_DIE_STAT.FCODE, STG_DIE_STAT.T]
  | .STG_DIE_MEAS => [STG_DIE_MEAS.VIN, STG_DIE_MEAS.IOUT]
  | .ID_VENDOR => [ID_VENDOR.VENDOR, ID_VENDOR.PART]
  | .ID_VERSION => [ID_VERSION.MAJOR, ID_VERSION.MINOR, ID_VERSION.STEP, ID_VERSION.MAP]
  | .ID_HOST => [ID_HOST.HOST]
  | .ID_FUSE => [ID_FUSE.JTAG_DBG, ID_FUSE.PMB_WP, ID_FUSE.BOOT_MARCH]
  | .ID_SERIAL => [ID_SERIAL.SERIAL]
  | .ID_LOCK => [ID_LOCK.LOCK, ID_LOCK.SET_LOCK]
  | .ID_LOCK_VIOL => [ID_LOCK_VIOL.COUNT, ID_LOCK_VIOL.MASTER]
  | .ID_LOCK_ADDR => [ID_LOCK_ADDR.ADDR]
  | .ID_ERR_CNT => [ID_ERR_CNT.COUNT, ID_ERR_CNT.CAUSE]
  | .ID_ERR_ADDR => [ID_ERR_ADDR.ADDR]
  | .ID_CAP0 => [ID_CAP0.FIELDS, ID_CAP0.DOMAINS, ID_CAP0.CREWS, ID_CAP0.PLANES, ID_CAP0.LANES, ID_CAP0.SUPERS]
  | .ID_CAP1 => [ID_CAP1.SENSORS, ID_CAP1.PORTS, ID_CAP1.WINDOWS]
  | .ID_CAP2 => [ID_CAP2.CM_MIB, ID_CAP2.PS_KIB, ID_CAP2.FS_DIES]
  | .ID_CAP3 => [ID_CAP3.MEMBERS, ID_CAP3.TILES]

/-- Every register of the map. -/
def Reg.all : List Reg :=
  [
   .DESC_W0, .DESC_W1, .DESC_W2, .DESC_W3, .DESC_W4, .DESC_W5,
   .DESC_W6, .DESC_W7, .ID_UOP_LO, .ID_UOP_HI, .ID_UOP_CTL, .ID_UOP_STAT,
   .CREW_MOD_CTL, .CREW_RING_CTL, .CREW_RING_STAT, .CREW_STEP_CNT, .CREW_HOLD_CNT, .CREW_FSC_CTL,
   .CREW_DEAD_CTL, .CREW_OVL_CTL, .CREW_OVL_STAT, .CREW_OVL_FILT, .CREW_OVL_CNT, .CREW_PH_STATE,
   .CREW_PH_CAUSE, .CREW_PH_RESTORE, .CREW_PH_RESTORE_STAT, .CREW_DITHER_SEED, .CREW_GATE_TB, .CREW_GATE_SEL,
   .CREW_PH_TRIM, .CREW_PH_CNT, .CREW_AB_CTL, .CREW_AB_STAT, .CREW_AB, .CREW_AB_TRIG,
   .CREW_AB_TRIM, .CREW_AB_OVR_CNT, .CREW_H_CTL, .CREW_H_STAT, .CREW_H_REF, .CREW_OW_CTL,
   .CREW_OW_STAT, .CREW_H_GTRIM0, .CREW_H_GTRIM1, .CREW_H_SEQ, .CREW_H_RES, .CREW_DP_CTL,
   .CREW_DP_STAT, .CREW_DP_GS, .CREW_DP_EDGES, .CREW_DP_COMMIT, .CREW_DP_COMMIT_ERR, .CREW_DP_LLS,
   .CREW_DP_TRIM, .CREW_DP_IFILT, .CREW_DP_OUT, .CREW_DP_IINIT, .CREW_DP_MISS_CNT, .CREW_DP_MISS_WIN,
   .CREW_DP_TIME, .CREW_DP_FALLBACKS, .CREW_SP_STAT, .CREW_SP_REF, .CREW_SP_SEQ, .CREW_SP_SUP_CNT,
   .SLOT_SHADOW, .SLOT_ACTIVE, .CREW_SH_CTL, .CREW_TR_CTL, .CREW_TR_STAT, .CREW_TR_CNT,
   .CREW_GB_CTL, .CREW_GB_STAT, .CREW_PWR_CTL, .CREW_PWR_STAT, .CREW_VMIN, .CREW_VMIN_MARK,
   .CAP_MON_AGE_SLACK, .CAP_MON_AGE_TRIM, .CAP_MON_AGE_CTL, .CAP_MON_DIE_VMIN, .CAP_MON_DIE_VMIN_MARK, .FCW_CFG,
   .FCW_RING, .FCW_STAT, .FCW_ARRIVALS, .FCW_PTR, .FCW_EARLY, .FCW_LATE,
   .FCW_END, .FCW_TICKS, .FCW_SUM, .MSH_CTL, .MSH_STAT, .MSH_HEAT_CNT,
   .MSH_REQ_CNT, .MSH_REG_CFG, .MSH_XMAP, .MSH_STR_CNT, .MSH_STR_MARK, .MSH_ALIGN_CTL,
   .LANE_CTL, .LANE_ARG, .LANE_STAT, .LANE_IMAGE, .LANE_GRANT, .LANE_GRANTX,
   .LANE_LOAD_STAT, .LANE_SIG, .LANE_WDOG, .LANE_ISSUE_CNT, .LANE_JOB, .CAP_CTL,
   .CAP_STAT, .CAP_LIM, .CAP_VALS, .CAP_OVR_CNT, .CAP_CLASS, .CAP_CLASS_HW,
   .CAP_ALLOC, .CAP_PLANE, .CAP_RATE_REG, .CAP_HEAT, .EST_CTL, .EST_STAT,
   .EST_FW_ADDR, .EST_MODELS, .EST_MACS, .EST_MISS_CNT, .EST_DUMP, .EST_CREW_EST,
   .EST_CREW_MEAS, .EST_CREW_CAL, .EST_CREW_STAT, .THM_CTL, .THM_STAT, .THM_THRESH0,
   .THM_THRESH1, .THM_RISE, .THM_DRC1, .THM_LOG_STAT, .THM_LOG_SEQ, .THM_REG,
   .THM_PLANE, .THM_SENS, .THM_SUBST, .THM_POS, .RGT_CTL, .RGT_GROUP,
   .RGT_MEMBER, .RGT_LIMIT, .RGT_POOL, .RGT_STAT, .RGT_GRANT, .RGT_SLACK,
   .RGT_BAR_WAIT, .RGT_SLOW, .RGT_CNT, .FLT_CTL, .FLT_STAT, .FLT_CLEAR,
   .FLT_CLEAR_STAT, .FLT_CNT, .FLT_DROP, .FLT_HIST_HEAD, .FLT_INJECT0, .FLT_INJECT1,
   .TB_CTL, .TB_STAT, .TB_NOW_MARK, .TB_NOW_TICKS, .TB_SNAP, .TB_SNAP_CTL,
   .TB_CAL_CTL, .TB_CAL, .CREW_VMAX, .CREW_VMAX_MARK, .CREW_HIST_CTL, .CREW_HIST_MARK,
   .CREW_HIST_V, .CREW_HIST_T, .CAP_MON_SCTL, .CAP_MON_SBUF, .CAP_MON_STRIG, .CAP_MON_STRIG_MARK,
   .CAP_MON_SSTAT, .CAP_MON_SSEQ, .CAP_MON_SGAP, .REC_HEAD, .REC_OLDEST, .REC_CUR,
   .REC_CTL, .REC_WIN, .ID_MEM_CTL, .ID_MEM_STAT, .ID_ECC_CNT, .ID_ECC_ADDR,
   .ID_MARCH_CTL, .ID_MARCH_STAT, .ID_MARCH_FAIL, .ID_FW_STAT, .ID_FW_SVN, .ID_SAFE_DOM,
   .ID_SAFE_LIM0, .ID_SAFE_LIM1, .ID_SAFE_FLOOR, .ID_SAFE_CRC, .ID_RGN, .ID_MBX_CFG,
   .ID_MBX_SUM, .ID_MBX_CTL, .ID_MBX_DATA, .ID_BOOT_STAT, .ID_RST_CTL, .ID_RST_STAT,
   .ID_PWR_CTL, .ID_PWR_STAT, .ID_BOOT_ENTRY, .ID_FLASH_CTL, .ID_FLASH_ADDR, .ID_FLASH_MEM,
   .ID_FLASH_LEN, .ID_FLASH_STAT, .ID_PMB_CFG, .STG_CTL, .STG_STAT, .STG_SUM,
   .STG_ERR, .STG_DIE_STAT, .STG_DIE_MEAS, .ID_VENDOR, .ID_VERSION, .ID_HOST,
   .ID_FUSE, .ID_SERIAL, .ID_LOCK, .ID_LOCK_VIOL, .ID_LOCK_ADDR, .ID_ERR_CNT,
   .ID_ERR_ADDR, .ID_CAP0, .ID_CAP1, .ID_CAP2, .ID_CAP3]

/-- The byte address of instance i of a register. -/
def Reg.addr (r : Reg) (i : Nat) : Nat :=
  r.info.base + (i / r.info.n1) * r.info.st2 + (i % r.info.n1) * r.info.st1

/-- The instance of register r that lies at address a, if one does. -/
def Reg.instAt (r : Reg) (a : Nat) : Option Nat :=
  let g := r.info
  if a < g.base then none
  else
    let outer := (a - g.base) / g.st2
    let rest := (a - g.base) % g.st2
    if outer < g.n2 ∧ rest % g.st1 = 0 ∧ rest / g.st1 < g.n1 then some (outer * g.n1 + rest / g.st1) else none

/-- The register and instance at a byte address (R491, R492): none where no chapter names one. -/
def regAt (a : Nat) : Option (Reg × Nat) :=
  Reg.all.findSome? (fun r => (r.instAt a).map (fun i => (r, i)))

end Sys2Proof.Machine
end

