-- ==== Sys2Proof/Syntax.lean ====
section
/-! DEFINITION. The commands of the block: the operations its environment may perform on it and the events that
come about in it. Operands carry what the surroundings supply: who accesses, what data, what a sense line reads. -/

namespace Sys2Proof

open Sys2Proof.Machine

/-- Who performs an access in the management map (R276, R473, R491): the management port, the debug instruction of
the test access port (which counts as the management port), or supervisor context k of S0 to S3. -/
inductive Master where
  | mgmt
  | jtag
  | sup (k : Nat)
  deriving DecidableEq, Repr

/-- A stamp: tick `tick` counted from the start of mark `mark` (R14, R384). -/
structure Stamp where
  mark : Nat
  tick : Nat
  deriving DecidableEq, Repr


/-- What a march or a start-up march that fails shows first (R427): word, element, bit. -/
structure Mismatch where
  word : Nat
  element : Nat
  bit : Nat
  deriving DecidableEq, Repr

/-- What the surroundings and the silicon show while the start-up steps run (R386, R424, R431, R438, R469): the cycles
from the rise of VSB to VAON valid, the banks that fail the march, in the order of their first mismatches, and the time
it takes in µs, the flash clock in MHz and log2 of its size by SFDP, whether the flash answers at all, the firmware slots
whose reads fail, the time to release or recovery in µs, and the delivery calibration of each crew: the round trips of
its echoed probes and its tick offset. -/
structure BootIn where
  rise : Nat
  march : List (Nat × Mismatch)
  marchUs : Nat
  sfdp : Option (Nat × Nat)
  flashUp : Bool
  slotErr : List Nat
  us : Nat
  cal : List (List Nat × Nat)
  deriving DecidableEq, Repr

/-- The commands of the block: one constructor per row of the operation and event table. What one command carries is a
DESIGN CHOICE: assumption log 8. -/
inductive Instr where
  /-- A write to a register that has no row of its own, applied field by field under its access codes, region registers and block write rules (R21). -/
  | registerWrite (m : Master) (addr : Nat) (size : Nat) (data : Nat) (ecc : Nat)
  /-- A supervisor write of 1 to ID_LOCK.SET_LOCK sets the global lock from the next cycle (R495). -/
  | setLock (m : Master) (data : Nat)
  /-- A supervisor write to a descriptor entry is written, or refused with an FC0 event (R38). -/
  | descriptorWrite (m : Master) (u : Nat) (w : Nat) (data : Nat)
  /-- A write of VALID = 1 to an unassigned user-group entry makes the entry pending and starts validation (R41). -/
  | validation (m : Master) (u : Nat) (data : Nat)
  /-- Validation ends: the entry's capability fields are computed and members' GROUP_REFS are raised, or the failure code is written (R42). -/
  | validationComplete (u : Nat)
  /-- A write of VALID = 0 to a valid user group is refused with BUSY or starts the removal (R43). -/
  | removal (m : Master) (u : Nat) (data : Nat)
  /-- A removal ends: members' GROUP_REFS are decremented and the entry is reset (R43). -/
  | removalComplete (u : Nat)
  /-- Within 10 µs of a phase being fused, struck or restored, the capability words of the affected entries are recomputed and GEN is incremented (R40). -/
  | capabilityRecompute (phase : Nat)
  /-- Within 10 µs of a grant, hardware updates the GRANTED and LANE fields of the affected descriptor entries (R218). -/
  | grantUpdate (lane : Nat)
  /-- A write of 1 to ID_UOP_CTL.GO checks the unit-operation word and queues it, or refuses it with a RESULT code (R50). -/
  | uopGo (m : Master) (data : Nat)
  /-- A queued management-port operation issues in a free delivery slot, and BUSY clears (R50). -/
  | uopIssue
  /-- A pulse is issued to the first READY phase in ring order once demand, spacing and readiness all allow it (R63). -/
  | pulse (c : Nat) (overdrive : Nat) (demandPs : Nat) (gapPs : Nat) (vib : Nat)
  /-- The on-time of a pulse ends, and the phase enters OFF_MIN (R55). -/
  | endOfOnTime (ph : Nat) (rise : Nat)
  /-- 1.2 ns after the on-time ends, the phase returns to READY (R56). -/
  | minimumOffTimeEnd (ph : Nat)
  /-- Phase current crosses the fast limit during ON: the high side turns off, the phase enters BLANKED and the trip is counted (R70). -/
  | fastLimitTrip (ph : Nat)
  /-- The blank time after a trip ends, and the phase is READY again (R70). -/
  | blankEnd (ph : Nat)
  /-- A 10 µs trip-counting window ends, and the phase trip counts restart (R71). -/
  | tripWindow (c : Nat)
  /-- A phase over-temperature comparator stays asserted for 1 µs, and the phase is struck (R80). -/
  | overTemp (ph : Nat) (live : Bool) (held : Bool)
  /-- A write to CREW_PH_RESTORE judges a restore request for each phase and rejoins the accepted phases (R83). -/
  | restore (m : Master) (c : Nat) (data : Nat)
  /-- Every 10 µs, the balance trim of each active phase is stepped from the measured phase currents (R61). -/
  | balanceTrim (c : Nat)
  /-- The filtered crew current has stayed at or above 115 % of the rating for 100 µs, and the crew enters the fold state (R72). -/
  | crewOverload (c : Nat)
  /-- Once per tick, the fold or shedding offset grows or shrinks at 2 mV/µs (R73). -/
  | foldOffset (c : Nat)
  /-- FLOOR and the overload have persisted for 100 µs, and FC2 is raised (R75). -/
  | overloadUnresolved (c : Nat)
  /-- The crew sequencer starts a test pulse on the phase in TEST at the period K_ON (R87). -/
  | testPulse (ph : Nat) (vPlane : Nat) (vib : Nat)
  /-- A write to CREW_DITHER_SEED loads the dither shift register (R60). -/
  | ditherSeed (m : Master) (c : Nat) (data : Nat)
  /-- A converter A or B sample lands in its data register, with overrun handling (R95). -/
  | abSampleLand (c : Nat) (isB : Bool) (raw : Int) (back : Nat)
  /-- A read of CREW_AB_A or CREW_AB_B in simultaneous mode takes the sample and clears NEW (R95). -/
  | abRead (m : Option Master) (c : Nat) (isB : Bool) (size : Nat)
  /-- A write of 1 to CREW_AB_TRIG.FIRE triggers a simultaneous sample, or counts a dropped trigger (R91). -/
  | abFire (m : Option Master) (c : Nat) (data : Nat)
  /-- A write to CREW_AB_CTL.MODE is accepted or refused with an FC0 event (R92). -/
  | abMode (m : Master) (c : Nat) (data : Nat)
  /-- An accepted converter mode change takes effect at the next tick boundary (R93). -/
  | modeChange (c : Nat)
  /-- A slot of converter H ends, and the next entry or the urgent slot starts (R97). -/
  | hSlotEnd (c : Nat)
  /-- An H result is written 4 clocks after its slot ends and is taken by its consumers (R97). -/
  | hResult (c : Nat) (raw : Int)
  /-- An urgent conversion request arrives at converter H, and H queues it or preempts a sampling slot (R106). -/
  | urgentRequest (c : Nat) (rdt : Bool) (sampling : Bool)
  /-- A write to CREW_H_CTL.MODE that selects single-channel mode is accepted or refused (R103). -/
  | hMode (m : Master) (c : Nat) (data : Nat)
  /-- A write to CREW_H_REF.REF_SEL selects H's reference and starts settling (R107). -/
  | refSel (m : Master) (c : Nat) (data : Nat)
  /-- The reference settling time runs out, and REF_SETTLED is set (R107). -/
  | refSettled (c : Nat)
  /-- The local sense exceeds the window end by 25 mV: modulator demand is suppressed and an open line is suspected (R113). -/
  | localOvervoltage (c : Nat) (above : Bool)
  /-- A write of 1 to CREW_OW_CTL.CONFIRM starts an open-wire confirmation test (R114). -/
  | confirm (m : Option Master) (c : Nat) (data : Nat)
  /-- A write of 1 to CREW_OW_CTL.RETRY starts a confirmation test that returns the crew to remote sense on success (R116). -/
  | retry (m : Master) (c : Nat) (data : Nat)
  /-- The 4 µs of 100 µA pull current on a sense line end, and the second urgent conversion is requested (R114). -/
  | pullEnd (c : Nat)
  /-- At the next tick boundary, the control input switches between remote and local sense (R115). -/
  | senseSwitch (c : Nat)
  /-- A datapath update starts on the latched A/B pair and computes the control law (R120). -/
  | datapathUpdate (c : Nat)
  /-- A datapath update completes: u is written and B's sample is taken (R119). -/
  | updateCompletion (c : Nat) (t8 : Nat)
  /-- A 1 ms miss-counting window ends, and MISS_WIN restarts (R139). -/
  | missWindow (c : Nat)
  /-- A write of 1 to CREW_DP_CTL.RESUME requests a return to the main law, which is accepted or refused (R141). -/
  | resume (m : Master) (c : Nat) (data : Nat)
  /-- A write to CREW_DP_COMMIT marks shadow slots for copying and sets COMMIT_PEND (R128). -/
  | commit (m : Master) (c : Nat) (data : Nat)
  /-- At the update boundary, the checked shadow slots are copied to the active slots (R128). -/
  | commitCopy (c : Nat)
  /-- A setpoint command arrives at a crew in its delivery tick and retargets T and SLEW, or is stored (R136). -/
  | setpointCommand
  /-- Each tick, REF moves towards T by 2 × SLEW without passing it (R135). -/
  | refStep (c : Nat)
  /-- A delivered LLS operation writes the load-line slope at every leaf crew (R257). -/
  | llsDelivery
  /-- A delivered GSEL operation writes CREW_DP_GS at every leaf crew (R257). -/
  | gselDelivery
  /-- Every 10 µs, the coordinator reads I_F of every crew and computes the sharing trims (R147). -/
  | sharingPass
  /-- The trims of one pass take effect at the crews 128 ns after the pass (R147). -/
  | trimTake
  /-- The plane falls below the droop level: the reservoir fires, STRETCH is requested and the droop is counted (R149). -/
  | droop (c : Nat) (remote : Nat) (loc : Nat)
  /-- The plane has stayed above the droop level plus 4 mV for 16 ns, and the detector re-arms (R149). -/
  | droopRearm (c : Nat) (remote : Nat) (loc : Nat)
  /-- The catch reservoir has recharged from VIB and is ready again (R151). -/
  | reservoirReady (c : Nat)
  /-- A delivered ARM sets the crew's armed stamp, or is discarded (R153). -/
  | armDelivery
  /-- In the tick that the armed stamp names, the reservoir fires, or the skip is counted with an FC0 event (R153). -/
  | armedFiring (c : Nat)
  /-- The plane rises above target plus OV_TH, and the overshoot shunt switches on (R154). -/
  | overshootClamp (c : Nat) (remote : Nat) (loc : Nat)
  /-- The clamp switches off when the plane falls below target plus OV_TH/2, or after 200 ns (R154). -/
  | clampOff (c : Nat) (remote : Nat) (loc : Nat)
  /-- A 10 µs clamp window ends, and the clamp may fire again (R155). -/
  | clampWindow (c : Nat)
  /-- The plane floor is recomputed within one tick of a change in its terms and applied to the targets (R158). -/
  | planeFloor (p : Nat)
  /-- A delivered FCST installs a forecast cover at every leaf crew (R259). -/
  | coverDelivery
  /-- A forecast cover reaches its expiry stamp, and the guardband returns to GB_DEF (R157). -/
  | coverExpiry (c : Nat)
  /-- Once per millisecond, each ageing monitor's smallest slack is written to CAP_MON_AGE_SLACK (R161). -/
  | ageSlack (mon : Nat) (slack : Int)
  /-- A write of 1 to CREW_PWR_CTL.STAND requests a stand-down of the kind in STAND_KIND (R163). -/
  | standWrite (m : Master) (c : Nat) (data : Nat)
  /-- A delivered STAND posts stand-down requests to the leaf crews, or rejoins PARKed crews (R260). -/
  | standDelivery
  /-- Shedding ends at 5 % of the rating or after 50 µs, and the crew's phases go IDLE (R164). -/
  | sheddingEnd (c : Nat)
  /-- The calibrating crew finishes its measurements, writes its record and rejoins (R165). -/
  | crewCalibrationEnd (c : Nat) (aOfs : Int) (bOfs : Int) (ind : List Nat)
  /-- A write of 1 to CREW_PWR_CTL.REJOIN rejoins a crew from a PARK stand-down (R260). -/
  | rejoin (m : Master) (c : Nat) (data : Nat)
  /-- Within 10 µs of a change in the capacity of a powered plane, a DERATE notice is sent and the ceiling is applied or lifted (R167). -/
  | derate (p : Nat)
  /-- A delivered PWRON is judged at the coordinator, and the plane is admitted, queued or refused (R170). -/
  | pwronDelivery
  /-- Every 100 µs, queued planes are re-evaluated for admission in PWRON order (R171). -/
  | queueReevaluation
  /-- The abort condition holds for 20 µs: the plane stops, FC1 is raised, and a retry is scheduled or the plane is locked out (R173). -/
  | softStartAbort (c : Nat) (remote : Nat) (loc : Nat)
  /-- 10 ms after an abort, the power-on is retried, admission included (R173). -/
  | powerOnRetry (p : Nat)
  /-- A write of 1 to CREW_PWR_CTL.UNLOCK returns a locked plane to OFF (R173). -/
  | unlock (m : Master) (c : Nat) (data : Nat)
  /-- A delivered PWROFF dequeues the plane, cancels its retries or starts its ramp down (R261). -/
  | pwroffDelivery
  /-- A write of 1 to CREW_VMIN.REARM sets VMIN to 0xFFFF (R174). -/
  | vminRearm (m : Master) (c : Nat) (data : Nat)
  /-- A write of 1 to CAP_MON_AGE_CTL.DIE_REARM resets the die-wide VMIN (R174). -/
  | dieRearm (m : Master) (data : Nat)
  /-- A tile's forecast record is accepted at its port, with a credit or for an IDLE window, and stamped with its arrival (R178). -/
  | forecastWrite (tile : Nat) (w : Nat) (words : List Nat) (width : Nat)
  /-- A field's forecast intake takes one record per cycle, round robin over its ports (R179). -/
  | intake (f : Nat)
  /-- FCW_ARRIVALS increments in the cycle after the record's summary effect (R193). -/
  | arrival
  /-- A credit returns to its port with the status, and a write held for it may be accepted (R190). -/
  | creditReturn
  /-- A write to FCW_CFG changes the window's state and configuration, or is refused with CFG_ERR (R185). -/
  | fcwCfgWrite (m : Master) (w : Nat) (data : Nat)
  /-- A write to FCW_PTR.RD releases KEEP ring slots and returns their credits (R192). -/
  | ringRelease (m : Master) (w : Nat) (data : Nat)
  /-- A start request joins the field's marshal queue, refused as DUP if the tile already has one pending, and may start an AUTO sequence (R196). -/
  | startRequest (tile : Nat) (cls : Nat)
  /-- A heat opens: it takes requests from the queue up to the budget and sends their grants (R197). -/
  | heatOpen (f : Nat)
  /-- The grants of a heat reach their tiles 12 ns later (R199). -/
  | heatGrant (f : Nat)
  /-- A GATED request has waited STALL_TO, and the marshal starts a half-budget sequence with FC1 (R201). -/
  | startStalled (f : Nat)
  /-- A region clock stretches its next period and counts it, and forecast-bound stamps are postponed (R204). -/
  | stretch (r : Nat)
  /-- Within 4 ns of a pair difference reaching ALIGN_TH, realignment stretches start on the region that is ahead (R205). -/
  | realignment (r : Nat)
  /-- A LANE_CTL START starts the lane at ENTRY with its state initialised (R213). -/
  | start (m : Master) (n : Nat) (data : Nat)
  /-- A LANE_CTL STOP halts the lane at the next instruction boundary or in its wait (R213). -/
  | stop (m : Master) (n : Nat) (data : Nat)
  /-- A LANE_CTL UNLOAD frees the lane's program and decrements PROG_REFS (R213). -/
  | unload (m : Master) (n : Nat) (data : Nat)
  /-- A lane's watchdog expires, and the lane faults (R217). -/
  | watchdog (n : Nat)
  /-- A waiting context's condition holds or its timeout runs out, and the outcome is written (R223). -/
  | waitEnd (n : Nat)
  /-- The loader finishes checking an image, and the lane becomes LOADED or returns to IDLE with a reason code (R229). -/
  | loadComplete
  /-- NOP takes an issue opportunity and has no effect (R251). -/
  | nop (n : Nat)
  /-- HALT takes a lane to HALTED, or starts an endless wait in a supervisor context (R251). -/
  | halt (n : Nat)
  /-- YIELD restarts a lane's watchdog (R251). -/
  | yield (n : Nat)
  /-- BR sets the program counter to the target (R248). -/
  | br (n : Nat)
  /-- BRC branches when the named predicate is set or clear (R248). -/
  | brc (n : Nat)
  /-- CALL pushes the return index and jumps to the target (R249). -/
  | call (n : Nat)
  /-- RET pops the return stack and jumps, or halts or faults when the stack is empty (R249). -/
  | ret (n : Nat)
  /-- LOOP pushes a loop-stack entry with its end index and count (R250). -/
  | loop (n : Nat)
  /-- MOVI writes the immediate to vD (R252). -/
  | movi (n : Nat)
  /-- MOV copies vS to vD (R252). -/
  | mov (n : Nat)
  /-- ADD writes a + b, wrapping (R252). -/
  | add (n : Nat)
  /-- SUB writes a − b, wrapping (R252). -/
  | sub (n : Nat)
  /-- MULQ writes the shifted, saturated product (R252). -/
  | mulq (n : Nat)
  /-- SHR shifts right, logically (R252). -/
  | shr (n : Nat)
  /-- SHL shifts left (R252). -/
  | shl (n : Nat)
  /-- AND writes the bitwise AND (R252). -/
  | and (n : Nat)
  /-- OR writes the bitwise OR (R252). -/
  | or (n : Nat)
  /-- CMP writes a predicate from the comparison named by its condition code (R253). -/
  | cmp (n : Nat)
  /-- MIN writes the signed minimum (R252). -/
  | min (n : Nat)
  /-- MAX writes the signed maximum (R252). -/
  | max (n : Nat)
  /-- CLAMP limits a signed value between lo and hi (R252). -/
  | clamp (n : Nat)
  /-- SETV issues a setpoint command with an immediate code and slew (R255). -/
  | setv (n : Nat)
  /-- SETVR issues a setpoint command from registers, with a lane RANGE check (R255). -/
  | setvr (n : Nat)
  /-- RAMP issues a setpoint command whose slew reaches the code within the given duration (R256). -/
  | ramp (n : Nat)
  /-- LLS issues a new load-line slope to the unit (R257). -/
  | lls (n : Nat)
  /-- GSEL issues a forced or automatic gain region to the unit (R257). -/
  | gsel (n : Nat)
  /-- ARM resolves a stamp and issues it to the unit's crews (R258). -/
  | arm (n : Nat)
  /-- STAND issues a PARK, CALIBRATE or REJOIN request to the unit (R260). -/
  | stand (n : Nat)
  /-- PWRON issues a power-on to a plane (R261). -/
  | pwron (n : Nat)
  /-- PWROFF issues a power-off to a plane (R261). -/
  | pwroff (n : Nat)
  /-- RDT reads a snapshot telemetry value, or sends an urgent conversion request and stalls (R262). -/
  | rdt (n : Nat)
  /-- The answer to an urgent RDT arrives, is written to vD, and the context becomes eligible (R263). -/
  | rdtResult
  /-- WAITT waits for the tick of its stamp (R264). -/
  | waitt (n : Nat)
  /-- WAITM waits for a mark (R264). -/
  | waitm (n : Nat)
  /-- WAITS waits for completion of the context's last setpoint command to the unit (R265). -/
  | waits (n : Nat)
  /-- WAITA waits for a window's arrival count to reach a target (R265). -/
  | waita (n : Nat)
  /-- BARL joins a lane barrier and waits (R266). -/
  | barl (n : Nat)
  /-- BARX sends a regatta JOIN and waits for DONE (R267). -/
  | barx (n : Nat)
  /-- MARKQ writes the present mark and tick to a register pair (R268). -/
  | markq (n : Nat)
  /-- WAITE waits for signal bits in LANE_SIG and clears those it matches (R269). -/
  | waite (n : Nat)
  /-- WOPEN opens a window and begins a new opening (R187). -/
  | wopen (n : Nat)
  /-- WCLOSE closes a window (R188). -/
  | wclose (n : Nat)
  /-- FCST issues a forecast cover ending at the window's END or after COVER_MAX (R259). -/
  | fcst (n : Nat)
  /-- HEAT opens a GATED heat sequence of a field for a stamp (R271). -/
  | heat (n : Nat)
  /-- CAPQ reads a cap or estimate value into vD (R272). -/
  | capq (n : Nat)
  /-- SLACK sets the package's barrier slack for regatta reports (R273). -/
  | slack (n : Nat)
  /-- EVT records a program event, or drops it beyond 16 per mark (R275). -/
  | evt (n : Nat)
  /-- LD starts a read in the management map, and the context stalls (R276). -/
  | ld (n : Nat)
  /-- ST starts a write in the management map, and the context stalls (R276). -/
  | st (n : Nat)
  /-- AADD performs an atomic add on coordinator memory (R277). -/
  | aadd (n : Nat)
  /-- SWAP performs an atomic swap on coordinator memory (R277). -/
  | swap (n : Nat)
  /-- A supervisor memory access completes or fails, and the context becomes eligible (R276). -/
  | accessComplete (n : Nat) (ecc : Nat)
  /-- GRANT sets a lane's grant from seven registers, or refuses it (R278). -/
  | grant (n : Nat)
  /-- LOADP starts the loader for a lane (R279). -/
  | loadp (n : Nat)
  /-- SIGNAL sets LANE_SIG bits of a context (R280). -/
  | signal (n : Nat)
  /-- At each update period, the estimator reads the activity counters, evaluates the model and updates the raw estimates (R297). -/
  | estimatorUpdate (counts : List (Nat × List Nat))
  /-- A write of 1 to EST_CTL.FW_LOAD starts checking the firmware model container (R304). -/
  | fwLoad (m : Master) (data : Nat)
  /-- A model container check ends, installing the model or recording a reason code (R303). -/
  | modelCheckComplete
  /-- A write to EST_CTL.SRC selects the active model from the next update-period boundary (R304). -/
  | estSrc (m : Master) (data : Nat)
  /-- A sensor is sampled, and its previous sample is confirmed and checked (R312). -/
  | sensorSample (k : Nat) (reading : Int)
  /-- Every 100 ms, a sensor's bias check runs (R319): the voltage difference between its two conversions, in nV. -/
  | biasCheck (k : Nat) (dv : Int)
  /-- A crew sensor's TEMP has not been refreshed, or has stayed unsettled, for 1 ms, and the sensor is broken (R319). -/
  | stale (k : Nat)
  /-- The grace time ends while the region is in throttle, and enforcement begins (R326). -/
  | graceEnd (r : Nat)
  /-- Every ENF_INT, the region's thermal rate request is stepped down, held or raised (R326). -/
  | enforcementStep (r : Nat)
  /-- Each 1 ms without cooling at RATE_MIN, the plane's thermal ceiling drops by 10 % (R327). -/
  | thermalCeilingStep (p : Nat)
  /-- After 1 ms free of causes, the region leaves throttle and the notice is withdrawn (R328). -/
  | throttleEnd (r : Nat)
  /-- A write to THM_SUBST requests a substitute sensor, which is accepted or refused (R321). -/
  | substitution (m : Master) (k : Nat) (data : Nat)
  /-- A write of 1 to THM_SENS.RETEST starts a retest of a broken sensor (R322). -/
  | retest (m : Master) (k : Nat) (data : Nat)
  /-- COOLANT_OK has held a new level for 200 µs, and the debounced level changes (R331). -/
  | coolantDebounce
  /-- 100 µs into a controlled stop, host reset is asserted and the domains ramp down in turn (R333). -/
  | domainShutdown
  /-- The stop broadcast takes effect: high sides go off and the clamps conduct at 40 A (R332). -/
  | stopAtCrews
  /-- A plane falls below 50 mV, its clamps switch off, and the FS dies stop once every plane is down (R332). -/
  | planeDischarged (p : Nat)
  /-- A shutdown-log record finishes programming in flash (R336). -/
  | logRecord (ok : Bool)
  /-- A regatta report period ends: the member and its umpire nodes send REPORTs, and the root divides the pool (R343). -/
  | reportPeriod
  /-- A REPORT message from a child is received and kept (R345). -/
  | report (msg : List Nat)
  /-- A GRANT message is forwarded, and the member computes its grant and regatta ceiling (R348). -/
  | regattaGrant (msg : List Nat)
  /-- A JOIN message opens or fills a barrier entry, and the node forwards it when complete (R352). -/
  | join (msg : List Nat)
  /-- A DONE message is forwarded down and meets the waiting BARX (R352). -/
  | done (msg : List Nat)
  /-- A NOTICE updates the node's largest slowdown and is forwarded up on change (R350). -/
  | notice (msg : List Nat)
  /-- A NOTICE_ALL signals the lanes and applies or lifts the follow ceiling (R351). -/
  | noticeAll (msg : List Nat)
  /-- The collector classifies an event and carries out its class actions and records (R359). -/
  | classification
  /-- The fault shutdown takes effect at the crews of the scope planes, and their REF ramps down (R365). -/
  | faultShutdown (p : Nat)
  /-- A write of INDEX to FLT_CLEAR clears one FC2 entry whose LIVE is 0 (R367). -/
  | fc2Clear (m : Master) (data : Nat)
  /-- A write of ALL to FLT_CLEAR clears every entry in use whose LIVE is 0 (R367). -/
  | fc2ClearAll (m : Master) (data : Nat)
  /-- A write of 1 to ALERT_PEND clears it and releases ALERT# (R362). -/
  | alertClear (m : Master) (data : Nat)
  /-- A collector parity error or a pin readback failure takes the independent path to the safe state (R378). -/
  | selfFault (parity : Bool)
  /-- A write of 1 to FLT_INJECT1.GO injects the event in FLT_INJECT0, or sets INJ_ERR (R379). -/
  | injection (m : Master) (data : Nat)
  /-- 128 ns before each mark, the coordinator issues the mark strobe (R382). -/
  | markStrobe
  /-- A mark begins at every crew: snapshot records are latched, pending clears apply and per-mark events are recorded (R382). -/
  | markBegin (slips : List (Nat × Nat))
  /-- All records of a mark's snapshot are collected or have timed out, and TB_SNAP is updated (R389). -/
  | snapshotComplete (missing : List Nat)
  /-- A write of 1 to TB_SNAP_CTL.REQ requests a copy of the next snapshot (R392). -/
  | snapshotReq (m : Master) (data : Nat)
  /-- A snapshot copy finishes writing to coordinator memory, or ends with ERR (R392). -/
  | snapshotCopy
  /-- A write of 1 to TB_CTL.HIST_CLR schedules a clear of every crew's histograms at the next mark (R396). -/
  | histClr (m : Master) (data : Nat)
  /-- A write of 1 to CREW_HIST_CTL.CLEAR schedules a clear of that crew's histograms (R396). -/
  | histClear (m : Master) (c : Nat) (data : Nat)
  /-- A write of ALL to TB_CAL_CTL requests delivery calibration of every crew (R388). -/
  | calAll (m : Master) (data : Nat)
  /-- A write of ONE to TB_CAL_CTL requests delivery calibration of one crew (R388). -/
  | calOne (m : Master) (data : Nat)
  /-- A crew's delivery calibration ends with HOLD set and held operations applied (R386). -/
  | deliveryCalibrationEnd (c : Nat) (rtts : List Nat) (phase : Nat)
  /-- A write of 1 to CREW_VMAX.REARM sets VMAX to 0 (R393). -/
  | vmaxRearm (m : Master) (c : Nat) (data : Nat)
  /-- A write of ARM = 1 starts a capture stream, or is refused with CFG_ERR (R398). -/
  | captureArm (m : Master) (st : Nat) (data : Nat)
  /-- A write of ARM = 0 closes the bitstream and ends the stream as DONE (R400). -/
  | captureStop (m : Master) (st : Nat) (data : Nat)
  /-- A write of 1 to FIRE triggers a SOFT capture stream (R401). -/
  | captureFire (m : Master) (st : Nat) (data : Nat)
  /-- A stream's trigger takes effect at the crew, and the trigger slot and page are recorded (R401). -/
  | captureTrigger (st : Nat)
  /-- A block of 64 slots is coded into the stream's bitstream (R402). -/
  | captureBlock (st : Nat)
  /-- The capture DMA writes a page to the buffer, or stops with an error (R399). -/
  | capturePage (st : Nat)
  /-- A read of REC_WIN7 with AUTO set advances REC_CUR (R408). -/
  | recWin7Read (m : Master) (size : Nat)
  /-- A bank's scrubber reads and corrects one word in an idle cycle (R419). -/
  | scrub (bank : Nat) (ecc : Nat)
  /-- A write of GO to ID_MARCH_CTL starts a march on a bank, or is refused (R425). -/
  | marchGo (m : Master) (data : Nat)
  /-- A march passes and brings the bank back online, or fails with the bank FAILED (R427). -/
  | marchComplete (fail : Option Mismatch) (us : Nat)
  /-- Every 1 ms, the safety table CRC is recomputed, and a mismatch raises FC3 (R429). -/
  | safetyCrcCheck
  /-- A POST on a mailbox slot moves it to POSTED and signals the supervisor context (R434). -/
  | post (m : Master) (slot : Nat) (data : Nat)
  /-- A supervisor TAKE moves a posted request to TAKEN (R434). -/
  | take (m : Master) (slot : Nat) (data : Nat)
  /-- A supervisor DONE answers a taken request (R434). -/
  | mailboxDone (m : Master) (slot : Nat) (data : Nat)
  /-- A management-port RELEASE frees a slot (R434). -/
  | release (m : Master) (slot : Nat) (data : Nat)
  /-- In recovery, the ROM checks an image in memory and starts it if it passes (R433). -/
  | recoverBoot
  /-- In recovery, the ROM returns ID_FW_STAT in the mailbox (R433). -/
  | recoveryReport
  /-- VSB rises and VAON becomes valid, and the start-up steps run to release or recovery (R438). -/
  | powerOn (fuses : List (FKey × Nat)) (keyHash : List Nat) (boot : BootIn)
  /-- PWR_EN has held a new level long enough, and the debounced level changes (R441). -/
  | pwrEnDebounce
  /-- A write of FS_EN enables or stops the FS dies, or is refused (R442). -/
  | fsEn (m : Master) (data : Nat)
  /-- Every FS die is ready and VIB is in range, and VIB_GOOD is set (R442). -/
  | vibGood
  /-- VIB_GOOD has not been set within 5 ms, so the FS dies stop and FC1 is raised (R442). -/
  | vibStartFailed
  /-- A write of HOST_RUN releases or asserts host reset (R446). -/
  | hostRun (m : Master) (data : Nat)
  /-- 10 µs after release, XCAL_REQ rises and stretching and RATE changes are held (R446). -/
  | xcalReq
  /-- The host answers XCAL_DONE, stretch counts are zeroed and RATEs are sent (R448). -/
  | xcalDone
  /-- The host answers XCAL_FAIL, FC1 is raised and host reset is asserted (R448). -/
  | xcalFail
  /-- 500 µs pass without an answer, and calibration fails (R448). -/
  | xcalTimeout
  /-- A FULL reset request restarts the coordinator after an orderly shutdown (R450). -/
  | full (m : Master) (data : Nat) (boot : BootIn)
  /-- An ENGINE reset request restarts the contexts (R450). -/
  | engine (m : Master) (data : Nat)
  /-- A write of 1 to ID_PWR_CTL.SHUTDOWN starts an orderly shutdown (R454). -/
  | shutdown (m : Master) (data : Nat)
  /-- SD_WAIT expires, host reset is asserted and the domains power off in reverse order (R455). -/
  | sdWait
  /-- VSB has been below 2.9 V for 10 µs, and FC3 is raised (R458). -/
  | standbySupplyLost
  /-- VAON leaves its rating, every high side turns off and the phases are held IDLE (R459). -/
  | vaonLoss
  /-- A PMBus PAGE write selects a plane or all planes (R465). -/
  | page (rd : Bool) (v : Nat) (pec : Bool)
  /-- CLEAR_FAULTS clears the latched status bits and ALERT_PEND (R466). -/
  | clearFaults (pec : Bool)
  /-- WRITE_PROTECT returns the write-protect state (R466). -/
  | writeProtect (rd : Bool) (pec : Bool)
  /-- CAPABILITY returns 0xD0 (R466). -/
  | capability (rd pec : Bool)
  /-- VOUT_MODE returns 0x14 (R466). -/
  | voutMode (rd pec : Bool)
  /-- VOUT_COMMAND reads the highest target, or writes a setpoint command when not protected (R467). -/
  | voutCommand (rd : Bool) (v : Nat) (pec : Bool)
  /-- STATUS_BYTE returns the status summary (R468). -/
  | statusByte (rd pec : Bool)
  /-- STATUS_WORD returns the status summary word (R468). -/
  | statusWord (rd pec : Bool)
  /-- STATUS_VOUT returns the output-voltage status (R468). -/
  | statusVout (rd pec : Bool)
  /-- STATUS_IOUT returns the current status (R468). -/
  | statusIout (rd pec : Bool)
  /-- STATUS_TEMPERATURE returns the thermal status (R468). -/
  | statusTemperature (rd pec : Bool)
  /-- STATUS_CML returns the communication status (R468). -/
  | statusCml (rd pec : Bool)
  /-- READ_VIN returns the mean VIB of the plane (R466). -/
  | readVin (rd pec : Bool)
  /-- READ_VOUT returns the lowest crew voltage of the plane (R466). -/
  | readVout (rd pec : Bool)
  /-- READ_IOUT returns the plane current (R466). -/
  | readIout (rd pec : Bool)
  /-- READ_TEMPERATURE_1 returns the highest crew temperature (R466). -/
  | readTemperature1 (rd pec : Bool)
  /-- READ_POUT returns M_p of the last interval (R466). -/
  | readPout (rd pec : Bool)
  /-- PMBUS_REVISION returns 0x33 (R466). -/
  | pmbusRevision (rd pec : Bool)
  /-- MFR_ID returns AELLIS (R466). -/
  | mfrId (rd pec : Bool)
  /-- MFR_MODEL returns DRC-2 (R466). -/
  | mfrModel (rd pec : Bool)
  /-- Any other PMBus command is acknowledged and ignored, and CML bit 7 is set (R466). -/
  | unsupportedCommand (code : Nat) (rd : Bool) (len : Nat) (pec : Bool)
  /-- Clatis answers the SMBus alert response address with its address while ALERT# is asserted (R464). -/
  | alertResponse
  /-- A flash READ operation copies flash to coordinator memory (R472). -/
  | read (m : Master) (data : Nat)
  /-- A flash PROGRAM operation writes memory to flash (R472). -/
  | program (m : Master) (data : Nat)
  /-- A flash operation erases a 4 KiB sector (R472). -/
  | erase4Kib (m : Master) (data : Nat)
  /-- A flash operation erases a 64 KiB block (R472). -/
  | erase64Kib (m : Master) (data : Nat)
  /-- A flash operation ends with its ERR code, and FC1 is raised on error (R472). -/
  | flashOperationEnd (err : Nat)
  /-- JTAG EXTEST drives the boundary register, or acts as BYPASS while a plane is on (R473). -/
  | extest (scan : Nat)
  /-- JTAG SAMPLE/PRELOAD samples the boundary register (R473). -/
  | samplePreload (pins : Nat) (scan : Nat)
  /-- JTAG CLAMP holds the boundary outputs with bypass selected (R473). -/
  | jtagClamp
  /-- JTAG HIGHZ floats the outputs (R473). -/
  | highz
  /-- JTAG DBG performs a management-port access, or acts as BYPASS (R473). -/
  | dbg (wr : Bool) (addr : Nat) (data : Nat) (ecc : Nat)
  /-- JTAG IDCODE returns the ID code (R473). -/
  | idcode
  /-- JTAG BYPASS selects the bypass register (R473). -/
  | bypass
  /-- A low level on TRST# holds the TAP in Test-Logic-Reset (R473). -/
  | trst (high : Bool)
  /-- Once per capping interval, each FS die is polled over its stage link (R474). -/
  | poll
  /-- An FS die's answer frame updates its status, input, current and temperature (R474). -/
  | fsAnswer (d : Nat) (crcOk : Bool) (ready : Bool) (fault : Bool) (fcode : Nat) (vin : Nat) (iout : Nat) (temp : Int)
  /-- A frame is not answered within 2 µs, and three in a row make the die lost (R474). -/
  | frameTimeout (d : Nat)
  /-- A write to STG_CTL.VIB_SET sends TRIM to every enabled die (R476). -/
  | vibSet (m : Master) (data : Nat)
  /-- The mean VIB has been below 2.20 V for 10 µs, and FC2 leads to the stop (R478). -/
  | vibLost
  /-- A queued DERATE or THROTTLE notice leaves at the notice port (R482). -/
  | noticeSend
  /-- A read of a register with behaviour of its own: an RC field returns and clears, and a 32-bit read of the low word of a 64-bit counter latches the high word (R21). -/
  | registerRead (m : Master) (addr : Nat) (size : Nat) (ecc : Nat)
  /-- The current of a STRUCK or stopping phase reaches zero, and its low-side switch turns off, with a stopping phase going IDLE (R54). -/
  | phaseCurrentReachesZero (ph : Nat)
  /-- The filtered PWR_EN pin changes level and starts or restarts its debounce interval (R441). -/
  | pwrEnPinChange (high : Bool)
  /-- The filtered COOLANT_OK pin changes level and starts or restarts its 200 µs debounce interval (R331). -/
  | coolantOkPinChange (high : Bool)
  /-- The FC3 retention latch clears of itself after VSB has lain below 1.0 V for 50–100 ms (R372). -/
  | fc3LatchClear
  /-- The erase of the oldest shutdown-log ring sector, started when writing reaches the erased sector ahead, completes (R335). -/
  | ringSectorErase
  deriving DecidableEq, Repr

end Sys2Proof
end

