-- ==== Sys2Proof/Decode.lean ====
section
/-! DEFINITION. The reading of a command from the bits of its table row. The operation and event table of this block
gives no row any bits: a command arrives as an access, an event or a message, not as a word. So no word spells one. -/

namespace Sys2Proof

open Sys2Proof.Machine

/-- The command that a word of `nbits` bits spells by the bits of the operation table: none, since no row has bits.
DESIGN CHOICE: assumption log 5. -/
def decodeTableWord (_nbits _w : Nat) : Option Instr := none

end Sys2Proof
end

