-- ==== Sys2Proof/Config.lean ====
section
/-! DEFINITION. The values that the spec leaves open: each an opaque constant with no body, applied to what it may
depend on, so that no proof rests on a number (assumption log 3). -/

namespace Sys2Proof.Config

/-- The discrete form of the first-order filter that the spec states by its time constant alone (R72): the filtered
value after a sample, from the value before, the sample and the coordinator cycles since the last one; the model takes it
within the bounds that the time constant sets. -/
opaque overloadFilter (old sample cycles : Nat) : Nat

/-- How a physical quantity is rounded to its register's LSB where the spec states no rounding: the exact quotient
a / b lies in [q, q + 1), and the value tells whether the next integer up is taken. -/
opaque roundUp (a : Int) (b : Nat) : Bool

/-- The crew temperature in 0.25 °C that the diode calibration of crew c gives for a code of channel TEMP at a gain
code and a reference in quarter volts (R100): the spec states no calibration curve. -/
opaque diodeTemp (c : Nat) (code : Int) (gain ref : Nat) : Int

/-- What a flash byte holds after a program or an erase of it has failed (R336, R472), by the cycle of the failure and
the flash address: the spec states no contents. -/
opaque failedByte (now addr : Nat) : Byte

/-- What a flash byte holds after a program over contents that are not erased: the spec states no result. -/
opaque overProgram (old new : Byte) : Byte

/-- The boundary register of R473, whose order the spec does not give: what it captures of the levels at the pins (0 low,
1 high, 2 not driven; beside those held, others may stand at pins that the block does not drive), and the level at which
its contents drive an output pin. The levels at the flash pins while a transfer runs. The fuse values of IDCODE. -/
opaque boundaryPins (now : Nat) (levels : List Nat) : Nat
opaque boundaryDrive (scan pin : Nat) : Nat
opaque flashPins (now pin : Nat) : Nat
opaque jtagVersion : Nat
opaque jtagManufacturer : Nat

/-- How "thermal throttle" codes its cause in DETAIL0 (R325): by T_r, by RISE_SLOW, by a held sensor. The spec states
no code. -/
opaque throttleCause (hot slow held : Bool) : Nat

/-- What the silicon and the flash show during the start-up steps of a FULL reset that a command without that operand
requests (a store of a supervisor context, JTAG DBG), by the cycle of the request: the banks that fail the march with
word, element and bit, and its time in µs, the clock and size that SFDP gives, that the flash answers, the slots whose
reads fail, the time to release in µs, and the round trips and tick offset of each crew's delivery calibration. -/
opaque bootMarch (now : Nat) : List (Nat × Nat × Nat × Nat)
opaque bootMarchUs (now : Nat) : Nat
opaque bootCal (now : Nat) : List (List Nat × Nat)
opaque bootSfdp (now : Nat) : Option (Nat × Nat)
opaque bootFlashUp (now : Nat) : Bool
opaque bootSlotErr (now : Nat) : List Nat
opaque bootUs (now : Nat) : Nat

/-- The stamp in the header of a capture page in which no block or marker starts (R399), by stream and page number: its
mark, and its tick with the HALF bit above it. -/
opaque pageMark (st seq : Nat) : Nat
opaque pageTick (st seq : Nat) : Nat

end Sys2Proof.Config
end

