-- ==== Sys2Proof/Machine/State.lean ====
section
/-! DEFINITION. The state of the block as plain data: every register field of the map (`fld` over `fuse` over the
reset column), every internal register, queue and memory that the chapters name, and the queue of waiting commands. -/

namespace Sys2Proof.Machine

open Sys2Proof

/-- No command of this block stops with a fault: a failed access is an error response and an event, both next
states. The one constructor is raised by nothing; it is kept so that the type says what a fault would carry. -/
inductive Fault where
  /-- Raised by no meaning. Safe: it stops the model where the block goes on. -/
  | unreachable
  deriving DecidableEq, Repr

/-- Why the model has no meaning to give. -/
inductive Refusal where
  /-- Raised by an arm of `exec` whose command has no meaning yet. Safe: the model stops. -/
  | notModelled (mnemonic : String)
  deriving DecidableEq, Repr

/-! ## Delivery (R46 to R51) -/

/-- What a delivered operation asks of its leaf crews (chapter 08). `setpKeep` is the setpoint command of a PMBus
write, which carries each crew's slew (R467); `ramp` a RAMP of the management port, whose slew is found at issue
(R256). -/
inductive OpKind where
  | setp (code slew : Nat) (quiet : Bool)
  | setpKeep (code : Nat)
  | ramp (code ticks : Nat)
  | lls (slope : Nat)
  | gsel (force region : Nat)
  | arm (stamp : Stamp) (bound : Bool)
  | cover (endSt : Option Stamp) (maxAt : Option Nat)
  | stand (kind : Nat)
  | pwron
  | pwroff
  deriving DecidableEq, Repr

/-- An issued unit operation on its way to its leaf crews, or held at a crew in calibration. Issuer 0 to 11 is a
context, 15 the management port; `id` numbers operations in issue order. -/
structure Op where
  id : Nat
  kind : OpKind
  unit : Nat
  crews : List Nat
  issuer : Nat
  pc : Nat
  deriving DecidableEq, Repr

/-- A stamp held at a crew, with the postponement of R195 in ps, that its limit is recorded, and the cycle from which
stretches postpone it, the end of its delivery tick. -/
structure Held where
  stamp : Stamp
  bound : Bool
  post : Nat
  limited : Bool
  from_ : Nat
  deriving DecidableEq, Repr

/-- An operation held at a crew during its delivery calibration (R388), with its stamp, if it carries one (R195). -/
structure HeldOp where
  op : Op
  held : Held
  deriving DecidableEq, Repr

/-- A setpoint command that WAITS may track (R224): the crews where it is still in force or on its way, and the stamps of
the completions that the others have reported (R137), latest first. -/
structure Track where
  op : Nat
  issuer : Nat
  unit : Nat
  waiting : List Nat
  superseded : Bool
  done : List (Nat × Stamp) := []
  deriving DecidableEq, Repr

/-! ## Phases and crews (chapters 02 to 05) -/

/-- The phase states of R54, and `stopping`: the low side still conducts after a stop, before IDLE (R332). -/
inductive PhaseSt where
  | fused | struck | idle | ready | on | offMin | blanked | test | stopping
  deriving DecidableEq, Repr

/-- The terms of R55 as a pulse latches them: K_ON in 1/128 ns, V_ref and V_IB in 0.1 µV, δ in 1/32,000 and b_k in
1/200, with the gate word in force (R78) and the ripple amplitude in mV (R58). -/
structure OnTerms where
  kOn : Nat := 0
  vref : Nat := 0
  vib : Nat := 0
  dith : Int := 0
  trim : Int := 0
  gate : Nat := 0
  ripple : Nat := 0
  deriving DecidableEq, Repr

/-- One phase power stage. -/
structure Phase where
  /-- Its state (R54). -/
  st : PhaseSt := .idle
  /-- The low-side switch still conducts in STRUCK, or after a stop (R54, R332). -/
  lowSide : Bool := false
  /-- A test pulse is in progress (R87). -/
  testOn : Bool := false
  /-- The minimum off-time after a test pulse runs (R56, R87). -/
  testWait : Bool := false
  /-- The crew sequencer is measuring the phase (R87). -/
  inTest : Bool := false
  /-- The terms of the pulse in progress, or of the last one. -/
  terms : OnTerms := {}
  /-- Trips in the present 10 µs window (R71). -/
  winTrips : Nat := 0
  /-- When it was last restored, in coordinator cycles (R84). -/
  restoredAt : Option Nat := none
  /-- When it last tripped its fast limit (R173). -/
  tripAt : Option Nat := none
  deriving DecidableEq, Repr

/-- Where a conversion of H comes from: a sequence entry, single-channel mode, the fault logic, or an RDT of a context
(R105). -/
inductive HSrc where
  | seq (entry : Nat) | single | fault | rdt (ctx : Nat)
  deriving DecidableEq, Repr

/-- A conversion of H: the physical channel, the rotor code that named it (0 none), sampling time and gain codes; that
the reference has been settled all through it (R108), and that reference in quarter volts once it has ended. In a pending
urgent request the channel is the code that it names, a rotor's too (R99). -/
structure HSlot where
  src : HSrc
  ch : Nat
  rotor : Nat
  stime : Nat
  gain : Nat
  settled : Bool := true
  q : Nat := 4
  deriving DecidableEq, Repr

/-- A forecast cover (R259): its END stamp, and the coordinator cycle at which COVER_MAX ends it. -/
structure Cover where
  endSt : Option Held
  maxAt : Option Nat
  deriving DecidableEq, Repr

/-- A confirmation test in progress (R114): started by RETRY or not, the line under test (0 S+, 1 S−), the first
result of the line once taken, whether the pull has run, and whether S+ was found open. -/
structure OwTest where
  retry : Bool
  line : Nat
  first : Option Nat
  pulled : Bool
  posOpen : Bool
  deriving DecidableEq, Repr

/-- The control law's state of R120: errors, notch states, derivative state, integrator in Q32.32, last sum y, last
clip (−1 LOW, 0 NONE, 1 HIGH). Its defaults are the cleared state of R126. -/
structure Law where
  e1 : Int := 0
  e2 : Int := 0
  w1 : Int := 0
  w2 : Int := 0
  d1 : Int := 0
  iacc : Int := 0
  yPrev : Int := 0
  clip : Int := 0
  deriving DecidableEq, Repr

/-- What one crew holds beside its registers. -/
structure Crew where
  /-- The crew's first pulse after its power-on is still to come (R172). -/
  firstPulse : Bool := false
  /-- Consecutive pulses at minimum spacing (R65). -/
  spaceRun : Nat := 0
  /-- The dither shift register (R59); none until SEED loads it. -/
  lfsr : Nat := 0
  /-- The fold or shedding offset in µV (R73, R164). -/
  foldUv : Nat := 0
  /-- The accepted converter mode not yet in force (R93). -/
  modeReq : Option Nat := none
  /-- MODE and sense in force before each change of either, the last one first (R93). -/
  oldTags : List (Nat × Nat) := []
  /-- Pulses of the trigger phase since SRC or PDIV was written (R91). -/
  trigPulses : Nat := 0
  /-- Start of the last pulse, in ps since VAON came up (R91). -/
  pulsePs : Nat := 0
  /-- The instants of triggers that are still to come, in ps, the next one first (R91). -/
  trigWait : List Nat := []
  /-- The inputs of accepted triggers whose A sample, whose B sample has not landed, oldest first (R90, R91). -/
  trigA : List Nat := []
  trigB : List Nat := []
  /-- The instant of the last accepted trigger, in ps (R91). -/
  lastTrig : Option Nat := none
  /-- The crew sequencer is in its power-on or rejoin calibration (R92). -/
  seqCal : Bool := false
  /-- Interleaved mode is selected for regulation and its first pair has not landed (R93). -/
  firstPair : Bool := false
  /-- The A sample, then the B sample of the awaited first pair has landed. -/
  pairA : Bool := false
  pairB : Bool := false
  /-- The phase and the housekeeping channel that the rotors name next (R99). -/
  rotPh : Nat := 0
  rotHk : Nat := 0
  /-- The slot in progress (R97); CREW_H_STAT.ENTRY names the entry to start after an urgent one (R106). -/
  slot : HSlot := ⟨.seq 0, 0, 16, 1, 0, false, 4⟩
  /-- A change from single-channel to sequence mode awaits the end of the running slot (R102). -/
  toEntry0 : Bool := false
  /-- Pending urgent requests of the fault logic and of RDT (R105). -/
  urgFault : Option HSlot := none
  urgRdt : Option HSlot := none
  /-- Slots that have ended and whose results are not yet written (R97), oldest first. -/
  hDone : List HSlot := []
  /-- Channels that the fault logic wants converted, in order, and urgent RDT requests on their way: context and
  channel (R105, R262). -/
  faultWant : List Nat := []
  rdtWant : List (Nat × Nat) := []
  /-- Coordinator cycle of the last SUM result (R72). -/
  sumAt : Nat := 0
  /-- MISS_RUN has reached 3: the next update runs the fallback law (R140). -/
  fbDue : Bool := false
  /-- Last code, gain code and reference (quarter volts) of each channel on a settled reference (R108). -/
  hHeld : Tab (Int × Nat × Nat) := []
  /-- A failed reference check is being repeated (R109). -/
  refRepeat : Bool := false
  /-- The last REFCHK on the internal reference failed (LIVE of "reference lost", R365). -/
  refLost : Bool := false
  /-- The confirmation test in progress (R114); DV_POS + DV_NEG of the last test that found both lines intact (R112). -/
  ow : Option OwTest := none
  owDv : Option Nat := none
  /-- The suspicions of R113 that hold now: OW0, OW1, local over-voltage, which also suppresses demand. -/
  susp0 : Bool := false
  susp1 : Bool := false
  ovInhibit : Bool := false
  /-- Sense change pending at the next tick boundary: true to local (R115, R116). -/
  senseReq : Option Bool := none
  /-- The crew regulates (R126). -/
  reg : Bool := false
  /-- I_F has been loaded from a SUM result since power-on or rejoin (R126). -/
  ifValid : Bool := false
  /-- Passed edges E1, E2, E3 of R130. -/
  passed : Bool × Bool × Bool := (false, false, false)
  /-- The main law, and the fallback integrator in Q32.32 (R140). -/
  law : Law := {}
  fbAcc : Int := 0
  /-- How far the main path lags behind the fallback law, in 0.125 ns (R141). -/
  mainLag : Nat := 0
  /-- Last output of the main path in VU (R140), and a transfer update that is due (R131). -/
  uMain : Int := 0
  transfer : Bool := false
  /-- An update is in progress: the output it will write, and the plane voltage of its pair in VU (R174). -/
  busy : Bool := false
  uNext : Int := 0
  /-- B's next sample has landed during the running update: its completion will be late (R119). -/
  bLate : Bool := false
  vNext : Nat := 0
  /-- The regulated target of the running update in 0.1 µV (R394). -/
  tNext : Int := 0
  /-- The present tick already counts as a miss, or its landings have overrun (R96). -/
  missed : Bool := false
  /-- Main-path completions in a row of at most 8 ns, up to 1,024 (R141). -/
  goodRun : Nat := 0
  /-- Mask of the pending commit copy, and shadow writes held meanwhile, oldest first (R128, R129). -/
  commit : Nat := 0
  heldSlots : List (Nat × Nat) := []
  /-- An accepted resume takes over at the next update (R141). -/
  resumeNow : Bool := false
  /-- Direction of the last REF step (R120). -/
  sdir : Int := 0
  /-- The setpoint operation of the command in force, that command is not complete, and it is quiet (R137, R255). -/
  cmdOp : Option Nat := none
  cmdOpen : Bool := false
  quiet : Bool := false
  /-- The load-line slope before the last LLS operation, with the cycle at which its delivery tick began (R121). -/
  llsOld : Option (Nat × Nat) := none
  /-- The plane floor fell last, with no command since (R160). -/
  floorFell : Bool := false
  /-- "Margin raised" is recorded for the command in force (R159). -/
  raisedRec : Bool := false
  /-- The droop detector is armed (R149); firings since the last mark (R151). -/
  droopArmed : Bool := true
  droops : Nat := 0
  /-- The armed stamp (R153) and the cover (R259). -/
  arm : Option Held := none
  cover : Option Cover := none
  /-- Clamp firings in the 10 µs window, and "clamp saturated" recorded in it (R155). -/
  clampWin : Nat := 0
  /-- Cycle at which the overshoot clamp last switched on (R154), and at which shedding began (R164). -/
  clampAt : Nat := 0
  shedAt : Nat := 0
  satRec : Bool := false
  /-- The stop clamp of 40 A conducts until the plane is below 50 mV (R332). -/
  stopClamp : Bool := false
  /-- Droop detector and reservoir are disabled by a stop (R332). -/
  aidsOff : Bool := false
  /-- The stand-down that awaits its pass, and the kind of the present one: 0 PARK, 1 CALIBRATE (R163). -/
  standReq : Option Nat := none
  /-- I_F in mA of the last completed update (R397), and the last samples that landed in interleaved mode with their
  cycles, of A and of B. -/
  ifOut : Int := 0
  landA : Option (Nat × Int) := none
  landB : Option (Nat × Int) := none
  /-- The cycle in which its last stand-down was granted (R374). -/
  standAt : Option Nat := none
  standKind : Nat := 0
  /-- Soft-start ramp in progress, after its calibration (R172). -/
  softStart : Bool := false
  /-- Energy of the present capping interval in 5 × 10⁻¹⁶ J: VU × mA × 8 ns (R281). -/
  energy : Int := 0
  /-- Plane voltage of the last update in VU (R174), its extremes in the present mark (R389). -/
  vPlane : Nat := 0
  vLo : Option Nat := none
  vHi : Option Nat := none
  /-- Highest class raised since the previous record, if any (R389). -/
  faultMax : Option Nat := none
  /-- The stamp of the first event of that class (R31). -/
  faultAt : Stamp := ⟨0, 0⟩
  /-- The crew's own mark count, where it has strayed from the coordinator's (R383). -/
  strayed : Option Nat := none
  /-- Operations held during delivery calibration (R388), oldest first; a calibration runs. -/
  heldOps : List HeldOp := []
  calRun : Bool := false
  /-- It is to rejoin once its delivery calibration has ended (R48, R388). -/
  rejoinDue : Bool := false
  /-- The open-wire test of the sequencer's calibration: 0 not yet asked for, 1 running, 2 ended (R165). -/
  calOw : Nat := 0
  /-- The calibration record (R165): offsets of A and B in 1/8 LSB, inductances in pH by phase measured. -/
  calRecord : Option (Int × Int × List Nat) := none
  /-- Crew temperature in 0.25 °C (R100). -/
  temp : Int := 0
  /-- Mark of the last "snapshot incomplete" event (R390). -/
  snapEvt : Option Nat := none
  /-- The trim of the last pass on its way to the crew (R147). -/
  trimNext : Option Int := none
  deriving DecidableEq, Repr

/-- What ramps a plane down: nothing, PWROFF (R261), a fault shutdown (R365), a domain shutdown (R333). -/
inductive Ramp where
  | none | pwroff | fault | domain
  deriving DecidableEq, Repr

/-- What one plane holds beside its crews' registers. -/
structure Plane where
  /-- Powered: from admission until every crew is OFF again (R167). -/
  powered : Bool := false
  /-- The ramp down in progress. -/
  ramp : Ramp := .none
  /-- A fault shutdown has been issued and has not yet taken effect (R365). -/
  shutIssued : Bool := false
  /-- Stop clamps conduct and the plane has not yet fallen below 50 mV (R332). -/
  discharging : Bool := false
  /-- Capacity in A of the last DERATE notice or admission, and the derate ceiling in A (R167). -/
  capSent : Nat := 0
  ceiling : Option Nat := none
  /-- The capacity in A of the crews that the present PWROFF has turned OFF, which is no change of capacity (R167). -/
  capOff : Nat := 0
  /-- Retries used and a retry that is pending (R173). -/
  tries : Nat := 0
  retry : Bool := false
  /-- I_F totals of the last 100 sharing passes, mA, newest first (R167). -/
  recent : List Nat := []
  /-- Held off by the boot ROM (R169). -/
  heldOff : Bool := false
  /-- Thermal ceiling at its start in mW and the drops of 10 % since (R327); B_p of the follow ceiling in mW (R351). -/
  thmStart : Option Rat := none
  thmDrops : Nat := 0
  followB : Option Rat := none
  deriving DecidableEq, Repr

/-! ## Events and faults (chapter 12) -/

/-- An event (R356): code, source kind and source, stamp, details, the AUX count of R275, injected or not. -/
structure Event where
  code : Nat
  kind : Nat
  src : Nat
  stamp : Stamp
  d0 : Nat
  d1 : Nat
  aux : Nat
  injected : Bool
  deriving DecidableEq, Repr

/-- A fault entry of FLT_FIRST, FLT_HIST and FLT_FC2 (R380). -/
structure FEntry where
  seq : Nat
  ev : Event
  live : Bool
  inSafe : Bool
  first : Bool
  repeats : Nat
  deriving DecidableEq, Repr

/-- A recorder record (R407): its sequence number, the event, and its flags. -/
structure Rec where
  seq : Nat
  ev : Event
  inSafe : Bool
  first : Bool
  fltSeq : Nat
  deriving DecidableEq, Repr

/-- A cleared FC2 pair (R369): code, source kind and source, cycle of the last clear, recurrences in a row, and that
none of its events has been classified since the clear. -/
structure Cleared where
  code : Nat
  kind : Nat
  src : Nat
  at_ : Nat
  count : Nat
  armed : Bool
  deriving DecidableEq, Repr

/-- The stop that runs (R332, R333), if one does. -/
inductive Stop where
  | none | critical | controlled
  deriving DecidableEq, Repr

/-- A notice at the notice port (R482): kind 1 DERATE, 2 THROTTLE, 3 THROTTLE_END; cause 1 THERMAL, 2 CAP, 3 COOLANT,
4 SHUTDOWN, 0 for DERATE; scope 0 region, 1 field; plane, region or field index; stamp; capacity in A of a DERATE. -/
structure Notice where
  kind : Nat
  cause : Nat
  scope : Nat
  index : Nat
  stamp : Stamp
  cap : Nat
  deriving DecidableEq, Repr

/-! ## Thermal (chapter 10) -/

/-- What one sensor holds beside its registers: the sample before the one that awaits confirmation, that sample with
its instant (R313), confirmed samples of the last 5 ms and one older, newest first (R316), instants of spikes (R319);
the last instants of a confirmed sample in the 10 kHz range or above, in the 50 kHz range, and of a step of 1 °C
(R314); RISE_SLOW while it holds the region, with its last instant; T_CRIT and RISE_FAST met by the last confirmed
sample; failed bias checks in a row; and a retest: confirmed samples so far, bias check passed (R322). Readings are in
0.25 °C, instants in coordinator cycles. -/
structure Sensor where
  pred : Option Int := none
  cur : Option (Int × Nat) := none
  conf : List (Int × Nat) := []
  spikes : List Nat := []
  hot1 : Option Nat := none
  hot2 : Option Nat := none
  stepAt : Option Nat := none
  slowAt : Option Nat := none
  crit : Bool := false
  fast : Bool := false
  biasFails : Nat := 0
  retest : Option (Nat × Bool) := none
  deriving DecidableEq, Repr

/-- What one region holds beside its registers: T_r at the previous enforcement step and whether it was falling there
(R326), and that its enforcement has a cause other than a held sensor (R327). -/
structure Region where
  lastT : Option Int := none
  falling : Bool := false
  hot : Bool := false
  deriving DecidableEq, Repr

/-- A shutdown record that waits to be programmed (R336, R337): its words from 0x08 to 0x38 as the event found them. -/
structure LogRec where
  words : List Nat
  deriving DecidableEq, Repr

/-! ## Regatta (chapter 11) -/

/-- A REPORT as it counts (R342, R343): MEMBERS, ABSENT, POWER, PMIN, SPARE, WANT0 to WANT7, FLAGS[0]. -/
structure Report where
  members : Nat := 0
  absent : Nat := 0
  power : Nat := 0
  pmin : Nat := 0
  spare : Nat := 0
  want : List Nat := []
  throttled : Bool := false
  deriving DecidableEq, Repr

/-- What an umpire node keeps of one child: its latest REPORT and the node's periods since, that it is absent (R345),
and its latest slowdown with the index that holds it (R350). -/
structure Child where
  report : Report := {}
  age : Nat := 0
  absent : Bool := false
  slow : Nat := 0
  slowIdx : Nat := 0
  deriving DecidableEq, Repr

/-- An open barrier of a node (R352, R353): its number, the children that have joined, and those that became absent
while it was open. -/
structure Bar where
  num : Nat
  joined : List Nat
  gone : List Nat := []
  deriving DecidableEq, Repr

/-- One umpire level that this member serves (R345, R350, R352): its children by member index, its open barriers, and the
slowdown and index last sent on. -/
structure Umpire where
  kids : Tab Child := []
  bars : List Bar := []
  sent : Nat × Nat := (0, 0)
  deriving DecidableEq, Repr

/-! ## Timebase and capture (chapter 13) -/

/-- A crew snapshot record (R389). -/
structure Snap where
  current : Nat := 0
  volt : Nat := 0
  temp : Int := 0
  target : Nat := 0
  state : Nat := 0
  phases : Nat := 0
  fault : Nat := 0
  faultAny : Bool := false
  noData : Bool := true
  law : Nat := 0
  sense : Nat := 0
  covered : Nat := 0
  vlo : Nat := 0
  vhi : Nat := 0
  /-- Behind the four words: the mask of the ring's phases and of the asserted over-temperature comparators at the mark, and
  the stamp at which the fault class was first raised (R31, R33). -/
  ring : Nat := 0
  ot : Nat := 0
  faultAt : Stamp := ⟨0, 0⟩
  deriving DecidableEq, Repr

/-- Slots of a capture stream that wait to be coded (R397, R405): a sample with its tick's stamp, in the B half or not, or
a run of missed slots; `trig`: the trigger slot is among them. -/
inductive CapSlot where
  | sample (v : Int) (at_ : Stamp) (half trig : Bool)
  | missed (n : Nat) (trig : Bool)
  deriving DecidableEq, Repr

/-- What a capture stream holds beside its registers (R397 to R405): the cycle from which ticks give slots, the slots that
wait to be coded, its buffer filled and not yet half empty, coded bits not yet in a page, the number of bits already in
pages since ARM, the starts of blocks and markers not yet in a page (absolute bit offset, stamp of the first slot coded
after it, B half or not, where there is one), the trigger asked for, taken, due at the next slot, and the page that holds
the trigger slot, closing after ARM = 0 with or without its END marker, and the mark of the last "capture gap". -/
structure Stream where
  from_ : Nat := 0
  slots : List CapSlot := []
  full : Bool := false
  bits : List Bool := []
  paged : Nat := 0
  starts : List (Nat × Option (Stamp × Bool)) := []
  trigReq : Bool := false
  trigged : Bool := false
  trigNext : Bool := false
  trigSeq : Option Nat := none
  closing : Bool := false
  ended : Bool := false
  gapMark : Option Nat := none
  deriving DecidableEq, Repr
/-! ## Forecast and start (chapter 06) -/

/-- A forecast record at a port or on its way to the intake (R178, R180): port, writing tile, window, the twelve words
that the tile wrote, bytes written; once accepted, its arrival stamp, the RATE and PERIOD of its region then (R183),
whether a credit was taken; the cycles in which its tile presented it and its port accepted it (R177). -/
structure FRec where
  port : Nat
  tile : Nat
  win : Nat
  words : List Nat
  width : Nat
  arr : Stamp
  rate : Nat
  period : Nat
  credit : Bool
  shown : Nat
  cyc : Nat
  deriving DecidableEq, Repr

/-- A credit, or a status alone, on its way back to a port (R190): port, writing tile, window, status (0 OK, 1 SHORT,
2 CLOSED, 3 IDLE, 4 MALFORMED), whether a credit returns with it. -/
structure FRet where
  port : Nat
  tile : Nat
  win : Nat
  status : Nat
  credit : Bool
  deriving DecidableEq, Repr

/-- The discards of a window with one status in the present mark (R189): the first one and the number. -/
structure FDisc where
  win : Nat
  status : Nat
  stamp : Stamp
  port : Nat
  tile : Nat
  seq : Nat
  count : Nat
  deriving DecidableEq, Repr

/-- A heat sequence (R200, R201): none, running with the whole budget or half of it, or due at a stamp. -/
inductive HeatSeq where
  | none | running (half : Bool) | due (stamp : Stamp)
  deriving DecidableEq, Repr

/-- A start request: tile and class, the cycles in which the tile presents it and its port forwards it to the marshal
queue (R177). -/
structure MReq where
  tile : Nat
  cls : Nat
  shown : Nat
  at_ : Nat
  deriving DecidableEq, Repr

/-- One field's start marshal: the requests of its queue and of its ports, in queue order (R177, R196); the tile that was
last refused with DUP; its sequence; the cycle of the last heat; the tiles of granted heats whose grants are on their
way, oldest first (R199), and of the last grants that reached their tiles; "start held" is recorded in the present spell
(R202). -/
structure Marshal where
  queue : List MReq := []
  dup : Option Nat := none
  seq : HeatSeq := .none
  lastHeat : Option Nat := none
  grants : List (List Nat) := []
  granted : List Nat := []
  heldRec : Bool := false
  deriving DecidableEq, Repr

/-! ## The program engine (chapters 07 and 08) -/

/-- What a context waits for (R223), or the access or conversion that stalls it (R262, R276). `kind` of an access: 0 LD,
1 ST, 2 AADD, 3 SWAP. -/
inductive Cond where
  | tick (stamp : Stamp)
  | mark (m : Nat)
  | setp (unit : Nat)
  | arrive (win target : Nat)
  | barl (mask num : Nat)
  | barx (num : Nat)
  | sig (mask : Nat)
  | endless
  | faulted
  | access (kind addr : Nat) (wide : Bool) (data : Nat)
  | rdt
  deriving DecidableEq, Repr

/-- A wait or stall of a context: its condition, the register of its outcome or result, the cycle of its issue, and its
timeout in ticks (0 none). -/
structure Wait where
  cond : Cond
  rd : Nat
  at_ : Nat
  timeout : Nat
  deriving DecidableEq, Repr

/-- What a context holds beside its block (R209): registers, predicates as a mask, return stack and loop stack with
their tops first (end index, iterations left, first index of the body), the present wait, a STOP that waits for the
end of a stall, and program events of the present mark: recorded, dropped since the last recorded one (R275). -/
structure Ctx where
  regs : Tab Nat := []
  preds : Nat := 0
  ret : List Nat := []
  loops : List (Nat × Nat × Nat) := []
  wait : Option Wait := none
  stopPend : Bool := false
  evts : Nat := 0
  dropped : Nat := 0
  deriving DecidableEq, Repr

/-- A unit table entry of an image (R227). -/
structure UDecl where
  unit : Nat
  peak : Nat
  cont : Nat
  vmax : Nat
  vmin : Nat
  deriving DecidableEq, Repr

/-- What a lane holds of its image (R226, R229): entry, watchdog in µs, declarations, the windows and fields that its
code names, the units whose PROG_REFS it has raised; the cycle in which its watchdog last restarted (R217); and the cycle
of the last STOP with the index that a WATCHDOG fault of that cycle reports (R214). -/
structure Lane where
  entry : Nat := 0
  wdog : Nat := 0
  decls : List UDecl := []
  windows : List Nat := []
  refs : List Nat := []
  wdogAt : Nat := 0
  stopAt : Option (Nat × Nat) := none
  deriving DecidableEq, Repr

/-- The issue of instructions (R211): the cycle from which each context may issue again, the cycle of the last issue and
how many that cycle has had, and the context that was served last: before the first issue, the last of the twelve. Then the
cycle of the last delivered operation, how many of its two slots are taken or passed over, and the cycle in which the
management port's operation was queued (R47, R50).
DESIGN CHOICE: assumption log 133. -/
structure Engine where
  from_ : Tab Nat := []
  at_ : Nat := 0
  cnt : Nat := 0
  served : Nat := 11
  opAt : Nat := 0
  ops : Nat := 0
  uopAt : Nat := 0
  deriving DecidableEq, Repr

/-- What the present coordinator cycle has brought: the register fields as they stood when it began (R21, R296, R349), what
has come to each counter in it (R21) and the FC2 entries that were cleared in it, each with the record of an earlier clear
of its pair (R374); the phases struck in the present tick (R82), and the register fields and phases as they stood when the
tick began (R83); whether a notice has left in the cycle (R482), and the stretch counts that an XCAL_DONE has cleared in it, by
region (R448, R484). It counts from the first cycle that the sender lets pass: before that, no two commands share a cycle.
DESIGN CHOICE: assumption log 127. -/
structure Cycle where
  on : Bool := false
  fld : List (FKey × Nat) := []
  came : List (FKey × Nat) := []
  freed : Tab (FEntry × Option Cleared) := []
  struck : List Nat := []
  tickFld : List (FKey × Nat) := []
  tickPh : Tab Phase := []
  noticed : Bool := false
  xcal : Option (List Nat) := none
  deriving DecidableEq, Repr

/-- The load that runs (R229): lane, BASE, the bytes of the image as LOADP found them, and whether the whole image
could be read (R231). -/
structure Load where
  lane : Nat
  base : Nat
  img : List Byte
  srcOk : Bool
  deriving DecidableEq, Repr

/-! ## Estimation (chapter 09) -/

/-- The calibration of one crew's estimate (R305): means and moments in mW, gain, offset, Ê, whether the next pass only
takes the means, and the errors of the last 100 passes, newest first (R307). -/
structure Cal where
  mE : Rat := 0
  mM : Rat := 0
  vEE : Rat := 0
  cEM : Rat := 0
  g : Rat := 1
  o : Rat := 0
  est : Rat := 0
  fresh : Bool := true
  errs : List Bool := []
  deriving DecidableEq, Repr


/-! ## The whole state -/

/-- The answer to the last access of a port: whether it completed with an error response, and its read data. -/
structure Resp where
  err : Bool := false
  data : Nat := 0
  deriving DecidableEq, Repr

set_option maxRecDepth 2048 in
/-- The state of the block. Its tables and `opNext` are the model's own form. DESIGN CHOICE: assumption log 111. -/
structure State where
  /-- Commands that wait, first in, first out. -/
  pending : List Instr := []
  /-- Coordinator cycles since VAON came up (R9). -/
  now : Nat := 0
  /-- Cycle at which the present mark began, its length in ticks, the length of the next mark once its strobe has
  issued (R381, R385), and the strobe on its way: the mark's number and whether the strobe is numbered (R382). -/
  markStart : Nat := 0
  markLen : Nat := 125
  strobe : Option (Nat × Nat × Bool) := none
  /-- Register fields that have been written, over the fuse values that the boot ROM loaded (R427, R438). -/
  fld : List (FKey × Nat) := []
  fuse : List (FKey × Nat) := []
  /-- The answer to the last access, and the high words latched by reads of low words (R20). -/
  resp : Resp := {}
  hiLatch : Tab Nat := []
  /-- Cycle in which SET_LOCK was written (R495). -/
  lockAt : Nat := 0
  crews : Tab Crew := []
  phases : Tab Phase := []
  planes : Tab Plane := []
  /-- Planes that wait for admission in the order of their PWRON (R171). -/
  powerQ : List Nat := []
  /-- Entries of the descriptor table that are pending: unit and whether a removal runs (R41, R43). -/
  unitPend : List (Nat × Bool) := []
  /-- The next operation number, issued operations on their way in delivery order (R47), the queued management-port
  operation (R50), and PMBus setpoints that wait for that queue (R50, R467). -/
  opNext : Nat := 0
  flight : List Op := []
  uop : Option Op := none
  uopWait : List Op := []
  tracks : List Track := []
  /-- Events that await classification, oldest first (R359). -/
  intake : List Event := []
  /-- The collector's history by slot, first-fault capture, FC2 table by index, recently cleared pairs. -/
  fltHist : Tab FEntry := []
  fltFirst : Option FEntry := none
  fc2 : Tab FEntry := []
  cleared : List Cleared := []
  /-- The collector has been initialised (R375). -/
  fltInit : Bool := false
  /-- The stop that runs, whether its broadcast is on its way, whether it has completed (R370, R371). -/
  stop : Stop := .none
  stopIssued : Bool := false
  stopDone : Bool := false
  /-- The stamp at which the stop that runs, or ran last, began (R337). -/
  stopStamp : Option Stamp := none
  /-- Host reset is asserted (R371, R446). -/
  hostReset : Bool := true
  /-- Notices that wait at the notice port, oldest first, and those sent (R482). -/
  notices : List Notice := []
  /-- The recorder: records in the ring, newest first; whether the numbers have wrapped; the records of the first area,
  oldest first (R407). -/
  ring : List Rec := []
  recLap : Bool := false
  firstArea : List Rec := []
  /-- Snapshots latched and not yet complete, oldest first; the last complete one (empty before the first); the
  mark whose snapshot is to be copied (R389 to R392). -/
  snaps : List (Nat × Nat × List Snap) := []
  snapDone : List Snap := []
  snapCopy : Option Nat := none
  /-- The snapshot to be copied, once complete: mark, mark length, records (R392). -/
  snapData : Option (Nat × Nat × List Snap) := none
  /-- Crews whose histograms clear with the mark whose strobe has issued; a crew stands twice where a further clear was
  written after that strobe (R396). -/
  histDue : List Nat := []
  /-- Crews that wait for delivery calibration, the one being calibrated first (R388). -/
  calQ : List Nat := []
  /-- The capture streams. -/
  streams : Tab Stream := []
  /-- Members of each valid user group, as its validation read them (R45). -/
  groupMembers : Tab (List Nat) := []
  /-- Lengths of the marks before the present one, newest first (R384, R385). -/
  pastLens : List Nat := []
  /-- Answers of urgent RDT requests on their way to their contexts: context and word (R263). -/
  rdtAns : List (Nat × Nat) := []
  /-- Regions with a merged STRETCH request (R204), realignment targets of the regions being realigned (R205), and the
  stretches of the present mark by region: of droops, of realignment. -/
  strReq : List Nat := []
  strTarget : Tab Int := []
  strDroops : Tab Nat := []
  strAligns : Tab Nat := []
  /-- A crossing calibration holds stretching and RATE (R447). -/
  xcalHold : Bool := false
  /-- Coordinator memory, the program store and forecast memory by byte address of the management map (R412, R420,
  R493); an unlisted byte reads 0, as the clear of R422 leaves it. The serial flash by byte address; an unlisted byte
  reads 0xFF. -/
  mem : List Host.Cell := []
  flash : List Host.Cell := []
  /-- 64-bit words, by byte address, whose last read found an uncorrectable error and which nothing has rewritten
  (R418, R421); the mark of the last "memory corrected" of each bank. -/
  eccBad : List Nat := []
  corrMark : Tab Nat := []
  /-- Errors in stored words that no read has found yet, by byte address of the word: 1 correctable, 2 uncorrectable
  (R418). An input: no command puts one there. -/
  flips : Tab Nat := []
  /-- Forecast writes held at their ports, in the order presented (R178); accepted records by port, oldest first; the
  local port that each field's intake served last (R179); credits out by 64 × port + window; returns on their way;
  the last return handed to a tile. -/
  fcHeld : List FRec := []
  fcPort : Tab (List FRec) := []
  fcLast : Tab Nat := []
  fcOut : Tab Nat := []
  fcRet : List FRet := []
  fcReply : Option FRet := none
  /-- Windows whose FCW_ARRIVALS is to increment (R193); windows with an END stamp (R194); the returns due for the
  unread ring slots of a KEEP window, oldest first (R192); the discards of the present mark (R189). -/
  fcArr : List Nat := []
  fcEnd : List Nat := []
  fcUnread : Tab (List FRet) := []
  fcDisc : List FDisc := []
  /-- The start marshals by field. -/
  msh : Tab Marshal := []
  /-- The contexts: 0 to 7 lanes L0 to L7, 8 to 11 S0 to S3. The lanes' images; the load that runs. -/
  ctxs : Tab Ctx := []
  lanes : Tab Lane := []
  load : Option Load := none
  /-- The issue of instructions (R211). -/
  eng : Engine := {}
  /-- What the present cycle and tick have brought (R21, R82, R296, R349, R374). -/
  cyc : Cycle := {}
  /-- An orderly shutdown runs (R454). -/
  orderly : Bool := false
  /-- Accepted model containers: 0 to 7 of the lanes, 8 of firmware (R304). The active model as EST_CTL.SRC codes it,
  whether it has been replaced since, the container address of a check that runs, each tile's last counts (R297), raw
  estimates by crew in mW (R299), calibrations by crew, crews whose "estimate diverged" the active model has raised. -/
  models : Tab (List Byte) := []
  estActive : Nat := 0
  estNew : Bool := false
  estCheck : Option Nat := none
  estCounts : Tab (List Nat) := []
  estRaw : Tab Rat := []
  estCal : Tab Cal := []
  estDivRec : List Nat := []
  /-- The own slowdown last sent, and the capping pass since which that was (R350). -/
  slowSent : Nat := 0
  slowAt : Option Nat := none
  /-- The last notice that left the port (R482). -/
  noticeOut : Option Notice := none
  /-- Capping (R281 to R295): interval powers in mW, newest first, 1,000 of them; A in 2⁻³² W; passes since the
  coordinator restarted; the pass of the last "cap bound"; of the last "cap overrun" by cap; passes in a row with M1
  above 1.05 × L1; planes over, planes bound at the last pass; passes in a row that a plane was over at RATE_MIN; that
  a region was at or below 95 %; throttled planes; passes in a row that a throttled field was at or below 95 %; D_p of
  the last pass in mW by plane. -/
  capHist : List Nat := []
  capA : Int := 0
  capPass : Nat := 0
  capBoundAt : Option Nat := none
  capOverAt : Tab Nat := []
  capHigh : Nat := 0
  capOver : List Nat := []
  capBound : List Nat := []
  capMinRun : Tab Nat := []
  capUp : Tab Nat := []
  capThr : List Nat := []
  capRel : Tab Nat := []
  capDem : Tab Rat := []
  /-- Sensors and regions of the thermal network; the filtered levels of COOLANT_OK and PWR_EN (R331, R441). -/
  sensors : Tab Sensor := []
  regions : Tab Region := []
  coolantPin : Bool := false
  pwrEnPin : Bool := false
  /-- The domain that a controlled stop ramps down (R333). -/
  stopDomain : Option Nat := none
  /-- The shutdown log (R335, R336): records that wait, oldest first; the ring sector that is due to be erased. -/
  logQ : List LogRec := []
  logErase : Option Nat := none
  /-- VSB has been reported low since VAON came into its rating (R335, R458). -/
  vsbLow : Bool := false
  /-- Cycles from the rise of VSB to VAON valid at the last POWER_ON (R337, R438). -/
  vsbLead : Nat := 0
  /-- The cycle in which the start-up steps last ran (R460). -/
  bootAt : Nat := 0
  /-- Regatta: the umpire levels this member serves; its own last REPORT with its band (R348); passes and interval
  powers of the present period (R343); its periods since the last GRANT (R346); root periods since the last "pool short"
  event (R347); the slack of the last SLACK since EN in ns; the shortest BARX wait of the period in ns, and the
  slack in ns of the measured source (R344); messages that have left the port, oldest first, each 16 words (R342). -/
  rgtLevels : Tab Umpire := []
  rgtOwn : Option (Report × Nat) := none
  rgtPasses : Nat := 0
  rgtPower : Nat := 0
  rgtPeriod : Nat := 0
  rgtQuiet : Nat := 0
  rgtShort : Option Nat := none
  rgtSlack : Option Nat := none
  rgtWait : Option Nat := none
  rgtMeas : Option Nat := none
  rgtOut : List (List Nat) := []
  /-- The key hash of the fuses (R431), and what the silicon shows if a FULL reset is pending (R452). -/
  keyHash : List Nat := []
  bootIn : Option BootIn := none
  /-- Host reset is released and XCAL_REQ has yet to rise (R446). -/
  xcalDue : Bool := false
  /-- The cycle in which host reset was last released (R446, R447). -/
  hostAt : Nat := 0
  /-- The march that runs: bank, preserving or not (R423); the cycle in which the last one started (R437). -/
  march : Option (Nat × Bool) := none
  marchAt : Nat := 0
  /-- The next word that each bank's scrubber reads (R419). -/
  scrubAt : Tab Nat := []
  /-- The flash operation that runs: OP, ADDR, MEM, LEN as GO found them (R472). -/
  flashOp : Option (Nat × Nat × Nat × Nat) := none
  /-- PMBus: the bytes of the last answer, the latched status bits by plane, in order STATUS_VOUT, STATUS_IOUT,
  STATUS_TEMPERATURE, and those of STATUS_CML (R464 to R468). -/
  smbOut : List Nat := []
  pmbLatch : Tab (Nat × Nat × Nat) := []
  pmbCml : Nat := 0
  /-- The test access port: the instruction in force, the boundary register, the data register's answer (R473). -/
  tapInstr : Nat := 0xFE
  tapScan : Nat := 0
  tapOut : Nat := 0
  /-- Stage link: frames in a row without a valid answer by die; dies whose 48 V input was last below 40 V; the frames that
  each die has yet to answer, oldest first (R474, R477, R457); frames that wait on each link: 0 STOP, 1 ENABLE, 2 TRIM,
  3 POLL. -/
  stgMiss : Tab Nat := []
  stgLow : List Nat := []
  stgWait : Tab (List Nat) := []
  stgCmd : Tab (List Nat) := []
  /-- VIB_GOOD has been 1 since FS_EN was last set (R478). -/
  vibWas : Bool := false
  /-- W_p of the last pass in mW by plane (R290); a plane has none before the first pass. -/
  capAllow : Tab Rat := []
  /-- The level at TRST# (R473), and the frames that left on each link last, in order (R474). -/
  trstPin : Bool := false
  stgOut : Tab (List Nat) := []
  deriving DecidableEq, Repr

/-- The machine right after reset: every register at its reset column or the value the assumption log names, nothing
queued, nothing powered, before VAON has come up (R438). DESIGN CHOICE: assumption log 2. -/
def State.reset : State := {}

end Sys2Proof.Machine
end

