-- ==== Sys2Proof/Machine/Ops.lean ====
section
/-! DEFINITION. The named operations over the state: the sparse tables, the register fields, crews, phases and planes,
stamps and time, the indexes of units, and raising an event. -/

namespace Sys2Proof.Machine

open Sys2Proof

/-! ## Sparse tables -/

/-- The entry of a table at key k, or the default. -/
def tget {α : Type} (d : α) : Tab α → Nat → α
  | [], _ => d
  | (j, v) :: t, k => if j = k then v else tget d t k

/-- The table with v at key k, in rising order of keys where it was in rising order. -/
def tset {α : Type} : Tab α → Nat → α → Tab α
  | [], k, v => [(k, v)]
  | (j, w) :: t, k, v =>
    if j = k then (k, v) :: t else if k < j then (k, v) :: (j, w) :: t else (j, w) :: tset t k v

/-- The table without key k. -/
def tdel {α : Type} (t : Tab α) (k : Nat) : Tab α := t.filter (fun e => e.1 != k)

/-- Whether a table holds key k. -/
def thas {α : Type} (t : Tab α) (k : Nat) : Bool := t.any (fun e => e.1 == k)

/-- The list with x before its first entry that is to come after x, at its end where there is none. -/
def insBy {α : Type} (before : α → α → Bool) (x : α) : List α → List α
  | [] => [x]
  | y :: t => if before x y then x :: y :: t else y :: insBy before x t

/-- The value of a field in a register file, if it holds one. -/
def flook : List (FKey × Nat) → FKey → Option Nat
  | [], _ => none
  | (j, v) :: t, k => if j = k then some v else flook t k

/-- The register file with v in field k, in the order of `FKey.rank`. -/
def fset : List (FKey × Nat) → FKey → Nat → List (FKey × Nat)
  | [], k, v => [(k, v)]
  | (j, w) :: t, k, v =>
    if j = k then (k, v) :: t else if k.rank < j.rank then (k, v) :: (j, w) :: t else (j, w) :: fset t k v

/-! ## Numbers -/

/-- The two's-complement reading of the low n bits of v (R11). -/
def sgn (n v : Nat) : Int := if v % 2 ^ n < 2 ^ (n - 1) then (v % 2 ^ n : Nat) else (v % 2 ^ n : Nat) - (2 ^ n : Nat)

/-- The low n bits of an integer. -/
def unsg (n : Nat) (z : Int) : Nat := (z % (2 ^ n : Nat)).toNat

/-- z held between lo and hi. -/
def clampI (z lo hi : Int) : Int := if z < lo then lo else if hi < z then hi else z

/-- n held between lo and hi. -/
def clampN (n lo hi : Nat) : Nat := if n < lo then lo else if hi < n then hi else n

/-- Saturation to s32. -/
def sat32 (z : Int) : Int := clampI z (-2147483648) 2147483647

/-- Saturation to s64. -/
def sat64 (z : Int) : Int := clampI z (-9223372036854775808) 9223372036854775807

/-- Arithmetic shift right: the floor of z / 2^k. -/
def asr (z : Int) (k : Nat) : Int := z / (2 ^ k : Nat)

/-- Division of integers truncated towards zero. -/
def divT (a b : Int) : Int := a.tdiv b

/-- The ceiling of a / b. -/
def ceilDiv (a b : Nat) : Nat := (a + b - 1) / b

/-- a / b as an integer, rounded as the block rounds where the spec states no rounding: exact where b divides a,
else the floor or one more (assumption log 3). -/
def roundOpen (a : Int) (b : Nat) : Int := if a % (b : Int) = 0 then a / b else a / b + (Config.roundUp a b).toNat

/-- Bit k of a word. -/
def bitAt (v k : Nat) : Bool := v.testBit k

/-- Bits [hi:lo] of a word. -/
def bits (v hi lo : Nat) : Nat := (v / 2 ^ lo) % 2 ^ (hi - lo + 1)

/-- The word with its bits from lo, n of them, replaced by x. -/
def setBits (v lo n x : Nat) : Nat :=
  v - ((v / 2 ^ lo) % 2 ^ n) * 2 ^ lo + (x % 2 ^ n) * 2 ^ lo

/-- The word with bit k set or cleared. -/
def setBit (v k : Nat) (b : Bool) : Nat := setBits v k 1 b.toNat

/-- The set bits of a mask below n, ascending. -/
def maskList (v n : Nat) : List Nat := (List.range n).filter (fun k => v.testBit k)

/-- The mask of a list of bit numbers. -/
def maskOf (l : List Nat) : Nat := l.eraseDups.foldl (fun a k => a + 2 ^ k) 0

/-- The list with its first element where p holds, and whether one was found. -/
def sumN (l : List Nat) : Nat := l.foldl (· + ·) 0

/-- The sum of a list of integers. -/
def sumI (l : List Int) : Int := l.foldl (· + ·) 0

/-- The least of a list of naturals. -/
def minN : List Nat → Option Nat
  | [] => none
  | x :: t => some (t.foldl min x)

/-- The greatest of a list of naturals. -/
def maxN (l : List Nat) : Nat := l.foldl max 0

/-! ## Register fields -/

/-- The value of field f of instance i: as last written, else as the fuses load it, else its reset column. -/
def State.get (s : State) (f : Fld) (i : Nat) : Nat :=
  match flook s.fld (f.key i) with
  | some v => v
  | none =>
    match flook s.fuse (f.key i) with
    | some v => v
    | none => f.reset i

/-- The state with v in field f of instance i, cut to the field's width. -/
def State.put (s : State) (f : Fld) (i v : Nat) : State := { s with fld := fset s.fld (f.key i) (v % 2 ^ f.width) }

/-- A one-bit field as a truth value. -/
def State.flag (s : State) (f : Fld) (i : Nat) : Bool := s.get f i == 1

/-- The state with a one-bit field set or cleared. -/
def State.mark (s : State) (f : Fld) (i : Nat) (b : Bool) : State := s.put f i b.toNat

/-- A field read as two's complement. -/
def State.getI (s : State) (f : Fld) (i : Nat) : Int := sgn f.width (s.get f i)

/-- The state with an integer in a field, in two's complement. -/
def State.putI (s : State) (f : Fld) (i : Nat) (z : Int) : State := s.put f i (unsg f.width z)

/-- The state in which v is what the present cycle has brought to field f of instance i (R21). -/
def State.setCame (s : State) (f : Fld) (i v : Nat) : State :=
  { s with cyc := { s.cyc with came := fset s.cyc.came (f.key i) v } }

/-- What the present cycle has brought to field f of instance i. -/
def State.came (s : State) (f : Fld) (i : Nat) : Nat := (flook s.cyc.came (f.key i)).getD 0

/-- The state with n added to a counter field, which saturates at its width. -/
def State.bump (s : State) (f : Fld) (i : Nat) (n : Nat := 1) : State :=
  (s.put f i (min (s.get f i + n) (2 ^ f.width - 1))).setCame f i (s.came f i + n)

/-- The state with a field that keeps the largest value it is given. -/
def State.raiseTo (s : State) (f : Fld) (i v : Nat) : State :=
  (s.put f i (max (s.get f i) v)).setCame f i (max (s.came f i) v)

/-- The state with a wrapping counter field advanced. -/
def State.wrap (s : State) (f : Fld) (i : Nat) : State := s.put f i (s.get f i + 1)

/-- The state with bit k of a field set or cleared. -/
def State.putBit (s : State) (f : Fld) (i k : Nat) (b : Bool) : State := s.put f i (setBit (s.get f i) k b)

/-! ## The present cycle (R21) -/

/-- The value that field f of instance i had when the present coordinator cycle began, or has, while no cycle has passed.
DESIGN CHOICE: assumption log 127. -/
def State.was (s : State) (f : Fld) (i : Nat) : Nat :=
  if s.cyc.on then State.get { s with fld := s.cyc.fld } f i else s.get f i

/-- The state in which field f of instance i counts as having been v when the cycle began. -/
def State.putWas (s : State) (f : Fld) (i v : Nat) : State :=
  { s with cyc := { s.cyc with fld := fset s.cyc.fld (f.key i) v } }

/-- The clear of the bits v of a W1C field (R21): a bit that the hardware has set in this cycle stays. -/
def State.clearBits (s : State) (f : Fld) (i v : Nat) : State :=
  (s.put f i (s.get f i - Nat.land (Nat.land (s.get f i) (s.was f i)) v)).putWas f i (s.was f i - Nat.land (s.was f i) v)

/-- What a read of an RC field returns and clears (R21): the field as the cycle found it; what has come since is kept. -/
def State.ripe (s : State) (f : Fld) (i : Nat) : Nat := min (s.get f i) (s.was f i)

/-- What an RC field holds after its read: what the cycle itself has brought, of a counter as much as it can hold. -/
def State.rest (s : State) (f : Fld) (i : Nat) : Nat :=
  if s.cyc.on then min (s.came f i) (2 ^ f.width - 1) else 0

/-- The clear of an RC field by its read. -/
def State.clearRipe (s : State) (f : Fld) (i : Nat) : State := (s.put f i (s.rest f i)).putWas f i 0

/-- The hardware sets a W1C bit, whatever it was: a clear of the same cycle leaves it set. -/
def State.setOver (s : State) (f : Fld) (i : Nat) : State := (s.put f i 1).putWas f i 0

/-- The hardware sets bit k of a W1C field. -/
def State.setOverBit (s : State) (f : Fld) (i k : Nat) : State :=
  (s.putBit f i k true).putWas f i (setBit (s.was f i) k false)

/-- What happened in cycle t counts as earlier than the present cycle. -/
def State.earlier (s : State) (t : Nat) : Bool := !s.cyc.on || decide (t < s.now)

/-- The registers and phases as the present tick found them (R83). -/
def State.tickView (s : State) : State :=
  if s.cyc.on then { s with fld := s.cyc.tickFld, phases := s.cyc.tickPh } else s

/-! ## Crews, phases, planes -/

def State.crew (s : State) (c : Nat) : Crew := tget {} s.crews c
def State.setCrew (s : State) (c : Nat) (k : Crew) : State := { s with crews := tset s.crews c k }
def State.onCrew (s : State) (c : Nat) (f : Crew → Crew) : State := s.setCrew c (f (s.crew c))
def State.phase (s : State) (ph : Nat) : Phase := tget {} s.phases ph
def State.setPhase (s : State) (ph : Nat) (p : Phase) : State := { s with phases := tset s.phases ph p }
def State.onPhase (s : State) (ph : Nat) (f : Phase → Phase) : State := s.setPhase ph (f (s.phase ph))
def State.plane (s : State) (p : Nat) : Plane := tget {} s.planes p
def State.setPlane (s : State) (p : Nat) (q : Plane) : State := { s with planes := tset s.planes p q }
def State.onPlane (s : State) (p : Nat) (f : Plane → Plane) : State := s.setPlane p (f (s.plane p))

/-- What a command answers. -/
abbrev Out := Host.Outcome State Fault Refusal

/-- Fold a state transformer over a list of instances. Lists of crews, regions and planes run by rising number.
DESIGN CHOICE: assumption log 113. -/
def forAll (l : List Nat) (f : State → Nat → State) (s : State) : State := l.foldl f s

/-- Every crew index. -/
def allCrews : List Nat := List.range 192

/-- The plane of crew c (R36). -/
def planeOf (c : Nat) : Nat := 4 * (c / 24) + domainOf c

/-- The region of crew c, 3f + m (R27). -/
def regionOf (c : Nat) : Nat := 3 * (c / 24) + regionCode c

/-- The crews of plane p, ascending (R36). -/
def planeCrews (p : Nat) : List Nat :=
  (List.range ([18, 4, 1, 1].getD (p % 4) 0)).map (fun k => 24 * (p / 4) + [0, 18, 22, 23].getD (p % 4) 0 + k)

/-- The crews of region r. -/
def regionCrews (r : Nat) : List Nat :=
  (List.range 24).filterMap (fun j => if regionOf (24 * (r / 3) + j) = r then some (24 * (r / 3) + j) else none)

/-- The unit IDs of a crew, a plane, a field (R35). -/
def crewUnit (c : Nat) : Nat := 0x600 + c
def planeUnit (p : Nat) : Nat := 0x6C0 + p

/-- PMBus status bits latch for plane p (R468): of STATUS_VOUT, STATUS_IOUT, STATUS_TEMPERATURE. -/
def latchStatus (p vout iout temp : Nat) (s : State) : State :=
  let (v, i, t) := tget (0, 0, 0) s.pmbLatch p
  { s with pmbLatch := tset s.pmbLatch p (Nat.lor v vout, Nat.lor i iout, Nat.lor t temp) }

/-! ## Units and the descriptor table -/

/-- The entry of unit u runs a validation or a removal (R41). -/
def State.unitBusy (s : State) (u : Nat) : Bool := s.unitPend.any (fun e => e.1 == u)

/-- Unit ID u names an existing unit (R35). -/
def State.unitExists (s : State) (u : Nat) : Bool :=
  decide (u < 0x6EC) || u == 0x6FF ||
    (decide (0x700 ≤ u ∧ u < 0x800) && s.flag DESC_W0.VALID u && !s.unitBusy u)

/-- The members that the entry of unit u names by FIRST, STRIDE and COUNT, or that its validation read (R45). -/
def State.members (s : State) (u : Nat) : List Nat :=
  if 0x700 ≤ u then tget [] s.groupMembers u
  else (List.range (s.get DESC_W1.COUNT u)).map (fun k => s.get DESC_W1.FIRST u + k * s.get DESC_W1.STRIDE u)

/-- The leaf phases of unit u, following members n levels (R31). -/
def State.leafPhasesN (s : State) : Nat → Nat → List Nat
  | 0, _ => []
  | n + 1, u =>
    if u < 0x600 then [u]
    else if u < 0x6C0 then (List.range 8).map (fun k => 8 * (u - 0x600) + k)
    else (s.members u).flatMap (fun v => s.leafPhasesN n v)

/-- The leaf phases of unit u: depth is at most 8 (R41). -/
def State.leafPhases (s : State) (u : Nat) : List Nat := s.leafPhasesN 9 u

/-- The leaf crews of unit u, following members n levels (R31). -/
def State.leafCrewsN (s : State) : Nat → Nat → List Nat
  | 0, _ => []
  | n + 1, u =>
    if u < 0x600 then [u / 8]
    else if u < 0x6C0 then [u - 0x600]
    else (s.members u).flatMap (fun v => s.leafCrewsN n v)

/-- The leaf crews of unit u, each once: depth is at most 8 (R41). -/
def State.leafCrews (s : State) (u : Nat) : List Nat := (s.leafCrewsN 9 u).eraseDups

/-! ## Time -/

/-- Ticks since the present mark began (R381): a tick is four coordinator cycles (R9). -/
def State.ticks (s : State) : Nat := (s.now - s.markStart) / 4

/-- The cycle at which the present tick began. -/
def State.tickStart (s : State) : Nat := s.markStart + 4 * s.ticks

/-- The present mark at the coordinator. -/
def State.markNo (s : State) : Nat := s.get TB_NOW_MARK.MARK 0

/-- The stamp of the present instant. -/
def State.stampNow (s : State) : Stamp := ⟨s.markNo, s.ticks % 256⟩

/-- Mark a lies later than mark b as a serial number (R194). -/
def markLater (a b : Nat) : Bool := decide (0 < (a + 2 ^ 32 - b % 2 ^ 32) % 2 ^ 32 ∧ (a + 2 ^ 32 - b % 2 ^ 32) % 2 ^ 32 < 2 ^ 31)

/-- The length of mark m in ticks: of the present mark, of those before it, of the next once its strobe has issued, else
PERIOD (R381, R385). -/
def State.lenOf (s : State) (m : Nat) : Nat :=
  let back := (s.markNo + 2 ^ 32 - m % 2 ^ 32) % 2 ^ 32
  if back = 0 then s.markLen
  else if back ≤ s.pastLens.length then s.pastLens.getD (back - 1) (s.get TB_CTL.PERIOD 0)
  else match s.strobe with
    | some (n, len, _) => if n = m then len else s.get TB_CTL.PERIOD 0
    | none => s.get TB_CTL.PERIOD 0

/-- The stamp with its tick inside its mark (R384), at most n marks on. DEDUCED: assumption log 32. -/
def State.normN (s : State) : Nat → Stamp → Stamp
  | 0, st => st
  | n + 1, st =>
    if s.lenOf st.mark ≤ st.tick ∧ 0 < s.lenOf st.mark then
      s.normN n ⟨(st.mark + 1) % 2 ^ 32, st.tick - s.lenOf st.mark⟩
    else st

/-- The normalised stamp: a tick of a stamp and its postponement span at most eight marks.
DEDUCED: assumption log 32. -/
def State.norm (s : State) (st : Stamp) : Stamp := s.normN 8 st

/-- Stamp a lies before stamp b (R194, R384). -/
def State.before (s : State) (a b : Stamp) : Bool :=
  let a := s.norm a
  let b := s.norm b
  markLater b.mark a.mark || (a.mark == b.mark && decide (a.tick < b.tick))

/-- The present instant has reached the stamp. -/
def State.reached (s : State) (st : Stamp) : Bool := !(s.before s.stampNow st)

/-- The instant a held stamp names, its postponement included (R195). -/
def Held.instant (h : Held) : Stamp := ⟨h.stamp.mark, h.stamp.tick + h.post / 8000⟩

/-! ## Events -/

/-- The class of an event code (R356, R357 and the event tables of the chapters); 4 marks a self-fault. -/
def classOf (code : Nat) : Option Nat :=
  if code ∈ [0x0001, 0x0101, 0x0201, 0x0301, 0x0302, 0x0401, 0x0402, 0x0501, 0x0502, 0x0503, 0x0504, 0x050C,
      0x0601, 0x0602, 0x0603, 0x0604, 0x0605, 0x0701, 0x0702, 0x0703, 0x0801, 0x0901, 0x0902, 0x0A01, 0x0A02,
      0x0A03, 0x0B03, 0x0D01, 0x0D02, 0x0E01] then some 0
  else if code ∈ [0x0202, 0x0203, 0x0204, 0x0303, 0x0304, 0x0403, 0x0505, 0x0506, 0x0507, 0x0508, 0x0606, 0x0704,
      0x0705, 0x0802, 0x0803, 0x0804, 0x0903, 0x0904, 0x0905, 0x0906, 0x0907, 0x0A04, 0x0A05, 0x0B01, 0x0B02,
      0x0B04, 0x0C01, 0x0C02, 0x0C06, 0x0D03, 0x0D04, 0x0D05, 0x0E02, 0x0E03, 0x0E04] then some 1
  else if code ∈ [0x0205, 0x0305, 0x0404, 0x0509, 0x050A, 0x050B, 0x0607, 0x0706, 0x0805, 0x0B05, 0x0C03, 0x0D06,
      0x0E05] then some 2
  else if code ∈ [0x0002, 0x0003, 0x0908, 0x0909, 0x090A, 0x0C04, 0x0C05, 0x0D07] then some 3
  else if code = 0x0004 ∨ code = 0x0005 then some 4
  else none

/-- The class of an event code, 0 for a code of no table. -/
def classNo (code : Nat) : Nat := (classOf code).getD 0

/-- The crew that a unit-kind source names, itself or by its phase. -/
def srcCrew (kind src : Nat) : Option Nat :=
  if kind = 1 ∧ src < 0x600 then some (src / 8)
  else if kind = 1 ∧ src < 0x6C0 then some (src - 0x600) else none

/-- An event arrives at the collector (R359): it waits for classification, or is dropped and counted where 64 FC0 and
FC1 events wait already (R360). A crew keeps the highest class raised for its snapshot (R389). -/
def State.raiseEv (s : State) (e : Event) : State :=
  let cl := classNo e.code
  let s := match srcCrew e.kind e.src with
    | some c => s.onCrew c (fun k => { k with
        faultMax := some (max cl (k.faultMax.getD 0))
        faultAt := if k.faultMax.any (fun old => decide (cl ≤ old)) then k.faultAt else e.stamp })
    | none => s
  if cl ≤ 1 ∧ 64 ≤ (s.intake.filter (fun x => classNo x.code ≤ 1)).length then
    s.bump (if cl = 0 then FLT_DROP.FC0 else FLT_DROP.FC1) 0
  else { s with intake := s.intake ++ [e] }

/-- The present instant by crew c's own count of marks (R383). -/
def State.crewStamp (s : State) (c : Nat) : Stamp := ⟨(s.crew c).strayed.getD s.markNo, s.ticks % 256⟩

/-- The present instant has reached the stamp by crew c's own count of marks. -/
def State.crewReached (s : State) (c : Nat) (st : Stamp) : Bool := !(s.before (s.crewStamp c) st)

/-- The stamp that an event takes: of the crew that raises it, in the chapters whose events crews raise, else of the
coordinator. -/
def State.stampOf (s : State) (code kind src : Nat) : Stamp :=
  if code / 256 ∈ [2, 3, 4, 5, 6] then (match srcCrew kind src with | some c => s.crewStamp c | none => s.stampNow) else s.stampNow

/-- Raise an event with the present stamp. DESIGN CHOICE: assumption log 109. -/
def State.raise (s : State) (code kind src : Nat) (d0 : Nat := 0) (d1 : Nat := 0) : State :=
  s.raiseEv ⟨code, kind, src, s.stampOf code kind src, d0 % 2 ^ 32, d1 % 2 ^ 32, 0, false⟩

/-- Raise an event of crew c. -/
def State.raiseCrew (s : State) (code c : Nat) (d0 : Nat := 0) (d1 : Nat := 0) : State :=
  s.raise code 1 (crewUnit c) d0 d1

/-- Raise an event of plane p. -/
def State.raisePlane (s : State) (code p : Nat) (d0 : Nat := 0) (d1 : Nat := 0) : State :=
  s.raise code 1 (planeUnit p) d0 d1

/-! ## Crew states -/

/-- CREW_PWR_STAT.STATE of crew c: 0 OFF, 1 QUEUED, 2 STARTING, 3 ON, 4 SHEDDING, 5 DOWN, 6 CALIBRATING,
7 REJOINING, 8 WAIT_RETRY, 9 LOCKED. -/
def State.cst (s : State) (c : Nat) : Nat := s.get CREW_PWR_STAT.STATE c
def State.setCst (s : State) (c v : Nat) : State := s.put CREW_PWR_STAT.STATE c v

/-- The crew is powered off or stood down: OFF, QUEUED, DOWN, CALIBRATING, WAIT_RETRY, LOCKED (R34). -/
def State.crewDown (s : State) (c : Nat) : Bool := decide (s.cst c ∈ [0, 1, 5, 6, 8, 9])

/-- The crew's calibration for power-on or rejoin, or no operation: where simultaneous mode is allowed (R92). -/
def State.simAllowed (s : State) (c : Nat) : Bool := s.crewDown c || (s.crew c).seqCal

/-- The local phases of crew c as global indices. -/
def crewPhases (c : Nat) : List Nat := (List.range 8).map (fun k => 8 * c + k)

/-- A phase is in the firing ring (R62). -/
def inRing (p : Phase) : Bool := p.st == .ready || p.st == .on || p.st == .offMin || p.st == .blanked

/-- The local indices of the ring's phases, ascending. -/
def State.ringOf (s : State) (c : Nat) : List Nat := (List.range 8).filter (fun k => inRing (s.phase (8 * c + k)))

/-- CREW_RING_STAT.ACTIVE_COUNT. -/
def State.activeCount (s : State) (c : Nat) : Nat := (s.ringOf c).length

/-- A crew that carries or will carry its plane: STARTING, ON, SHEDDING or REJOINING. -/
def State.alive (s : State) (c : Nat) : Bool := decide (s.cst c ∈ [2, 3, 4, 7])

/-- Phases neither FUSED nor STRUCK (R166). -/
def State.usable (s : State) (c : Nat) : Nat :=
  ((List.range 8).filter (fun k => (s.phase (8 * c + k)).st != .fused && (s.phase (8 * c + k)).st != .struck)).length

/-- The continuous rating of crew c in A, as the descriptor table holds it in units of 0.5 A (R31, R40). -/
def State.crewRating (s : State) (c : Nat) : Nat := s.get DESC_W3.CONT_RATING (crewUnit c) / 2

/-- I_F of crew c in mA. -/
def State.iF (s : State) (c : Nat) : Int := s.getI CREW_DP_IFILT.I_F c

/-- The larger of 0 and I_F, in mA. -/
def State.iPos (s : State) (c : Nat) : Nat := (s.iF c).toNat

/-- The maximum slew code of the hardware safety table (R428). -/
def State.slewMax (s : State) : Nat := s.get ID_SAFE_LIM0.SLEW_MAX 0

/-- The domain window of crew c, setpoint codes (R29). -/
def State.winLo (s : State) (c : Nat) : Nat := s.get ID_SAFE_DOM.VMIN (domainOf c)
def State.winHi (s : State) (c : Nat) : Nat := s.get ID_SAFE_DOM.VMAX (domainOf c)

/-- A setpoint code in units of 0.1 µV (R14, R120). -/
def codeUv (code : Nat) : Nat := 3000000 + 5000 * code

end Sys2Proof.Machine
end

