-- ==== Sys2Proof/Machine/Phases.lean ====
section
/-! DEFINITION. Phase power stages and the firing ring (chapter 02): what pulses, trips, strikes, restores, foldback
and the balance trim do. -/

namespace Sys2Proof.Machine

open Sys2Proof

/-! ## Converter triggers (R91) -/

/-- A trigger of converters A and B at instant t, in ps: taken in simultaneous mode with the inputs that A_SEL and B_SEL
name then (R90), or dropped and counted when it comes less than 8 ns after the previous accepted one. -/
def trigger (c t : Nat) (s : State) : State :=
  if ¬ s.flag CREW_AB_STAT.MODE_ACT c then s
  else if (s.crew c).lastTrig.any (fun u => decide (u ≤ t ∧ t < u + 8000)) then s.bump CREW_AB_STAT.TRIG_DROPS c
  else s.onCrew c (fun k => { k with
    lastTrig := some t
    trigA := k.trigA ++ [s.get CREW_AB_CTL.A_SEL c]
    trigB := k.trigB ++ [s.get CREW_AB_CTL.B_SEL c] })

/-- A tick begins: it triggers the converters of every crew in simultaneous mode whose SRC is TICK (R91). -/
def tickTriggers (s : State) : State :=
  forAll ((s.crews.map (·.1)).filter (fun c => s.flag CREW_AB_STAT.MODE_ACT c && s.get CREW_AB_TRIG.SRC c == 0))
    (fun s c => trigger c (2000 * s.now) s) s

/-- The waiting triggers of crew c whose instants lie in the present cycle, or before it, take place. -/
def fireTriggers (s : State) (c : Nat) : State :=
  let l := (s.crew c).trigWait
  (l.filter (fun t => decide (t / 2000 ≤ s.now))).foldl (fun s t => trigger c t s)
    (s.onCrew c (fun k => { k with trigWait := l.filter (fun t => decide (s.now < t / 2000)) }))

/-- The triggers that the present cycle brings: the ticks', then those that pulses have asked for (R91). -/
def cycleTriggers (tick : Bool) (s : State) : State :=
  let s := if tick then tickTriggers s else s
  ((s.crews.map (·.1)).filter (fun c => (s.crew c).trigWait != [])).foldl fireTriggers s

/-- A pulse of local phase k that started `gap` ps after the crew's previous one, or now where that lies further back:
every (PDIV + 1)-th pulse of the trigger phase triggers, DELAY after its start, in the order of the instants.
DESIGN CHOICE: assumption log 121. -/
def pulseTrigger (c k gap : Nat) (s : State) : State :=
  let s := s.onCrew c (fun r => { r with pulsePs := max (r.pulsePs + gap) (2000 * s.now) })
  if s.get CREW_AB_TRIG.SRC c = 1 ∧ s.get CREW_AB_CTL.PHASE c = k then
    let n := (s.crew c).trigPulses + 1
    if n % (s.get CREW_AB_TRIG.PDIV c + 1) = 0 then
      let t := (s.crew c).pulsePs + 125 * s.get CREW_AB_TRIG.DELAY c
      fireTriggers (s.onCrew c (fun r =>
        { r with trigPulses := 0, trigWait := insBy (fun x y => decide (x < y)) t r.trigWait })) c
    else s.onCrew c (fun r => { r with trigPulses := n })
  else s

/-! ## The ring -/

/-- The first member of an ascending ring after k, wrapping; k itself where the ring is empty. -/
def nextIn (l : List Nat) (k : Nat) : Nat :=
  match l.find? (fun j => decide (k < j)) with
  | some j => j
  | none => l.headD k

/-- The ring in order, counting from k. -/
def ringFrom (l : List Nat) (k : Nat) : List Nat := l.filter (fun j => decide (k ≤ j)) ++ l.filter (fun j => decide (j < k))

/-- Nibble k of CREW_PH_TRIM, as s4 (R61). -/
def State.trimOf (s : State) (c k : Nat) : Int := sgn 4 (bits (s.get CREW_PH_TRIM.TRIM c) (4 * k + 3) (4 * k))

/-- Every balance trim of the crew becomes 0 (R61). -/
def zeroTrims (c : Nat) (s : State) : State := s.put CREW_PH_TRIM.TRIM c 0

/-- The roles of local phase k pass to the next in the ring that is left (R67). -/
def passRoles (c k : Nat) (s : State) : State :=
  let r := s.ringOf c
  let s := if s.get CREW_RING_STAT.STROKE c = k then s.put CREW_RING_STAT.STROKE c (nextIn r k) else s
  if s.get CREW_RING_STAT.POINTER c = k then s.put CREW_RING_STAT.POINTER c (nextIn r k) else s

/-- Every phase of the crew that is not FUSED or STRUCK goes to state st, its run of no-conduction pulses back to 0
(R86); a step event in progress ends and is counted (R65), and a hold ends, which was counted as it began. A stop leaves
IDLE phases IDLE (R332, R334). DESIGN CHOICE: assumption log 7. -/
def parkPhases (st : PhaseSt) (low : Bool) (c : Nat) (s : State) : State :=
  let s := forAll (crewPhases c) (fun s ph =>
    let p := s.phase ph
    if p.st = .fused ∨ p.st = .struck ∨ (p.st = .idle ∧ st = .stopping) then s
    else (s.setPhase ph { p with st := st, lowSide := low, testOn := false, testWait := false, inTest := false }).put CREW_PH_CNT.NC_RUN ph 0) s
  let s := zeroTrims c s
  let s := if s.flag CREW_RING_STAT.STEP_EVENT c then (s.put CREW_RING_STAT.STEP_EVENT c 0).bump CREW_STEP_CNT.STEPS c else s
  (s.put CREW_RING_STAT.HOLD c 0).onCrew c (fun k => { k with spaceRun := 0 })

/-- The crew's phases go IDLE (R164, R261). -/
def idlePhases (c : Nat) (s : State) : State := parkPhases .idle false c s

/-- The crew's high sides turn off and its low sides conduct until the current is zero (R332). -/
def stopPhases (c : Nat) (s : State) : State := parkPhases .stopping true c s

/-- The crew's IDLE phases join the ring; pointer and stroke phase start at the lowest (R67), and trims at 0 (R61). -/
def startRing (c : Nat) (s : State) : State :=
  let s := forAll (crewPhases c) (fun s ph =>
    let p := s.phase ph
    if p.st = .idle ∨ p.st = .stopping then s.setPhase ph { p with st := .ready, lowSide := true } else s) s
  let lo := (s.ringOf c).headD 0
  (((zeroTrims c s).put CREW_RING_STAT.POINTER c lo).put CREW_RING_STAT.STROKE c lo)

/-! ## Leaving regulation -/

/-- The crew stops regulating: laws, samples and trims that last only while it regulates end. -/
def endRegulation (c : Nat) (s : State) : State :=
  (((s.put CREW_DP_STAT.LAW c 0).put CREW_SP_STAT.SLEWING c 0).put CREW_TR_STAT.DROOP c 0).onCrew c
    (fun k => { k with reg := false, ifValid := false, softStart := false, firstPair := false, busy := false,
                       transfer := false, resumeNow := false, seqCal := false, sdir := 0 })

/-! ## A plane as a whole, and its start marshal's spell (R202, R444) -/

/-- Some crew of plane p is ON, and all are but for those that are stood down. -/
def State.crewsOn (s : State) (p : Nat) : Bool :=
  (planeCrews p).any (fun c => s.cst c == 3) && (planeCrews p).all (fun c => decide (s.cst c ∈ [3, 4, 5, 6, 7]))

/-- Every crew of plane p is ON, but for those that are stood down: the plane as a whole is ON (R444). A plane whose
crews ramp down under PWROFF keeps that state (R261); one in a fault or domain shutdown does not count as ON.
DESIGN CHOICE: assumption log 81. -/
def State.planeOn (s : State) (p : Nat) : Bool :=
  let q := s.plane p
  s.crewsOn p && (q.ramp == .none || q.ramp == .pwroff) && !q.shutIssued

def State.mar (s : State) (f : Nat) : Marshal := tget {} s.msh f
def State.setMar (s : State) (f : Nat) (m : Marshal) : State := { s with msh := tset s.msh f m }

/-- The VLG plane of field f is ON for its start marshal (R202): every crew is, but for those that are stood down, and
nothing ramps the plane down, PWROFF neither. A fault shutdown counts from its effect at the crews on (R365).
DESIGN CHOICE: assumption log 81. -/
def State.vlgOn (s : State) (f : Nat) : Bool := s.crewsOn (4 * f) && (s.plane (4 * f)).ramp == .none

/-- START_HELD (R202): in a spell in which the VLG plane of field f is not ON, "start held" is recorded once, at its
beginning or with its first request. -/
def startHeld (f : Nat) (s : State) : State :=
  let m := s.mar f
  if s.vlgOn f then s.setMar f { m with heldRec := false }
  else if m.heldRec ∨ m.queue = [] then s
  else (s.setMar f { m with heldRec := true }).raise 0x0605 1 (0x6E0 + f)

/-- Crew c reaches ON. -/
def reachOn (c : Nat) (s : State) : State := startHeld (c / 24) (s.setCst c 3)

/-- Every crew of plane p is OFF. -/
def State.planeOff (s : State) (p : Nat) : Bool := (planeCrews p).all (fun c => s.cst c == 0)

/-- A plane is powered until every crew of it is OFF again (R167). -/
def settleOff (p : Nat) (s : State) : State :=
  if s.planeOff p then s.onPlane p (fun q => { q with powered := false, ceiling := none }) else s

/-- A crew ends in OFF with its plane's PWROFF, unless it holds that operation during its delivery calibration (R388) or
has discarded it, its last calibration not being valid (R387). -/
def offCrew (s : State) (c : Nat) : State :=
  if ((s.crew c).calRun && (s.crew c).heldOps.any (fun o => o.op.kind == .pwroff)) || !s.flag TB_CAL.VALID c then s
  else s.setCst c 0

/-- A plane that PWROFF ramps down and none of whose crews regulates any more is through: its crews are OFF (R261). -/
def rampOver (p : Nat) (s : State) : State :=
  if (s.plane p).ramp = .pwroff ∧ ¬ ((planeCrews p).any (fun d => (s.crew d).reg)) then
    settleOff p ((forAll (planeCrews p) offCrew s).onPlane p (fun q => { q with ramp := .none }))
  else s

/-- R168: a powered plane none of whose crews is starting or regulating any more goes dark, unless it is being ramped
down; one that PWROFF ramps down may be through instead (R261). DESIGN CHOICE: assumption log 66. -/
def darkCheck (p : Nat) (s : State) : State :=
  let s := rampOver p s
  if (s.plane p).powered ∧ (s.plane p).ramp = .none ∧ ¬ ((planeCrews p).any (fun c => s.alive c)) then
    startHeld (p / 4) ((forAll (planeCrews p) (fun s c => idlePhases c s) s).raisePlane 0x0509 p)
  else startHeld (p / 4) s

/-- Interleaved mode and the H sequence are selected, and the crew waits for its first pair (R93, R103, R165). -/
def selectInterleaved (c : Nat) (s : State) : State :=
  ((s.put CREW_AB_CTL.MODE c 0).put CREW_H_CTL.MODE c 0).onCrew c
    (fun k => { k with modeReq := some 0, seqCal := false, firstPair := true, pairA := false, pairB := false, ifValid := false,
                       toEntry0 := k.toEntry0 || s.flag CREW_H_CTL.MODE c })

/-- The crew sequencer begins its calibration: simultaneous mode with both inputs on ZERO (R93). -/
def selectZero (c : Nat) (s : State) : State :=
  (((s.put CREW_AB_CTL.MODE c 1).put CREW_AB_CTL.A_SEL c 3).put CREW_AB_CTL.B_SEL c 3).onCrew c
    (fun k => { k with seqCal := true, calOw := 0, modeReq := some 1 })

/-- The crew rejoins its plane (R165). -/
def startRejoin (c : Nat) (s : State) : State := selectInterleaved c (s.setCst c 7)

/-- A crew that is down is to rejoin: at once, or when its delivery calibration ends (R388); one whose calibration is not
valid does not (R48, R387). -/
def rejoinCrew (c : Nat) (s : State) : State :=
  if (s.crew c).calRun then s.onCrew c (fun k => { k with rejoinDue := true })
  else if s.flag TB_CAL.VALID c then startRejoin c s else s

/-- The crew sheds its current (R164). -/
def shed (c : Nat) (s : State) : State := (s.setCst c 4).onCrew c (fun k => { k with shedAt := s.now })

/-- R166: a crew with fewer than five usable phases is forced down according to its state. -/
def forcedDown (c : Nat) (s : State) : State :=
  if s.usable c < 5 then
    let s := s.put CREW_PWR_STAT.FORCED c 1
    match s.cst c with
    | 3 | 7 => (s.put CREW_PWR_STAT.STAND_RES c 5 |> shed c).onCrew c (fun k => { k with standKind := 2, standReq := none })
    | 2 => darkCheck (planeOf c) (endRegulation c ((idlePhases c s).setCst c 5))
    | 4 => s.onCrew c (fun k => { k with standKind := 2 })
    | _ => s
  else s

/-- R81: local phase k of crew c is struck with a cause; a phase restored less than 1 s ago becomes STICKY (R84). -/
def strike (c k cause : Nat) (s : State) : State :=
  let ph := 8 * c + k
  let p := s.phase ph
  if p.st = .fused ∨ p.st = .struck then s
  else
    let s := s.setPhase ph { p with st := .struck, lowSide := true, testOn := false, testWait := false, inTest := false }
    let s := zeroTrims c (passRoles c k { s with cyc := { s.cyc with struck := ph :: s.cyc.struck } })
    let s := (s.put CREW_PH_CAUSE.CAUSE c (setBits (s.get CREW_PH_CAUSE.CAUSE c) (2 * k) 2 cause)).raise 0x0203 1 ph cause
    let s := match p.restoredAt with
      | some t => if s.now < t + 500000000 then (s.putBit CREW_PH_STATE.STICKY c k true).raise 0x0204 1 ph cause else s
      | none => s
    forcedDown c s

/-! ## Pulses -/

/-- The next state of the 15-bit dither register with polynomial x^15 + x^14 + 1 (R59).
DESIGN CHOICE: assumption log 42. -/
def lfsrStep (x : Nat) : Nat := ((x * 2) % 32768) + ((x / 16384 + x / 8192) % 2)

/-- D of R59 in 1/1000 for a DITHER_DEPTH code. -/
def ditherD (depth : Nat) : Int := [0, 15, 30, 60].getD depth 0

/-- DITHER (R59): the register steps and a new term s × D is drawn from it, in 1/32,000; nothing while the depth is 0.
DESIGN CHOICE: assumption log 42. -/
def dither (c : Nat) (s : State) : State × Int :=
  if s.get CREW_MOD_CTL.DITHER_DEPTH c = 0 then (s, 0)
  else
    let x := lfsrStep (s.crew c).lfsr
    (s.onCrew c (fun k => { k with lfsr := x }), sgn 6 x * ditherD (s.get CREW_MOD_CTL.DITHER_DEPTH c))

/-- The gate word in force at crew c (R77). -/
def State.gateWord (s : State) (c : Nat) : Nat :=
  let i := 6 * c + s.get CREW_GATE_SEL.BAND c
  s.get CREW_GATE_TB.SLEW i * 2 ^ 24 + s.get CREW_GATE_TB.DT_F i * 2 ^ 16 + s.get CREW_GATE_TB.DT_R i * 2 ^ 8 +
    s.get CREW_GATE_TB.LS_DRV i * 16 + s.get CREW_GATE_TB.HS_DRV i

/-- The on-time of R55 in ns. -/
def OnTerms.onTime (t : OnTerms) : Rat :=
  (t.kOn : Rat) / 128 * t.vref / t.vib * (1 + (t.dith : Rat) / 32000) * (1 + (t.trim : Rat) / 200)

/-- Rising and falling dead time of a gate word in ps, with the 40 ps floor (R79). -/
def gateDead (w : Nat) : Nat × Nat := (max 40 (10 * bits w 13 8), max 40 (10 * bits w 21 16))

/-- High-side and low-side driver segments of a gate word; 0 acts as 1 (R79). -/
def gateDrive (w : Nat) : Nat × Nat := (max 1 (bits w 3 0), max 1 (bits w 7 4))

/-- The switch-node transition time of a gate word in ps (R79). -/
def gateEdge (w : Nat) : Nat := 80 + 20 * bits w 26 24

/-- The ripple amplitude of a code in mV (R58). -/
def rippleMv (code : Nat) : Nat := 4 + 4 * code

/-- The spacing bookkeeping of R63 and R65 for a pulse that is, or is not, at minimum spacing: a step event begins
at the third in a row, ends after the first that is not, is counted, and rotates the stroke phase (R66). -/
def stepEvent (c : Nat) (minimum : Bool) (s : State) : State :=
  if minimum then
    let n := (s.crew c).spaceRun + 1
    let s := s.onCrew c (fun k => { k with spaceRun := n })
    if 3 ≤ n then s.put CREW_RING_STAT.STEP_EVENT c 1 else s
  else
    let s := s.onCrew c (fun k => { k with spaceRun := 0 })
    if s.flag CREW_RING_STAT.STEP_EVENT c then
      let s := (s.put CREW_RING_STAT.STEP_EVENT c 0).bump CREW_STEP_CNT.STEPS c
      if s.flag CREW_RING_CTL.ROT_EN c then
        let r := s.ringOf c
        let move := if r.length = 6 then 5 else 3
        s.put CREW_RING_STAT.STROKE c (Nat.repeat (nextIn r) move (s.get CREW_RING_STAT.STROKE c))
      else s
    else s

/-- The first-pulse delay of R172 in ps, (j mod 8) × K_ON / 64, until the crew's first pulse after its start. -/
def State.firstDelay (s : State) (c : Nat) : Nat :=
  if (s.crew c).firstPulse then ceilDiv (c % 8 * s.get CREW_MOD_CTL.K_ON c * 1000) 8192 else 0

/-- t_SP of R63 in ps. A written SPACING bounds the very next pulse. DESIGN CHOICE: assumption log 120. -/
def State.tSp (s : State) (c : Nat) : Nat := 125 * s.get CREW_RING_CTL.SPACING c

/-- A ring hold begins (R63): it is counted once, however long it lasts. -/
def beginHold (c : Nat) (s : State) : State :=
  if s.flag CREW_RING_STAT.HOLD c then s else (s.put CREW_RING_STAT.HOLD c 1).bump CREW_HOLD_CNT.HOLDS c

/-- PULSE (R63), gap ps after the previous pulse, with the comparator's overdrive (µV) and the local VIB sense in
0.1 µV; its demand stands since `demandPs` after that pulse, or where that lies beyond the gap it has lapsed, and a hold
with it. A demand that finds no phase READY is a ring hold. The pulse goes to the first READY phase in ring order from
the pointer, or from the stroke phase (R62, R64); one later than its demand, its first-pulse delay (R172) and t_SP ends a
hold. DESIGN CHOICE: assumption log 51. -/
def pulse (c overdrive demandPs gapPs vib : Nat) (s : State) : State :=
  let due := max (demandPs + s.firstDelay c) (s.tSp c)
  if ¬ (s.crew c).reg ∨ (s.crew c).ovInhibit ∨ gapPs < s.tSp c then s
  else if gapPs < demandPs then s.put CREW_RING_STAT.HOLD c 0
  else if gapPs < due then s
  else
    let od := s.get CREW_RING_CTL.STROKE_OD c
    let stroke := od ≠ 0 ∧ (od + 1) * 1000 < overdrive ∧ ¬ s.flag CREW_RING_STAT.STEP_EVENT c
    let start := if stroke then s.get CREW_RING_STAT.STROKE c else s.get CREW_RING_STAT.POINTER c
    match (ringFrom (s.ringOf c) start).find? (fun k => (s.phase (8 * c + k)).st == .ready) with
    | none => beginHold c s
    | some k =>
      let held : Bool := decide (due < gapPs)
      let s := ((if held then beginHold c s else s).put CREW_RING_STAT.HOLD c 0).onCrew c (fun k => { k with firstPulse := false })
      let (s, δ) := dither c s
      let terms : OnTerms :=
        ⟨s.get CREW_MOD_CTL.K_ON c, s.get CREW_SP_REF.REF c, vib, δ, s.trimOf c k, s.gateWord c,
          rippleMv (s.get CREW_MOD_CTL.RIPPLE c)⟩
      let s := s.onPhase (8 * c + k) (fun p => { p with st := .on, lowSide := false, terms := terms })
      let s := s.put CREW_RING_STAT.POINTER c (nextIn (s.ringOf c) k)
      stepEvent c (held || gapPs == s.tSp c) (pulseTrigger c k gapPs s)

/-- PULSE. DESIGN CHOICE: assumption log 7. -/
def execPulse (c overdrive demandPs gapPs vib : Nat) (s : State) : Out := .next (pulse c overdrive demandPs gapPs vib s)

/-- END_OF_ON_TIME (R55): the phase enters OFF_MIN; the conduction check of R80 compares its current rise (mA) with
25 % of (V_IB − V_ref) × T_ON / 2.2 nH, and a full run strikes it. In TEST the check does not run, and the minimum
off-time does (R87). -/
def execEndOfOnTime (ph rise : Nat) (s : State) : Out :=
  let p := s.phase ph
  let c := ph / 8
  if p.testOn then .next (s.setPhase ph { p with testOn := false, lowSide := true, st := .test, testWait := true })
  else if p.st ≠ .on then .next s
  else
    let s := s.setPhase ph { p with st := .offMin, lowSide := true }
    let poor : Bool := decide (((rise * 88000 : Nat) : Rat) < ((p.terms.vib : Rat) - p.terms.vref) * p.terms.onTime)
    let n := if poor then min 255 (s.get CREW_PH_CNT.NC_RUN ph + 1) else 0
    let s := s.put CREW_PH_CNT.NC_RUN ph n
    .next (if s.get CREW_DEAD_CTL.NC_MAX c ≤ n then strike c (ph % 8) 1 s else s)

/-- MINIMUM_OFF_TIME_END (R56): OFF_MIN ends in READY; a phase in TEST may take its next test pulse (R87). -/
def execMinimumOffTimeEnd (ph : Nat) (s : State) : Out :=
  let p := s.phase ph
  .next (if p.st = .offMin then s.setPhase ph { p with st := .ready }
    else if p.testWait then s.setPhase ph { p with testWait := false } else s)

/-- FAST_LIMIT_TRIP (R70): the high side turns off, the phase is BLANKED, and the trip is counted (R71); the
TRIP_MAX-th trip of a window strikes it. -/
def execFastLimitTrip (ph : Nat) (s : State) : Out :=
  let p := s.phase ph
  let c := ph / 8
  if p.st = .on ∨ p.testOn then
    let s := s.setPhase ph { p with st := .blanked, lowSide := true, testOn := false, winTrips := p.winTrips + 1,
                                    tripAt := some s.now }
    let s := s.bump CREW_PH_CNT.FSC_TRIPS ph
    .next (if s.get CREW_FSC_CTL.TRIP_MAX c ≤ p.winTrips + 1 then strike c (ph % 8) 2 s else s)
  else .next s

/-- BLANK_END (R70): a BLANKED phase is READY again, one under test too (R87). -/
def execBlankEnd (ph : Nat) (s : State) : Out :=
  let p := s.phase ph
  .next (if p.st = .blanked then s.setPhase ph { p with st := .ready, testWait := false } else s)

/-- TRIP_WINDOW (R71): a 10 µs window of the crew ends, and the trip counts restart. -/
def execTripWindow (c : Nat) (s : State) : Out :=
  .next (forAll (crewPhases c) (fun s ph => s.onPhase ph (fun p => { p with winTrips := 0 })) s)

/-- OVER_TEMP (R80): the over-temperature comparator of a phase reports its level, which OT_LIVE follows (R88), and
whether it has stayed asserted for 1 µs; then a phase in the ring or in TEST is struck. A FUSED phase has no active
comparator (R86). DESIGN CHOICE: assumption log 48. -/
def execOverTemp (ph : Nat) (live held : Bool) (s : State) : Out :=
  let p := s.phase ph
  let c := ph / 8
  if p.st = .fused then .next s
  else
    let s := s.putBit CREW_PH_CAUSE.OT_LIVE c (ph % 8) live
    .next (if live && held && (inRing p || p.inTest) then strike c (ph % 8) 3 s else s)

/-- The judgement of R83 on local phase k in a state: 1 accepted, 2 and 3 refused, 0 not requested. -/
def restoreResult (s : State) (c k : Nat) : Nat :=
  let p := s.phase (8 * c + k)
  if p.st = .fused ∨ bitAt (s.get CREW_PH_STATE.STICKY c) k then 2
  else if p.st = .struck then
    if bits (s.get CREW_PH_CAUSE.CAUSE c) (2 * k + 1) (2 * k) = 3 ∧ bitAt (s.get CREW_PH_CAUSE.OT_LIVE c) k then 3 else 1
  else 0

/-- Local phase k of crew c takes an accepted restore: it is STRUCK, and no strike of this tick has made it so (R82). -/
def State.restorable (s : State) (c k : Nat) : Bool :=
  (s.phase (8 * c + k)).st == .struck && !(s.cyc.on && s.cyc.struck.contains (8 * c + k))

/-- An accepted restore of local phase k (R83): READY, or IDLE in a crew that is powered off or stood down. -/
def restoreOne (c : Nat) (s : State) (k : Nat) : State :=
  let ph := 8 * c + k
  let st : PhaseSt := if s.crewDown c then .idle else .ready
  let s := s.onPhase ph (fun p => { p with st := st, lowSide := !s.crewDown c, winTrips := 0, restoredAt := some s.now })
  let s := s.put CREW_PH_CAUSE.CAUSE c (setBits (s.get CREW_PH_CAUSE.CAUSE c) (2 * k) 2 0)
  zeroTrims c (s.put CREW_PH_CNT.NC_RUN ph 0)

/-- RESTORE (R83): each phase of the mask is judged on its state as the tick began; accepted phases rejoin. A crew
that was forced down and now has five usable phases rejoins where its plane is powered (R166). -/
def restore (c mask : Nat) (s : State) : State :=
  let res := (List.range 8).map (fun k => if bitAt mask k then restoreResult s.tickView c k else 0)
  let s1 := s.put CREW_PH_RESTORE_STAT.RESULT c (sumN ((List.range 8).map (fun k => res.getD k 0 * 4 ^ k)))
  let s2 := forAll ((List.range 8).filter (fun k => res.getD k 0 = 1 && s.restorable c k)) (restoreOne c) s1
  if s2.flag CREW_PWR_STAT.FORCED c ∧ 5 ≤ s2.usable c then
    let s3 := s2.put CREW_PWR_STAT.FORCED c 0
    if s3.cst c = 5 ∧ (s3.plane (planeOf c)).powered ∧ (s3.plane (planeOf c)).ramp = .none then rejoinCrew c s3 else s3
  else s2

/-- A phase current reading in 1/256 mA: code × 15.625 mA × V_REF / gain (R98). -/
def State.phaseMa256 (s : State) (c k : Nat) : Int :=
  let (code, g, q) := tget (0, 0, 4) (s.crew c).hHeld k
  code * 1000 * q / (2 ^ g : Nat)

/-- BALANCE_TRIM (R61): with BAL_EN, the trim of each active phase steps towards the mean of the active phases. -/
def execBalanceTrim (c : Nat) (s : State) : Out :=
  if s.flag CREW_MOD_CTL.BAL_EN c then
    let r := s.ringOf c
    let total := sumI (r.map (s.phaseMa256 c))
    .next (forAll r (fun s k =>
      let dev := s.phaseMa256 c k * r.length - total
      let b := s.trimOf c k
      let b' := if total.natAbs < dev * 50 then max (-8) (b - 1) else if dev * 50 < -(total.natAbs : Int) then min 7 (b + 1) else b
      s.put CREW_PH_TRIM.TRIM c (setBits (s.get CREW_PH_TRIM.TRIM c) (4 * k) 4 (unsg 4 b'))) s)
  else .next s

/-! ## Foldback -/

/-- The latest SUM result as a crew current in mA: code × 125 mA × V_REF / gain (R98, R100). -/
def State.sumMa (s : State) (c : Nat) : Int :=
  let (code, g, q) := tget (0, 0, 4) (s.crew c).hHeld 8
  roundOpen (code * 125 * q) (4 * 2 ^ g)

/-- The continuous rating that foldback compares with, in mA: 14 A × the active phase count (R72). -/
def State.foldRating (s : State) (c : Nat) : Nat := 14000 * s.activeCount c

/-- The fold level in mA (R73). -/
def State.foldLevel (s : State) (c : Nat) : Nat := s.foldRating c * (90 + 2 * min 5 (s.get CREW_OVL_CTL.FOLD_LEVEL c)) / 100

/-- The filtered current is at or above 115 % of the continuous rating (R72). -/
def State.overloaded (s : State) (c : Nat) : Bool := decide (115 * s.foldRating c ≤ 100 * s.get CREW_OVL_FILT.FILT_MA c)

/-- CREW_OVERLOAD (R72): a regulating crew that is not folded enters the fold state, where its filtered current is at or
above 115 % of the rating. That it has been so for 100 µs is what the command says. -/
def execCrewOverload (c : Nat) (s : State) : Out :=
  if (s.crew c).reg ∧ ¬ s.flag CREW_OVL_STAT.FOLD c ∧ s.overloaded c then
    .next (latchStatus (planeOf c) 0 0x20 0 (((s.put CREW_OVL_STAT.FOLD c 1).bump CREW_OVL_CNT.FOLDS c).raiseCrew 0x0202 c))
  else .next s

/-- The largest fold offset in µV that keeps the target, the reference and the sharing trim, at or above the window's
lower end (R75). DESIGN CHOICE: assumption log 46. -/
def State.foldMax (s : State) (c : Nat) : Nat :=
  (((s.get CREW_SP_REF.REF c : Int) + 1250 * s.getI CREW_DP_TRIM.TRIM c - codeUv (s.winLo c)) / 10).toNat

/-- The fold offset of one tick (R73, R75): 16 µV more or less, held at the window's lower end; and whether it is held. -/
def State.foldNext (s : State) (c : Nat) (up : Bool) : Nat × Bool :=
  let off := if up then (s.crew c).foldUv + 16 else (s.crew c).foldUv - 16
  (min off (s.foldMax c), if up then decide (s.foldMax c ≤ off) else decide (s.foldMax c < off))

/-- FOLD_OFFSET (R73): one tick of the fold offset, of shedding (R164) or of a rejoin (R165), at 16 µV a tick. The
fold state ends at offset 0 below the rating (R74); a rejoining crew at offset 0 is ON.
DESIGN CHOICE: assumption log 46. -/
def execFoldOffset (c : Nat) (s : State) : Out :=
  let k := s.crew c
  if ¬ k.reg then .next s
  else
    let above : Bool := s.flag CREW_OVL_STAT.FOLD c && decide ((s.foldLevel c : Int) < s.sumMa c)
    let (off, held) := s.foldNext c (s.cst c == 4 || above)
    let s := (s.onCrew c (fun k => { k with foldUv := off })).mark CREW_OVL_STAT.FLOOR c (s.flag CREW_OVL_STAT.FOLD c && held)
    let s := if s.flag CREW_OVL_STAT.FOLD c ∧ s.cst c ≠ 4 ∧ off = 0 ∧ s.get CREW_OVL_FILT.FILT_MA c < s.foldRating c then
        (s.put CREW_OVL_STAT.FOLD c 0).put CREW_OVL_STAT.FLOOR c 0 else s
    .next (if s.cst c = 7 ∧ off = 0 then reachOn c s else s)

/-- OVERLOAD_UNRESOLVED (R75): FLOOR and the overload have lasted 100 µs. -/
def execOverloadUnresolved (c : Nat) (s : State) : Out :=
  if s.flag CREW_OVL_STAT.FLOOR c ∧ (s.foldLevel c : Int) < s.sumMa c then .next (s.raiseCrew 0x0205 c) else .next s

/-- TEST_PULSE (R87): the sequencer of a CALIBRATING crew starts a test pulse; an IDLE phase enters TEST when no
other phase of the crew is in it, and the previous phase under test returns to IDLE. A phase under test takes the next
pulse when no pulse and no minimum off-time of it runs, after a trip once it is READY. The terms are those of R55 with
δ and b_k 0 and V_ref the sensed plane voltage. -/
def execTestPulse (ph vPlane vib : Nat) (s : State) : Out :=
  let c := ph / 8
  if s.cst c ≠ 6 ∨ (s.crew c).calOw ≠ 0 then .next s
  else
    let p := s.phase ph
    if p.st = .idle ∨ (p.st = .test ∧ ¬ p.testOn ∧ ¬ p.testWait) ∨ (p.st = .ready ∧ p.inTest) then
      let s := forAll ((crewPhases c).filter (fun q => q ≠ ph)) (fun s q =>
        let r := s.phase q
        if r.inTest then (s.setPhase q { r with st := .idle, lowSide := false, testOn := false, testWait := false, inTest := false }) else s) s
      let terms : OnTerms := ⟨s.get CREW_MOD_CTL.K_ON c, vPlane, vib, 0, 0, s.gateWord c, rippleMv (s.get CREW_MOD_CTL.RIPPLE c)⟩
      let s := s.setPhase ph { p with st := .test, inTest := true, testOn := true, testWait := false, lowSide := false, terms := terms }
      .next (pulseTrigger c (ph % 8) (s.get CREW_MOD_CTL.K_ON c * 1000 / 128) s)
    else .next s

/-- The shift register loads SEED; a written value of 0 loads 1 (R60). -/
def loadSeed (c : Nat) (s : State) : State :=
  let v := if s.get CREW_DITHER_SEED.SEED c = 0 then 1 else s.get CREW_DITHER_SEED.SEED c
  s.onCrew c (fun k => { k with lfsr := v })

/-- PHASE_CURRENT_REACHES_ZERO (R54, R332): the low side turns off, and a stopping phase goes IDLE. -/
def execPhaseCurrentReachesZero (ph : Nat) (s : State) : Out :=
  let p := s.phase ph
  if p.st = .struck then .next (s.setPhase ph { p with lowSide := false })
  else if p.st = .stopping then .next (s.setPhase ph { p with lowSide := false, st := .idle })
  else .next s

end Sys2Proof.Machine
end

