-- ==== Sys2Proof/Machine/Sense.lean ====
section
/-! DEFINITION. Crew sense converters (chapter 03): samples of A and B, converter H with its sequence, urgent queue,
reference checks and result formats, and the open-wire test. -/

namespace Sys2Proof.Machine

open Sys2Proof

/-! ## The effective target (R137, R159, chapter 04) -/

/-- The effective target T of crew c in 0.1 µV: the larger of the command's code and the plane floor, held to the
window's upper end, plus 20 mV on local sense, never above the window (R115, R159, R160). -/
def State.target (s : State) (c : Nat) : Nat :=
  let hi := s.winHi c
  let code := min (max (s.get CREW_SP_STAT.TARGET c) (s.get CREW_GB_STAT.FLOOR c)) hi
  if s.flag CREW_SP_STAT.OPEN_OFS c then min (codeUv code + 200000) (codeUv hi) else codeUv code

/-- SLEWING follows REF and T while the crew regulates. -/
def showSlewing (c : Nat) (s : State) : State :=
  s.mark CREW_SP_STAT.SLEWING c ((s.crew c).reg && s.get CREW_SP_REF.REF c != s.target c)

/-! ## Misses (R96, R139, R142) -/

/-- A tick in which A, B or both overran counts as one miss. -/
def miss (c : Nat) (s : State) : State :=
  if (s.crew c).missed then s
  else
    let s := s.onCrew c (fun k => { k with missed := true })
    let s := (s.bump CREW_DP_MISS_CNT.MISSES c).bump CREW_DP_MISS_WIN.WIN c
    let run := min 3 (s.get CREW_DP_STAT.MISS_RUN c + 1)
    let s := s.put CREW_DP_STAT.MISS_RUN c run
    let s := if run = 3 ∧ ¬ s.flag CREW_DP_STAT.LAW c then s.onCrew c (fun k => { k with fbDue := true }) else s
    if s.get CREW_DP_MISS_WIN.WIN c = 64 then s.raiseCrew 0x0404 c else s

/-! ## Converters A and B -/

/-- The register instance of converter A (false) or B (true) of crew c. -/
def abI (c : Nat) (isB : Bool) : Nat := 2 * c + isB.toNat

/-- The background current flows (R112): with BG_EN, while the crew regulates on remote sense. -/
def State.bgOn (s : State) (c : Nat) : Bool :=
  s.flag CREW_OW_CTL.BG_EN c && (s.crew c).reg && !s.flag CREW_AB_STAT.SENSE c

/-- The pull current on sense line l (0 S+, 1 S−) in µA: the 100 of a test between its two conversions; none on a line
under test before it, nor on one found open; else the background's 10 (R112, R114, R115). -/
def State.pullUa (s : State) (c l : Nat) : Nat :=
  let background := if s.bgOn c && !s.flag (if l = 0 then CREW_OW_STAT.OPEN_POS else CREW_OW_STAT.OPEN_NEG) c then 10 else 0
  match (s.crew c).ow with
  | some t => if t.line = l then (if t.first.isSome && !t.pulled then 100 else 0) else background
  | none => background

/-- The correction of R112 to a sample that was taken on sense `sense`, in twentieths of a mV: 10 µA through the line
resistances of the last intact test, on remote sense while BG_EN is 1 and the crew regulates.
DESIGN CHOICE: assumption log 134. -/
def State.bgCorr (s : State) (c sense : Nat) : Nat :=
  if s.flag CREW_OW_CTL.BG_EN c && (s.crew c).reg && sense == 0 then (s.crew c).owDv.getD 0 else 0

/-- An input of `raw` LSBs as a 12-bit code, the end code beyond the window (R89), with offset trim (1/8 LSB), correction
(2/5 LSB each) and gain trim (2^−12) applied (R94, R112): the correction is added with the offset, before the gain.
DESIGN CHOICE: assumption log 134. -/
def abTrim (raw ofs gain : Int) (corr : Nat) : Int :=
  clampI (roundOpen ((clampI raw (-2048) 2047 * 40 + ofs * 5 + corr * 16) * (4096 + gain)) (40 * 4096)) (-2048) 2047

/-- MODE and sense in force, and before each change of either, the last one first (R93). -/
def State.abTags (s : State) (c : Nat) : List (Nat × Nat) :=
  (s.get CREW_AB_STAT.MODE_ACT c, s.get CREW_AB_STAT.SENSE c) :: (s.crew c).oldTags

/-- MODE and sense at the sampling instant of a landing sample, `back` changes of either ago (R93). -/
def State.abTag (s : State) (c back : Nat) : Nat × Nat :=
  (s.abTags c).getD back ((s.abTags c).getLastD (0, 0))

/-- The tags that a change of MODE or sense leaves behind: at most two changes in each of the 7 ticks of latency. -/
def State.keepTags (s : State) (c : Nat) : List (Nat × Nat) := (s.abTags c).take 16

/-- The input of a landing sample: the control input's sense in interleaved mode; in simultaneous mode that of the oldest
accepted trigger whose sample is still to land, and without one no sample is on its way (R90, R91). -/
def State.abInput (s : State) (c : Nat) (isB : Bool) (back : Nat) : Option Nat :=
  if (s.abTag c back).1 = 0 then some (s.abTag c back).2
  else if isB then (s.crew c).trigB.head? else (s.crew c).trigA.head?

/-- AB_SAMPLE_LAND (R95): a sample of A or B lands. A sample that finds NEW set is an overrun, which in interleaved mode
makes the tick a miss (R96). -/
def execAbSampleLand (c : Nat) (isB : Bool) (raw : Int) (back : Nat) (s : State) : Out :=
  let k := s.crew c
  let mode := (s.abTag c back).1
  match s.abInput c isB back with
  | none => .next s
  | some input =>
  let v := abTrim raw (s.getI (if isB then CREW_AB_TRIM.B_OFS else CREW_AB_TRIM.A_OFS) c)
    (s.getI (if isB then CREW_AB_TRIM.B_GAIN else CREW_AB_TRIM.A_GAIN) c) (if mode = 0 then s.bgCorr c input else 0)
  let i := abI c isB
  let again := s.flag CREW_AB.NEW i
  let s := if mode = 0 ∧ ¬ isB then s.onCrew c (fun k => { k with missed := false }) else s
  let s := if mode = 0 then
      s.onCrew c (fun k => if isB then { k with landB := some (s.now, v) } else { k with landA := some (s.now, v) }) else s
  let s := if mode = 0 then s
    else s.onCrew c (fun k => if isB then { k with trigB := k.trigB.tail } else { k with trigA := k.trigA.tail })
  let s := if again then
      (s.setOver (if isB then CREW_AB_STAT.B_OVR else CREW_AB_STAT.A_OVR) c).bump
        (if isB then CREW_AB_OVR_CNT.B_OVRS else CREW_AB_OVR_CNT.A_OVRS) c
    else s
  let s := ((((s.put CREW_AB.NEW i 1).mark CREW_AB.OVR i again).put CREW_AB.INPUT i input).put CREW_AB.MODE i mode).putI
    CREW_AB.SAMPLE i v
  let s := if mode = 0 ∧ isB ∧ k.busy then s.onCrew c (fun k => { k with bLate := true }) else s
  let s := if mode = 0 ∧ k.firstPair ∧ back = 0 then
      s.onCrew c (fun k => if isB then { k with pairB := k.pairA } else { k with pairA := true }) else s
  let s := if mode = 0 ∧ again then miss c s else s
  .next (if mode = 0 ∧ isB ∧ ¬ (s.crew c).missed then s.put CREW_DP_STAT.MISS_RUN c 0 else s)

/-- A read of CREW_AB_A or CREW_AB_B takes the sample in simultaneous mode only (R95). -/
def takeOnRead (c : Nat) (isB : Bool) (s : State) : State :=
  if s.flag CREW_AB_STAT.MODE_ACT c then s.put CREW_AB.NEW (abI c isB) 0 else s

/-- A write of CREW_AB_CTL.MODE (R92): interleaved always, simultaneous only where the crew allows it.
DESIGN CHOICE: assumption log 15. -/
def abModeWrite (c v : Nat) (s : State) : State :=
  if v = 0 ∨ s.simAllowed c then (s.put CREW_AB_CTL.MODE c v).onCrew c (fun k => { k with modeReq := some v })
  else ((s.put CREW_AB_CTL.MODE c 0).setOver CREW_AB_STAT.MODE_REFUSED c).raiseCrew 0x0301 c

/-- MODE_CHANGE (R93): an accepted mode takes effect at the tick boundary; samples already taken keep the old tags. -/
def execModeChange (c : Nat) (s : State) : Out :=
  match (s.crew c).modeReq with
  | none => .next s
  | some v =>
    .next ((s.put CREW_AB_STAT.MODE_ACT c v).onCrew c
      (fun k => { k with modeReq := none, oldTags := s.keepTags c, pairA := false, pairB := false }))

/-! ## Converter H: the sequence -/

/-- The channels of the housekeeping rotor: REFCHK, GND, VAON, OW0, OW1 (R98). -/
def hkChannels : List Nat := [11, 12, 13, 14, 15]

/-- The first local phase from k on, in local index order, that is not FUSED; k where all are. -/
def State.nextPhase (s : State) (c k : Nat) : Nat :=
  ((ringFrom (List.range 8) (k % 8)).find? (fun j => (s.phase (8 * c + j)).st != .fused)).getD (k % 8)

/-- The gain code of HK_NEXT for a channel: ×8 for GND, ×1 for the others (R99). -/
def hkGain (ch : Nat) : Nat := if ch = 12 then 3 else 0

/-- A slot for a channel code of a source, as it starts: rotors name their physical channel, and HK_NEXT sets its gain
(R99). -/
def State.mkSlot (s : State) (c : Nat) (src : HSrc) (ch stime gain : Nat) : HSlot :=
  let ok := s.flag CREW_H_STAT.REF_SETTLED c
  if ch = 16 then ⟨src, s.nextPhase c (s.crew c).rotPh, 16, stime, gain, ok, 4⟩
  else if ch = 17 then
    let p := hkChannels.getD (s.crew c).rotHk 11
    ⟨src, p, 17, stime, hkGain p, ok, 4⟩
  else ⟨src, ch, 0, stime, gain, ok, 4⟩

/-- The slot of a pending urgent request, as it starts (R99, R105). -/
def State.urgentSlot (s : State) (c : Nat) (u : HSlot) : HSlot := s.mkSlot c u.src u.ch u.stime u.gain

/-- The nominal reference in force in quarter volts: 1.000 V, or 0.75 V of VAON (R100, R109). -/
def State.refQ (s : State) (c : Nat) : Nat := if s.get CREW_H_REF.REF_SEL c = 2 then 3 else 4

/-- The slot of the sequence entry that ENTRY names, or the single-channel slot (R101). -/
def State.plainSlot (s : State) (c : Nat) : HSlot :=
  if s.flag CREW_H_CTL.MODE c then
    s.mkSlot c .single (s.get CREW_H_CTL.CH c) (s.get CREW_H_CTL.STIME c) (s.get CREW_H_CTL.GAIN c)
  else
    let e := s.get CREW_H_STAT.ENTRY c
    let i := 16 * c + e
    s.mkSlot c (.seq e) (s.get CREW_H_SEQ.CH i) (s.get CREW_H_SEQ.STIME i) (s.get CREW_H_SEQ.GAIN i)

/-- The entry after e under the length in force (R102). -/
def State.entryAfter (s : State) (c e : Nat) : Nat := if e + 1 ≤ s.get CREW_H_CTL.SEQ_LEN c then e + 1 else 0

/-- H starts a slot: an urgent one of the fault logic before one of RDT (R105), else the plain one. -/
def startSlot (c : Nat) (s : State) : State :=
  let k := s.crew c
  match k.urgFault, k.urgRdt with
  | some u, _ => (s.put CREW_H_STAT.URG_BUSY c 1).onCrew c (fun k => { k with slot := s.urgentSlot c u, urgFault := none })
  | none, some u => (s.put CREW_H_STAT.URG_BUSY c 1).onCrew c (fun k => { k with slot := s.urgentSlot c u, urgRdt := none })
  | none, none =>
    let s := if s.get CREW_H_CTL.SEQ_LEN c < s.get CREW_H_STAT.ENTRY c then s.put CREW_H_STAT.ENTRY c 0 else s
    (s.put CREW_H_STAT.URG_BUSY c 0).onCrew c (fun k => { k with slot := s.plainSlot c })

/-- The running slot as it ends: with its reference, settled all through it or not (R108). -/
def State.endedSlot (s : State) (c : Nat) : HSlot :=
  let sl := (s.crew c).slot
  { sl with settled := sl.settled && s.flag CREW_H_STAT.REF_SETTLED c, q := s.refQ c }

/-- H_SLOT_END (R97): the slot ends, its rotor advances (R99), and the next entry or urgent slot starts (R106); a change
to sequence mode takes effect at entry 0 (R102). -/
def execHSlotEnd (c : Nat) (s : State) : Out :=
  let sl := s.endedSlot c
  let s := s.onCrew c (fun k => { k with hDone := k.hDone ++ [sl] })
  let s := if sl.rotor = 16 then s.onCrew c (fun k => { k with rotPh := s.nextPhase c (sl.ch + 1) })
    else if sl.rotor = 17 then s.onCrew c (fun k => { k with rotHk := (k.rotHk + 1) % 5 }) else s
  let s := match sl.src with
    | .seq e => s.put CREW_H_STAT.ENTRY c (s.entryAfter c e)
    | _ => s
  let s := if (s.crew c).toEntry0 then (s.put CREW_H_STAT.ENTRY c 0).onCrew c (fun k => { k with toEntry0 := false }) else s
  .next (startSlot c s)

/-- The sampling time and gain of an urgent RDT of a channel: those of the lowest entry that names the channel or a
rotor covering it, among the entries H walks, else STIME 4 and ×1. HK_NEXT sets its own gain (R99).
DEDUCED: assumption log 122. -/
def State.rdtTiming (s : State) (c ch : Nat) : Nat × Nat :=
  let covers (e : Nat) : Bool :=
    let x := s.get CREW_H_SEQ.CH (16 * c + e)
    x == ch || (x == 16 && decide (ch < 8)) || (x == 17 && hkChannels.contains ch)
  match (List.range (s.get CREW_H_CTL.SEQ_LEN c + 1)).find? covers with
  | some e => (s.get CREW_H_SEQ.STIME (16 * c + e),
      if s.get CREW_H_SEQ.CH (16 * c + e) = 17 then hkGain ch else s.get CREW_H_SEQ.GAIN (16 * c + e))
  | none => (3, 0)

/-- An RDT request is pending or converting at H (R105). -/
def State.rdtBusy (s : State) (c : Nat) : Bool :=
  (s.crew c).urgRdt.isSome || (match (s.crew c).slot.src with | .rdt _ => true | _ => false)

/-- A request of the fault logic is pending, converting or awaits its result (R105). -/
def State.faultBusy (s : State) (c : Nat) : Bool :=
  (s.crew c).urgFault.isSome || ((s.crew c).slot :: (s.crew c).hDone).any (fun sl => sl.src == .fault)

/-- The slot that an urgent RDT of a channel by a context asks for, with its timing (R105). -/
def rdtSlot (ctx ch : Nat) (t : Nat × Nat) : HSlot := { src := .rdt ctx, ch := ch, rotor := 0, stime := t.1, gain := t.2 }

/-- URGENT_REQUEST (R106): a request of the fault logic or of RDT reaches H. A plain slot that is still sampling is
abandoned; otherwise the request waits for the slot's end. An RDT request while another is pending or converting is
refused; the fault logic's next request waits until its last one has been answered (R105, R262). -/
def execUrgentRequest (c : Nat) (rdt sampling : Bool) (s : State) : Out :=
  let k := s.crew c
  let plain : Bool := match k.slot.src with | .seq _ => true | .single => true | _ => false
  let go (s : State) : State :=
    if sampling ∧ plain then startSlot c (s.bump CREW_H_STAT.PREEMPTS c) else s
  if rdt then
    match k.rdtWant with
    | [] => .next s
    | (ctx, ch) :: rest =>
      let s := s.onCrew c (fun k => { k with rdtWant := rest })
      if s.rdtBusy c then .next { s with rdtAns := s.rdtAns ++ [(ctx, 0x80000000)] }
      else
        .next (go (s.onCrew c (fun k => { k with urgRdt := some (rdtSlot ctx ch (s.rdtTiming c ch)) })))
  else
    match k.faultWant with
    | [] => .next s
    | ch :: rest =>
      if s.faultBusy c then .next s
      else .next (go (s.onCrew c (fun k =>
        { k with faultWant := rest, urgFault := some { src := .fault, ch := ch, rotor := 0, stime := 7, gain := 0 } })))

/-! ## Reference and results -/

/-- A write of CREW_H_REF.REF_SEL (R107): 3 is ignored; a valid value starts settling. -/
def refSel (c v : Nat) (s : State) : State :=
  if v = 3 then s else (s.put CREW_H_REF.REF_SEL c v).put CREW_H_STAT.REF_SETTLED c 0

/-- REF_SETTLED (R107): the settling time has run out. -/
def execRefSettled (c : Nat) (s : State) : Out := .next (s.put CREW_H_STAT.REF_SETTLED c 1)

/-- Whether a REFCHK code is out of tolerance for the reference in force (R109). -/
def State.refBad (s : State) (c : Nat) (code : Int) : Bool :=
  if s.get CREW_H_REF.REF_SEL c = 2 then decide (3 * 2731 < (code - 2731).natAbs * 100)
  else decide (2048 < (code - 2048).natAbs * 100)

/-- REFERENCE_CHECK (R109): a first failure asks for a repeat; a second resets an external reference, or loses the
internal one. -/
def referenceCheck (c : Nat) (code : Int) (urgent : Bool) (s : State) : State :=
  let internal := s.get CREW_H_REF.REF_SEL c = 0
  if ¬ s.refBad c code then
    let s := if internal then s.onCrew c (fun k => { k with refLost := false }) else s
    if urgent then s.onCrew c (fun k => { k with refRepeat := false }) else s
  else if urgent ∧ (s.crew c).refRepeat then
    let s := s.onCrew c (fun k => { k with refRepeat := false })
    if internal then (s.onCrew c (fun k => { k with refLost := true })).raiseCrew 0x0305 c
    else ((refSel c 0 s).setOver CREW_H_STAT.REF_FAIL c).raiseCrew 0x0303 c
  else if (s.crew c).refRepeat then s
  else s.onCrew c (fun k => { k with refRepeat := true, faultWant := k.faultWant ++ [11] })

/-- SUSPECT shows the suspicions that hold (R113). DESIGN CHOICE: assumption log 43. -/
def showSuspect (c : Nat) (s : State) : State :=
  let k := s.crew c
  s.mark CREW_OW_STAT.SUSPECT c (k.susp0 || k.susp1 || k.ovInhibit)

/-- A confirmation test starts (R114); one that already runs takes a RETRY's return over. DESIGN CHOICE: assumption
log 16. -/
def startConfirm (c : Nat) (retry : Bool) (s : State) : State :=
  match (s.crew c).ow with
  | some t => s.onCrew c (fun k => { k with ow := some { t with retry := t.retry || retry } })
  | none =>
    (s.put CREW_OW_STAT.CONFIRM_RUN c 1).onCrew c
      (fun k => { k with ow := some ⟨retry, 0, none, false, false⟩, faultWant := k.faultWant ++ [14] })

/-- The crew sequencer runs the open-wire test of its calibration, the last of its measurements (R165): the phase under
test returns to IDLE (R87). -/
def sequencerTest (c : Nat) (s : State) : State :=
  if (s.crew c).seqCal ∧ (s.crew c).calOw = 0 then
    startConfirm c false ((idlePhases c s).onCrew c (fun k => { k with calOw := 1 }))
  else s

/-- An OW code in units of 1/65,536 of 32 V: code × 2.000 V / 4,096 × V_REF / gain (R98). -/
def owRaw (code : Int) (g q : Nat) : Nat := code.toNat * q * 4 / 2 ^ g

/-- OPEN_WIRE_SUSPECT (R113): OW0 lies more than 100 mV below the present target, or OW1 exceeds 100 mV; a suspicion
starts a confirmation test on a crew that is on remote sense. DESIGN CHOICE: assumption log 43. -/
def openWireCheck (c ch : Nat) (code : Int) (g q : Nat) (s : State) : State :=
  let uv10 := owRaw code g q * 2000 * 10000 / 65536
  let bad : Bool := if ch = 14 then decide (uv10 + 1000000 < s.target c) else decide (1000000 < uv10)
  let s := s.onCrew c (fun k => if ch = 14 then { k with susp0 := bad } else { k with susp1 := bad })
  let s := showSuspect c s
  if bad ∧ ¬ s.flag CREW_AB_STAT.SENSE c then startConfirm c false s else s

/-- The end of a confirmation test: both lines intact, or a line open (R115, R116). A failed RETRY on local sense raises
nothing again. DESIGN CHOICE: assumption log 16. -/
def endConfirm (c : Nat) (t : OwTest) (posOpen negOpen : Bool) (s : State) : State :=
  let s := (s.put CREW_OW_STAT.CONFIRM_RUN c 0).onCrew c
    (fun k => { k with ow := none, calOw := if k.calOw = 1 then 2 else k.calOw })
  let onLocal := s.flag CREW_AB_STAT.SENSE c
  if posOpen || negOpen then
    let s := (s.mark CREW_OW_STAT.OPEN_POS c posOpen).mark CREW_OW_STAT.OPEN_NEG c negOpen
    if onLocal ∧ t.retry then s
    else
      let s := if onLocal then s else s.onCrew c (fun k => { k with senseReq := some true })
      let s := if posOpen then s.raiseCrew 0x0304 c 0 else s
      if negOpen then s.raiseCrew 0x0304 c 1 else s
  else
    let dv := s.get CREW_OW_STAT.DV_POS c + s.get CREW_OW_STAT.DV_NEG c
    let s := s.onCrew c (fun k => { k with owDv := some dv })
    if onLocal ∧ t.retry then s.onCrew c (fun k => { k with senseReq := some false }) else s

/-- A result of the line under test (R114): the first is kept for the pull; the second gives the difference. -/
def owResult (c : Nat) (code : Int) (g q : Nat) (s : State) : State :=
  match (s.crew c).ow with
  | none => s
  | some t =>
    let v := owRaw code g q
    match t.first with
    | none => s.onCrew c (fun k => { k with ow := some { t with first := some v } })
    | some a =>
      let diff := ((a : Int) - v).natAbs
      let dv := min 255 (roundOpen (diff * 4000) 65536).toNat
      let isOpen : Bool := decide (100 * 65536 < diff * 2000)
      if t.line = 0 then
        (s.put CREW_OW_STAT.DV_POS c dv).onCrew c (fun k =>
          { k with ow := some ⟨t.retry, 1, none, false, isOpen⟩, faultWant := k.faultWant ++ [15] })
      else endConfirm c t t.posOpen isOpen (s.put CREW_OW_STAT.DV_NEG c dv)

/-- PULL_END (R114): the 4 µs of pull current end, and the second conversion of the line is requested. -/
def execPullEnd (c : Nat) (s : State) : Out :=
  match (s.crew c).ow with
  | some t =>
    if t.first.isSome ∧ ¬ t.pulled then
      .next (s.onCrew c (fun k => { k with ow := some { t with pulled := true }, faultWant := k.faultWant ++ [14 + t.line] }))
    else .next s
  | none => .next s

/-- The kind of a channel: I0 to I7, SUM and GND are differential (R98). -/
def hDiff (ch : Nat) : Bool := decide (ch ≤ 8) || ch == 12

/-- A code aligned as R110 states. -/
def hAlign (left : Bool) (ch : Nat) (code : Int) : Nat :=
  if left then unsg 12 code * 16 else if hDiff ch then unsg 16 code else unsg 12 code

/-- The gain trim of the present temperature band at crew c (R111). -/
def State.hTrim (s : State) (c : Nat) : Int :=
  let b := s.get CREW_GATE_SEL.BAND c
  if b < 4 then sgn 8 (s.get CREW_H_GTRIM0.TB0_3 c / 2 ^ (8 * b)) else sgn 8 (s.get CREW_H_GTRIM1.TB4_5 c / 2 ^ (8 * (b - 4)))

/-- The word of an accepted urgent RDT's answer: SAT, UNSETTLED and RESULT as in CREW_H_RES (R262). -/
def rdtWord (sat unsettled : Bool) (result : Nat) : Nat := sat.toNat * 2 ^ 30 + unsettled.toNat * 2 ^ 29 + result

/-- The overload filter of R72 after a sample, `cycles` coordinator cycles after the last: first order with a time
constant of 2.1 ms, T = 1,050,000 cycles. Its decay e^(−cycles / T) lies between 1 − cycles / T and T / (T + cycles); the
spec states no discrete form, and the value is open within those bounds (assumption log 3). -/
def filterStep (old sample cycles : Nat) : Nat :=
  let d : Int := (old : Int) - sample
  let a : Int := sample + d * (1050000 - min cycles 1050000 : Nat) / 1050000
  let b : Int := sample + d * 1050000 / (1050000 + cycles : Nat)
  (clampI (Config.overloadFilter old sample cycles) (min a b) (max a b + 1)).toNat

/-- The consumers of R100 take a result converted with a settled reference (R108). The reference check is suspended while
the reference is not settled. -/
def hConsume (c : Nat) (sl : HSlot) (code : Int) (s : State) : State :=
  let q := sl.q
  let s := s.onCrew c (fun k => { k with hHeld := tset k.hHeld sl.ch (code, sl.gain, q) })
  let urgent : Bool := match sl.src with | .fault => true | _ => false
  if sl.ch = 8 then
    let filt := filterStep (s.get CREW_OVL_FILT.FILT_MA c) (s.sumMa c).toNat (s.now - (s.crew c).sumAt)
    let s := (s.put CREW_OVL_FILT.FILT_MA c filt).onCrew c (fun k => { k with sumAt := s.now })
    if (s.crew c).ifValid then s
    else if (s.crew c).firstPair ∨ (s.crew c).reg then
      (s.putI CREW_DP_IFILT.I_F c (s.sumMa c)).onCrew c (fun k => { k with ifValid := true })
    else s
  else if sl.ch = 10 then s.onCrew c (fun k => { k with temp := Config.diodeTemp c code sl.gain q })
  else if sl.ch = 11 then
    if s.flag CREW_H_STAT.REF_SETTLED c then referenceCheck c code urgent s
    else if urgent then s.onCrew c (fun k => { k with refRepeat := false }) else s
  else if sl.ch = 14 ∨ sl.ch = 15 then
    let s := openWireCheck c sl.ch code sl.gain q s
    if urgent then owResult c code sl.gain q s else s
  else s

/-- An unsettled result (R108): consumers hold what was last settled. The reference check is suspended, so an urgent
repeat of it ends the repetition; a line under test takes the channel's last settled result.
DEDUCED: assumption log 116. -/
def hHold (c : Nat) (sl : HSlot) (s : State) : State :=
  match sl.src with
  | .fault =>
    if sl.ch = 11 then s.onCrew c (fun k => { k with refRepeat := false })
    else if sl.ch = 14 ∨ sl.ch = 15 then
      let held := tget (0, 0, 4) (s.crew c).hHeld sl.ch
      owResult c held.1 held.2.1 held.2.2 s
    else s
  | _ => s

/-- The range of a channel's codes (R98). -/
def hRange (ch : Nat) : Int × Int := if hDiff ch then (-2048, 2047) else (0, 4095)

/-- The code of an input of `raw` LSBs on a channel, with the gain trim (R111), and whether it saturates: an input beyond
the range gives the end code (R98), and so does one that the trim takes there. -/
def State.hCode (s : State) (c ch : Nat) (raw : Int) : Int × Bool :=
  let (lo, hi) := hRange ch
  let v := roundOpen (raw * (8192 + s.hTrim c)) 8192
  if raw < lo ∨ v < lo then (lo, true) else if hi < raw ∨ hi < v then (hi, true) else (v, false)

/-- H_RESULT (R97): the oldest ended slot's result is written from the input in LSBs: gain trim (R111), range, alignment
(R110), flags; its consumers take it, and an urgent RDT is answered. -/
def execHResult (c : Nat) (raw : Int) (s : State) : Out :=
  match (s.crew c).hDone with
  | [] => .next s
  | sl :: rest =>
    let s := s.onCrew c (fun k => { k with hDone := rest })
    let (code, sat) := s.hCode c sl.ch raw
    let settled := sl.settled
    let urgent : Bool := match sl.src with | .fault => true | .rdt _ => true | _ => false
    let i := 16 * c + sl.ch
    let res := hAlign (s.flag CREW_H_CTL.ALIGN c) sl.ch code
    let s := ((((((s.put CREW_H_RES.VALID i 1).mark CREW_H_RES.SAT i sat).mark CREW_H_RES.UNSETTLED i (!settled)).mark
      CREW_H_RES.URGENT i urgent).put CREW_H_RES.GAIN i sl.gain).wrap CREW_H_RES.COUNT i).put CREW_H_RES.RESULT i res
    let s := if settled then hConsume c sl code s else hHold c sl s
    .next (match sl.src with
      | .rdt ctx => { s with rdtAns := s.rdtAns ++ [(ctx, rdtWord sat (!settled) res)] }
      | _ => s)

/-! ## Sense -/

/-- LOCAL_OVERVOLTAGE (R113): the local sense rises 25 mV above the window's end, or falls back below. -/
def execLocalOvervoltage (c : Nat) (above : Bool) (s : State) : Out :=
  let s := showSuspect c (s.onCrew c (fun k => { k with ovInhibit := above }))
  .next (if above then startConfirm c false s else s)

/-- SENSE_SWITCH (R115, R116): at the tick boundary the control input goes to local sense with 20 mV more target, or
back to remote sense without it. -/
def execSenseSwitch (c : Nat) (s : State) : Out :=
  let tags := s.keepTags c
  match (s.crew c).senseReq with
  | none => .next s
  | some true =>
    .next (showSlewing c (((s.put CREW_AB_STAT.SENSE c 1).put CREW_SP_STAT.OPEN_OFS c 1).onCrew c
      (fun k => { k with senseReq := none, oldTags := tags })))
  | some false =>
    .next (showSlewing c ((((((s.put CREW_AB_STAT.SENSE c 0).put CREW_SP_STAT.OPEN_OFS c 0).put CREW_OW_STAT.OPEN_POS c 0).put
      CREW_OW_STAT.OPEN_NEG c 0).onCrew c (fun k => { k with senseReq := none, oldTags := tags })).raiseCrew 0x0302 c))

end Sys2Proof.Machine
end

