-- ==== Sys2Proof/Machine/Datapath.lean ====
section
/-! DEFINITION. The crew control datapath (chapter 04): the control law, gain scheduling, coefficient slots, the
fallback law, and setpoint slewing. -/

namespace Sys2Proof.Machine

open Sys2Proof

/-! ## Arithmetic of R118 -/

/-- A stage result stored as a signal: rounded at bit 24 and saturated to s32. -/
def rnd (z : Int) : Int := sat32 (asr (z + 8388608) 24)

/-- A sum of products, formed in 64 bits with saturation after each addition in the order of the formula.
DESIGN CHOICE: assumption log 126. -/
def satSum (l : List Int) : Int := l.foldl (fun a x => sat64 (a + x)) 0

/-- The output rounding: at bit 32. -/
def rndOut (y : Int) : Int := asr (y + 2147483648) 32

/-- Word w of the active slot of region r of crew c. -/
def State.slotW (s : State) (c r w : Nat) : Nat := s.get SLOT_ACTIVE.W (256 * c + 16 * r + w)

/-- A coefficient set in use (R127): raw coefficients with their shifts, and the limits. -/
structure Coef where
  kp : Int × Nat
  ki : Int × Nat
  kd : Int × Nat
  ad : Int × Nat
  b0 : Int × Nat
  b1 : Int × Nat
  b2 : Int × Nat
  a1 : Int × Nat
  a2 : Int × Nat
  kff : Int × Nat
  iLim : Int
  outMax : Int
  outMin : Int

/-- The active slot of region r of crew c, read by the layout of R127. -/
def State.coef (s : State) (c r : Nat) : Coef :=
  let k (w : Nat) : Int := sgn 32 (s.slotW c r w)
  let a := s.slotW c r 10
  let b := s.slotW c r 11
  let o := s.slotW c r 13
  ⟨(k 0, bits a 4 0), (k 1, bits a 9 5), (k 2, bits a 14 10), (k 3, bits a 19 15), (k 4, bits a 24 20),
    (k 5, bits a 29 25), (k 6, bits b 4 0), (k 7, bits b 9 5), (k 8, bits b 14 10), (k 9, bits b 19 15),
    bits (s.slotW c r 12) 15 0, sgn 16 (bits o 31 16), sgn 16 (bits o 15 0)⟩

/-- The term c·s of R120: the product shifted right arithmetically by the coefficient's shift. -/
def cmul (c : Int × Nat) (x : Int) : Int := asr (c.1 * x) c.2

/-- The load-line term LL in VU (R121). -/
def loadLine (lls : Nat) (iF : Int) : Int := rndOut (lls * iF * 68719)

/-- The fold offset in units of 0.125 mV, as CREW_OVL_STAT.FOLD_OFFSET shows it: rounded, and never more than keeps the
target inside the window (R75). -/
def State.foldOfs (s : State) (c : Nat) : Nat := min (roundOpen (s.crew c).foldUv 125).toNat (s.foldMax c / 125)

/-- The load-line slope of an update that starts now: an LLS operation applies from the first update after its delivery
tick (R121). -/
def State.llsOf (s : State) (c : Nat) : Nat :=
  match (s.crew c).llsOld with
  | some (old, t) => if t = s.tickStart then old else s.get CREW_DP_LLS.LLS c
  | none => s.get CREW_DP_LLS.LLS c

/-- A delivered LLS writes the slope (R257). -/
def llsWrite (c v : Nat) (s : State) : State :=
  (s.put CREW_DP_LLS.LLS c v).onCrew c (fun k => { k with llsOld := some (s.llsOf c, s.tickStart) })

/-- What the reference DAC presents, in 0.1 µV: REF truncated to a whole VU (R124). -/
def State.refDac (s : State) (c : Nat) : Nat := 625 * (s.get CREW_SP_REF.REF c / 625)

/-- What the V_c DAC presents to the comparator, in 0.1 µV (R124). -/
def State.vC (s : State) (c : Nat) : Int := s.refDac c + 625 * s.getI CREW_DP_OUT.U c

/-- The error e of R120 in Q24.8, from the pair sum x. -/
def State.errorOf (s : State) (c : Nat) (x : Int) : Int :=
  let ll := loadLine (s.llsOf c) (s.iF c)
  let frac : Int := ((s.get CREW_SP_REF.REF c % 625 * 256) / 625 : Nat)
  sat32 ((-x + 2 * (s.getI CREW_DP_TRIM.TRIM c - s.foldOfs c) - ll) * 256 + frac)

/-- One update of the main law (R120): the new law state and the output u. `ff` is sdir × SLEW. In a transfer update
(R131) the integrator is preset so that the sum stays y_prev. -/
def lawStep (k : Coef) (l : Law) (e ff : Int) (transfer : Bool) : Law × Int :=
  let w := rnd (satSum [cmul k.b0 e, cmul k.b1 l.e1, cmul k.b2 l.e2, -cmul k.a1 l.w1, -cmul k.a2 l.w2])
  let p := cmul k.kp w
  let d := rnd (satSum [cmul k.ad l.d1, cmul k.kd (w - l.w1)])
  let f := cmul k.kff (ff * 256)
  let lim := k.iLim * 4294967296
  let step := cmul k.ki w
  let iacc :=
    if transfer then clampI (l.yPrev - satSum [p, d * 16777216, f]) (-lim) lim
    else if (l.clip = 1 ∧ 0 < step) ∨ (l.clip = -1 ∧ step < 0) then l.iacc
    else clampI (l.iacc + step) (-lim) lim
  let y := if transfer then l.yPrev else satSum [p, iacc, d * 16777216, f]
  let raw := rndOut y
  let clip : Int := if k.outMax < raw then 1 else if raw < k.outMin then -1 else 0
  (⟨e, l.e1, w, l.w1, d, iacc, y, clip⟩, clampI raw k.outMin k.outMax)

/-! ## Gain scheduling (R130) -/

/-- The phase band of an active phase count. -/
def phaseBand (n : Nat) : Nat := if 8 ≤ n then 0 else if n = 7 then 1 else if n = 6 then 2 else 3

/-- Whether edge code ek (0.5 A) is passed at a current in mA, with the hysteresis of R130. -/
def edgePassed (was : Bool) (ek : Nat) (i : Int) : Bool :=
  if was then decide (940 * (ek * 500 : Nat) ≤ i * 1000) else decide (((ek * 500 : Nat) : Int) ≤ i)

/-- The bands and the automatic region of crew c are brought up to its filtered current (R130, R132). -/
def schedule (c : Nat) (s : State) : State :=
  let i := s.iF c
  let (p1, p2, p3) := (s.crew c).passed
  let q1 := edgePassed p1 (s.get CREW_DP_EDGES.E1 c) i
  let q2 := edgePassed p2 (s.get CREW_DP_EDGES.E2 c) i
  let q3 := edgePassed p3 (s.get CREW_DP_EDGES.E3 c) i
  let cb := q1.toNat + q2.toNat + q3.toNat
  let pb := phaseBand (s.activeCount c)
  ((s.put CREW_DP_STAT.CB c cb).put CREW_DP_STAT.PB c pb).put CREW_DP_STAT.AUTO_REGION c (4 * pb + cb)
    |>.onCrew c (fun k => { k with passed := (q1, q2, q3) })

/-- The region that FORCE or automatic selection asks for (R132). -/
def State.regionWanted (s : State) (c : Nat) : Nat :=
  if s.flag CREW_DP_GS.FORCE c then s.get CREW_DP_GS.FORCE_REGION c else s.get CREW_DP_STAT.AUTO_REGION c

/-! ## Setpoints (R134 to R138) -/

/-- The plane of crew c is being ramped down. -/
def State.ramping (s : State) (c : Nat) : Bool := (s.plane (planeOf c)).ramp != .none

/-- The slew code in force at crew c: of the ramp down, of soft start, of a raised target, or of the command
(R135, R160, R172, R261, R365). A floor that falls takes its target down at the command's slew.
DEDUCED: assumption log 123. -/
def State.rateOf (s : State) (c : Nat) : Nat :=
  match (s.plane (planeOf c)).ramp with
  | .pwroff => s.get CREW_PWR_CTL.SS_SLEW c
  | .fault => s.slewMax
  | .domain => s.slewMax
  | .none =>
    if (s.crew c).softStart then s.get CREW_PWR_CTL.SS_SLEW c
    else if s.flag CREW_GB_STAT.RAISED c && !(s.crew c).floorFell then max (s.get CREW_SP_STAT.SLEW c) s.slewMax
    else s.get CREW_SP_STAT.SLEW c

/-- The tracked operations after the operation that completed at crew c has reported its completion with its stamp. -/
def trackDone (op c : Nat) (st : Stamp) (l : List Track) : List Track :=
  l.map (fun t => if t.op = op then { t with waiting := t.waiting.filter (fun d => d != c), done := (c, st) :: t.done } else t)

/-- The tracked operations after operation `op` has been delivered to crew c: an earlier one still waiting there is
superseded (R224). -/
def trackSuper (op c : Nat) (l : List Track) : List Track :=
  l.map (fun t => if t.op < op ∧ t.waiting.contains c then { t with superseded := true } else t)

/-- SETPOINT_COMPLETION (R137): the command in force completes. -/
def complete (c : Nat) (s : State) : State :=
  let k := s.crew c
  if k.cmdOpen then
    let s := (s.put CREW_SP_SEQ.DONE_SEQ c (s.get CREW_SP_SEQ.ACCEPTED c)).onCrew c (fun k => { k with cmdOpen := false })
    match k.cmdOp with
    | some op => { s with tracks := trackDone op c (s.crewStamp c) s.tracks }
    | none => s
  else s

/-- MARGIN_RAISED (R159): RAISED and UNREACH follow the plane floor; a raised command is recorded once, and so is a
floor that comes to lie above the window. -/
def showMargin (c : Nat) (s : State) : State :=
  let fl := s.get CREW_GB_STAT.FLOOR c
  let k := s.crew c
  let raised : Bool := k.reg && decide (s.get CREW_SP_STAT.TARGET c < fl)
  let unreach : Bool := k.reg && decide (s.winHi c < fl)
  let was := s.flag CREW_GB_STAT.UNREACH c
  let s := (s.mark CREW_GB_STAT.RAISED c raised).mark CREW_GB_STAT.UNREACH c unreach
  let s := if raised && !k.raisedRec then
      let s := s.onCrew c (fun k => { k with raisedRec := true })
      if k.quiet then s else s.raiseCrew 0x0503 c
    else s
  if unreach && !was then latchStatus (planeOf c) 0x20 0 0 (s.raiseCrew 0x0506 c) else s

/-- A setpoint command takes effect, or is stored, at crew c (R134, R136, R137): code and slew are clamped, the
command it replaces is superseded, in its own delivery tick too. -/
def setpoint (c op code slew : Nat) (quiet : Bool) (s : State) : State :=
  let code' := clampN code (s.winLo c) (s.winHi c)
  let slew' := clampN slew 4 s.slewMax
  let s := if (code' ≠ code ∨ slew' ≠ slew) ∧ ¬ quiet then s.raiseCrew 0x0401 c else s
  let s := if (s.crew c).cmdOpen then s.bump CREW_SP_SUP_CNT.SUPERSEDED c else s
  let s := { s with tracks := trackSuper op c s.tracks }
  let s := ((s.put CREW_SP_STAT.TARGET c code').put CREW_SP_STAT.SLEW c slew').wrap CREW_SP_SEQ.ACCEPTED c
  let s := s.onCrew c (fun k => { k with cmdOp := some op, cmdOpen := true, quiet := quiet, raisedRec := false, floorFell := false })
  showSlewing c (showMargin c s)

/-- A tick ends: a command in force whose target REF equals in it completes (R137), one delivered with REF at its target
as well. DESIGN CHOICE: assumption log 124. -/
def settleCommand (s : State) (c : Nat) : State :=
  if (s.crew c).cmdOpen ∧ (s.crew c).reg ∧ ¬ s.ramping c ∧ s.get CREW_SP_REF.REF c = s.target c then complete c s else s

/-- Crew c has yet to end its part in the fault or domain shutdown of its plane, whatever its state (R333, R365). -/
def State.shutting (s : State) (c : Nat) : Bool :=
  (match (s.plane (planeOf c)).ramp with
   | .fault => true
   | .domain => true
   | _ => false) && !(s.crew c).stopClamp

/-- A crew's part in a ramp down ends at 100 mV (R261, R333, R365): its phases go IDLE; after PWROFF it is OFF, and
after a shutdown its clamp conducts until the plane is below 50 mV. -/
def rampEnd (c : Nat) (s : State) : State :=
  let p := planeOf c
  let n := s.activeCount c
  let s := (endRegulation c (idlePhases c s)).put CREW_SP_REF.REF c 0
  match (s.plane p).ramp with
  | .pwroff =>
    rampOver p ((s.setCst c 0).onPlane p (fun q => { q with capOff := q.capOff + 14 * n }))
  | .none => s
  | _ =>
    let s := (s.put CREW_TR_STAT.CLAMP_ON c 1).onCrew c (fun k => { k with stopClamp := true })
    s.onPlane p (fun q => { q with discharging := (planeCrews p).all (fun d => (s.crew d).stopClamp) })

/-- One tick of the reference towards T, or towards 0 in a ramp down; a command completes and soft
start ends when REF reaches T (R137, R172). -/
def refStep (c : Nat) (s : State) : State :=
  if ¬ (s.crew c).reg ∧ ¬ s.shutting c then s
  else
    let ref := s.get CREW_SP_REF.REF c
    let dest := if s.ramping c then 0 else s.target c
    let step := 2 * s.rateOf c
    let ref' := if ref < dest then min (ref + step) dest else max (ref - step) dest
    let s := s.put CREW_SP_REF.REF c ref'
    let s := s.onCrew c (fun k => { k with sdir := if ref < ref' then 1 else if ref' < ref then -1 else 0 })
    let s := if ref = ref' then s else s.mark CREW_SP_STAT.DIR c (decide (ref' < ref))
    let s := showSlewing c s
    if s.ramping c then (if ref' ≤ 1000000 then rampEnd c s else s)
    else if ref' = s.target c then
      let s := complete c s
      (if (s.crew c).softStart then (reachOn c s).onCrew c (fun k => { k with softStart := false }) else s)
    else s

/-! ## Updates -/

/-- The regulated target in 0.1 µV: REF + TRIM − FOLD_OFFSET − LL (chapter 05). -/
def State.regTarget (s : State) (c : Nat) : Int :=
  (s.get CREW_SP_REF.REF c : Int) + 1250 * (s.getI CREW_DP_TRIM.TRIM c - s.foldOfs c) - 625 * loadLine (s.llsOf c) (s.iF c)

/-- The droop level of crew c in 0.1 µV (R149). -/
def State.droopLevel (s : State) (c : Nat) : Int := s.regTarget c - (80000 + 20000 * s.get CREW_TR_CTL.DROOP_TH c : Nat)

/-- REGULATION_START (R126): the crew begins to regulate on its first pair. In soft start REF starts at the sensed
plane voltage (R172); a rejoining crew that holds no offset is ON at once (R165). -/
def beginRegulation (c : Nat) (x : Int) (s : State) : State :=
  let s := startRing c s
  let s := if s.cst c = 2 then
      (s.put CREW_SP_REF.REF c (((s.get CREW_SP_REF.REF c / 625 : Nat) + x) * 625).toNat).onCrew c
        (fun k => { k with softStart := true, firstPulse := true })
    else s
  let law : Law := { iacc := s.getI CREW_DP_IINIT.IINIT c * 4294967296 }
  let s := (s.put CREW_DP_STAT.LAW c 0).onCrew c (fun k =>
    { k with reg := true, firstPair := false, law := law, passed := (false, false, false), transfer := false, mainLag := 0,
             fbDue := false, resumeNow := false, droopArmed := true })
  let s := if c % 24 < 22 then { s with estCal := tset s.estCal c { tget {} s.estCal c with fresh := true } } else s
  let s := schedule c s
  let s := s.put CREW_DP_STAT.REGION c (s.regionWanted c)
  let s := if s.cst c = 7 ∧ (s.crew c).foldUv = 0 then reachOn c s else s
  let s := s.mark CREW_TR_STAT.DROOP c (decide (((s.get CREW_SP_REF.REF c / 625 : Nat) + x) * 625 < s.droopLevel c))
  showSlewing c (showMargin c s)

/-- The filtered current takes a step towards the latest SUM result (R122), once one has come since the crew powered on or
rejoined (R126). DESIGN CHOICE: assumption log 125. -/
def stepIF (c : Nat) (s : State) : State :=
  if (s.crew c).ifValid then
    s.putI CREW_DP_IFILT.I_F c (s.iF c + asr (s.sumMa c - s.iF c) (s.get CREW_DP_CTL.IFILT_K c))
  else s

/-- While the fallback law runs, the main path sits out a pair that lands while it is not free (R141).
DEDUCED: assumption log 117. -/
def State.mainAway (s : State) (c : Nat) : Bool := s.flag CREW_DP_STAT.LAW c && decide (64 ≤ (s.crew c).mainLag)

/-- The update's law computation (R120, R131, R132, R140, R141) on pair sum x: the output it will write.
DEDUCED: assumption log 114. A change of region in the very first update finds a y_prev of 0. DESIGN CHOICE: assumption
log 125. -/
def compute (c : Nat) (x : Int) (s : State) : State :=
  let s := schedule c (stepIF c s)
  let k := s.crew c
  let resumed := k.resumeNow && s.flag CREW_DP_STAT.LAW c
  let away := s.mainAway c && !resumed
  let want := if away then s.get CREW_DP_STAT.REGION c else s.regionWanted c
  let change : Bool := want != s.get CREW_DP_STAT.REGION c
  let s := s.put CREW_DP_STAT.REGION c want
  let law := if resumed then { k.law with yPrev := s.getI CREW_DP_OUT.U c * 4294967296 } else k.law
  let s := if resumed then
      ((s.put CREW_DP_STAT.LAW c 0).put CREW_DP_STAT.MISS_RUN c 0).raiseCrew 0x0402 c else s
  let e := s.errorOf c x
  let (law', u) := lawStep (s.coef c want) law e (k.sdir * s.rateOf c) (change || k.transfer || resumed)
  let enter := k.fbDue && !s.flag CREW_DP_STAT.LAW c
  let s := if enter then ((s.put CREW_DP_STAT.LAW c 1).bump CREW_DP_FALLBACKS.FB_ENTRIES c).raiseCrew 0x0403 c else s
  let p := e * 8388608
  let lim : Int := 1024 * 4294967296
  let acc := if enter then clampI (clampI k.uMain (-1024) 1024 * 4294967296 - p) (-lim) lim
    else clampI (k.fbAcc + e * 65536) (-lim) lim
  let uFb := clampI (rndOut (sat64 (p + acc))) (-1024) 1024
  let fb := s.flag CREW_DP_STAT.LAW c
  s.onCrew c (fun k => { k with law := if away then k.law else law', uMain := if away then k.uMain else u,
                                transfer := away && k.transfer, fbDue := false, resumeNow := false,
                                fbAcc := if fb then acc else k.fbAcc, uNext := if fb then uFb else u,
                                mainLag := if resumed || enter then 0 else k.mainLag })

/-- DATAPATH_UPDATE (R119): in interleaved mode, an update starts on a landed pair when none is in progress. It
latches both samples and takes A's. At a crew that does not regulate it computes no law, and I_F and U stay.
DEDUCED: assumption log 114. DESIGN CHOICE: assumption log 125. -/
def execDatapathUpdate (c : Nat) (s : State) : Out :=
  let a := abI c false
  let b := abI c true
  if s.flag CREW_AB_STAT.MODE_ACT c ∨ (s.crew c).busy ∨ ¬ s.flag CREW_AB.NEW a ∨ ¬ s.flag CREW_AB.NEW b then .next s
  else
    let x := s.getI CREW_AB.SAMPLE a + s.getI CREW_AB.SAMPLE b
    let s := s.put CREW_AB.NEW a 0
    let s := if (s.crew c).firstPair ∧ (s.crew c).pairB then beginRegulation c x s else s
    let v := ((s.get CREW_SP_REF.REF c / 625 : Nat) + x).toNat
    let s := if (s.crew c).reg then compute c x s else s
    .next (s.onCrew c (fun k => { k with busy := true, bLate := false, vNext := min v 65535, tNext := s.regTarget c }))

/-- The histogram bin of a deviation (R394): d in VU truncated towards zero, clamp(floor(d / 16) + 32, 0, 63).
DESIGN CHOICE: assumption log 47. -/
def devBin (v : Nat) (target : Int) : Nat := (clampI (divT ((v : Int) * 625 - target) 625 / 16 + 32) 0 63).toNat

/-- The voltage monitors take the plane voltage of an update of a regulating crew (R174, R393, R394, R389), and
its energy is counted (R281). -/
def monitors (c v : Nat) (s : State) : State :=
  let k := s.crew c
  let i := s.iF c
  let s := s.onCrew c (fun k => { k with vPlane := v, vLo := some (min v (k.vLo.getD v)), vHi := some (max v (k.vHi.getD v)),
                                         energy := k.energy + v * i })
  if ¬ k.reg ∨ s.cst c = 2 then s
  else
    let st := s.crewStamp c
    let sense := s.get CREW_AB_STAT.SENSE c
    let s := if v < s.get CREW_VMIN.VMIN c then
        (((s.put CREW_VMIN.VMIN c v).put CREW_VMIN.TICKS c st.tick).put CREW_VMIN.SENSE c sense).put CREW_VMIN_MARK.MARK c st.mark
      else s
    let s := if s.get CREW_VMAX.VMAX c < v then
        (((s.put CREW_VMAX.VMAX c v).put CREW_VMAX.TICKS c st.tick).put CREW_VMAX.SENSE c sense).put CREW_VMAX_MARK.MARK c st.mark
      else s
    if s.flag CREW_HIST_CTL.V_EN c then s.bump CREW_HIST_V.COUNT (64 * c + devBin v k.tNext) else s

/-- UPDATE_COMPLETION (R119): u is written and B's sample is taken, unless the completion is late; the completion
time t8, in 0.125 ns, feeds the counters of R139 and R141 and the histogram of R395. While the fallback law runs, it is
the fallback that takes the sample, and t8 is the main path's time where that ran. DEDUCED: assumption log 117. -/
def execUpdateCompletion (c t8 : Nat) (s : State) : Out :=
  let k := s.crew c
  if ¬ k.busy then .next s
  else
    let fb := s.flag CREW_DP_STAT.LAW c
    let away := s.mainAway c
    let s := s.onCrew c (fun k => { k with
      busy := false, bLate := false, ifOut := s.iF c
      goodRun := if away then k.goodRun else if t8 ≤ 64 then min 1024 (k.goodRun + 1) else 0
      mainLag := if away then k.mainLag - 64 else if fb then k.mainLag + t8 - 64 else 0 })
    let s := if k.bLate then s else s.put CREW_AB.NEW (abI c true) 0
    let s := if k.reg then s.putI CREW_DP_OUT.U c k.uNext else s
    let s := (s.put CREW_DP_TIME.TLAST c (min 255 t8)).raiseTo CREW_DP_TIME.TMAX c (min 255 t8)
    let s := if s.get CREW_DP_CTL.WARN_TH c < t8 then s.bump CREW_DP_TIME.SLOW_CNT c else s
    let s := if fb ∧ ¬ away ∧ 64 < t8 then s.bump CREW_DP_FALLBACKS.SHADOW_LATE c else s
    let s := if s.flag CREW_HIST_CTL.T_EN c ∧ ¬ away then s.bump CREW_HIST_T.COUNT (64 * c + clampN (t8 - 16) 0 63) else s
    .next (if k.reg then monitors c k.vNext s else s)

/-- MISS_WINDOW (R139): the 1 ms window ends. -/
def execMissWindow (c : Nat) (s : State) : Out := .next (s.put CREW_DP_MISS_WIN.WIN c 0)

/-- A write of 1 to CREW_DP_CTL.RESUME (R141). -/
def resumeWrite (c : Nat) (s : State) : State :=
  if ¬ s.flag CREW_DP_STAT.LAW c then s.put CREW_DP_STAT.RESUME_STAT c 3
  else if (s.crew c).goodRun < 1024 then s.put CREW_DP_STAT.RESUME_STAT c 2
  else (s.put CREW_DP_STAT.RESUME_STAT c 1).onCrew c (fun k => { k with resumeNow := true })

/-! ## Coefficient slots (R127 to R129) -/

/-- The bits of slot word w that exist (R127). -/
def slotBits (w v : Nat) : Nat :=
  match w with
  | 10 => v % 2 ^ 30
  | 11 => v % 2 ^ 20
  | 12 => v % 2 ^ 16
  | 15 => 0
  | _ => v % 2 ^ 32

/-- The check of a shadow slot before its copy (R128). -/
def State.slotOk (s : State) (c r : Nat) : Bool :=
  let w (k : Nat) := s.get SLOT_SHADOW.W (256 * c + 16 * r + k)
  let hi := sgn 16 (bits (w 13) 31 16)
  let lo := sgn 16 (bits (w 13) 15 0)
  decide (lo < hi ∧ -2048 ≤ lo ∧ hi ≤ 2047 ∧ bits (w 12) 15 0 ≤ 2048)

/-- One region of a commit copy. -/
def commitOne (c : Nat) (s : State) (r : Nat) : State :=
  if s.slotOk c r then
    let s := forAll (List.range 16) (fun s w =>
      s.put SLOT_ACTIVE.W (256 * c + 16 * r + w) (s.get SLOT_SHADOW.W (256 * c + 16 * r + w))) s
    if s.get CREW_DP_STAT.REGION c = r then s.onCrew c (fun k => { k with transfer := k.reg }) else s
  else s.setOverBit CREW_DP_COMMIT_ERR.ERR c r

/-- COMMIT_COPY (R128): the checked shadow slots of the pending mask are copied; held shadow writes then apply. -/
def commitCopy (c : Nat) (s : State) : State :=
  let k := s.crew c
  let s := forAll (maskList k.commit 16) (commitOne c) s
  let s := (s.put CREW_DP_STAT.COMMIT_PEND c 0).onCrew c (fun k => { k with commit := 0, heldSlots := [] })
  k.heldSlots.foldl (fun s e => s.put SLOT_SHADOW.W e.1 e.2) s

/-- A write of a mask to CREW_DP_COMMIT (R128, R129): at once while the crew is off or stood down.
DESIGN CHOICE: assumption log 17. -/
def commitWrite (c mask : Nat) (s : State) : State :=
  let s := (s.put CREW_DP_STAT.COMMIT_PEND c 1).onCrew c (fun k => { k with commit := k.commit ||| mask })
  if s.crewDown c then commitCopy c s else s

/-- COMMIT_COPY. -/
def execCommitCopy (c : Nat) (s : State) : Out :=
  .next (if s.flag CREW_DP_STAT.COMMIT_PEND c ∧ ¬ (s.crew c).busy then commitCopy c s else s)

/-- A write of shadow slot word i of the crew that owns it: held while a commit is pending (R129). -/
def shadowWrite (i v : Nat) (s : State) : State :=
  let c := i / 256
  let v := slotBits (i % 16) v
  if s.flag CREW_DP_STAT.COMMIT_PEND c then s.onCrew c (fun k => { k with heldSlots := k.heldSlots ++ [(i, v)] })
  else s.put SLOT_SHADOW.W i v

end Sys2Proof.Machine
end

