-- ==== Sys2Proof/Machine/Planes.lean ====
section
/-! DEFINITION. Planes, sharing, reservoirs and margin (chapter 05): sharing trims, transient aids, the margin floor,
stand-down and rejoin, admission, soft start and its aborts. -/

namespace Sys2Proof.Machine

open Sys2Proof

/-! ## Sharing (R146 to R148) -/

/-- Crew c takes part in sharing: ON, regulating, PART set, not folded, with a slope of at least 20 µΩ. -/
def State.shares (s : State) (c : Nat) : Bool :=
  s.cst c == 3 && (s.crew c).reg && s.flag CREW_SH_CTL.PART c && !s.flag CREW_OVL_STAT.FOLD c &&
    decide (20 ≤ s.get CREW_DP_LLS.LLS c)

/-- A trim held within ±TRIM_MAX of its crew. -/
def State.trimClamp (s : State) (c : Nat) (z : Int) : Int :=
  clampI z (-(s.get CREW_SH_CTL.TRIM_MAX c : Int)) (s.get CREW_SH_CTL.TRIM_MAX c)

/-- The trim of crew c after the comparison of its current with its share (R147). -/
def State.trimStep (s : State) (total : Int) (n : Nat) (c : Nat) : Int :=
  let t := s.getI CREW_DP_TRIM.TRIM c
  let dev := s.iF c * n - total * s.activeCount c
  let db : Int := ((s.get CREW_SH_CTL.DB c * 250 * n : Nat) : Int)
  s.trimClamp c (if db < dev then t - 1 else if dev < -db then t + 1 else t)

/-- The sharing pass over one plane: trims are computed and sent to the crews that take part (R146, R147).
DESIGN CHOICE: assumption log 45. -/
def sharePlane (s : State) (p : Nat) : State :=
  let cs := (planeCrews p).filter s.shares
  if cs.length < 2 then s
  else
    let total := sumI (cs.map s.iF)
    let n := sumN (cs.map s.activeCount)
    let trims := cs.map (fun c => s.trimStep total n c)
    let mean := divT (sumI trims) cs.length
    (cs.zip trims).foldl (fun s e =>
      let t := s.trimClamp e.1 (e.2 - mean)
      (s.onCrew e.1 (fun k => { k with trimNext := some t })).mark CREW_SH_CTL.AT_LIM e.1
        (t.natAbs == s.get CREW_SH_CTL.TRIM_MAX e.1)) s

/-- TRIM_TAKE (R147): the trims of one pass take effect at the crews in the same tick. -/
def execTrimTake (s : State) : Out :=
  .next (forAll allCrews (fun s c =>
    match (s.crew c).trimNext with
    | some t => (s.putI CREW_DP_TRIM.TRIM c t).onCrew c (fun k => { k with trimNext := none })
    | none => s) s)

/-! ## Stand-down (R163 to R165) -/

/-- STAND_GRANT (R163): the judgement of one crew's request: 1 granted, 2 DEFERRED, 3 REFUSED_LAST, 4 REFUSED_STATE.
A crew whose plane ramps down, or is to be shut down, counts as one that is not ON. DESIGN CHOICE: assumption log 45. -/
def State.standJudge (s : State) (c : Nat) : Nat :=
  let others := (planeCrews (planeOf c)).filter (fun d => d != c && (s.crew d).reg && s.cst d != 4)
  if s.cst c ≠ 3 ∨ (s.plane (planeOf c)).shutIssued ∨ s.ramping c then 4
  else if others = [] then 3
  else if 12 * s.iF c ≤ 10 * sumI (others.map (fun d => (1000 * s.crewRating d : Nat) - s.iF d)) then 1 else 2

/-- A pending stand-down request is judged at the pass, and a granted crew sheds (R164). -/
def standGrant (s : State) (c : Nat) : State :=
  match (s.crew c).standReq with
  | none => s
  | some kind =>
    let r := s.standJudge c
    let s := (s.put CREW_PWR_STAT.STAND_RES c r).onCrew c (fun k => { k with standReq := none })
    if r = 1 then (shed c s).onCrew c (fun k => { k with standKind := kind, standAt := some s.now }) else s

/-- The stand-down of crew c is withdrawn: one that waits, and one granted in this cycle, whose crew is ON again (R374). -/
def withdrawStand (c : Nat) (s : State) : State :=
  let k := s.crew c
  if k.standReq.isSome ∨ k.standAt = some s.now then
    let s := if k.standAt = some s.now ∧ s.cst c = 4 then s.setCst c 3 else s
    (s.put CREW_PWR_STAT.STAND_RES c 4).onCrew c (fun k => { k with standReq := none, standAt := none })
  else s

/-- A crew that is down from a PARK stand-down rejoins (R260). -/
def rejoinPark (c : Nat) (s : State) : State :=
  if s.cst c = 5 ∧ (s.crew c).standKind = 0 ∧ ¬ s.flag CREW_PWR_STAT.FORCED c ∧ (s.plane (planeOf c)).powered ∧ ¬ s.ramping c then
    rejoinCrew c s
  else s

/-- The shedding of crew c may end (R164): its current is at most 5 % of its continuous rating, 50 µs have passed, or it
does not regulate. -/
def State.shedOver (s : State) (c : Nat) : Bool :=
  decide (20 * s.iF c ≤ 1000 * s.crewRating c) || decide ((s.crew c).shedAt + 25000 ≤ s.now) || !(s.crew c).reg

/-- The shedding of crew c ends (R164): its phases go IDLE; a calibration starts, or the crew is DOWN, as it is in a plane
that is ramped down. A crew that was forced down and has five usable phases again rejoins (R166). -/
def sheddingEnd (c : Nat) (s : State) : State :=
  if s.cst c ≠ 4 ∨ s.shedOver c = false then s
  else
    let s := endRegulation c (idlePhases c s)
    if s.flag CREW_PWR_STAT.FORCED c ∨ s.ramping c then darkCheck (planeOf c) (s.setCst c 5)
    else if (s.crew c).standKind = 1 then darkCheck (planeOf c) (selectZero c (s.setCst c 6))
    else if (s.crew c).standKind = 2 then startRejoin c s
    else darkCheck (planeOf c) (s.setCst c 5)

/-- CREW_CALIBRATION_END (R165, R172): the sequencer has measured its offsets (1/8 LSB) and inductances (pH), and its
open-wire test has ended after them: the results are recorded (R94), and the crew selects interleaved mode to rejoin or
start. An offset outside the field wraps. DESIGN CHOICE: assumption logs 115 and 128. -/
def execCrewCalibrationEnd (c : Nat) (aOfs bOfs : Int) (ind : List Nat) (s : State) : Out :=
  if ¬ (s.crew c).seqCal ∨ (s.crew c).calOw ≠ 2 then .next s
  else
    let s := (s.putI CREW_AB_TRIM.A_OFS c aOfs).putI CREW_AB_TRIM.B_OFS c bOfs
    let s := s.onCrew c (fun k => { k with calRecord := some (aOfs, bOfs, ind) })
    if s.cst c = 6 then
      let s := idlePhases c s
      if s.flag CREW_PWR_STAT.FORCED c then .next ((s.setCst c 5).onCrew c (fun k => { k with seqCal := false }))
      else .next (startRejoin c s)
    else if s.cst c = 2 then .next (selectInterleaved c s)
    else .next s

/-! ## Transient aids (R149 to R156) -/

/-- The reservoir and the droop detector act: ON, and no stop has disabled them (R156, R332). -/
def State.aidsOn (s : State) (c : Nat) : Bool := s.cst c == 3 && (s.crew c).reg && !(s.crew c).aidsOff

/-- A reservoir that is ready fires (R152). -/
def dump (c : Nat) (s : State) : State := (s.put CREW_TR_STAT.RES_READY c 0).bump CREW_TR_CNT.DUMPS c

/-- STRETCH_REQUEST (R150, R203): the request of crew c reaches the region outputs of its field's scope, unless a
crossing calibration holds it (R447). -/
def requestStretch (c : Nat) (s : State) : State :=
  let f := c / 24
  let rs := if s.get MSH_CTL.SCOPE f = 1 then [regionOf c] else [3 * f, 3 * f + 1, 3 * f + 2]
  if s.xcalHold then s else { s with strReq := (s.strReq ++ rs).eraseDups }

/-- A trigger source of capture streams on crew c occurs (R401): streams that run and wait for it. -/
def triggerStreams (p : State → Nat → Bool) (s : State) : State :=
  forAll (List.range 4) (fun s st =>
    if s.get CAP_MON_SSTAT.STATE st = 1 ∧ p s st then { s with streams := tset s.streams st { tget {} s.streams st with trigReq := true } }
    else s) s

/-- The plane voltage that crew c senses, of its remote and local sense in 0.1 µV (R115, R149). -/
def State.sensed (s : State) (c remote loc : Nat) : Int := if s.flag CREW_AB_STAT.SENSE c then loc else remote

/-- OV_TH of crew c in 0.1 µV (R154). -/
def State.ovTh (s : State) (c : Nat) : Nat := 80000 + 20000 * s.get CREW_TR_CTL.OV_TH c

/-- What the clamp of crew c draws from the plane in A: the shunt of R154, or 40 A in a stop (R332). -/
def State.shuntA (s : State) (c : Nat) : Nat :=
  if s.flag CREW_TR_STAT.CLAMP_ON c then (if (s.crew c).stopClamp then 40 else 5 * (s.get CREW_TR_CTL.I_CLAMP c + 1)) else 0

/-- DROOP tells whether the plane of a regulating crew lies below the droop level (R175). -/
def showDroop (c remote loc : Nat) (s : State) : State :=
  if (s.crew c).reg then s.mark CREW_TR_STAT.DROOP c (decide (s.sensed c remote loc < s.droopLevel c)) else s

/-- DROOP (R149): the plane falls below the droop level of an armed detector: the reservoir fires if it may, STRETCH
is requested, the droop is counted, and a stream that waits for it is triggered (R401).
DESIGN CHOICE: assumption log 7. -/
def execDroop (c remote loc : Nat) (s : State) : Out :=
  let s := showDroop c remote loc s
  if ¬ s.aidsOn c ∨ ¬ s.flag CREW_TR_CTL.DROOP_EN c ∨ ¬ (s.crew c).droopArmed ∨ s.droopLevel c ≤ s.sensed c remote loc then .next s
  else
    let s := if s.flag CREW_TR_CTL.RES_EN c ∧ s.flag CREW_TR_STAT.RES_READY c then dump c s else s
    let s := if s.flag CREW_TR_CTL.STR_EN c then requestStretch c s else s
    let s := (s.bump CREW_TR_CNT.DROOPS c).onCrew c (fun k => { k with droops := k.droops + 1, droopArmed := false })
    .next (triggerStreams (fun s st => s.get CAP_MON_STRIG.TSRC st == 2 && s.get CAP_MON_SCTL.CREW st == c) s)

/-- DROOP_REARM (R149): the plane has stayed for 16 ns at a voltage above the level plus 4 mV. -/
def execDroopRearm (c remote loc : Nat) (s : State) : Out :=
  let s := showDroop c remote loc s
  .next (if s.droopLevel c + 40000 < s.sensed c remote loc then s.onCrew c (fun k => { k with droopArmed := true }) else s)

/-- RESERVOIR_READY (R151): the reservoir has recharged. -/
def execReservoirReady (c : Nat) (s : State) : Out := .next (s.put CREW_TR_STAT.RES_READY c 1)

/-- An armed firing is skipped or an ARM is discarded (R153). -/
def armSkip (c : Nat) (s : State) : State := (s.bump CREW_TR_CNT.ARM_SKIPS c).raiseCrew 0x0502 c

/-- An ARM reaches crew c (R153): it is discarded, or replaces the armed stamp; one whose stamp has been reached is
skipped then. -/
def armCrew (c : Nat) (h : Held) (s : State) : State :=
  if s.crewDown c ∨ s.cst c = 2 then armSkip c s
  else if s.crewReached c h.instant then armSkip c ((s.put CREW_TR_STAT.ARM_PEND c 0).onCrew c (fun k => { k with arm := none }))
  else (s.put CREW_TR_STAT.ARM_PEND c 1).onCrew c (fun k => { k with arm := some h })

/-- ARMED_FIRING (R153): in the tick of the armed stamp the reservoir fires, or the firing is skipped. -/
def execArmedFiring (c : Nat) (s : State) : Out :=
  match (s.crew c).arm with
  | none => .next s
  | some _ =>
    let s := (s.put CREW_TR_STAT.ARM_PEND c 0).onCrew c (fun k => { k with arm := none })
    .next (if s.aidsOn c ∧ s.flag CREW_TR_CTL.RES_EN c ∧ s.flag CREW_TR_STAT.RES_READY c then dump c s else armSkip c s)

/-- OVERSHOOT_CLAMP (R154): the clamp of a regulating crew fires, at most four times in a window; the fourth saturates
it (R155). DESIGN CHOICE: assumption log 44. -/
def execOvershootClamp (c remote loc : Nat) (s : State) : Out :=
  let k := s.crew c
  if s.sensed c remote loc ≤ s.regTarget c + s.ovTh c then .next s
  else if ¬ k.reg ∨ k.stopClamp ∨ ¬ s.flag CREW_TR_CTL.CLAMP_EN c ∨ s.flag CREW_TR_STAT.CLAMP_ON c ∨ 4 ≤ k.clampWin then .next s
  else
    let s := (s.put CREW_TR_STAT.CLAMP_ON c 1).bump CREW_TR_CNT.CLAMPS c
    let s := s.onCrew c (fun k => { k with clampWin := k.clampWin + 1, clampAt := s.now })
    .next (if k.clampWin = 3 ∧ ¬ k.satRec then (s.onCrew c (fun k => { k with satRec := true })).raiseCrew 0x0505 c else s)

/-- CLAMP_OFF (R154): the clamp switches off with the plane below the target plus OV_TH / 2, or after 200 ns; a stop clamp
stays (R332). -/
def execClampOff (c remote loc : Nat) (s : State) : Out :=
  let due : Bool := decide (s.sensed c remote loc < s.regTarget c + (s.ovTh c / 2 : Nat)) || decide ((s.crew c).clampAt + 100 ≤ s.now)
  .next (if (s.crew c).stopClamp ∨ due = false then s else s.put CREW_TR_STAT.CLAMP_ON c 0)

/-- CLAMP_WINDOW (R155): the window ends. DESIGN CHOICE: assumption log 44. -/
def execClampWindow (c : Nat) (s : State) : Out :=
  .next (s.onCrew c (fun k => { k with clampWin := 0, satRec := false }))

/-! ## Margin (R157 to R162) -/

/-- The guardband code that crew c has a right to now (R157). -/
def State.guardband (s : State) (c : Nat) : Nat :=
  if (s.crew c).cover.isSome ∧ bitAt (s.get CAP_MON_AGE_CTL.VALID 0) (regionOf c) ∧ ¬ s.flag CREW_AB_STAT.SENSE c then
    s.get CREW_GB_CTL.GB_FC c else s.get CREW_GB_CTL.GB_DEF c

/-- The margin floor F of crew c in 0.1 µV (R158): V_HMIN + GB + A_r + LLS × I_CONT. -/
def State.marginFloor (s : State) (c : Nat) : Int :=
  (codeUv (s.get CREW_GB_CTL.HMIN c) : Nat) + (5000 * s.guardband c : Nat)
    + 25000 * s.getI CAP_MON_AGE_TRIM.TRIM (regionOf c) + (10 * s.get CREW_DP_LLS.LLS c * s.crewRating c : Nat)

/-- The largest of a list of integers, if it has any. -/
def maxI : List Int → Option Int
  | [] => none
  | x :: t => some (t.foldl max x)

/-- The plane floor (R158): the largest margin floor of the regulating crews, rounded up to a code; 0 with none. -/
def State.planeFloor (s : State) (p : Nat) : Nat :=
  match maxI (((planeCrews p).filter (fun c => (s.crew c).reg)).map s.marginFloor) with
  | none => 0
  | some f => min 4095 (ceilDiv (f - 3000000).toNat 5000)

/-- PLANE_FLOOR (R158): the guardbands and the floor of plane p are recomputed and applied to the targets. -/
def execPlaneFloor (p : Nat) (s : State) : Out :=
  let s := forAll (planeCrews p) (fun s c => s.put CREW_GB_STAT.GB c (s.guardband c)) s
  let f := s.planeFloor p
  .next (forAll (planeCrews p) (fun s c =>
    let was := s.get CREW_GB_STAT.FLOOR c
    let s := s.onCrew c (fun k => { k with floorFell := decide (f < was) || (k.floorFell && decide (f = was)) })
    showSlewing c (showMargin c (s.put CREW_GB_STAT.FLOOR c f))) s)

/-- A cover reaches crew c (R259): it replaces any other; one that has expired covers nothing.
DESIGN CHOICE: assumption log 52. -/
def coverCrew (c : Nat) (endSt : Option Held) (maxAt : Option Nat) (s : State) : State :=
  let gone : Bool := (match endSt with | some e => s.crewReached c e.instant | none => false) ||
    (match maxAt with | some t => decide (t ≤ s.now) | none => false)
  if gone then (s.put CREW_GB_STAT.COVERED c 0).onCrew c (fun k => { k with cover := none })
  else (s.put CREW_GB_STAT.COVERED c 1).onCrew c
    (fun k => { k with cover := some ⟨endSt, maxAt⟩ })

/-- COVER_EXPIRY (R157): the cover reaches its expiry. -/
def execCoverExpiry (c : Nat) (s : State) : Out :=
  .next ((s.put CREW_GB_STAT.COVERED c 0).onCrew c (fun k => { k with cover := none }))

/-- AGE_SLACK (R161): the smallest slack of the last millisecond of a monitor, in ps. -/
def execAgeSlack (mon : Nat) (slack : Int) (s : State) : Out := .next (s.putI CAP_MON_AGE_SLACK.SLACK mon slack)

/-! ## Power-on (R170 to R173) -/

/-- The local VIB of crew c in 0.1 µV by its last settled reading (R98): code × 4 V / 4,096 × V_REF / gain. -/
def State.vibOf (s : State) (c : Nat) : Rat :=
  let (code, g, q) := tget (0, 0, 4) (s.crew c).hHeld 9
  (code : Rat) * 40000000 * q / (4096 * 4 * 2 ^ g)

/-- The predicted VIB current of plane p in A (R170), with each crew's own last settled reading of VIB; none while a crew
has none. DESIGN CHOICE: assumption log 135. -/
def State.predicted (s : State) (p : Nat) : Option Rat :=
  if (planeCrews p).any (fun c => s.vibOf c == 0) then none
  else some ((planeCrews p).foldl (fun a c =>
    a + (s.get CREW_PWR_CTL.IDLE c : Rat) * codeUv (s.get CREW_SP_STAT.TARGET c) * 100 / (s.vibOf c * 85)) 0)

/-- Whether plane p is admitted with a draw already added in this evaluation, and the draw after (R170, R331, R443). -/
def State.admits (s : State) (p : Nat) (added : Rat) : Option Rat :=
  match s.predicted p with
  | none => none
  | some i =>
    if s.flag ID_PWR_STAT.VIB_GOOD 0 ∧ s.flag THM_STAT.COOLANT 0 ∧ i * 5 / 4 ≤ (s.get STG_SUM.CAP_A 0 : Rat) - s.get STG_SUM.DRAW_A 0 - added then
      some (added + i) else none

/-- The capacity of plane p in A (R167, R365); that of crews which PWROFF has turned OFF counts until the plane is OFF. -/
def State.capacity (s : State) (p : Nat) : Nat :=
  if (s.plane p).shutIssued ∨ (s.plane p).ramp = .fault then 0
  else 14 * sumN (((planeCrews p).filter (fun c => decide (s.cst c ∈ [2, 3, 7]))).map s.activeCount) +
    (if (s.plane p).ramp = .pwroff then (s.plane p).capOff else 0)

/-- Crew c takes a PWRON or PWROFF that is delivered now: it does not hold it during its delivery calibration (R388), and
its last calibration is valid (R387). -/
def State.hearsPower (s : State) (c : Nat) : Bool := !(s.crew c).calRun && s.flag TB_CAL.VALID c

/-- One crew of an admitted plane (R148, R60, R71, R139, R166, R172): it starts its calibration, or goes DOWN. -/
def admitCrew (s : State) (c : Nat) : State :=
  if ¬ s.hearsPower c then s
  else
  let s := loadSeed c ((zeroTrims c ((s.put CREW_DP_TRIM.TRIM c 0).put CREW_SH_CTL.AT_LIM c 0)).put CREW_DP_MISS_WIN.WIN c 0)
  let s := forAll (crewPhases c) (fun s ph => s.onPhase ph (fun p => { p with winTrips := 0 })) s
  let s := ((s.put CREW_SP_REF.REF c 0).put CREW_OVL_STAT.FOLD c 0).put CREW_OVL_STAT.FLOOR c 0
  let s := s.onCrew c (fun k => { k with foldUv := 0, ifValid := false, trimNext := none, aidsOff := false, stopClamp := false })
  if s.usable c < 5 then (s.setCst c 5).put CREW_PWR_STAT.FORCED c 1 |>.onCrew c (fun k => { k with standKind := 2 })
  else
    selectZero c (s.setCst c 2)

/-- Plane p is admitted (R172). -/
def admitPlane (p : Nat) (s : State) : State :=
  let s := forAll (planeCrews p) admitCrew s
  let s := s.onPlane p (fun q => { q with powered := true, ramp := .none, shutIssued := false, discharging := false,
                                          retry := false, ceiling := none })
  s.onPlane p (fun q => { q with capSent := s.capacity p })

/-- An admission evaluation is counted at the plane's crews. -/
def countRound (p : Nat) (s : State) : State := forAll (planeCrews p) (fun s c => s.bump CREW_PWR_STAT.ADMIT_ROUNDS c) s

/-- POWER_ON_QUEUED (R171): the plane waits for admission. -/
def queuePlane (p : Nat) (s : State) : State :=
  { forAll (planeCrews p) (fun s c => if s.hearsPower c then s.setCst c 1 else s) s with powerQ := s.powerQ ++ [p] }.raisePlane 0x0504 p

/-- Plane p is evaluated for admission and admitted or queued (R170, R171). DESIGN CHOICE: assumption log 83. -/
def tryAdmit (p : Nat) (s : State) : State :=
  let s := countRound p s
  match s.admits p 0 with
  | some _ => admitPlane p s
  | none => queuePlane p s

/-- One queued plane of a re-evaluation: the state, the draw added so far. -/
def requeueOne (a : State × Rat) (p : Nat) : State × Rat :=
  let s := countRound p a.1
  match s.admits p a.2 with
  | some d => ({ admitPlane p s with powerQ := s.powerQ.filter (fun q => q != p) }, d)
  | none => (s, a.2)

/-- QUEUE_REEVALUATION (R171): the queued planes are evaluated again in the order of their PWRON. -/
def execQueueReevaluation (s : State) : Out := .next (s.powerQ.foldl requeueOne (s, 0)).1

/-- SOFT_START_ABORT (R173): the abort condition has held for 20 µs at a crew whose REF exceeds 100 mV, whose plane lies
below half of REF and has tripped a fast limit in the last 10 µs: the plane stops; a retry is scheduled, or the fourth
abort locks it out. A plane that is shut down, or ramps down, ends in OFF instead (R261, R374, R455).
DESIGN CHOICE: assumption log 49. -/
def execSoftStartAbort (c remote loc : Nat) (s : State) : Out :=
  let p := planeOf c
  let tripped : Bool := (planeCrews p).any (fun d => (crewPhases d).any (fun ph =>
    match (s.phase ph).tripAt with | some t => decide (s.now ≤ t + 5000) | none => false))
  if ¬ (s.crew c).softStart ∨ s.get CREW_SP_REF.REF c ≤ 1000000 ∨ ¬ tripped ∨
      (s.get CREW_SP_REF.REF c : Int) ≤ 2 * s.sensed c remote loc ∨ (s.plane p).shutIssued ∨ s.ramping c then .next s
  else
    let n := (s.plane p).tries
    let st := if 3 ≤ n then 9 else 8
    let s := forAll (planeCrews p) (fun s d => ((endRegulation d (idlePhases d s)).setCst d st).put CREW_SP_REF.REF d 0) s
    let s := (s.onPlane p (fun q => { q with retry := st == 8 })).raisePlane 0x0508 p
    .next (if st = 9 then s.raisePlane 0x050B p else s)

/-- POWER_ON_RETRY (R173): the pending retry of a plane runs, admission included. -/
def execPowerOnRetry (p : Nat) (s : State) : Out :=
  let q := s.plane p
  if ¬ q.retry then .next s
  else
    let s := s.setPlane p { q with retry := false, tries := q.tries + 1 }
    .next (tryAdmit p (forAll (planeCrews p) (fun s c => s.put CREW_PWR_STAT.TRIES c (q.tries + 1)) s))

/-- A write of 1 to CREW_PWR_CTL.UNLOCK of any crew of a locked plane (R173). -/
def unlock (c : Nat) (s : State) : State :=
  let p := planeOf c
  if s.cst c = 9 then
    (forAll (planeCrews p) (fun s d => (s.setCst d 0).put CREW_PWR_STAT.TRIES d 0) s).onPlane p
      (fun q => { q with tries := 0, retry := false, powered := false, ceiling := none })
  else s

/-- The crews of plane p power off (R261). -/
def planePowerOff (p : Nat) (s : State) : State :=
  let cs := planeCrews p
  if cs.any (fun c => s.cst c == 1) then
    settleOff p { forAll cs offCrew s with powerQ := s.powerQ.filter (fun q => q != p) }
  else if cs.any (fun c => s.cst c == 8) then
    settleOff p ((forAll cs offCrew s).onPlane p (fun q => { q with retry := false }))
  else if (s.plane p).ramp ≠ .none ∨ ¬ (s.plane p).powered ∨ ¬ cs.any (fun c => s.alive c) then s
  else if cs.any (fun c => (s.crew c).reg) then
    (forAll cs (fun s c => if (s.crew c).reg then s else endRegulation c s) s).onPlane p (fun q => { q with ramp := .pwroff, capOff := 0 })
  else
    settleOff p (forAll cs (fun s c => offCrew (endRegulation c (idlePhases c s)) c) s)

/-- PWROFF reaches plane p (R202, R261). -/
def powerOff (p : Nat) (s : State) : State := startHeld (p / 4) (planePowerOff p s)

/-- A PWRON that crew c has held applies to it at the end of its delivery calibration (R388): it joins its plane's start
or its place in the queue. -/
def powerOnCrew (c : Nat) (s : State) : State :=
  let p := planeOf c
  if s.cst c ≠ 0 ∨ (s.plane p).ramp ≠ .none then s
  else if (s.plane p).powered then admitCrew s c
  else if s.powerQ.contains p then s.setCst c 1 else s

/-- A PWROFF that crew c has held applies to it (R388): a crew that waits, starts, or is down in a plane whose other crews
are OFF or ramp down is OFF. -/
def powerOffCrew (c : Nat) (s : State) : State :=
  let p := planeOf c
  let going : Bool := (s.plane p).ramp == .pwroff || (planeCrews p).all (fun d => d == c || s.cst d == 0)
  if s.cst c = 1 then
    let s := s.setCst c 0
    if (planeCrews p).any (fun d => s.cst d == 1) then s else { s with powerQ := s.powerQ.filter (fun q => q != p) }
  else if s.cst c = 2 ∨ (s.cst c = 5 ∧ going) then settleOff p ((endRegulation c (idlePhases c s)).setCst c 0)
  else s

/-! ## Minimum voltage (R174) -/

/-- A write of 1 to CREW_VMIN.REARM. -/
def vminRearm (c : Nat) (s : State) : State := s.put CREW_VMIN.VMIN c 65535

/-- Stamp order for the die-wide minimum, which runs until it is rearmed: an earlier stamp first (R174).
DEDUCED: assumption log 118. -/
def dieVminTake (s : State) (c : Nat) : State :=
  let v := s.get CREW_VMIN.VMIN c
  let cur := s.get CAP_MON_DIE_VMIN.VMIN 0
  let st : Stamp := ⟨s.get CREW_VMIN_MARK.MARK c, s.get CREW_VMIN.TICKS c⟩
  let held : Stamp := ⟨s.get CAP_MON_DIE_VMIN_MARK.MARK 0, s.get CAP_MON_DIE_VMIN.TICKS 0⟩
  if v < cur ∨ (v = cur ∧ v ≠ 65535 ∧ s.before st held) then
    (((s.put CAP_MON_DIE_VMIN.VMIN 0 v).put CAP_MON_DIE_VMIN.CREW 0 c).put CAP_MON_DIE_VMIN.TICKS 0 st.tick).put
      CAP_MON_DIE_VMIN_MARK.MARK 0 st.mark
  else s

/-- At each mark the coordinator takes the lowest crew VMIN (R174). -/
def dieVmin (s : State) : State := forAll allCrews dieVminTake s

end Sys2Proof.Machine
end

