-- ==== Sys2Proof/Machine/Delivery.lean ====
section
/-! DEFINITION. Delivery of unit operations to their leaf crews (R46 to R51, R257 to R261) and delivery calibration
(R386 to R388). -/

namespace Sys2Proof.Machine

open Sys2Proof

/-- The stamp that an operation carries, held from cycle t on (R195): of an ARM, or the END of a cover. -/
def OpKind.held (k : OpKind) (t : Nat) : Held :=
  match k with
  | .arm st b => ⟨st, b, 0, false, t⟩
  | .cover (some e) _ => ⟨e, true, 0, false, t⟩
  | _ => ⟨⟨0, 0⟩, false, 0, false, t⟩

/-- An operation acts at one leaf crew, whatever held it before, with its stamp as held there. -/
def applyOp (op : Op) (h : Held) (c : Nat) (s : State) : State :=
  match op.kind with
  | .setp code slew quiet => setpoint c op.id code slew quiet s
  | .setpKeep code => setpoint c op.id code (s.get CREW_SP_STAT.SLEW c) false s
  | .lls v => llsWrite c v s
  | .gsel f r => (s.put CREW_DP_GS.FORCE c f).put CREW_DP_GS.FORCE_REGION c r
  | .arm _ _ => armCrew c h s
  | .cover e m => coverCrew c (e.map (fun _ => h)) m s
  | .stand k => if k < 2 then s.onCrew c (fun r => { r with standReq := some k }) else rejoinPark c s
  | .ramp .. => s
  | .pwron => powerOnCrew c s
  | .pwroff => powerOffCrew c s

/-- A setpoint operation (R387). -/
def OpKind.isSetp : OpKind → Bool
  | .setp .. => true
  | .setpKeep .. => true
  | .ramp .. => true
  | _ => false

/-- An operation applies at crew c, or is discarded: where the last calibration is not valid, unless it is a setpoint
(R387). -/
def deliverHeld (s : State) (c : Nat) (o : HeldOp) : State :=
  if ¬ s.flag TB_CAL.VALID c ∧ ¬ o.op.kind.isSetp then s else applyOp o.op o.held c s

/-- A crew in its delivery calibration holds an operation (R388). -/
def holdOp (op : Op) (s : State) (c : Nat) : State :=
  if (s.crew c).calRun then
    s.onCrew c (fun k => { k with heldOps := k.heldOps ++ [⟨op, op.kind.held (s.tickStart + 4)⟩] }) else s

/-- An operation reaches crew c (R48): held during its delivery calibration, else applied or discarded. -/
def deliverTo (op : Op) (s : State) (c : Nat) : State :=
  if (s.crew c).calRun then holdOp op s c else deliverHeld s c ⟨op, op.kind.held (s.tickStart + 4)⟩

/-- The front operation of the delivery path, when it is of the kind, takes effect at all its leaf crews in one tick. -/
def deliver (p : OpKind → Bool) (s : State) : State :=
  match s.flight with
  | [] => s
  | op :: rest => if p op.kind then forAll op.crews (deliverTo op) { s with flight := rest } else s

/-- SETPOINT_COMMAND (R136). -/
def execSetpointCommand (s : State) : Out := .next (deliver OpKind.isSetp s)

/-- LLS_DELIVERY (R257). -/
def execLlsDelivery (s : State) : Out := .next (deliver (fun k => match k with | .lls _ => true | _ => false) s)

/-- GSEL_DELIVERY (R257). -/
def execGselDelivery (s : State) : Out := .next (deliver (fun k => match k with | .gsel _ _ => true | _ => false) s)

/-- ARM_DELIVERY (R153). -/
def execArmDelivery (s : State) : Out := .next (deliver (fun k => match k with | .arm _ _ => true | _ => false) s)

/-- COVER_DELIVERY (R259). -/
def execCoverDelivery (s : State) : Out := .next (deliver (fun k => match k with | .cover _ _ => true | _ => false) s)

/-- STAND_DELIVERY (R260). -/
def execStandDelivery (s : State) : Out := .next (deliver (fun k => match k with | .stand _ => true | _ => false) s)

/-! ## Delivery calibration -/

/-- A write of TB_CAL_CTL with crew index c (R388): the index alone, a request for ALL or for ONE, or a refused request,
which sets CAL_ERR and changes nothing else. DESIGN CHOICE: assumption log 60. -/
def calRequest (all one : Bool) (c : Nat) (s : State) : State :=
  let ok : Bool := !s.flag TB_STAT.CAL_BUSY 0 &&
    (if all && one then false
     else if all then allCrews.all (fun d => s.cst d == 0)
     else decide (c ≤ 191) && decide (s.cst c ∈ [0, 5]))
  if !all && !one then s.put TB_CAL_CTL.CREW 0 c
  else if ok then
    let q := if all then allCrews else [c]
    { (s.put TB_CAL_CTL.CREW 0 c).put TB_STAT.CAL_BUSY 0 1 with calQ := q }.onCrew (q.headD 0) (fun k => { k with calRun := true })
  else s.setOver TB_STAT.CAL_ERR 0

/-- The calibration of crew c is written from the round trips of its echoed probes and its tick offset (R386, R387). -/
def calWrite (c : Nat) (rtts : List Nat) (phase : Nat) (s : State) : State :=
  let mean := ceilDiv (sumN rtts) (max 1 rtts.length)
  let d := ceilDiv mean 2
  let spread := maxN rtts - (minN rtts).getD 0
  let bad : Bool := decide (rtts.length ≠ 8 ∨ 56 < d ∨ 4 < spread ∨ 255 < maxN rtts)
  let s := ((s.put TB_CAL.RTT c (min 255 mean)).put TB_CAL.PHASE c (if rtts = [] then 0 else phase)).put TB_CAL.HOLD c
    (if bad then 0 else 64 - d)
  let s := (s.mark TB_CAL.VALID c (!bad)).mark TB_CAL.FAIL c bad
  if bad then s.raiseCrew 0x0B05 c else s

/-- A crew that was to rejoin during its delivery calibration does so at its end (R48, R166, R388), where it still may. -/
def rejoinHeld (c : Nat) (s : State) : State :=
  if (s.crew c).rejoinDue then
    let s := s.onCrew c (fun k => { k with rejoinDue := false })
    if s.cst c = 5 ∧ ¬ s.flag CREW_PWR_STAT.FORCED c ∧ (s.plane (planeOf c)).powered ∧ ¬ s.ramping c then rejoinCrew c s else s
  else s

/-- DELIVERY_CALIBRATION_END (R386): the crew being calibrated gets its result, and the operations held meanwhile act
in delivery order, a rejoin after them; the next crew of the request follows. DESIGN CHOICE: assumption log 60.
DESIGN CHOICE: assumption log 115. -/
def execDeliveryCalibrationEnd (c : Nat) (rtts : List Nat) (phase : Nat) (s : State) : Out :=
  let k := s.crew c
  if ¬ k.calRun then .next s
  else
    let s := calWrite c rtts phase (s.onCrew c (fun k => { k with calRun := false, heldOps := [] }))
    let s := rejoinHeld c (k.heldOps.foldl (fun s o => deliverHeld s c o) s)
    let q := s.calQ.filter (fun d => d != c)
    let s := { s with calQ := q }
    .next (match q with
      | [] => s.put TB_STAT.CAL_BUSY 0 0
      | d :: _ => s.onCrew d (fun k => { k with calRun := true }))

end Sys2Proof.Machine
end

