-- ==== Sys2Proof/Machine/Timebase.lean ====
section
/-! DEFINITION. Marks, snapshots and histogram clears (chapter 13): what a strobe and the begin of a mark do, and what
a complete snapshot shows. -/

namespace Sys2Proof.Machine

open Sys2Proof

/-- MARK_STROBE (R382): the strobe of the next mark issues with the PERIOD in force; every (SYNC + 1)-th carries the
number. Histogram clears written before it will act in that mark (R396). -/
def execMarkStrobe (s : State) : Out :=
  match s.strobe with
  | some _ => .next s
  | none =>
    let m := (s.markNo + 1) % 2 ^ 32
    .next { s with
      strobe := some (m, s.get TB_CTL.PERIOD 0, m % (s.get TB_CTL.SYNC 0 + 1) == 0)
      histDue := allCrews.filter (fun c => s.flag CREW_HIST_CTL.CLR_PEND c) }

/-- The FC2 entry in use with crew c or one of its phases as its source, the first of them (R389). -/
def State.fc2Of (s : State) (c : Nat) : Option FEntry :=
  (s.fc2.find? (fun e => srcCrew e.2.ev.kind e.2.ev.src == some c)).map (·.2)

/-- The snapshot record of crew c (R389). -/
def State.snapOf (s : State) (c : Nat) : Snap :=
  let k := s.crew c
  let (f, at_) := match s.fc2Of c with
    | some e => (some (max 2 (k.faultMax.getD 0)), if 2 ≤ k.faultMax.getD 0 then k.faultAt else e.ev.stamp)
    | none => (k.faultMax, k.faultAt)
  { current := s.iPos c, volt := if k.reg then k.vPlane else 0, temp := k.temp, target := s.get CREW_SP_STAT.TARGET c,
    state := s.cst c, phases := if k.reg then s.activeCount c else 0, fault := f.getD 0, faultAny := f.isSome,
    noData := !k.reg, law := s.get CREW_DP_STAT.LAW c, sense := s.get CREW_AB_STAT.SENSE c,
    covered := s.get CREW_GB_STAT.COVERED c, vlo := k.vLo.getD 0, vhi := k.vHi.getD 0,
    ring := if k.reg then maskOf (s.ringOf c) else 0, ot := s.get CREW_PH_CAUSE.OT_LIVE c, faultAt := at_ }

/-- The two histograms of crew c read 0, and the mark of the clear is kept (R396). -/
def clearHist (m : Nat) (s : State) (c : Nat) : State :=
  let s := { s with fld := s.fld.filter (fun e => !decide ((e.1.reg = Reg.CREW_HIST_V ∨ e.1.reg = Reg.CREW_HIST_T) ∧ e.1.inst / 64 = c)) }
  (s.put CREW_HIST_CTL.CLR_PEND c 0).put CREW_HIST_MARK.MARK c ((s.crew c).strayed.getD m)

/-- The crews that `histDue` lists twice. -/
def State.histAgain (s : State) : List Nat := s.histDue.filter (fun c => decide (1 < s.histDue.count c))

/-- What a mark begins at one crew: its droop event of the mark before (R151), its fault class and voltage extremes
start anew (R389). -/
def crewMark (s : State) (c : Nat) : State :=
  let k := s.crew c
  let s := s.onCrew c (fun k => { k with faultMax := none, vLo := none, vHi := none, droops := 0 })
  if 0 < k.droops then s.raiseCrew 0x0501 c k.droops else s

/-- Region r shows the stretches of the completed mark, split (R204). -/
def strMark (s : State) (r : Nat) : State :=
  (s.put MSH_STR_MARK.DROOP r (tget 0 s.strDroops r)).put MSH_STR_MARK.ALIGN r (tget 0 s.strAligns r)

/-- Crew c counts the mark on by itself (R383); `slips` says what its own count has strayed to. -/
def crewCount (slips : List (Nat × Nat)) (s : State) (c : Nat) : State :=
  match slips.find? (fun e => e.1 == c), (s.crew c).strayed with
  | some e, _ => s.onCrew c (fun k => { k with strayed := some e.2 })
  | none, some n => s.onCrew c (fun k => { k with strayed := some ((n + 1) % 2 ^ 32) })
  | none, none => s

/-- MARK_SLIP (R383): on a numbered strobe, crew c, whose own count differs from the number broadcast, takes the number. -/
def markSlip (m : Nat) (s : State) (c : Nat) : State :=
  match (s.crew c).strayed with
  | none => s
  | some n =>
    let s := s.onCrew c (fun k => { k with strayed := none })
    if n = m then s else (s.bump TB_STAT.SLIPS 0).raiseCrew 0x0B01 c m n

/-- Snapshot records of mark m, of so many ticks, are latched; the four latest are kept (R389). -/
def latchSnap (m len : Nat) (recs : List Snap) (s : State) : State :=
  { s with snaps := (s.snaps ++ [(m, len, recs)]).drop (s.snaps.length + 1 - 4) }

/-- A mark begins (R381, R382, R389, R174): time, snapshot records, the crews' counts, which a numbered strobe sets right
from this tick on (R383), clears, per-mark records. `slips` pairs each crew whose own count has strayed with that count. -/
def beginMark (m len : Nat) (numbered : Bool) (slips : List (Nat × Nat)) (s : State) : State :=
  let rec' := allCrews.map s.snapOf
  let s := { s with
    pastLens := s.markLen :: s.pastLens
    markStart := s.now
    markLen := len
    strobe := none }
  let s := s.put TB_NOW_MARK.MARK 0 m
  let s := latchSnap m len rec' (forAll allCrews (crewCount slips) s)
  let s := if numbered then forAll allCrews (markSlip m) s else s
  let s := if s.snapCopy = none ∧ s.flag TB_SNAP_CTL.BUSY 0 ∧ s.snapData = none then { s with snapCopy := some m } else s
  let s := forAll s.histAgain (fun s c => s.put CREW_HIST_CTL.CLR_PEND c 1) (forAll s.histDue (clearHist m) s)
  let s := { s with histDue := [] }
  let s := forAll (List.range 24) strMark (forAll allCrews crewMark s)
  dieVmin { s with strDroops := [], strAligns := [] }

/-- SNAPSHOT_INCOMPLETE (R390): a missing record, at most once per 1,000 marks for a crew. -/
def snapMissing (s : State) (c : Nat) : State :=
  let due : Bool := match (s.crew c).snapEvt with
    | none => true
    | some m => decide (1000 ≤ (s.markNo + 2 ^ 32 - m) % 2 ^ 32)
  if due then (s.onCrew c (fun k => { k with snapEvt := some s.markNo })).raiseCrew 0x0B02 c else s

/-- SNAPSHOT_COMPLETE (R389): every record of the oldest open snapshot is collected, or is missing and counts as that
of a crew powered off. -/
def execSnapshotComplete (missing : List Nat) (s : State) : Out :=
  match s.snaps with
  | [] => .next s
  | (m, len, recs) :: rest =>
    let recs := allCrews.map (fun c => if missing.contains c then {} else recs.getD c {})
    let s := { s with snaps := rest, snapDone := recs }
    let s := s.put TB_SNAP.MARK 0 m
    let s := if s.snapCopy = some m then { s with snapCopy := none, snapData := some (m, len, recs) } else s
    .next (forAll (missing.filter (fun c => decide (c < 192))) snapMissing s)

/-- The record of crew c in the last complete snapshot; before the first one, that of a crew powered off (R391). -/
def State.snap (s : State) (c : Nat) : Snap := s.snapDone.getD c {}

/-- A write of 1 to TB_SNAP_CTL.REQ (R392). -/
def snapReq (s : State) : State := if s.flag TB_SNAP_CTL.BUSY 0 then s else s.put TB_SNAP_CTL.BUSY 0 1

/-- A write of 1 to CREW_HIST_CTL.CLEAR of crew c, or of every crew through TB_CTL.HIST_CLR (R396): one that follows the
strobe of a mark that clears the crew is left for the mark after it. -/
def histClear (s : State) (c : Nat) : State :=
  { s.put CREW_HIST_CTL.CLR_PEND c 1 with histDue := if s.histDue.contains c then s.histDue ++ [c] else s.histDue }

/-- A write of PERIOD and SYNC (R381, R385): refused while a lane runs or waits; PERIOD is held to 64 to 250.
DEDUCED: assumption log 119. -/
def tbWrite (period sync : Nat) (s : State) : State :=
  let busy : Bool := (List.range 8).any (fun n => decide (s.get LANE_STAT.STATE n ∈ [3, 4]))
  if busy then s.setOver TB_STAT.CFG_ERR 0
  else (s.put TB_CTL.PERIOD 0 (clampN period 64 250)).put TB_CTL.SYNC 0 sync

/-- The RATE command of region r (R293), held at 16 during a crossing calibration (R447). -/
def sendRate (s : State) (r : Nat) : State :=
  let m := min (s.get CAP_RATE_REG.FW r) (min (s.get CAP_RATE_REG.CAP r) (s.get CAP_RATE_REG.THM r))
  s.put MSH_REG_CFG.RATE r (if s.xcalHold then 16 else m)

/-- The RATE commands of every region. DESIGN CHOICE: assumption log 59. -/
def sendRates (s : State) : State := forAll (List.range 24) sendRate s

/-- The words of a snapshot record (R389). -/
def Snap.words (r : Snap) : List Nat :=
  [r.current % 2 ^ 32, r.volt * 2 ^ 16 + unsg 16 r.temp,
   r.target * 2 ^ 20 + r.state * 2 ^ 16 + r.phases * 2 ^ 12 + r.fault * 2 ^ 10 + r.faultAny.toNat * 2 ^ 9 +
     r.noData.toNat * 2 ^ 8 + r.law * 2 ^ 7 + r.sense * 2 ^ 6 + r.covered * 2 ^ 5,
   r.vlo * 2 ^ 16 + r.vhi]

end Sys2Proof.Machine
end

