-- ==== Sys2Proof/Machine/Capture.lean ====
section
/-! DEFINITION. Capture streams (R397 to R405): arming, triggers and the coding of blocks and markers. -/

namespace Sys2Proof.Machine

open Sys2Proof

/-! ## Coding (R402, R403) -/

/-- n bits of a value, least significant first. -/
def bitsOf (n v : Nat) : List Bool := (List.range n).map (fun k => v.testBit k)

/-- The zigzag value of a residual. -/
def zigzag (q : Int) : Nat := if 0 ≤ q then 2 * q.toNat else 2 * q.natAbs - 1

/-- The Rice code of z with parameter P. -/
def rice (p z : Nat) : List Bool := List.replicate (z / 2 ^ p) true ++ [false] ++ bitsOf p z

/-- The residuals of samples after the first, in lossless coding (k = 0) or with loss bound k, for a signed source of
w bits: q, and the coder's reconstruction goes on. -/
def residuals (w k : Nat) : Int → List Int → List Int
  | _, [] => []
  | prev, x :: t =>
    let e := x - prev
    let q : Int := e.sign * (((e.natAbs + k) / (2 * k + 1) : Nat) : Int)
    let rx := clampI (prev + q * (2 * k + 1)) (-(2 ^ (w - 1) : Nat)) ((2 ^ (w - 1) : Nat) - 1)
    q :: residuals w k rx t

/-- The bits that the codes of zigzag values take with parameter p. -/
def riceCost (p : Nat) (zs : List Nat) : Nat := sumN (zs.map (fun z => z / 2 ^ p + 1 + p))

/-- P of a block whose samples after the first have the zigzag values zs: the one of fewest bits, the lowest on a tie, and
RAW only where it is strictly the smallest. -/
def blockP (w : Nat) (zs : List Nat) : Nat :=
  let p := (List.range 14).foldl (fun b p => if riceCost p zs < riceCost b zs then p else b) 0
  if zs.length * w < riceCost p zs then 14 else p

/-- The codes of a block: P, the first sample raw, and one code per further sample. -/
def blockCodes (w k : Nat) : List Int → List (List Bool)
  | [] => []
  | x :: t =>
    let zs := (residuals w k x t).map zigzag
    let p := blockP w zs
    (bitsOf 4 p ++ bitsOf w (unsg w x)) :: (if p = 14 then t.map (fun y => bitsOf w (unsg w y)) else zs.map (rice p))

/-- A data block of samples. -/
def dataBlock (w k : Nat) (xs : List Int) : List Bool := (blockCodes w k xs).flatten

/-- The GAP marker of n missed slots. DESIGN CHOICE: assumption log 50. -/
def gapMarker (n : Nat) : List Bool := bitsOf 4 15 ++ bitsOf 4 0 ++ bitsOf 32 n

/-- The END marker. -/
def endMarker : List Bool := bitsOf 4 15 ++ bitsOf 4 1

/-! ## Streams -/

def State.stream (s : State) (st : Nat) : Stream := tget {} s.streams st
def State.setStream (s : State) (st : Nat) (k : Stream) : State := { s with streams := tset s.streams st k }

/-- RUNNING or TRIGGERED. -/
def State.streaming (s : State) (st : Nat) : Bool := decide (s.get CAP_MON_SSTAT.STATE st ∈ [1, 2])

/-- The rate of a source in MS/s, and its width (R397). -/
def srcRate (src : Nat) : Nat := if src = 0 then 250 else 125
def srcWidth (src : Nat) : Nat := if src = 0 then 12 else 16

/-- Whether an ARM of stream st is refused (R398). -/
def State.armRefused (s : State) (st : Nat) : Bool :=
  let g (f : Fld) := s.get f st
  let load := sumN (((List.range 4).filter (fun t => t != st && s.streaming t)).map (fun t => srcRate (s.get CAP_MON_SCTL.SRC t)))
  g CAP_MON_SCTL.MODE == 3 || g CAP_MON_SCTL.SRC == 3 || decide (191 < g CAP_MON_SCTL.CREW) ||
    decide (4096 < g CAP_MON_SBUF.BASE + g CAP_MON_SBUF.PAGES + 1) ||
    decide (g CAP_MON_SBUF.PAGES + 1 ≤ g CAP_MON_STRIG.POST) || decide (500 < load + srcRate (g CAP_MON_SCTL.SRC))

/-- An accepted ARM = 1 of stream st, its other fields written (R398): its slots begin 128 ns later. -/
def armStream (st : Nat) (s : State) : State :=
  (((s.put CAP_MON_SSTAT.STATE st 1).put CAP_MON_SSTAT.NEXT st 0).put CAP_MON_SSEQ.PAGE_SEQ st 0).put CAP_MON_SCTL.ARM st 1
    |>.setStream st { from_ := s.now + 64, gapMark := (s.stream st).gapMark }

/-- An ARM = 0 of a running stream: its bitstream closes (R400). -/
def stopStream (st : Nat) (s : State) : State :=
  let s := s.put CAP_MON_SCTL.ARM st 0
  if s.streaming st then s.setStream st { s.stream st with closing := true } else s

/-- A write of 1 to FIRE (R401). -/
def fireStream (st : Nat) (s : State) : State :=
  if s.get CAP_MON_SSTAT.STATE st = 1 ∧ s.get CAP_MON_STRIG.TSRC st = 0 then
    s.setStream st { s.stream st with trigReq := true } else s

/-- CAPTURE_TRIGGER (R401): the first trigger after ARM takes effect: the first slot of the tick that runs is the trigger
slot, and a TRIGGERED-mode stream counts its last pages. The page is recorded as the slot is coded. -/
def execCaptureTrigger (st : Nat) (s : State) : Out :=
  let k := s.stream st
  let stampDue : Bool := s.get CAP_MON_STRIG.TSRC st == 1 &&
    s.reached ⟨s.get CAP_MON_STRIG_MARK.MARK st, s.get CAP_MON_STRIG.TICKS st⟩
  if s.get CAP_MON_SSTAT.STATE st ≠ 1 ∨ k.trigged ∨ ¬ (k.trigReq || stampDue) then .next s
  else
    let s := s.setStream st { k with trigReq := false, trigged := true, trigNext := true }
    .next (if s.get CAP_MON_SCTL.MODE st = 2 then s.put CAP_MON_SSTAT.STATE st 2 else s)

/-! ## Slots (R397, R405) -/

/-- The samples of the tick that ends, of stream st: A and then B, or one value; none where the slot is missed.
DEDUCED: assumption log 131. -/
def State.tickSlots (s : State) (st : Nat) : List (Option Int) :=
  let c := s.get CAP_MON_SCTL.CREW st
  let landed (e : Option (Nat × Int)) : Option Int := match e with
    | some (t, v) => if s.now < t + 4 then some v else none
    | none => none
  match s.get CAP_MON_SCTL.SRC st with
  | 0 => if s.flag CREW_AB_STAT.MODE_ACT c then [none, none] else [landed (s.crew c).landA, landed (s.crew c).landB]
  | 1 => [some (s.getI CREW_DP_OUT.U c)]
  | _ => [some (clampI (roundOpen (s.crew c).ifOut 8) (-32768) 32767)]

/-- The bits that the buffer of stream st holds: coded ones, and the samples that wait. DESIGN CHOICE: assumption log 50. -/
def Stream.held (k : Stream) (w : Nat) : Nat :=
  k.bits.length + w * (k.slots.filter (fun x => match x with | .sample .. => true | .missed .. => false)).length

/-- One more slot waits to be coded. -/
def pushSlot (v : Option Int) (at_ : Stamp) (half trig : Bool) (l : List CapSlot) : List CapSlot :=
  match v, l.getLast? with
  | some x, _ => l ++ [.sample x at_ half trig]
  | none, some (.missed n t) => l.dropLast ++ [.missed (n + 1) (t || trig)]
  | none, _ => l ++ [.missed 1 trig]

/-- One slot of stream st in the tick that ends: a sample, or missed, also while a full buffer is not yet half empty; a
missed slot is counted, with "capture gap" at most once per mark (R405). -/
def takeSlot (st : Nat) (half : Bool) (v : Option Int) (s : State) : State :=
  let k := s.stream st
  let n := k.held (srcWidth (s.get CAP_MON_SCTL.SRC st))
  let full : Bool := decide (32768 ≤ n) || (k.full && decide (16384 < n))
  let v := if full then none else v
  let k := { k with full := full, trigNext := false
                    slots := pushSlot v (s.crewStamp (s.get CAP_MON_SCTL.CREW st)) half k.trigNext k.slots }
  if v.isSome then s.setStream st k
  else
    let s' := (s.setStream st { k with gapMark := some s.markNo }).bump CAP_MON_SGAP.MISSED st
    if k.gapMark = some s.markNo then s' else s'.raise 0x0B03 0 0 st

/-- The tick that ends gives stream st its slots, once the first tick of the stream has begun (R398). -/
def tickStream (s : State) (st : Nat) : State :=
  if s.streaming st = false ∨ (s.stream st).closing ∨ s.now < (s.stream st).from_ + 3 then s
  else
    match s.tickSlots st with
    | [a, b] => takeSlot st true b (takeSlot st false a s)
    | [a] => takeSlot st false a s
    | _ => s

/-! ## Time -/

/-- From 1 µs before XCAL_REQ, 9 µs after host reset was released, every region runs at RATE 16/16, and no STRETCH request
or realignment moves a region (R447). -/
def holdXcal (s : State) : State :=
  if s.xcalDue ∧ s.now = s.hostAt + 4500 then sendRates { s with xcalHold := true, strReq := [], strTarget := [] } else s

/-- The next cycle begins: it finds the register fields as they are (R21), and so does a tick that begins with it (R83). -/
def beginCycle (tick : Bool) (s : State) : State :=
  { s with
    now := s.now + 1
    cyc := if tick then { on := s.cyc.on, fld := s.fld, tickFld := s.fld, tickPh := s.phases }
      else { s.cyc with fld := s.fld, came := [], freed := [], noticed := false, xcal := none } }

/-- A tick ends: setpoint commands complete (R137), and the streams take their slots (R397). -/
def endTick (s : State) : State := forAll (List.range 4) tickStream (forAll (s.crews.map (·.1)) settleCommand s)

/-- The commands that wait for die d leave on its link in their order (R474). -/
def sendFrames (s : State) (d : Nat) : State :=
  let l := (List.range 3).filter (fun k => (tget [] s.stgCmd d).contains k)
  { s with stgOut := tset s.stgOut d l, stgWait := tset s.stgWait d (tget [] s.stgWait d ++ l), stgCmd := tdel s.stgCmd d }

/-- The commands that wait on the stage links leave in the cycle that begins (R474, R476). -/
def sendAll (s : State) : State := (s.stgCmd.map (·.1)).foldl (fun s d => if thas s.stgCmd d then sendFrames s d else s) s

/-- A coordinator cycle passes (R9), the last of a tick or another; the next one brings its triggers (R91), and the frames
of the stage links. -/
def passCycle (s : State) : State :=
  if (s.now + 1 - s.markStart) % 4 = 0 then sendAll (cycleTriggers true (holdXcal (beginCycle true (endTick s))))
  else sendAll (cycleTriggers false (holdXcal (beginCycle false s)))

/-- An idle cycle: the sender lets a coordinator cycle pass, and so tells the commands of one from those of the next.
DESIGN CHOICE: assumption log 127. -/
def idleCycle (s : State) : State :=
  passCycle (if s.cyc.on then s else { s with cyc := { s.cyc with on := true, tickFld := s.fld, tickPh := s.phases } })

/-- n coordinator cycles pass. -/
def passCycles : Nat → State → State
  | 0, s => s
  | n + 1, s => passCycles n (passCycle s)

/-! ## Blocks (R402, R405) -/

/-- The samples at the front of the slots that wait, up to n of them, and the slots after them. -/
def frontSamples : Nat → List CapSlot → List (Int × Stamp × Bool × Bool) × List CapSlot
  | n + 1, .sample v t h g :: l => let r := frontSamples n l; ((v, t, h, g) :: r.1, r.2)
  | _, l => ([], l)

/-- The codes that CAPTURE_BLOCK writes of a run of samples: a data block, or a SHORT marker with its block; none of none. -/
def runCodes (w k : Nat) (xs : List Int) : List (List Bool) :=
  match xs, blockCodes w k xs with
  | _ :: _, c :: cs =>
    if xs.length = 64 then c :: cs else (bitsOf 4 15 ++ bitsOf 4 2 ++ bitsOf 6 xs.length ++ c) :: cs
  | _, _ => []

/-- The stamp and half of the first sample that waits, where there is one. -/
def nextStamp (l : List CapSlot) : Option (Stamp × Bool) :=
  l.findSome? (fun x => match x with | .sample _ t h _ => some (t, h) | .missed .. => none)

/-- Whether a block can be coded: 64 samples wait, or the block in progress ends with a gap that is over, or the stream
closes. -/
def blockDue (closing : Bool) (n : Nat) : List CapSlot → Bool
  | [] => closing || n == 64
  | [.missed ..] => closing || n == 64
  | _ :: _ => true

/-- A coded run joins the bits of stream st: its start, and the page of its trigger slot, where one is in it, counted from
the bit at which that slot's code begins. DESIGN CHOICE: assumption log 50. -/
def appendRun (st : Nat) (codes : List (List Bool)) (first : Option (Stamp × Bool)) (trig : Option Nat) (s : State) : State :=
  let k := s.stream st
  if codes = [] then s
  else
    let at_ := k.paged + k.bits.length
    let s := s.setStream st { k with bits := k.bits ++ codes.flatten, starts := k.starts ++ [(at_, first)] }
    match trig with
    | none => s
    | some j =>
      let seq := (at_ + sumN ((codes.take j).map (·.length))) / 8064
      (s.setStream st { s.stream st with trigSeq := some seq }).put CAP_MON_SSTAT.TRIG_PAGE st
        (seq % (s.get CAP_MON_SBUF.PAGES st + 1))

/-- CAPTURE_BLOCK (R402): 64 slots that wait are coded; or, where a gap has gone by or the stream closes, the block in
progress as SHORT, the GAP with its count (R405), and END. -/
def execCaptureBlock (st : Nat) (s : State) : Out :=
  let k := s.stream st
  let (xs, rest) := frontSamples 64 k.slots
  if ¬ s.streaming st ∨ k.ended ∨ blockDue k.closing xs.length rest = false then .next s
  else
    let loss := if s.flag CAP_MON_SCTL.CODING st then s.get CAP_MON_SCTL.K st + 1 else 0
    let codes := runCodes (srcWidth (s.get CAP_MON_SCTL.SRC st)) loss (xs.map (·.1))
    let s := appendRun st codes (xs.head?.map (fun x => (x.2.1, x.2.2.1))) (xs.findIdx? (fun x => x.2.2.2)) s
    let (gap, rest) := match rest with
      | .missed n g :: l => if xs.length = 64 then (none, rest) else (some (n, g), l)
      | l => (none, l)
    let s := match gap with
      | some (n, g) => appendRun st [gapMarker n] (nextStamp rest) (if g then some 0 else none) s
      | none => s
    let fin : Bool := k.closing && rest.isEmpty
    let s := if fin then appendRun st [endMarker] none none s else s
    .next (s.setStream st { s.stream st with slots := rest, ended := fin })

end Sys2Proof.Machine
end

