-- ==== Sys2Proof/Machine/Flags.lean ====
section
/-! DEFINITION. The predicates of Psiul contexts: the conditions of CMP and the writing of a predicate (R253). -/

namespace Sys2Proof.Machine

open Sys2Proof

/-- The condition with code `cond` on two words (R253); the reserved code 7 gives 0 (R247). -/
def cmpCond (cond a b : Nat) : Bool :=
  match cond with
  | 0 => a == b
  | 1 => a != b
  | 2 => decide (sgn 32 a < sgn 32 b)
  | 3 => decide (sgn 32 b ≤ sgn 32 a)
  | 4 => decide (a < b)
  | 5 => decide (b ≤ a)
  | 6 => decide (sgn 32 (unsg 32 ((a : Int) - b)) < 0)
  | _ => false

/-- The predicates with predicate k written. -/
def Ctx.setP (x : Ctx) (k : Nat) (b : Bool) : Ctx := { x with preds := setBit x.preds (k % 4) b }

/-- A predicate of a context. -/
def Ctx.p (x : Ctx) (k : Nat) : Bool := bitAt x.preds (k % 4)

end Sys2Proof.Machine
end

