-- ==== Sys2Proof/Machine/Memory.lean ====
section
/-! DEFINITION. The memories (chapter 14): reads and writes of bytes and words in canonical form, the region registers,
check bits, banks, and the CRC-32 of R226. -/

namespace Sys2Proof.Machine

open Sys2Proof

/-! ## Bytes and words -/

/-- The byte at address a; an address with no entry reads d. DESIGN CHOICE: assumption log 110. -/
def mget (d : Byte) : List Host.Cell → Nat → Byte
  | [], _ => d
  | (j, w) :: t, a => if j = a then w else mget d t a

/-- The memory with byte b at address a, in canonical form. -/
def mset (d : Byte) : List Host.Cell → Nat → Byte → List Host.Cell
  | [], a, b => if b = d then [] else [(a, b)]
  | (j, w) :: t, a, b =>
    if a < j then (if b = d then (j, w) :: t else (a, b) :: (j, w) :: t)
    else if a = j then (if b = d then t else (a, b) :: t)
    else (j, w) :: mset d t a b

/-- The canonical form: addresses strictly rising, no entry equal to the default. -/
abbrev Memory.wf (d : Byte) (m : List Host.Cell) : Prop :=
  m.Pairwise (fun x y => x.1 < y.1) ∧ ∀ e ∈ m, e.2 ≠ d

/-- The bytes of a list written from address a on. -/
def msetList (d : Byte) : List Host.Cell → Nat → List Byte → List Host.Cell
  | m, _, [] => m
  | m, a, b :: t => msetList d (mset d m a b) (a + 1) t

/-- The n bytes from address a on. -/
def mgetList (d : Byte) (m : List Host.Cell) (a n : Nat) : List Byte := (List.range n).map (fun k => mget d m (a + k))

/-- The memory with every byte from lo up to, not including, hi at its default. -/
def mclear (m : List Host.Cell) (lo hi : Nat) : List Host.Cell := m.filter (fun e => !decide (lo ≤ e.1 ∧ e.1 < hi))

/-- The little-endian bytes of v, n of them (R428). -/
def leBytes (n v : Nat) : List Byte := (List.range n).map (fun k => BitVec.ofNat 8 (v / 256 ^ k))

/-- The value of little-endian bytes. -/
def leVal : List Byte → Nat
  | [] => 0
  | b :: t => b.toNat + 256 * leVal t

/-- The value of n bytes at address a of the management map's memories. DESIGN CHOICE: assumption log 110. -/
def State.rd (s : State) (n a : Nat) : Nat := leVal (mgetList 0 s.mem a n)

/-- The state with n bytes of v at address a of the management map's memories. -/
def State.wr (s : State) (n a v : Nat) : State := { s with mem := msetList 0 s.mem a (leBytes n v) }

/-- The words that n bytes from a rewrite whole are good again (R418). -/
def State.renew (s : State) (a n : Nat) : State :=
  { s with eccBad := s.eccBad.filter (fun w => !decide (a ≤ w ∧ w + 8 ≤ a + n))
           flips := s.flips.filter (fun e => !decide (a ≤ e.1 ∧ e.1 + 8 ≤ a + n)) }

/-- The state with bytes at address a of the management map's memories; words they rewrite whole are good again. -/
def State.wrBytes (s : State) (a : Nat) (l : List Byte) : State :=
  { s with mem := msetList 0 s.mem a l }.renew a l.length

/-! ## Banks and check bits (R412, R418 to R421) -/

/-- Address a lies in coordinator memory, in the program store, in forecast memory. -/
def inCM (a : Nat) : Bool := decide (0x400000 ≤ a ∧ a < 0x800000)
def inPS (a : Nat) : Bool := decide (0x800000 ≤ a ∧ a < 0x880000)
def inFM (a : Nat) : Bool := decide (0x290000 ≤ a ∧ a < 0x2D0000)

/-- The bank code of an address of coordinator memory or the program store (R412, R420, R423). -/
def bankOf (a : Nat) : Option Nat :=
  if inCM a then some ((a - 0x400000) / 0x80000) else if inPS a then some (8 + (a - 0x800000) / 0x20000) else none

/-- First byte, and the byte after the last, of a bank. -/
def bankLo (k : Nat) : Nat := if k < 8 then 0x400000 + k * 0x80000 else 0x800000 + (k - 8) * 0x20000
def bankHi (k : Nat) : Nat := if k < 8 then bankLo k + 0x80000 else bankLo k + 0x20000

/-- The state of a bank: 0 online, 1 offline for a march, 2 FAILED. -/
def State.bankSt (s : State) (k : Nat) : Nat := bits (s.get ID_MEM_STAT.BANKS 0) (2 * k + 1) (2 * k)
def State.setBank (s : State) (k v : Nat) : State := s.put ID_MEM_STAT.BANKS 0 (setBits (s.get ID_MEM_STAT.BANKS 0) (2 * k) 2 v)

/-- The bank of an address is offline or FAILED (R426, R427). -/
def State.offline (s : State) (a : Nat) : Bool :=
  match bankOf a with | some k => s.bankSt k != 0 | none => false

/-- MEMORY_UNCORRECTABLE (R418): the word at w is found uncorrectable. -/
def uncorrectable (w : Nat) (s : State) : State :=
  let s := ({ s with eccBad := if s.eccBad.contains w then s.eccBad else w :: s.eccBad }.bump ID_ECC_CNT.UNCORR 0).put
    ID_ECC_ADDR.ADDR 0 w
  s.raise 0x0C02 0 0 w

/-- A single error of the word at w in bank k is corrected and counted (R418); its event is raised at most once per mark
and bank. -/
def corrected (k w : Nat) (s : State) : State :=
  let s := { s with flips := tdel s.flips w }.bump ID_ECC_CNT.CORR 0
  if thas s.corrMark k && tget 0 s.corrMark k == s.markNo then s
  else { s with corrMark := tset s.corrMark k s.markNo }.raise 0x0C01 0 0 k

/-- A read of the word at address a (R418, R426): the state after, and whether data comes back. `ecc` is an error that arises
as the word is read, beside one that it holds: 0 none, 1 correctable, 2 uncorrectable. DESIGN CHOICE: assumption log 41. -/
def readCheck (ecc a : Nat) (s : State) : State × Bool :=
  let w := a / 8 * 8
  match bankOf a with
  | none => (s, true)
  | some k =>
    if s.bankSt k ≠ 0 then (s, false)
    else if s.eccBad.contains w ∨ ecc = 2 ∨ tget 0 s.flips w = 2 then (uncorrectable w s, false)
    else if ecc = 1 ∨ tget 0 s.flips w = 1 then (corrected k w s, true)
    else (s, true)

/-- Reads of every word of n bytes from a: the state after, and whether all data comes back.
DESIGN CHOICE: assumption log 41. -/
def readChecks (a n : Nat) (s : State) : State × Bool :=
  (List.range ((a % 8 + n + 7) / 8)).foldl (fun r k => if r.2 then readCheck 0 (a / 8 * 8 + 8 * k) r.1 else r) (s, true)

/-! ## Region registers (R416, R417) -/

/-- Master m may access n bytes at a: one enabled region register covers them and grants each direction asked for. -/
def State.permitted (s : State) (m a n : Nat) (rd wr : Bool) : Bool :=
  (List.range 16).any (fun k =>
    let i := 16 * m + k
    s.flag ID_RGN.EN i && decide (s.get ID_RGN.FIRST i * 4096 ≤ a ∧ a + n ≤ (s.get ID_RGN.LAST i + 1) * 4096 ∧
      s.get ID_RGN.FIRST i ≤ s.get ID_RGN.LAST i) &&
      (!rd || s.flag ID_RGN.R i) && (!wr || s.flag ID_RGN.W i))

/-- Master m may make every access of a transfer of n bytes at a (R416): region registers cover whole pages of 4 KiB, so that
each page needs one. -/
def State.permits (s : State) (m a n : Nat) (rd wr : Bool) : Bool :=
  (List.range ((a % 4096 + n + 4095) / 4096)).all (fun k => s.permitted m ((a / 4096 + k) * 4096) 4096 rd wr)

/-! ## CRC-32 (R226, R428) -/

/-- One bit of the reflected CRC-32 with polynomial 0xEDB88320. -/
def crcBit (r : Nat) : Nat := if r % 2 = 1 then Nat.xor (r / 2) 0xEDB88320 else r / 2

/-- One byte of it. -/
def crcByte (r : Nat) (b : Byte) : Nat := crcBit (crcBit (crcBit (crcBit (crcBit (crcBit (crcBit (crcBit (Nat.xor r b.toNat))))))))

/-- The CRC-32 of bytes: initial value and final inversion all ones. -/
def crc32 (l : List Byte) : Nat := Nat.xor (l.foldl crcByte 0xFFFFFFFF) 0xFFFFFFFF

end Sys2Proof.Machine
end

