-- ==== Sys2Proof/Machine/Forecast.lean ====
section
/-! DEFINITION. Forecast windows and the start marshal (chapter 06): records, credits, summaries, heats, and stretch
accounting. -/

namespace Sys2Proof.Machine

open Sys2Proof

/-! ## Tiles and instants -/

/-- The field of tile t, its port, its region (R176). -/
def tileField (t : Nat) : Nat := t / 1152
def tilePort (t : Nat) : Nat := 16 * (t / 1152) + t % 1152 / 72
def tileRegion (t : Nat) : Nat := 3 * (t / 1152) + (if t % 1152 < 576 then 0 else 1)

/-- The stamp n ticks after a stamp; marks beyond the known ones have the mark period in force (R183, R384). -/
def State.addTicks (s : State) (st : Stamp) (n : Nat) : Stamp :=
  let a := s.norm ⟨st.mark, st.tick + n⟩
  let per := max 1 (s.get TB_CTL.PERIOD 0)
  if a.tick < s.lenOf a.mark then a else ⟨(a.mark + a.tick / per) % 2 ^ 32, a.tick % per⟩

/-- Region cycles as ticks at a period in ps and a RATE numerator (R183). -/
def cyclesToTicks (n period rate : Nat) : Nat := ceilDiv (n * period * 16) (max 1 rate * 8000)

/-! ## Records (R180 to R184) -/

def FRec.word (r : FRec) (k : Nat) : Nat := if 4 * (k + 1) ≤ r.width then r.words.getD k 0 % 2 ^ 32 else 0
def FRec.kind (r : FRec) : Nat := bits (r.word 0) 31 28
def FRec.span (r : FRec) : Nat := bits (r.word 0) 27 22
def FRec.seq (r : FRec) : Nat := bits (r.word 0) 21 14
/-- The field TILE of a record. -/
def FRec.first (r : FRec) : Nat := bits (r.word 0) 13 0

/-- A record is malformed (R181). -/
def FRec.malformed (r : FRec) : Bool :=
  decide ((r.kind ≠ 1 ∧ r.kind ≠ 2) ∨ 9216 ≤ r.first ∨ tileField r.first ≠ r.port / 16 ∨
    r.first / 64 ≠ (r.first + r.span) / 64)

/-! ## Credits (R178, R190) -/

/-- Credits of port p out for window w. -/
def State.outOf (s : State) (p w : Nat) : Nat := tget 0 s.fcOut (64 * p + w)

/-- Port p has a credit for window w. -/
def State.hasCredit (s : State) (p w : Nat) : Bool := decide (s.outOf p w < s.get FCW_CFG.CREDITS w + 1)

/-- Record a goes before record b at a port: accepted earlier, or presented earlier, or of two presented in one cycle the
one of the lower tile (R177). -/
def FRec.sooner (a b : FRec) : Bool :=
  decide (a.cyc < b.cyc ∨ (a.cyc = b.cyc ∧ (a.shown < b.shown ∨ (a.shown = b.shown ∧ a.tile < b.tile))))

/-- A record as its port accepts it now (R178, R183). -/
def State.arrive (s : State) (r : FRec) (credit : Bool) : FRec :=
  let g := tileRegion r.first
  { r with arr := s.stampNow, rate := s.get MSH_REG_CFG.RATE g, period := s.get MSH_REG_CFG.PERIOD g, credit := credit, cyc := s.now }

/-- A record joins the queue of its port. -/
def fcEnqueue (r : FRec) (s : State) : State :=
  { s with fcPort := tset s.fcPort r.port (insBy FRec.sooner r (tget [] s.fcPort r.port)) }

/-- A port accepts a write (R178): the record is stamped with its arrival and goes to the port's queue. -/
def fcAccept (r : FRec) (s : State) : State :=
  let credit : Bool := s.get FCW_STAT.STATE r.win != 0
  let s := fcEnqueue (s.arrive r credit) s
  if credit then
    { s with fcOut := tset s.fcOut (64 * r.port + r.win) (s.outOf r.port r.win + 1) }.bump FCW_STAT.OUT r.win
  else s

/-- A write may be accepted now (R178). -/
def State.fcReady (s : State) (r : FRec) : Bool := s.get FCW_STAT.STATE r.win == 0 || s.hasCredit r.port r.win

/-- A port holds a write, in the order of presentation (R177, R178). -/
def fcHold (r : FRec) (s : State) : State := { s with fcHeld := insBy FRec.sooner { r with cyc := 0 } s.fcHeld }

/-- One held write of a pass over them: it is accepted, or stays. -/
def fcHeldOne (s : State) (r : FRec) : State := if s.fcReady r then fcAccept r s else fcHold r s

/-- The write of a higher tile that took the credit record r wants in the cycle in which both are presented (R177): of
several, that of the highest tile. -/
def State.fcLoser (s : State) (r : FRec) : Option FRec :=
  ((tget [] s.fcPort r.port).filter (fun e => e.win == r.win && e.credit && e.cyc == s.now && e.shown == s.now &&
    decide (r.tile < e.tile))).getLast?

/-- Record r takes the place and the credit of record e, which its port holds instead. -/
def fcDisplace (r e : FRec) (s : State) : State :=
  fcHold e (fcEnqueue (s.arrive r true) { s with fcPort := tset s.fcPort r.port ((tget [] s.fcPort r.port).erase e) })

/-- Every held write that may now be accepted is accepted, in the order presented.
DESIGN CHOICE: assumption log 106. -/
def fcRelease (s : State) : State := s.fcHeld.foldl fcHeldOne { s with fcHeld := [] }

/-- FORECAST_WRITE (R177, R178, R182): a tile's record of `width` bytes for window w is accepted at its port, or held. -/
def execForecastWrite (tile w : Nat) (words : List Nat) (width : Nat) (s : State) : Out :=
  if 9216 ≤ tile ∨ 64 ≤ w ∨ width ∉ [8, 16, 32, 48, 64] ∨ s.fcHeld.any (fun r => r.tile == tile) then .next s
  else
    let r : FRec := ⟨tilePort tile, tile, w, words.take 12, width, ⟨0, 0⟩, 0, 0, false, s.now, 0⟩
    if s.fcReady r then .next (fcAccept r s)
    else match s.fcLoser r with
      | some e => .next (fcDisplace r e s)
      | none => .next (fcHold r s)

/-- CREDIT_RETURN (R190): a credit or a status reaches its port, which hands the status to the tile; held writes for
which a credit is now there are accepted. -/
def execCreditReturn (s : State) : Out :=
  match s.fcRet with
  | [] => .next s
  | r :: rest =>
    let s := { s with fcRet := rest, fcReply := some r }
    let s := if r.credit then
        { s with fcOut := tset s.fcOut (64 * r.port + r.win) (s.outOf r.port r.win - 1) }.put FCW_STAT.OUT r.win
          (s.get FCW_STAT.OUT r.win - 1)
      else s
    .next (fcRelease s)

/-! ## The intake (R179, R189, R192, R194) -/

/-- The return of record r with a status. -/
def FRec.back (r : FRec) (status : Nat) : FRet := ⟨r.port, r.tile, r.win, status, r.credit⟩

/-- The discards of the mark with one more. -/
def addDisc (d : FDisc) : List FDisc → List FDisc
  | [] => [d]
  | e :: t => if e.win = d.win ∧ e.status = d.status then { e with count := e.count + 1 } :: t else e :: addDisc d t

/-- FORECAST_DISCARD (R189). -/
def fcDiscard (r : FRec) (status : Nat) (s : State) : State :=
  { s.bump FCW_STAT.DISCARDS r.win with
    fcRet := s.fcRet ++ [r.back status]
    fcDisc := addDisc ⟨r.win, status, s.stampNow, r.port, r.first, r.seq, 1⟩ s.fcDisc }

/-- A stamp is kept as the earlier, or the later, of itself and the one held. -/
def State.keepEarly (s : State) (w : Nat) (valid : Bool) (st : Stamp) : State :=
  if valid && !s.before st ⟨s.get FCW_EARLY.MARK w, s.get FCW_TICKS.EARLY w⟩ then s
  else (s.put FCW_EARLY.MARK w st.mark).put FCW_TICKS.EARLY w st.tick
def State.keepLate (s : State) (w : Nat) (valid : Bool) (st : Stamp) : State :=
  if valid && !s.before ⟨s.get FCW_LATE.MARK w, s.get FCW_TICKS.LATE w⟩ st then s
  else (s.put FCW_LATE.MARK w st.mark).put FCW_TICKS.LATE w st.tick
def State.keepEnd (s : State) (w : Nat) (st : Stamp) : State :=
  if s.fcEnd.contains w && !s.before ⟨s.get FCW_END.MARK w, s.get FCW_TICKS.END w⟩ st then s
  else { (s.put FCW_END.MARK w st.mark).put FCW_TICKS.END w st.tick with
         fcEnd := if s.fcEnd.contains w then s.fcEnd else w :: s.fcEnd }

/-- A step of a record is added to one entry of a window's sums (R194). -/
def addSum (w e : Nat) (x : Int) (s : State) : State :=
  s.putI FCW_SUM.SUM (16 * w + e) (sat32 (s.getI FCW_SUM.SUM (16 * w + e) + x))

/-- SUMMARY (R194): a STEP record updates the sums and stamps of its window. -/
def fcSummary (r : FRec) (inst : Stamp) (s : State) : State :=
  if r.kind ≠ 1 then s
  else
    let w := r.win
    let f := r.first / 1152
    let n : Int := ((r.span + 1 : Nat) : Int)
    let s := addSum w (2 * f) (sgn 16 (bits (r.word 3) 15 0) * n) s
    let s := addSum w (2 * f + 1) (sgn 16 (bits (r.word 3) 31 16) * n) s
    let v := s.flag FCW_STAT.STAMPS_VALID w
    let s := ((s.keepEarly w v inst).keepLate w v inst).put FCW_STAT.STAMPS_VALID w 1
    if r.word 2 = 0 then s.put FCW_STAT.END_OPEN w 1
    else s.keepEnd w (s.addTicks inst (cyclesToTicks (r.word 2) r.period r.rate))

/-- Ring slots of window w (R192). -/
def State.ringSize (s : State) (w : Nat) : Nat := 128 * (s.get FCW_CFG.CREDITS w + 1)

/-- The sixteen words of a record in its ring slot (R180). -/
def FRec.stored (r : FRec) (status : Nat) (inst : Stamp) : List Nat :=
  (List.range 12).map r.word ++
    [r.arr.mark, r.arr.tick % 256 * 2 ^ 24 + r.port * 2 ^ 16 + status * 2 ^ 8 + r.width, inst.mark, inst.tick % 256 * 2 ^ 24]

/-- An accepted record is absorbed, or written to its ring slot (R190, R192). DESIGN CHOICE: assumption log 106. -/
def fcKeep (r : FRec) (status : Nat) (inst : Stamp) (s : State) : State :=
  if s.get FCW_CFG.KEEP r.win = 0 then { s with fcRet := s.fcRet ++ [r.back status] }
  else
    let w := r.win
    let wr := s.get FCW_PTR.WR w
    let a := 0x290000 + 64 * ((s.get FCW_RING.BASE w + wr) % 4096)
    let s := s.wrBytes a ((r.stored status inst).flatMap (leBytes 4))
    { s.put FCW_PTR.WR w ((wr + 1) % s.ringSize w) with
      fcUnread := tset s.fcUnread w (tget [] s.fcUnread w ++ [r.back status]) }

/-- The intake takes a record (R179, R184, R189, R193, R194). -/
def fcTake (r : FRec) (s : State) : State :=
  let st := s.get FCW_STAT.STATE r.win
  if st = 0 then fcDiscard r 3 s
  else if st = 1 then fcDiscard r 2 s
  else if r.malformed then fcDiscard r 4 s
  else
    let lead := cyclesToTicks (r.word 1) r.period r.rate
    let inst := s.addTicks r.arr lead
    let short : Bool := decide (lead < s.get FCW_CFG.MIN_LEAD r.win)
    let s := if short then s.bump FCW_STAT.SHORTS r.win else s
    let s := fcKeep r short.toNat inst (fcSummary r inst s)
    { s with fcArr := s.fcArr ++ [r.win] }

/-- Port p offers a record to the intake: one that it accepted in an earlier cycle (R177). -/
def State.fcOffers (s : State) (p : Nat) : Bool := ((tget [] s.fcPort p).head?.map (fun r => s.earlier r.cyc)).getD false

/-- The local port that field f serves next: the first that offers a record, after the one served last (R179). -/
def State.fcNext (s : State) (f : Nat) : Option Nat :=
  ((List.range 16).map (fun k => (tget 15 s.fcLast f + 1 + k) % 16)).find? (fun k => s.fcOffers (16 * f + k))

/-- INTAKE (R179): field f takes one record. -/
def execIntake (f : Nat) (s : State) : Out :=
  match s.fcNext f with
  | none => .next s
  | some k =>
    match tget [] s.fcPort (16 * f + k) with
    | [] => .next s
    | r :: rest => .next (fcTake r { s with fcPort := tset s.fcPort (16 * f + k) rest, fcLast := tset s.fcLast f k })

/-- ARRIVAL (R193): the counter of the window whose record was taken longest ago increments. -/
def execArrival (s : State) : Out :=
  match s.fcArr with
  | [] => .next s
  | w :: rest => .next ({ s with fcArr := rest }.wrap FCW_ARRIVALS.ARRIVALS w)

/-- The discards of a mark are recorded as it ends (R189). -/
def fcMark (s : State) : State :=
  s.fcDisc.foldl (fun s d =>
    s.raiseEv ⟨if d.status = 3 then 0x0602 else if d.status = 2 then 0x0601 else 0x0603, 5, d.win, d.stamp,
      d.port + 2 ^ 16 * d.tile, d.seq + 2 ^ 16 * min d.count 255, 0, false⟩) { s with fcDisc := [] }

/-! ## Windows (R185 to R192, R222) -/

/-- A loaded lane program names window w (R222). -/
def State.winNamed (s : State) (w : Nat) : Bool :=
  (List.range 8).any (fun n => s.get LANE_STAT.STATE n != 0 && (tget {} s.lanes n).windows.contains w)

/-- A ring from `base` of `n` slots is wrong for window w: past the memory, or over another KEEP ring (R185). -/
def State.ringBad (s : State) (w base n : Nat) : Bool :=
  decide (4096 < base + n) || (List.range 64).any (fun v => v != w && s.flag FCW_CFG.EN v && s.flag FCW_CFG.KEEP v &&
    decide (base < s.get FCW_RING.BASE v + s.ringSize v ∧ s.get FCW_RING.BASE v < base + n))

/-- A write to FCW_CFG is refused (R185, R191, R222). -/
def State.cfgRefused (s : State) (w v : Nat) : Bool :=
  let en := bits v 31 31
  let keep := bits v 30 30
  let cr := bits v 26 24
  s.get FCW_STAT.STATE w == 2 ||
    (keep == 1 && s.ringBad w (s.get FCW_RING.BASE w) (128 * (cr + 1))) ||
    ((keep != s.get FCW_CFG.KEEP w || cr != s.get FCW_CFG.CREDITS w) && s.get FCW_STAT.OUT w != 0) ||
    (s.winNamed w && (en != s.get FCW_CFG.EN w || bits v 2 0 != s.get FCW_CFG.OWNER w || bits v 8 8 != s.get FCW_CFG.SUPER w))

/-- A write of v to FCW_CFG of window w (R185): the pointers start at 0 in a new mode and in a ring of a new size, which no
slot is kept in (R191, R192). DESIGN CHOICE: assumption log 106. -/
def fcwCfg (w v : Nat) (s : State) : State :=
  if s.cfgRefused w v then s.setOver FCW_STAT.CFG_ERR w
  else
    let en := bits v 31 31
    let st := if en = 0 then 0 else if s.get FCW_CFG.EN w = 0 then 1 else s.get FCW_STAT.STATE w
    let s := if bits v 30 30 = s.get FCW_CFG.KEEP w ∧ bits v 26 24 = s.get FCW_CFG.CREDITS w then s
      else (s.put FCW_PTR.WR w 0).put FCW_PTR.RD w 0
    let s := ((s.put FCW_CFG.EN w en).put FCW_CFG.KEEP w (bits v 30 30)).put FCW_CFG.CREDITS w (bits v 26 24)
    let s := ((s.put FCW_CFG.MIN_LEAD w (bits v 23 16)).put FCW_CFG.SUPER w (bits v 8 8)).put FCW_CFG.OWNER w (bits v 2 0)
    fcRelease (s.put FCW_STAT.STATE w st)

/-- A write to FCW_RING of window w (R185). -/
def fcwRing (w base : Nat) (s : State) : State :=
  if s.get FCW_STAT.STATE w = 2 ∨ (s.flag FCW_CFG.KEEP w ∧ s.ringBad w base (s.ringSize w)) then s.setOver FCW_STAT.CFG_ERR w
  else s.put FCW_RING.BASE w base

/-- A write of RD to FCW_PTR of window w (R192): the slots up to it are released, and their credits return. -/
def ringRelease (w rd : Nat) (s : State) : State :=
  let n := s.ringSize w
  let un := tget [] s.fcUnread w
  let d := (rd + n - s.get FCW_PTR.RD w) % n
  if ¬ s.flag FCW_CFG.KEEP w ∨ n ≤ rd ∨ un.length < d then s
  else { s.put FCW_PTR.RD w rd with fcRet := s.fcRet ++ un.take d, fcUnread := tset s.fcUnread w (un.drop d) }

/-- WOPEN of window w (R187). -/
def windowOpen (w : Nat) (s : State) : State :=
  if s.get FCW_STAT.STATE w = 0 then s
  else
    let s := ((s.put FCW_STAT.STATE w 2).put FCW_ARRIVALS.ARRIVALS w 0).put FCW_STAT.STAMPS_VALID w 0
    let s := ((s.put FCW_STAT.END_OPEN w 0).put FCW_EARLY.MARK w 0).put FCW_LATE.MARK w 0
    let s := (((s.put FCW_END.MARK w 0).put FCW_TICKS.EARLY w 0).put FCW_TICKS.LATE w 0).put FCW_TICKS.END w 0
    let s := forAll (List.range 16) (fun s e => s.put FCW_SUM.SUM (16 * w + e) 0) s
    let back := (tget [] s.fcUnread w).map (fun r => { r with status := 0 })
    { s.put FCW_PTR.RD w (s.get FCW_PTR.WR w) with
      fcArr := s.fcArr.filter (fun v => v != w)
      fcEnd := s.fcEnd.filter (fun v => v != w)
      fcRet := s.fcRet ++ back
      fcUnread := tset s.fcUnread w [] }

/-- WCLOSE of window w (R188). -/
def windowClose (w : Nat) (s : State) : State :=
  if s.get FCW_STAT.STATE w = 0 then s else s.put FCW_STAT.STATE w 1

/-- A stamp of window w (R194): 0 EARLY, 1 LATE, 2 END, none where it is absent (R242). -/
def State.winStamp (s : State) (w which : Nat) : Option Stamp :=
  if ¬ s.flag FCW_STAT.STAMPS_VALID w then none
  else if which = 0 then some ⟨s.get FCW_EARLY.MARK w, s.get FCW_TICKS.EARLY w⟩
  else if which = 1 then some ⟨s.get FCW_LATE.MARK w, s.get FCW_TICKS.LATE w⟩
  else if which = 2 ∧ s.fcEnd.contains w then some ⟨s.get FCW_END.MARK w, s.get FCW_TICKS.END w⟩
  else none

/-! ## The start marshal (R196 to R202) -/

/-- No start marshal opens a heat: a stop, the safe state, or an orderly shutdown (R333, R371, R454). -/
def State.heatsHeld (s : State) : Bool := s.stop != .none || s.stopIssued || s.flag FLT_STAT.SAFE 0 || s.orderly

/-- "Start held" for every field, as their planes leave or reach ON. -/
def startHeldAll (s : State) : State := forAll (List.range 8) (fun s f => startHeld f s) s

/-- Request a goes before request b of its port: presented earlier, or of two presented in one cycle the one of the lower
tile (R177). -/
def MReq.sooner (a b : MReq) : Bool := decide (a.shown < b.shown ∨ (a.shown = b.shown ∧ a.tile < b.tile))

/-- Request a goes before request b in the marshal queue (R196): it arrives earlier, or in the same cycle at a lower port,
or before it at the same port. -/
def MReq.ahead (a b : MReq) : Bool :=
  decide (a.at_ < b.at_ ∨ (a.at_ = b.at_ ∧ (tilePort a.tile < tilePort b.tile ∨
    (tilePort a.tile = tilePort b.tile ∧ a.sooner b))))

/-- The queue with a request presented at cycle `now` (R177): its port forwards four in a cycle, in order, so that those
which it has not forwarded before this cycle find their cycles anew. -/
def joinQueue (now : Nat) (r : MReq) (q : List MReq) : List MReq :=
  let here : MReq → Bool := fun e => decide (now ≤ e.at_ ∧ tilePort e.tile = tilePort r.tile)
  let mine := (q.filter here).foldr (insBy MReq.sooner) [r]
  (mine.zipIdx.map (fun e => { e.1 with at_ := now + e.2 / 4 })).foldl (fun l e => insBy MReq.ahead e l)
    (q.filter (fun e => !here e))

/-- The requests that have arrived at the marshal by cycle `now`, and those still at their ports. -/
def Marshal.arrived (m : Marshal) (now : Nat) : List MReq := m.queue.filter (fun e => decide (e.at_ ≤ now))
def Marshal.coming (m : Marshal) (now : Nat) : List MReq := m.queue.filter (fun e => decide (now < e.at_))

/-- No sequence of field f runs, and none is due: in AUTO mode a HEAT opens none, so that a due stamp left from GATED mode
bars nothing (R200, R271). -/
def State.seqIdle (s : State) (f : Nat) : Bool :=
  match (s.mar f).seq with
  | .none => true
  | .running _ => false
  | .due _ => s.get MSH_CTL.MODE f == 0

/-- START_REQUEST (R177, R196, R200, R202): a request of step class `cls` joins the queue of the tile's field, or is
refused with DUP. -/
def execStartRequest (tile cls : Nat) (s : State) : Out :=
  let f := tileField tile
  let m := s.mar f
  if 9216 ≤ tile then .next s
  else if m.queue.any (fun e => e.tile == tile) then .next ((s.setMar f { m with dup := some tile }).bump MSH_REQ_CNT.DUPS f)
  else
    let seq := if s.get MSH_CTL.MODE f = 0 ∧ s.seqIdle f ∧ s.vlgOn f ∧ ¬ s.heatsHeld then HeatSeq.running false else m.seq
    .next (startHeld f (s.setMar f { m with queue := joinQueue s.now ⟨tile, cls % 8, s.now, s.now⟩ m.queue, seq := seq }))

/-- The effective budget of field f in A (R197). -/
def State.heatBudget (s : State) (f : Nat) : Nat := min (s.get MSH_CTL.BUDGET f) (s.get CAP_HEAT.BUDGET f)

/-- How many requests of a queue a heat takes, from the sum of steps already taken: while it is below the limit (steps
in 0.2 A, limit in 0.1 A). -/
def heatTake (lim : Nat) : List MReq → Nat → Nat
  | [], _ => 0
  | r :: t, acc => if 2 * acc < lim then 1 + heatTake lim t (acc + r.cls) else 0

/-- A heat of field f opens, or its sequence ends with an empty queue (R197, R199). -/
def heat (f : Nat) (half : Bool) (s : State) : State :=
  let m := s.mar f
  let q := m.arrived s.now
  if q = [] then s.setMar f { m with seq := .none }
  else
    let n := heatTake ((if half then 5 else 10) * s.heatBudget f) q 0
    if n = 0 then s
    else (s.setMar f { m with queue := q.drop n ++ m.coming s.now, seq := .running half, lastHeat := some s.now,
                              grants := m.grants ++ [(q.take n).map (·.tile)] }).bump MSH_HEAT_CNT.HEATS f

/-- HEAT_OPEN (R197, R198, R200): the next heat of field f is due: of its running sequence, of an AUTO sequence that a
queued request starts, or of a GATED sequence whose tick has come. -/
def execHeatOpen (f : Nat) (s : State) : Out :=
  if s.heatsHeld ∨ ¬ s.vlgOn f then .next (startHeld f s)
  else
    let s := startHeld f s
    match (s.mar f).seq with
    | .running half => .next (heat f half s)
    | .due st => .next (if s.reached st ∨ (s.get MSH_CTL.MODE f = 0 ∧ (s.mar f).arrived s.now ≠ []) then heat f false s else s)
    | .none => .next (if s.get MSH_CTL.MODE f = 0 ∧ (s.mar f).arrived s.now ≠ [] then heat f false s else s)

/-- HEAT_GRANT (R199): the grants of field f's oldest heat on its way reach their tiles. -/
def execHeatGrant (f : Nat) (s : State) : Out :=
  let m := s.mar f
  match m.grants with
  | [] => .next s
  | g :: rest => .next (s.setMar f { m with grants := rest, granted := g })

/-- START_STALLED (R201): in GATED mode a request has waited STALL_TO, and no sequence is running or due. -/
def execStartStalled (f : Nat) (s : State) : Out :=
  let m := s.mar f
  if s.get MSH_CTL.MODE f = 0 ∨ m.arrived s.now = [] ∨ m.seq ≠ .none ∨ ¬ s.vlgOn f ∨ s.heatsHeld then .next s
  else .next (((s.setMar f { m with seq := .running true }).bump MSH_REQ_CNT.STALLS f).raise 0x0606 1 (0x6E0 + f))

/-- HEAT of field f for a stamp (R200, R271); it replaces a stamp that is still due. DESIGN CHOICE: assumption log 140. -/
def openGated (f : Nat) (st : Stamp) (s : State) : State :=
  let m := s.mar f
  match m.seq with
  | .running _ => s
  | _ => if s.get MSH_CTL.MODE f = 0 then s else s.setMar f { m with seq := .due st }

/-- MSH_STAT.SEQ of field f. -/
def State.mshSeq (s : State) (f : Nat) : Nat :=
  let m := s.mar f
  if ¬ s.vlgOn f ∧ (m.queue ≠ [] ∨ m.seq ≠ .none) then 2
  else match m.seq with
    | .none => 0
    | .running _ => 1
    | .due _ => 3

/-! ## Stretches (R195, R203 to R206) -/

/-- Regions a and b share a crossing (R205). -/
def State.crossing (s : State) (a b : Nat) : Bool :=
  a != b && (bitAt (s.get MSH_XMAP.MAP a) b || bitAt (s.get MSH_XMAP.MAP b) a)

/-- count(a) − count(b), read as s32. -/
def State.strDiff (s : State) (a b : Nat) : Int :=
  sgn 32 (unsg 32 ((s.get MSH_STR_CNT.STRETCHES a : Int) - s.get MSH_STR_CNT.STRETCHES b))

/-- A held stamp of crew c after a stretch of `ps` of its region (R195), and whether "hold limit" is recorded for it: a
stretch that would lead past 256 ns does not postpone it at all. DESIGN CHOICE: assumption log 139. -/
def State.postpone (s : State) (c ps : Nat) (h : Held) : Held × Bool :=
  if ¬ h.bound ∨ s.now < h.from_ ∨ s.crewReached c h.instant then (h, false)
  else if h.post + ps ≤ 256000 then ({ h with post := h.post + ps }, false)
  else ({ h with limited := true }, !h.limited)

/-- The forecast-bound stamps of crew c are postponed by `ps`, those of held operations too (R388). -/
def postponeCrew (ps : Nat) (s : State) (c : Nat) : State :=
  let k := s.crew c
  let o := k.heldOps.map (fun o => (s.postpone c ps o.held, o.op))
  let a := k.arm.map (s.postpone c ps)
  let e := k.cover.bind (fun v => v.endSt.map (s.postpone c ps))
  let k := { k with arm := a.map (·.1)
                    heldOps := o.map (fun x => ⟨x.2, x.1.1⟩)
                    cover := k.cover.map (fun v => { v with endSt := v.endSt.bind (fun _ => e.map (·.1)) }) }
  let s := s.setCrew c k
  let s := o.foldl (fun s x => if x.1.2 then s.raiseCrew 0x0604 c else s) s
  let s := if (a.map (·.2)).getD false then s.raiseCrew 0x0604 c else s
  if (e.map (·.2)).getD false then s.raiseCrew 0x0604 c else s

/-- CROSSING_SLIP (R206): a pair of region r differs by 7. DESIGN CHOICE: assumption log 107. -/
def slips (r : Nat) (s : State) : State :=
  forAll (List.range 24) (fun s b =>
    if s.crossing r b ∧ (s.strDiff r b).natAbs = 7 then s.raise 0x0607 3 (min r b) (max r b) else s) s

/-- A realignment stretch of region r is due (R205). -/
def State.aligning (s : State) (r : Nat) : Bool :=
  match s.strTarget.find? (fun e => e.1 == r) with
  | some e => decide (0 < sgn 32 (unsg 32 (e.2 - (s.get MSH_STR_CNT.STRETCHES r : Int))))
  | none => false

/-- Half the period of region r at its present RATE, in ps (R195). -/
def State.halfPeriod (s : State) (r : Nat) : Nat :=
  (roundOpen ((8 * s.get MSH_REG_CFG.PERIOD r : Nat) : Int) (max 1 (s.get MSH_REG_CFG.RATE r))).toNat

/-- STRETCH (R204): region r stretches its next period, after a request or to realign; one that does both counts as a
droop stretch. DESIGN CHOICE: assumption log 139. -/
def execStretch (r : Nat) (s : State) : Out :=
  let req := s.strReq.contains r
  if decide (24 ≤ r) || (!req && !s.aligning r) || s.xcalHold then .next s
  else
    let t := s.wrap MSH_STR_CNT.STRETCHES r
    let t := if req then { t with strReq := t.strReq.filter (fun b => b != r), strDroops := tset t.strDroops r (tget 0 t.strDroops r + 1) }
      else { t with strAligns := tset t.strAligns r (tget 0 t.strAligns r + 1) }
    .next (slips r (forAll (regionCrews r) (postponeCrew (s.halfPeriod r)) t))

/-- The largest lead of a neighbour over region r that reaches ALIGN_TH (R205). -/
def State.alignLead (s : State) (r : Nat) : Option Int :=
  maxI (((List.range 24).filter (fun a => s.crossing a r && decide ((s.get MSH_ALIGN_CTL.ALIGN_TH 0 : Int) ≤ s.strDiff a r))).map
    (fun a => s.strDiff a r))

/-- REALIGNMENT (R205): a pair difference has reached ALIGN_TH with region r ahead: its target is raised. -/
def execRealignment (r : Nat) (s : State) : Out :=
  match s.alignLead r with
  | none => .next s
  | some d =>
    let n : Int := s.get MSH_STR_CNT.STRETCHES r
    if decide (24 ≤ r) || !s.flag MSH_ALIGN_CTL.ALIGN_EN 0 || s.xcalHold then .next s
    else
      let old : Int := match s.strTarget.find? (fun e => e.1 == r) with
        | some e => sgn 32 (unsg 32 (e.2 - n))
        | none => 0
      .next { s with strTarget := tset s.strTarget r (unsg 32 (n + max d old)) }

end Sys2Proof.Machine
end

