-- ==== Sys2Proof/Machine/Estimator.lean ====
section
/-! DEFINITION. The estimator array (chapter 09): model containers and their check, the evaluation of the active model,
and the calibration of its estimates. -/

namespace Sys2Proof.Machine

open Sys2Proof

/-! ## Containers (R300, R302, R303) -/

/-- n bytes at offset a of a container, little-endian. -/
def cval (b : List Byte) (a n : Nat) : Nat := leVal ((b.drop a).take n)

/-- The shape of a container's header (R302). -/
structure Shape where
  classes : Nat
  outputs : Nat
  hidden : Nat
  layers : Nat
  map : Bool
  int8 : Bool

def shapeOf (b : List Byte) : Shape :=
  let w := cval b 8 4
  let x := cval b 12 4
  ⟨bits w 31 24, bits w 23 16, bits w 15 8, bits w 7 0, bitAt x 1, bitAt x 0⟩

/-- Bytes of a weight. -/
def Shape.ws (h : Shape) : Nat := if h.int8 then 1 else 2

/-- Bytes of a class block, before and after its padding (R302). -/
def Shape.raw (h : Shape) : Nat :=
  if h.layers = 2 then 8 * h.hidden * h.ws + 4 * h.hidden + h.outputs * h.hidden * h.ws + 4 * h.outputs
  else 8 * h.outputs * h.ws + 4 * h.outputs
def Shape.block (h : Shape) : Nat := (h.raw + 7) / 8 * 8

/-- BODY_LEN that a shape implies. -/
def Shape.body (h : Shape) : Nat := h.classes * h.block + (if h.map then 4608 else 0)

/-- The class of tile t, 15 where it is excluded (R302). -/
def tileClass (b : List Byte) (t : Nat) : Nat :=
  let h := shapeOf b
  if h.map then
    let v := ((b.drop (32 + h.classes * h.block)).getD (t / 2) 0).toNat
    if t % 2 = 0 then v % 16 else v / 16
  else 0

/-- The MAC count of a container (R300). -/
def macsOf (b : List Byte) : Nat :=
  let h := shapeOf b
  let nt := ((List.range 9216).filter (fun t => tileClass b t != 15)).length
  let m := if h.layers = 2 then 8 * h.hidden + h.outputs * h.hidden else 8 * h.outputs
  if h.int8 then ceilDiv (nt * m) 2 else nt * m

/-- The update period of a MAC count in µs (R300). -/
def periodOf (macs : Nat) : Nat := max 1 (ceilDiv macs 120000)

/-- The checks of R303 from BAD_HEADER on; `len` is MODEL_LEN of a lane image. -/
def modelCode (b : List Byte) (len : Option Nat) : Nat :=
  let h := shapeOf b
  let pad : Bool := (List.range h.classes).any (fun k =>
    ((b.drop (32 + k * h.block + h.raw)).take (h.block - h.raw)).any (fun x => x != 0))
  if cval b 0 4 ≠ 0x4553544D ∨ cval b 4 4 ≠ 0x00200001 ∨ 4 ≤ cval b 12 4 ∨ bits (cval b 20 4) 31 13 ≠ 0 ∨
      bits (cval b 20 4) 7 5 ≠ 0 then 2
  else if (h.layers ≠ 1 ∧ h.layers ≠ 2) ∨ (h.layers = 2 ∧ (h.hidden = 0 ∨ 16 < h.hidden)) ∨ (h.layers = 1 ∧ h.hidden ≠ 0) ∨
      h.outputs = 0 ∨ 2 < h.outputs ∨ h.classes = 0 ∨ 8 < h.classes then 3
  else if cval b 28 4 ≠ h.body ∨ b.length ≠ 32 + h.body ∨ len.getD (32 + h.body) ≠ 32 + h.body ∨ pad = true then 4
  else if h.map = true ∧ ((List.range 9216).any (fun t => decide (h.classes ≤ tileClass b t) && tileClass b t != 15) ∨
      (List.range 9216).all (fun t => tileClass b t == 15)) then 5
  else if cval b 24 4 ≠ macsOf b then 6
  else if 16 < periodOf (macsOf b) then 7
  else 0

/-! ## Models held (R304) -/

/-- EST_MODELS shows the models held. -/
def showModels (s : State) : State :=
  (s.mark EST_MODELS.FW 0 (thas s.models 8)).put EST_MODELS.LANES 0 (maskOf ((List.range 8).filter (fun n => thas s.models n)))

/-- An accepted container becomes the model of slot k; one that replaces the active model counts as a change.
DESIGN CHOICE: assumption log 37. -/
def installModel (k : Nat) (b : List Byte) (s : State) : State :=
  showModels { s with models := tset s.models k b, estNew := s.estNew || s.estActive == k + 1 }

/-- The model of slot k is dropped; SRC becomes 0 where it names it (R304). -/
def dropModel (k : Nat) (s : State) : State :=
  let s := showModels { s with models := tdel s.models k }
  if s.get EST_CTL.SRC 0 = k + 1 then s.put EST_CTL.SRC 0 0 else s

/-- A write of SRC (R304): an absent model gives 0, codes 10 to 15 are ignored. -/
def setSrc (v : Nat) (s : State) : State :=
  if 10 ≤ v then s
  else s.put EST_CTL.SRC 0 (if v = 0 ∨ thas s.models (v - 1) = true then v else 0)

/-- A firmware container is to be checked (R304). -/
def fwLoadModel (s : State) : State := { s with estCheck := some (s.get EST_FW_ADDR.ADDR 0) }

/-- The firmware container at address a: its bytes, or the code BAD_SOURCE (R303, R418).
DESIGN CHOICE: assumption log 37. -/
def readContainer (a : Nat) (s : State) : State × Option (List Byte) :=
  let ok (n : Nat) : Bool := decide (a % 8 = 0 ∧ 0x400000 ≤ a ∧ a + n ≤ 0x800000) && s.permits 5 a n true false
  let n := 32 + s.rd 4 (a + 28)
  if ok 32 = false ∨ ok n = false then (s, none)
  else
    let r := readChecks a n s
    (r.1, if r.2 then some (mgetList 0 s.mem a n) else none)

/-- MODEL_CHECK_COMPLETE (R303, R304): the check of the firmware container ends. -/
def execModelCheckComplete (s : State) : Out :=
  match s.estCheck with
  | none => .next s
  | some a =>
    match readContainer a { s with estCheck := none } with
    | (s, none) => .next (s.put EST_STAT.LOAD_REASON 0 1)
    | (s, some b) =>
      let c := modelCode b none
      let s := s.put EST_STAT.LOAD_REASON 0 c
      .next (if c = 0 then installModel 8 b s else s)

/-! ## Evaluation (R297 to R301) -/

/-- Saturation to 48 bits. -/
def sat48 (z : Int) : Int := clampI z (-140737488355328) 140737488355327

/-- A weight of a container at byte a. -/
def weight (h : Shape) (b : List Byte) (a : Nat) : Int := if h.int8 then sgn 8 (cval b a 1) else sgn 16 (cval b a 2)

/-- One neuron: bias plus the weighted inputs, formed in 48 bits. -/
def neuron (h : Shape) (b : List Byte) (wOfs bOfs : Nat) (x : List Int) : Int :=
  ((List.range x.length).foldl (fun a i => sat48 (a + weight h b (wOfs + i * h.ws) * x.getD i 0)) (sgn 32 (cval b bOfs 4)))

/-- The outputs of a tile in mW (R298). -/
def tileOut (b : List Byte) (k : Nat) (counts : List Nat) : List Nat :=
  let h := shapeOf b
  let xmax : Int := if h.int8 then 127 else 32767
  let ish := cval b 16 4
  let osh := bits (cval b 20 4) 12 8
  let hsh := bits (cval b 20 4) 4 0
  let x := (List.range 8).map (fun i => min ((counts.getD i 0 / 2 ^ bits ish (4 * i + 3) (4 * i) : Nat) : Int) xmax)
  let base := 32 + k * h.block
  let out (v : Int) : Nat := (clampI (asr v osh) 0 65535).toNat
  if h.layers = 2 then
    let b1 := base + 8 * h.hidden * h.ws
    let w2 := b1 + 4 * h.hidden
    let b2 := w2 + h.outputs * h.hidden * h.ws
    let hid := (List.range h.hidden).map (fun j => clampI (asr (neuron h b (base + 8 * j * h.ws) (b1 + 4 * j) x) hsh) 0 xmax)
    (List.range h.outputs).map (fun o => out (neuron h b (w2 + o * h.hidden * h.ws) (b2 + 4 * o) hid))
  else
    let bo := base + 8 * h.outputs * h.ws
    (List.range h.outputs).map (fun o => out (neuron h b (base + 8 * o * h.ws) (bo + 4 * o) x))

/-- The outputs of every tile; none for an excluded one. -/
def allOut (s : State) (b : List Byte) : List (List Nat) :=
  (List.range 9216).map (fun t => if tileClass b t = 15 then [] else tileOut b (tileClass b t) (tget [] s.estCounts t))

/-- The raw estimate of crew c from the tiles' outputs (R299); VLK and VMI crews have none. -/
def State.rawOf (s : State) (outs : List (List Nat)) (c : Nat) : Rat :=
  let f := c / 24
  let j := c % 24
  if j < 18 then (sumN (((outs.drop (1152 * f + 64 * j)).take 64).map (fun y => y.getD 0 0)) : Nat)
  else if j < 22 ∧ (s.crew c).reg then
    let n := ((List.range 4).filter (fun k => (s.crew (24 * f + 18 + k)).reg)).length
    (sumN (((outs.drop (1152 * f)).take 1152).map (fun y => y.getD 1 0)) : Nat) / (n : Rat)
  else 0

/-- One 64-bit word of a dump (R301): a refused write is dropped, and EN clears; an offline bank takes none (R426).
DESIGN CHOICE: assumption log 84. -/
def dumpWord (s : State) (e : Nat × List Nat) : State :=
  if ¬ s.flag EST_DUMP.EN 0 then s
  else if inCM e.1 ∧ s.permitted 5 e.1 8 false true then
    (if s.offline e.1 then s else s.wrBytes e.1 (e.2.flatMap (leBytes 2)))
  else s.put EST_DUMP.EN 0 0

/-- Groups of four values. -/
def quads : Nat → List Nat → List (List Nat)
  | 0, _ => []
  | n + 1, l => l.take 4 :: quads n (l.drop 4)

/-- The dump of an update (R301). -/
def dumpAll (h : Shape) (outs : List (List Nat)) (s : State) : State :=
  let a := 0x400000 + 8 * s.get EST_DUMP.PTR 0
  let y := (List.range h.outputs).flatMap (fun o => outs.map (fun v => v.getD o 0))
  ((List.range (y.length / 4)).map (fun k => a + 8 * k) |>.zip (quads (y.length / 4) y)).foldl dumpWord s

/-! ## Calibration registers and restarts (R304 to R306) -/

/-- A rational value as its register shows it, where the spec states no rounding. -/
def roundRat (q : Rat) : Int := roundOpen q.num q.den

/-- The VLG and VMA crews. -/
def estCrews : List Nat := allCrews.filter (fun c => decide (c % 24 < 22))

/-- The registers of the calibration of crew c. DESIGN CHOICE: assumption log 38. -/
def showCal (c : Nat) (k : Cal) (s : State) : State :=
  let s := (s.put EST_CREW_CAL.GAIN c (roundRat (k.g * 16384)).toNat).putI EST_CREW_CAL.OFFSET c (roundRat k.o)
  s.put EST_CREW_EST.MW c (roundRat k.est).toNat

/-- The calibration of crew c restarts with g = 1 and o = 0; Ê is held until the next pass (R305, R306). -/
def restartCrew (s : State) (c : Nat) : State :=
  let k : Cal := { est := (tget {} s.estCal c).est }
  let s := (((s.put EST_CREW_STAT.UNCONV c 1).put EST_CREW_STAT.DIV c 0).put EST_CREW_STAT.ERR_WIN c 0).put EST_CREW_STAT.CONV_CNT c 0
  showCal c k { s with estCal := tset s.estCal c k }

/-- A changed active model: every calibration restarts (R304 to R307). -/
def restartCal (s : State) : State := forAll estCrews restartCrew { s with estDivRec := [], estRaw := [] }

/-- The selected model becomes the active one at an update-period boundary (R304). -/
def activate (s : State) : State :=
  let v := s.get EST_CTL.SRC 0
  if v = s.estActive ∧ ¬ s.estNew then s
  else
    let s := restartCal { s with estActive := v, estNew := false }
    let m := if v = 0 then 0 else macsOf (tget [] s.models (v - 1))
    ((s.mark EST_STAT.RUN 0 (v != 0)).put EST_MACS.MACS 0 m).put EST_STAT.PERIOD 0 (if v = 0 then 0 else periodOf m)

/-- ESTIMATOR_UPDATE (R297): an update period begins: a changed selection takes effect, the delivered counts are read,
and the active model is evaluated. -/
def execEstimatorUpdate (counts : List (Nat × List Nat)) (s : State) : Out :=
  let s := activate s
  if s.estActive = 0 then .next s
  else
    let b := tget [] s.models (s.estActive - 1)
    let got := counts.filter (fun e => decide (e.1 < 9216))
    let s := { s with estCounts := got.foldl (fun (t : Tab (List Nat)) (e : Nat × List Nat) => tset t e.1 ((e.2.take 8).map (fun v => v % 65536))) s.estCounts }
    let missed := ((List.range 9216).filter (fun t => tileClass b t != 15 && !got.any (fun e => e.1 == t))).length
    let s := s.bump EST_MISS_CNT.MISSES 0 missed
    let outs := allOut s b
    let s := dumpAll (shapeOf b) outs s
    .next { s with estRaw := allCrews.filterMap (fun c => if s.rawOf outs c = 0 then none else some (c, s.rawOf outs c)) }

/-! ## Calibration (R305 to R308) -/

/-- q held between lo and hi. -/
def clampR (q lo hi : Rat) : Rat := if q < lo then lo else if hi < q then hi else q

/-- The smoothing factor of R305. -/
def alphaC : Rat := 42949673 / 4294967296

/-- M_c of crew c in mW from the energy of an interval (R281). -/
def State.crewMeas (s : State) (c : Nat) : Nat := s.get EST_CREW_MEAS.MW c

/-- The calibration step of R305. DESIGN CHOICE: assumption log 38. -/
def Cal.step (k : Cal) (e m : Rat) : Cal :=
  let dE := e - k.mE
  let dM := m - k.mM
  let mE := k.mE + alphaC * dE
  let mM := k.mM + alphaC * dM
  let vEE := (1 - alphaC) * (k.vEE + alphaC * dE * dE)
  let cEM := (1 - alphaC) * (k.cEM + alphaC * dE * dM)
  let g := if 250000 ≤ vEE then clampR (cEM / vEE) (1 / 2) 2 else k.g
  let o := clampR (mM - g * mE) (-25000) 25000
  { k with mE := mE, mM := mM, vEE := vEE, cEM := cEM, g := g, o := o, fresh := false }

/-- The first pass after a change: the means are taken and no update is applied (R305). -/
def Cal.take (k : Cal) (e m : Rat) : Cal := { k with mE := e, mM := m, vEE := 0, cEM := 0, fresh := false }

/-- The comparison of R307 for a converged crew, with the Ê it held during the interval. -/
def diverge (c : Nat) (held m : Rat) (s : State) : State :=
  let k := tget {} s.estCal c
  let err : Bool := decide (4 * (max m 5000) < 100 * (if held < m then m - held else held - m))
  let errs := (err :: k.errs).take 100
  let n := (errs.filter id).length
  let s := { s with estCal := tset s.estCal c { k with errs := errs } }.put EST_CREW_STAT.ERR_WIN c n
  if 10 < n then
    let s' := s.put EST_CREW_STAT.DIV c 1
    if s.estDivRec.contains c then s' else { s' with estDivRec := c :: s'.estDivRec }.raiseCrew 0x0804 c
  else if n = 0 then s.put EST_CREW_STAT.DIV c 0 else s

/-- ESTIMATE_CALIBRATION (R305 to R307) of one VLG or VMA crew at a pass. -/
def calibrateCrew (s : State) (c : Nat) : State :=
  let k := tget {} s.estCal c
  if ¬ (s.crew c).reg ∨ s.estActive = 0 then
    let k := { k with est := 0, fresh := true, errs := [] }
    let s := ((s.put EST_CREW_STAT.UNCONV c 1).put EST_CREW_STAT.CONV_CNT c 0).put EST_CREW_STAT.ERR_WIN c 0
    showCal c k { s.put EST_CREW_STAT.DIV c 0 with estCal := tset s.estCal c k }
  else
    let e := tget 0 s.estRaw c
    let m : Rat := s.crewMeas c
    let held := k.est
    let conv : Bool := !s.flag EST_CREW_STAT.UNCONV c
    let k := if k.fresh then k.take e m else k.step e m
    let k := { k with est := max 0 (k.g * e + k.o) }
    let n := min 2000 (s.get EST_CREW_STAT.CONV_CNT c + 1)
    let s := (showCal c k { s with estCal := tset s.estCal c k }).put EST_CREW_STAT.CONV_CNT c n
    let s := if n = 2000 then s.put EST_CREW_STAT.UNCONV c 0 else s
    if conv then diverge c held m s else s

/-- Regulating crews whose estimate is not to be trusted (R308). -/
def State.notConv (s : State) : Nat :=
  (estCrews.filter (fun c => (s.crew c).reg && (s.flag EST_CREW_STAT.UNCONV c || s.flag EST_CREW_STAT.DIV c))).length

/-- Clatis is in estimate mode (R308). -/
def State.estMode (s : State) : Bool := s.estActive != 0 && s.notConv == 0

/-- The mode is written to its registers: a pass begins with the mode of its moment, which is in force for all of it,
and leaves the mode for the next one (R308). -/
def showMode (s : State) : State :=
  ((s.put EST_STAT.NOT_CONV 0 s.notConv).mark EST_STAT.OK 0 s.estMode).mark CAP_STAT.MODE 0 s.estMode

/-- CAPQ selector 4 (R309): the estimated power of unit u in mW by its leaf crews, and the bit of measurement mode. -/
def State.estOf (s : State) (u : Nat) : Rat :=
  (s.leafCrews u).foldl (fun a c =>
    a + (if s.estMode ∧ c % 24 < 22 then (tget {} s.estCal c).est else (s.crewMeas c : Rat))) 0

end Sys2Proof.Machine
end

