-- ==== Sys2Proof/Machine/Operands.lean ====
section
/-! DEFINITION. The operand forms of Psiul words (R236 to R241): the fields of an instruction word, the second operand
of the arithmetic opcodes, and stamp selectors as fields. -/

namespace Sys2Proof.Machine

open Sys2Proof

/-- The fields of an instruction word (R236). -/
structure PWord where
  op : Nat
  pred : Nat
  unit : Nat
  rd : Nat
  rs : Nat
  imm : Nat
  deriving DecidableEq, Repr

/-- The word whose 64 bits are w. -/
def PWord.ofNat (w : Nat) : PWord :=
  ⟨bits w 63 56, bits w 55 52, bits w 51 40, bits w 39 36, bits w 35 32, bits w 31 0⟩

/-- The opcodes of the table "Opcode summary" (R243). -/
def opcodes : List Nat :=
  [0x00, 0x01, 0x02, 0x03, 0x04, 0x05, 0x06, 0x07, 0x10, 0x11, 0x12, 0x13, 0x14, 0x15, 0x16, 0x17, 0x18, 0x19, 0x1A,
   0x1B, 0x1C, 0x20, 0x21, 0x22, 0x23, 0x24, 0x25, 0x26, 0x27, 0x28, 0x29, 0x30, 0x31, 0x32, 0x33, 0x34, 0x35, 0x36,
   0x37, 0x40, 0x41, 0x42, 0x43, 0x44, 0x45, 0x50, 0x60, 0x61, 0x62, 0x63, 0x64, 0x65, 0x66]

/-- PRED holds a reserved value (R237). -/
def PWord.predBad (w : PWord) : Bool := !decide (w.pred ≤ 4 ∨ (9 ≤ w.pred ∧ w.pred ≤ 12))

/-- Whether the word acts under a context's predicates, a mask (R237). -/
def PWord.acts (w : PWord) (preds : Nat) : Bool :=
  if w.pred = 0 then true
  else if w.pred ≤ 4 then bitAt preds (w.pred - 1)
  else !bitAt preds (w.pred - 9)

/-- A register of a context (R209). -/
def Ctx.v (k : Ctx) (n : Nat) : Nat := tget 0 k.regs (n % 16)
def Ctx.setV (k : Ctx) (n v : Nat) : Ctx := { k with regs := tset k.regs (n % 16) (v % 2 ^ 32) }

/-- The second operand b under R240: IMM32, or the register that IMM[31:28] names. -/
def PWord.b (w : PWord) (k : Ctx) : Nat := if w.unit % 2 = 0 then w.imm else k.v (bits w.imm 31 28)

/-- The second operand of MULQ: s24 in IMM[31:8], or a register read as s32 (R252). -/
def PWord.bMul (w : PWord) (k : Ctx) : Int :=
  if w.unit % 2 = 0 then sgn 24 (bits w.imm 31 8) else sgn 32 (k.v (bits w.imm 31 28))

/-- The bounds of CLAMP: s16 halves of IMM32, or two registers read as s32 (R252). -/
def PWord.clampLo (w : PWord) (k : Ctx) : Int :=
  if w.unit % 2 = 0 then sgn 16 (bits w.imm 31 16) else sgn 32 (k.v (bits w.imm 31 28))
def PWord.clampHi (w : PWord) (k : Ctx) : Int :=
  if w.unit % 2 = 0 then sgn 16 (bits w.imm 15 0) else sgn 32 (k.v (bits w.imm 27 24))

/-- The register pair that a field names: its even member (R239). -/
def pairOf (n : Nat) : Nat := n / 2 * 2

/-- The fields of a stamp selector in IMM32 (R241). -/
def PWord.ssrc (w : PWord) : Nat := bits w.imm 31 30
def PWord.swin (w : PWord) : Nat := bits w.imm 29 24
def PWord.swhich (w : PWord) : Nat := bits w.imm 23 22
def PWord.sofs (w : PWord) : Nat := bits w.imm 19 0

/-- The target index of BR, BRC and CALL; one of 32,768 or above faults a supervisor context (R246, R248). -/
def PWord.target (w : PWord) : Nat := w.imm

end Sys2Proof.Machine
end

