-- ==== Sys2Proof/Machine/Units.lean ====
section
/-! DEFINITION. Regulation units (chapter 01): the unit descriptor table with its user groups, capability words and
grants, and the issue of unit operations, the management port's included. -/

namespace Sys2Proof.Machine

open Sys2Proof

/-! ## Capability words (R31, R40, R42) -/

/-- A phase delivers: neither FUSED nor STRUCK. -/
def State.phaseUsable (s : State) (ph : Nat) : Bool := (s.phase ph).st != .fused && (s.phase ph).st != .struck

/-- Words 3 and 5 of the entry of unit u, from its leaf phases (R40); words 4 and DEPTH do not change with a phase. -/
def recompute (u : Nat) (s : State) : State :=
  let l := s.leafPhases u
  let n := (l.filter s.phaseUsable).length
  let s := ((s.put DESC_W3.CONT_RATING u (28 * n)).put DESC_W3.PEAK_RATING u (40 * n)).put DESC_W5.ACTIVE_PHASES u n
  if u < 0x600 then
    (s.mark DESC_W5.STRUCK u ((s.phase u).st == .struck)).mark DESC_W5.FUSED u ((s.phase u).st == .fused)
  else s

/-- The valid units, their IDs ascending. -/
def State.units (s : State) : List Nat := (List.range 0x800).filter (fun u => s.flag DESC_W0.VALID u)

/-- CAPABILITY_RECOMPUTE (R40, R500): the state of a phase has changed since its entry was last computed: the entries
of every unit over it are recomputed, and their GEN increments. -/
def execCapabilityRecompute (phase : Nat) (s : State) : Out :=
  if 1536 ≤ phase ∨ ((s.flag DESC_W5.STRUCK phase = ((s.phase phase).st == .struck)) ∧
      (s.flag DESC_W5.FUSED phase = ((s.phase phase).st == .fused))) then .next s
  else .next (forAll (s.units.filter (fun u => (s.leafPhases u).contains phase))
    (fun s u => (recompute u s).wrap DESC_W6.GEN u) s)

/-! ## Grants (R218, R219) -/

/-- The lane that crew c is granted to. -/
def State.laneOf (s : State) (c : Nat) : Option Nat :=
  (List.range 8).find? (fun n => bitAt (s.get LANE_GRANT.CREWS (6 * n + c / 32)) (c % 32))

/-- GRANTED and LANE of unit u, as the grants stand. -/
def State.grantOf (s : State) (u : Nat) : Option Nat :=
  match s.leafCrews u with
  | [] => none
  | c :: t => match s.laneOf c with
    | none => none
    | some n => if t.all (fun d => s.laneOf d == some n) then some n else none

/-- GRANTED and LANE are written to the entry of unit u. DESIGN CHOICE: assumption log 39. -/
def writeGrant (u : Nat) (s : State) : State :=
  match s.grantOf u with
  | some n => (s.put DESC_W6.GRANTED u 1).put DESC_W6.LANE u n
  | none => (s.put DESC_W6.GRANTED u 0).put DESC_W6.LANE u 0

/-- The entry of unit u does not show its grant as it stands. -/
def State.grantStale (s : State) (u : Nat) : Bool :=
  match s.grantOf u with
  | some n => !(s.flag DESC_W6.GRANTED u && s.get DESC_W6.LANE u == n)
  | none => s.flag DESC_W6.GRANTED u

/-- GRANT_UPDATE (R218, R500): the entries that a grant of a lane affects are updated, their GEN incremented. -/
def execGrantUpdate (lane : Nat) (s : State) : Out :=
  .next (forAll (s.units.filter (fun u => s.grantStale u &&
      (s.grantOf u == some lane || (s.flag DESC_W6.GRANTED u && s.get DESC_W6.LANE u == lane))))
    (fun s u => (writeGrant u s).wrap DESC_W6.GEN u) s)

/-- Unit u is in the unit set of lane n (R219). -/
def State.inSet (s : State) (n u : Nat) : Bool := s.flag DESC_W6.GRANTED u && s.get DESC_W6.LANE u == n

/-! ## User groups (R38, R41 to R45, R500) -/

/-- The member IDs that the entry of u names, as validation reads them; none where the list cannot be read (R41). -/
def State.readMembers (s : State) (u : Nat) : State × Option (List Nat) :=
  let n := s.get DESC_W1.COUNT u
  if s.get DESC_W1.LIST u = 0 then
    (s, some ((List.range n).map (fun k => s.get DESC_W1.FIRST u + k * s.get DESC_W1.STRIDE u)))
  else
    let a := 0x400000 + 8 * s.get DESC_W2.LIST_PTR u
    if 0x800000 < a + 2 * n ∨ s.permits 0 a (2 * n) true false = false then (s, none)
    else
      let r := readChecks a (2 * n) s
      let l := (List.range n).map (fun k => s.rd 2 (a + 2 * k))
      (r.1, if r.2 ∧ l.all (fun x => decide (x < 0x1000)) then some l else none)

/-- A user group without a valid entry: its ID names nothing yet. -/
def validId (v : Nat) : Bool := decide (v < 0x6EC) || v == 0x6FF || decide (0x700 ≤ v ∧ v < 0x800)

/-- Checks 4 and 5 of R41 over the members in order. DESIGN CHOICE: assumption log 105. -/
def State.memberCode (s : State) : List Nat → Nat
  | [] => 0
  | v :: t =>
    if ¬ validId v then 0x10
    else if ¬ s.flag DESC_W0.VALID v ∨ s.unitBusy v then 0x11
    else s.memberCode t

/-- DEPTH of a group of these members (R41). -/
def State.depthOf (s : State) (l : List Nat) : Nat := 1 + maxN (l.map (fun v => s.get DESC_W7.DEPTH v))

/-- The code of the checks of R41 on a group once its members are read. -/
def State.groupCode (s : State) (l : List Nat) : Nat :=
  let c := s.memberCode l
  if c ≠ 0 then c
  else if ¬ (l.flatMap s.leafPhases).Nodup then 0x12
  else if 8 < s.depthOf l then 0x13
  else 0

/-- The window of a group: the intersection of its members' windows; none where it is empty (R31). -/
def State.windowOf (s : State) (l : List Nat) : Option (Nat × Nat) :=
  if l.any (fun v => s.flag DESC_W4.WIN_EMPTY v) then none
  else
    let lo := maxN (l.map (fun v => s.get DESC_W4.VMIN_CODE v))
    let hi := (minN (l.map (fun v => s.get DESC_W4.VMAX_CODE v))).getD 0
    if lo ≤ hi then some (lo, hi) else none

/-- A user group comes into force (R42). DESIGN CHOICE: assumption log 39. -/
def groupUp (u : Nat) (l : List Nat) (s : State) : State :=
  let s := recompute u { s with groupMembers := tset s.groupMembers u l }
  let s := match s.windowOf l with
    | none => ((s.put DESC_W4.WIN_EMPTY u 1).put DESC_W4.VMAX_CODE u 0).put DESC_W4.VMIN_CODE u 0
    | some (lo, hi) => ((s.put DESC_W4.WIN_EMPTY u 0).put DESC_W4.VMAX_CODE u hi).put DESC_W4.VMIN_CODE u lo
  let ph := s.leafPhases u
  let s := ((s.put DESC_W5.REGION u 3).put DESC_W5.FIELD_MASK u (maskOf (ph.map (fun p => p / 192)))).put DESC_W5.DOMAIN_MASK u
    (maskOf (ph.map (fun p => domainOf (p / 8))))
  let s := forAll l (fun s v => s.put DESC_W7.GROUP_REFS v (s.get DESC_W7.GROUP_REFS v + 1)) s
  writeGrant u ((s.put DESC_W7.DEPTH u (s.depthOf l)).put DESC_W6.STATUS u 0)

/-- A validation fails with a code (R42). -/
def groupFail (u code : Nat) (s : State) : State := (s.put DESC_W0.VALID u 0).put DESC_W6.STATUS u code

/-- The validation of entry u is judged (R41, R42). -/
def validate (u : Nat) (s : State) : State :=
  if s.get DESC_W0.KIND u ≠ 6 then groupFail u 0x16 s
  else if s.get DESC_W1.COUNT u = 0 ∨ 256 < s.get DESC_W1.COUNT u ∨ (s.get DESC_W1.LIST u = 0 ∧ s.get DESC_W1.STRIDE u = 0) then
    groupFail u 0x14 s
  else
    match s.readMembers u with
    | (s, none) => groupFail u 0x15 s
    | (s, some l) =>
      let c := s.groupCode l
      if c = 0 then groupUp u l s else groupFail u c s

/-- VALIDATION_COMPLETE (R41, R42, R500): the pending validation of entry u ends; while it is judged, the entry itself is
still pending, so a group that names itself fails check 5. DESIGN CHOICE: assumption log 105. -/
def execValidationComplete (u : Nat) (s : State) : Out :=
  if s.unitPend.contains (u, false) then
    let s := validate u s
    .next ({ s with unitPend := s.unitPend.filter (fun e => e != (u, false)) }.wrap DESC_W6.GEN u)
  else .next s

/-- The fields of a descriptor entry. -/
def descFields : List Fld :=
  Reg.DESC_W0.fields ++ Reg.DESC_W1.fields ++ Reg.DESC_W2.fields ++ Reg.DESC_W3.fields ++ Reg.DESC_W4.fields ++
    Reg.DESC_W5.fields ++ Reg.DESC_W6.fields ++ Reg.DESC_W7.fields

/-- REMOVAL_COMPLETE (R43, R500): the pending removal of entry u ends: its members lose a reference, and the entry is
unassigned again. DESIGN CHOICE: assumption log 82. -/
def execRemovalComplete (u : Nat) (s : State) : Out :=
  if s.unitPend.contains (u, true) then
    let gen := s.get DESC_W6.GEN u
    let s := forAll (tget [] s.groupMembers u) (fun s v => s.put DESC_W7.GROUP_REFS v (s.get DESC_W7.GROUP_REFS v - 1)) s
    let s := { s with unitPend := s.unitPend.filter (fun e => e != (u, true)), groupMembers := tdel s.groupMembers u }
    let s := descFields.foldl (fun s f => s.put f u (f.reset u)) s
    .next (s.put DESC_W6.GEN u (gen + 1))
  else .next s

/-- A removal of entry u is asked for (R43, R500). DESIGN CHOICE: assumption log 82. -/
def askRemoval (u : Nat) (s : State) : State :=
  if s.get DESC_W7.GROUP_REFS u ≠ 0 ∨ s.get DESC_W7.PROG_REFS u ≠ 0 then (s.put DESC_W6.STATUS u 0x17).wrap DESC_W6.GEN u
  else { (s.put DESC_W6.STATUS u 1).wrap DESC_W6.GEN u with unitPend := s.unitPend ++ [(u, true)] }

/-- A supervisor write of v to word w of the entry of unit u (R38): the fields of an unassigned user group are written,
VALID = 1 starts its validation (R41), VALID = 0 asks for its removal (R43), and any other write is refused. -/
def descWrite (u w v : Nat) (s : State) : State :=
  let user : Bool := decide (0x700 ≤ u ∧ u < 0x800) && !s.unitBusy u
  if user ∧ s.flag DESC_W0.VALID u = false ∧ w ≤ 2 then
    if w = 0 then
      let kind := bits v 31 28
      let s' := s.put DESC_W0.KIND u kind
      if bitAt v 27 then
        { ((s'.put DESC_W0.VALID u 1).put DESC_W6.STATUS u 1).wrap DESC_W6.GEN u with unitPend := s.unitPend ++ [(u, false)] }
      else if kind = s.get DESC_W0.KIND u then s else s'.wrap DESC_W6.GEN u
    else if w = 1 then
      let s' := (((s.put DESC_W1.LIST u (bits v 31 31)).put DESC_W1.STRIDE u (bits v 27 24)).put DESC_W1.COUNT u (bits v 23 12)).put
        DESC_W1.FIRST u (bits v 11 0)
      if bits v 31 31 = s.get DESC_W1.LIST u ∧ bits v 27 24 = s.get DESC_W1.STRIDE u ∧ bits v 23 12 = s.get DESC_W1.COUNT u ∧
          bits v 11 0 = s.get DESC_W1.FIRST u then s else s'.wrap DESC_W6.GEN u
    else if bits v 21 3 = s.get DESC_W2.LIST_PTR u then s
    else (s.put DESC_W2.LIST_PTR u (bits v 21 3)).wrap DESC_W6.GEN u
  else if user ∧ s.flag DESC_W0.VALID u = true ∧ w = 0 ∧ bitAt v 27 = false then askRemoval u s
  else s.raise 0x0101 1 u

/-! ## Unit operations (R47, R50, R254) -/

/-- Clatis takes no unit operation: the safe state, a stop, or an orderly shutdown (R50, R371).
DESIGN CHOICE: assumption log 67. -/
def State.opsStopped (s : State) : Bool := s.flag FLT_STAT.SAFE 0 || s.stop != .none || s.stopIssued || s.orderly

/-- START and LOADP are refused: the safe state, which begins with the stop's end, or an orderly shutdown (R232, R371,
R454). -/
def State.startsStopped (s : State) : Bool := s.flag FLT_STAT.SAFE 0 && s.stopDone || s.orderly

/-- Operations that take or pass over a slot of the present cycle (R47). -/
def State.opsNow (s : State) : Nat := if s.eng.opAt = s.now then s.eng.ops else 0

/-- The program engine may still deliver an operation in the present cycle: none once the management port has taken its
slot, one while the queued operation has waited four cycles, else two (R47, R50). DESIGN CHOICE: assumption log 133. -/
def State.opRoom (s : State) : Bool := decide (s.opsNow < if s.uop.isSome ∧ s.eng.uopAt + 5 ≤ s.now then 1 else 2)

/-- The state in which n operation slots of the present cycle are gone. -/
def State.tookOps (s : State) (n : Nat) : State := { s with eng := { s.eng with opAt := s.now, ops := n } }

/-- Unit u is of a kind that a setpoint operation, another delivered operation, a power operation accepts
(R32, R35, R254). -/
def State.takesSetp (s : State) (u : Nat) : Bool := s.unitExists u && decide (0x600 ≤ u) && !s.flag DESC_W4.WIN_EMPTY u
def State.takesOp (s : State) (u : Nat) : Bool := s.unitExists u && decide (0x600 ≤ u)
def takesPower (u : Nat) : Bool := decide (0x6C0 ≤ u ∧ u < 0x6E0)

/-- Unit u is accepted for opcode `op` (R254). -/
def State.unitOk (s : State) (op u : Nat) : Bool :=
  if op ∈ [0x20, 0x21, 0x22] then s.takesSetp u else if op ∈ [0x27, 0x28] then takesPower u else s.takesOp u

/-- The slew code of RAMP to a code in so many ticks (R256). DEDUCED: assumption log 34. -/
def State.rampSlew (s : State) (u code ticks : Nat) : Nat :=
  let d := maxN ((s.leafCrews u).map (fun c => ((code : Int) - (s.snap c).target).natAbs))
  if ticks = 0 then s.slewMax else min (max (ceilDiv (2500 * d) ticks) 4) s.slewMax

/-- An operation is issued by a context (0 to 11) or the management port (15), whose operation is the last of its cycle
(R47): it takes the delivery path, and a context's setpoint to a unit is the one that its WAITS tracks (R224). DEDUCED: assumption log 34. -/
def issueOp (kind : OpKind) (u issuer pc : Nat) (s : State) : State :=
  let cs := s.leafCrews u
  let kind := match kind with
    | .ramp code ticks => .setp code (s.rampSlew u code ticks) false
    | k => k
  let op : Op := ⟨s.opNext, kind, u, cs, issuer, pc⟩
  let s := { s with opNext := s.opNext + 1, flight := s.flight ++ [op] }.tookOps (if issuer < 12 then s.opsNow + 1 else 2)
  if kind.isSetp then
    { s with tracks := s.tracks.filter (fun t => !(t.issuer == issuer && t.unit == u)) ++ [⟨op.id, issuer, u, cs, false, []⟩] }
  else s

/-- What a word asks of the crews: the operations of R50, for the management port. -/
def PWord.kindOf (w : PWord) : OpKind :=
  match w.op with
  | 0x20 => .setp (bits w.imm 31 20) (bits w.imm 19 8) (bitAt w.imm 0)
  | 0x22 => .ramp (bits w.imm 31 20) (bits w.imm 19 0)
  | 0x23 => .lls (bits w.imm 9 0)
  | 0x24 => .gsel (bits w.imm 4 4) (bits w.imm 3 0)
  | 0x26 => .stand (bits w.imm 1 0)
  | 0x27 => .pwron
  | _ => .pwroff

/-- The bits of IMM32 that the entry of an opcode marks 0 (R50, R254 to R261). -/
def immZero (op imm : Nat) : Bool :=
  match op with
  | 0x20 => bits imm 7 1 == 0
  | 0x21 => bits imm 27 1 == 0
  | 0x22 => true
  | 0x23 => bits imm 31 10 == 0
  | 0x24 => bits imm 31 5 == 0
  | 0x26 => bits imm 31 2 == 0
  | _ => imm == 0

/-- The RESULT code of a GO (R50): 1 queued. -/
def State.uopResult (s : State) (w : PWord) : Nat :=
  if s.flag ID_UOP_STAT.BUSY 0 then 6
  else if w.op ∉ [0x20, 0x22, 0x23, 0x24, 0x26, 0x27, 0x28] ∨ w.pred ≠ 0 ∨ w.rd ≠ 0 ∨ w.rs ≠ 0 ∨ immZero w.op w.imm = false then 2
  else if s.unitOk w.op w.unit = false then 3
  else if (w.op = 0x20 ∧ (bits w.imm 19 8 < 4 ∨ s.slewMax < bits w.imm 19 8)) ∨ (w.op = 0x22 ∧ bits w.imm 19 0 = 0) ∨
      (w.op = 0x26 ∧ bits w.imm 1 0 = 3) then 4
  else if s.opsStopped then 5
  else 1

/-- The instruction word of ID_UOP_LO and ID_UOP_HI. -/
def State.uopWord (s : State) : PWord :=
  ⟨s.get ID_UOP_HI.OPCODE 0, s.get ID_UOP_HI.PRED 0, s.get ID_UOP_HI.UNIT 0, s.get ID_UOP_HI.RD 0, s.get ID_UOP_HI.RS 0,
    s.get ID_UOP_LO.IMM32 0⟩

/-- A GO: whether it draws an error response, and the state after (R50). -/
def uopGo (s : State) : State × Bool :=
  let w := s.uopWord
  let r := s.uopResult w
  let s := s.put ID_UOP_STAT.RESULT 0 r
  if r = 1 then ({ s.put ID_UOP_STAT.BUSY 0 1 with uop := some ⟨0, w.kindOf, w.unit, [], 15, 0⟩, eng.uopAt := s.now }, false) else (s, true)

/-- The queued operation can issue in the present cycle: one after that in which it was queued, with an operation slot free
(R47, R50). -/
def State.uopTurn (s : State) : Bool := s.earlier s.eng.uopAt && decide (s.opsNow < 2)

/-- UOP_ISSUE (R50): the queued operation issues, in the next cycle where this one has no slot for it, and BUSY clears
unless a PMBus write waits (R467). DESIGN CHOICE: assumption log 133. -/
def execUopIssue (s : State) : Out :=
  match s.uop with
  | none => .next s
  | some op =>
    let s := if s.uopTurn then s else passCycle s
    let s := (issueOp op.kind op.unit 15 0 s).bump ID_UOP_STAT.ISSUED 0
    .next (match s.uopWait with
      | [] => { s.put ID_UOP_STAT.BUSY 0 0 with uop := none }
      | n :: rest => { s with uop := some n, eng.uopAt := s.now, uopWait := rest })

end Sys2Proof.Machine
end

