-- ==== Sys2Proof/Machine/Lanes.lean ====
section
/-! DEFINITION. The contexts of the program engine (chapter 07): lane states and control, signals, watchdogs, faults,
waits and their ends, and grants. Contexts 0 to 7 are lanes L0 to L7, 8 to 11 are S0 to S3. -/

namespace Sys2Proof.Machine

open Sys2Proof

/-! ## Access -/

def State.ctx (s : State) (n : Nat) : Ctx := tget {} s.ctxs n
def State.setCtx (s : State) (n : Nat) (k : Ctx) : State := { s with ctxs := tset s.ctxs n k }
def State.onCtx (s : State) (n : Nat) (f : Ctx → Ctx) : State := s.setCtx n (f (s.ctx n))
def State.lane (s : State) (n : Nat) : Lane := tget {} s.lanes n
def State.setLane (s : State) (n : Nat) (k : Lane) : State := { s with lanes := tset s.lanes n k }
/-- LANE_STAT.STATE of context n: 0 IDLE, 1 LOADING, 2 LOADED, 3 RUNNING, 4 WAITING, 5 HALTED, 6 FAULTED. -/
def State.lst (s : State) (n : Nat) : Nat := s.get LANE_STAT.STATE n
def State.setLst (s : State) (n v : Nat) : State := s.put LANE_STAT.STATE n v
def State.pc (s : State) (n : Nat) : Nat := s.get LANE_STAT.PC n
def State.setPc (s : State) (n v : Nat) : State := s.put LANE_STAT.PC n v

/-- Register r of context n. -/
def State.vreg (s : State) (n r : Nat) : Nat := (s.ctx n).v r
def State.setV (s : State) (n r v : Nat) : State := s.onCtx n (fun k => k.setV r v)

/-! ## Signals (R225) -/

/-- Bits set in LANE_SIG of context n. -/
def setSig (n mask : Nat) (s : State) : State := s.put LANE_SIG.SIG n (Nat.lor (s.get LANE_SIG.SIG n) mask)

/-- Bit b set in LANE_SIG of every supervisor context. DESIGN CHOICE: assumption log 108. -/
def sigSupers (b : Nat) (s : State) : State := forAll [8, 9, 10, 11] (fun s n => setSig n (2 ^ b) s) s

/-- Bit b set in LANE_SIG of every lane that holds one of the crews. DESIGN CHOICE: assumption log 108. -/
def sigLanes (b : Nat) (cs : List Nat) (s : State) : State :=
  forAll (List.range 8) (fun s n => if cs.any (fun c => s.laneOf c == some n) then setSig n (2 ^ b) s else s) s

/-! ## Control flow within a context (R209, R250) -/

/-- The instruction at the present index falls through (R250): an innermost loop that ends there runs again, or is
popped, and then an outer one with the same end may close in its turn. DESIGN CHOICE: assumption log 27. -/
def fallLoops (pc : Nat) : List (Nat × Nat × Nat) → Nat × List (Nat × Nat × Nat)
  | [] => (pc + 1, [])
  | (e, rem, first) :: t =>
    if e = pc then (if 0 < rem then (first, (e, rem - 1, first) :: t) else fallLoops pc t) else (pc + 1, (e, rem, first) :: t)

/-- Context n goes on after the instruction at its program counter. DESIGN CHOICE: assumption log 25. -/
def fall (n : Nat) (s : State) : State :=
  let r := fallLoops (s.pc n) (s.ctx n).loops
  (s.onCtx n (fun k => { k with loops := r.2 })).setPc n r.1

/-! ## Lane states (R213 to R217) -/

/-- A lane stops at an instruction boundary: HALTED (R213). -/
def laneHalt (n : Nat) (s : State) : State :=
  sigSupers 8 ((s.onCtx n (fun k => { k with wait := none, stopPend := false })).setLst n 5)

/-- LANE_FAULT (R216): a lane enters FAULTED with a cause and a program counter. DEDUCED: assumption log 26. -/
def laneFault (n cause pc : Nat) (s : State) : State :=
  let s := (((s.onCtx n (fun k => { k with wait := none, stopPend := false })).setLst n 6).put LANE_STAT.FAULT n cause).setPc n pc
  sigSupers 8 (s.raise 0x0704 4 n (cause + 2 ^ 16 * pc))

/-- A STOP takes effect: the lane is HALTED, unless a run-time fault falls in the same cycle (R214); `pc` is the index that
a WATCHDOG fault would report. -/
def stopHalt (n pc : Nat) (s : State) : State := laneHalt n (s.setLane n { s.lane n with stopAt := some (s.now, pc) })

/-- Context n issues next at least four cycles from now (R211). -/
def State.rested (s : State) (n : Nat) : State := { s with eng.from_ := tset s.eng.from_ n (s.now + 4) }

/-- The stall of context n ends in this cycle: it is eligible again from the next one on (R244). -/
def State.unstalled (s : State) (n : Nat) : State :=
  { s with eng.from_ := tset s.eng.from_ n (max (tget 0 s.eng.from_ n) (s.now + 1)) }

/-- STOP of a lane (R213): at once in a wait, which ends without an outcome, as an issue by R223; at the end of a stall; else
at this instruction boundary. DESIGN CHOICE: assumption log 30. -/
def laneStop (n : Nat) (s : State) : State :=
  match (s.ctx n).wait with
  | some ⟨.rdt, _, _, _⟩ => s.onCtx n (fun k => { k with stopPend := true })
  | some _ => stopHalt n (s.pc n) (fall n (s.rested n))
  | none => stopHalt n (s.pc n) s

/-- The index that a STOP of the present cycle has left for a WATCHDOG fault of that cycle, if there was one (R214). -/
def State.stoppedNow (s : State) (n : Nat) : Option Nat :=
  match (s.lane n).stopAt with
  | some (t, pc) => if t = s.now ∧ s.lst n = 5 then some pc else none
  | none => none

/-- Every lane that runs or waits stops, as STOP does (R370, R454). -/
def stopLanes (s : State) : State :=
  forAll (List.range 8) (fun s n => if s.lst n = 3 ∨ s.lst n = 4 then laneStop n s else s) s

/-- UNLOAD of a lane (R44, R213, R304): its references, its region of the store and its model are given up. -/
def laneUnload (n : Nat) (s : State) : State :=
  let s := forAll (s.lane n).refs (fun s u => s.put DESC_W7.PROG_REFS u (s.get DESC_W7.PROG_REFS u - 1)) s
  let s := ((s.setLst n 0).put LANE_STAT.FAULT n 0).put LANE_IMAGE.COUNT n 0
  let s := ((s.put LANE_IMAGE.BASE n 0).put LANE_JOB.JOB_ID n 0).setLane n {}
  if thas s.models n then dropModel n s else s

/-- START of a lane at its ENTRY with its state initialised (R209). -/
def laneStart (n : Nat) (s : State) : State :=
  let k := s.ctx n
  let s := s.setCtx n { evts := k.evts, dropped := k.dropped, regs := tset [] 0 (s.get LANE_ARG.ARG n) }
  let s := { s with tracks := s.tracks.filter (fun t => t.issuer != n) }
  let s := s.setLane n { s.lane n with wdogAt := s.now, stopAt := none }
  ((s.setPc n (s.lane n).entry).put LANE_STAT.FAULT n 0).setLst n 3

/-- START is refused whatever the lane's state: in the safe state, in an orderly shutdown, in recovery, or while a bank of
the job half is offline (R371, R426, R433, R454). -/
def State.startBarred (s : State) : Bool :=
  s.startsStopped || s.bankSt 10 != 0 || s.bankSt 11 != 0 || s.get ID_FW_STAT.MODE 0 == 2

/-- A write of v to LANE_CTL of lane n by a supervisor context (R213). -/
def laneCtl (n v : Nat) (s : State) : State :=
  let st := s.lst n
  match bits v 2 0 with
  | 0 => s
  | 1 => if (st = 2 ∨ st = 5) ∧ ¬ s.startBarred then laneStart n s else s.setOver LANE_STAT.CTL_REFUSED n
  | 2 => if st = 3 ∨ st = 4 then laneStop n s else s.setOver LANE_STAT.CTL_REFUSED n
  | 4 => if st = 2 ∨ st = 5 ∨ st = 6 then laneUnload n s else s.setOver LANE_STAT.CTL_REFUSED n
  | _ => s.setOver LANE_STAT.CTL_REFUSED n

/-- LANE_WDOG.REMAIN of lane n in µs: 500 coordinator cycles each (R217), what has elapsed cut to whole µs; 0 in a lane that
neither runs nor waits. DESIGN CHOICE: assumption log 138. -/
def State.wdogRemain (s : State) (n : Nat) : Nat :=
  let k := s.lane n
  if s.lst n = 3 ∨ s.lst n = 4 then k.wdog - (s.now - k.wdogAt) / 500 else 0

/-- LANE_STAT.PC of context n as it shows (R235): the index of the next instruction, in a wait the wait's own; in the stall
of an urgent RDT or of an access, that of the instruction which follows. -/
def State.pcShown (s : State) (n : Nat) : Nat :=
  match (s.ctx n).wait with
  | some ⟨.rdt, _, _, _⟩ => (fallLoops (s.pc n) (s.ctx n).loops).1
  | some ⟨.access .., _, _, _⟩ => (fallLoops (s.pc n) (s.ctx n).loops).1
  | _ => s.pc n

/-- The index that a WATCHDOG fault of lane n reports (R216): the one that LANE_STAT.PC shows; none where the watchdog does
not count. -/
def State.wdogPc (s : State) (n : Nat) : Option Nat := if s.lst n = 3 ∨ s.lst n = 4 then some (s.pcShown n) else s.stoppedNow n

/-- WATCHDOG (R214, R216, R217): the watchdog of a running or waiting lane has run out, or of one that a STOP of this cycle
has halted. -/
def execWatchdog (n : Nat) (s : State) : Out :=
  match s.wdogPc n with
  | none => .next s
  | some pc =>
    if 8 ≤ n ∨ (s.lane n).wdog = 0 ∨ s.now < (s.lane n).wdogAt + 500 * (s.lane n).wdog then .next s
    else .next (laneFault n 1 pc s)

/-- SUPERVISOR_FAULT (R246): a supervisor context waits without end at the faulting instruction. -/
def supFault (n cause : Nat) (s : State) : State :=
  let pc := s.pc n
  let s := (s.onCtx n (fun k => { k with wait := some ⟨.faulted, 0, s.now, 0⟩ })).setLst n 4
  s.raise 0x0706 4 n (cause + 2 ^ 16 * pc)

/-! ## Waits (R223 to R225, R264 to R269) -/

/-- The last setpoint command of context n to unit u (R224). -/
def State.trackOf (s : State) (n u : Nat) : Option Track := s.tracks.find? (fun t => t.issuer == n && t.unit == u)

/-- The lanes that are joined to a barrier number (R266). -/
def State.joined (s : State) (num : Nat) : List Nat :=
  (List.range 8).filter (fun n => s.lst n == 4 && (match (s.ctx n).wait with
    | some ⟨.barl _ k, _, _, _⟩ => k == num
    | _ => false))

/-- A lane's own barrier condition: every lane of its mask is joined with the same number (R266). -/
def State.barMet (s : State) (mask num : Nat) : Bool := (maskList mask 8).all (fun n => (s.joined num).contains n)

/-- The bits of LANE_SIG that a WAITE of context n sees (R225): all at its issue; where it waits already, those that the
cycle found. -/
def State.sigSeen (s : State) (n : Nat) : Nat :=
  match (s.ctx n).wait with
  | some w => if w.at_ = s.now then s.get LANE_SIG.SIG n else s.ripe LANE_SIG.SIG n
  | none => s.get LANE_SIG.SIG n

/-- The outcome that a condition gives now, if it holds: 0 MET, 2 SUPERSEDED (R223, R224). -/
def State.outcome (s : State) (n : Nat) : Cond → Option Nat
  | .tick st => if s.reached st then some 0 else none
  | .mark m => if markLater m s.markNo then none else some 0
  | .setp u => match s.trackOf n u with
    | none => some 0
    | some t => if t.superseded then some 2 else if t.waiting = [] then some 0 else none
  | .arrive w target => if 0 ≤ sgn 32 (unsg 32 ((s.get FCW_ARRIVALS.ARRIVALS w : Int) - target)) then some 0 else none
  | .barl mask num => if s.barMet mask num then some 0 else none
  | .sig mask => if Nat.land (s.sigSeen n) mask ≠ 0 then some 0 else none
  | _ => none

/-- A wait of context n ends with an outcome in register rd (R223): its next instruction follows, at least four cycles
later (R211), and a WAITE that is met clears the bits it matched (R225). -/
def endWait (n out : Nat) (s : State) : State :=
  match (s.ctx n).wait with
  | none => s
  | some w =>
    let s := match w.cond with
      | .sig mask => if out = 0 then s.put LANE_SIG.SIG n (s.get LANE_SIG.SIG n - Nat.land (s.sigSeen n) mask) else s
      | _ => s
    fall n ((((s.rested n).onCtx n (fun k => { k with wait := none })).setV n w.rd out).setLst n 3)

/-- Every lane whose barrier condition holds meets its wait in the same cycle (R266). -/
def endBarrier (num : Nat) (s : State) : State :=
  let met := (s.joined num).filter (fun n => match (s.ctx n).wait with
    | some ⟨.barl mask _, _, _, _⟩ => s.barMet mask num
    | _ => false)
  forAll met (fun s n => endWait n 0 s) s

/-- A wait with a timeout ends with TIMEOUT once it has run out (R223). -/
def timeOut (n : Nat) (w : Wait) (s : State) : State :=
  if w.timeout ≠ 0 ∧ w.timeout ≤ (s.now - w.at_) / 4 then endWait n 1 s else s

/-- The wait of context n ends where its condition holds or its timeout has run out. -/
def tryEnd (n : Nat) (s : State) : State :=
  match (s.ctx n).wait with
  | none => s
  | some w =>
    match s.outcome n w.cond with
    | none => timeOut n w s
    | some o =>
      match w.cond with
      | .barl _ num => endBarrier num s
      | _ => endWait n o s

/-- WAIT_END (R223). -/
def execWaitEnd (n : Nat) (s : State) : Out := .next (if s.lst n = 4 then tryEnd n s else s)

/-- Context n begins a wait; one whose condition already holds is met at issue (R223). -/
def beginWait (n : Nat) (c : Cond) (rd timeout : Nat) (s : State) : State :=
  let s := (s.onCtx n (fun k => { k with wait := some ⟨c, rd, s.now, timeout⟩ })).setLst n 4
  match s.outcome n c with
  | some _ => tryEnd n s
  | none => s

/-! ## Grants (R218, R278) -/

/-- GRANT of six crew words and the fields and regatta word to lane n: its result (R218). -/
def State.grantResult (s : State) (n : Nat) (ws : List Nat) (x : Nat) : Nat :=
  let others := (List.range 8).filter (fun m => m != n)
  if s.lst n ≠ 0 then 1
  else if others.any (fun m => (List.range 6).any (fun k => Nat.land (s.get LANE_GRANT.CREWS (6 * m + k)) (ws.getD k 0) != 0) ||
      Nat.land (s.get LANE_GRANTX.FIELDS m) (bits x 7 0) != 0) then 2
  else if bitAt x 8 ∧ others.any (fun m => s.flag LANE_GRANTX.REGATTA m) then 3
  else 0

/-- The grant of lane n is set (R218). -/
def setGrant (n : Nat) (ws : List Nat) (x : Nat) (s : State) : State :=
  let s := forAll (List.range 6) (fun s k => s.put LANE_GRANT.CREWS (6 * n + k) (ws.getD k 0)) s
  (s.put LANE_GRANTX.REGATTA n (bits x 8 8)).put LANE_GRANTX.FIELDS n (bits x 7 0)

end Sys2Proof.Machine
end

