-- ==== Sys2Proof/Machine/Psiul.lean ====
section
/-! DEFINITION. The Psiul instructions of control, arithmetic, waiting and the windows (chapter 08): the issue of an
instruction, and each one's effect. The operand of every row is the context that issues. -/

namespace Sys2Proof.Machine

open Sys2Proof

/-! ## Issue (R209 to R211, R236 to R238, R421) -/

/-- The address that context n fetches from (R236, R248). -/
def State.fetchAddr (s : State) (n : Nat) : Nat :=
  if n < 8 then 0x840000 + 8 * (s.get LANE_IMAGE.BASE n + s.pc n) else 0x800000 + 8 * s.pc n

/-- The instruction word that context n is at. -/
def State.word (s : State) (n : Nat) : PWord := PWord.ofNat (s.rd 8 (s.fetchAddr n))

/-- Context n runs, and neither waits nor stalls. -/
def State.runs (s : State) (n : Nat) : Bool := decide (n < 12) && s.lst n == 3 && (s.ctx n).wait.isNone

/-- The instruction that context n is at is a delivered one (R244), and its predicate holds. -/
def State.delivers (s : State) (n : Nat) : Bool :=
  let w := s.word n
  decide (0x20 ≤ w.op ∧ w.op ≤ 0x28 ∨ w.op = 0x42) && w.acts (s.ctx n).preds

/-- Context n is eligible (R211): it runs, its last issue or the end of its last wait lies at least four cycles back, and for
a delivered operation the cycle has a slot (R47, R50). DESIGN CHOICE: assumption log 133. -/
def State.eligible (s : State) (n : Nat) : Bool :=
  s.runs n && decide (tget 0 s.eng.from_ n ≤ s.now) && (s.opRoom || !s.delivers n)

/-- How many instructions the present cycle can still issue (R211). -/
def State.slots (s : State) : Nat := if s.eng.at_ = s.now then 2 - s.eng.cnt else 2

/-- Context n issues next in the present cycle (R211): the cycle has room, and n is the first eligible context in round
robin after the one served last. -/
def State.canIssue (s : State) (n : Nat) : Bool :=
  decide (0 < s.slots) && ((List.range 12).map (fun k => (s.eng.served + 1 + k) % 12)).find? s.eligible == some n

/-- The state in the first cycle from now on in which context n, which runs, can issue: that in which it is rested, or the
next one, where slots are taken; the state itself where it cannot then. DESIGN CHOICE: assumption log 1. -/
def State.toTurn (s : State) (n : Nat) : State :=
  if s.runs n ∧ ¬ s.canIssue n then
    let u := passCycles (tget 0 s.eng.from_ n - s.now) s
    if u.canIssue n then u else if (passCycle u).canIssue n then passCycle u else s
  else s

/-- The fetch of context n, with what its check bits show (R418, R421): the state after, and whether the word is good.
DESIGN CHOICE: assumption log 28. -/
def State.fetch (s : State) (n : Nat) : State × Bool := readCheck 0 (s.fetchAddr n) s

/-- A command that issues an instruction of opcode `op` fits what context n is at: a bad word, in a supervisor context an
undefined opcode or a reserved PRED, else a word of that opcode, which a lane can hold. DESIGN CHOICE: assumption log 28. -/
def State.fits (s : State) (n op : Nat) : Bool :=
  let w := s.word n
  !(s.fetch n).2 || (decide (8 ≤ n) && (!opcodes.contains w.op || w.predBad)) ||
    (w.op == op && opcodes.contains op && !w.predBad && decide (8 ≤ n ∨ op < 0x60))

/-- The state after context n has taken its issue opportunity (R211); a lane counts the issue (R235). -/
def State.issued (s : State) (n : Nat) : State :=
  let s := { s with eng := { s.eng with
    from_ := tset s.eng.from_ n (s.now + 4), at_ := s.now, cnt := (if s.eng.at_ = s.now then s.eng.cnt else 0) + 1, served := n } }
  if n < 8 then s.bump LANE_ISSUE_CNT.ISSUED n else s

/-- Context n issues the instruction that it is at in the present cycle, with `act` as its effect where its predicate holds
(R210, R237); a fetch whose error is corrected is counted (R421). A bad fetch, an undefined opcode or a reserved PRED is a
fault of the context (R216, R246). -/
def issueNow (n : Nat) (act : PWord → State → State) (s : State) : State :=
  let w := s.word n
  let t := (s.fetch n).1
  if (s.fetch n).2 = false then (if n < 8 then laneFault n 3 (s.pc n) t else supFault n 6 t)
  else if w.op ∉ opcodes ∨ w.predBad then supFault n 1 (t.issued n)
  else if w.acts (s.ctx n).preds then act w (t.issued n) else fall n (t.issued n)

/-- Context n issues the instruction at its program counter, if that has opcode `op`, in the first cycle in which it can
(R211). A lane that a STOP of that cycle has halted still faults, where that instruction would (R214). -/
def issue (n op : Nat) (act : PWord → State → State) (s : State) : State :=
  let u := s.toTurn n
  if ¬ s.fits n op then s
  else if u.canIssue n then issueNow n act u
  else if (s.stoppedNow n).isSome ∧ (s.setLst n 3).canIssue n then
    let r := issueNow n act (s.setLst n 3)
    if r.lst n = 6 then r else s
  else s

/-- "Supervisor operation refused" (R221, R243): the context, its program counter and the unit or window. -/
def supRefused (n u : Nat) (s : State) : State := s.raise 0x0701 4 n (s.pc n + 2 ^ 16 * u)

/-! ## Control (R248 to R251) -/

/-- NOP. -/
def execNop (n : Nat) (s : State) : Out := .next (issue n 0x00 (fun _ s => fall n s) s)

/-- The endless wait of a supervisor context (R251). -/
def waitForever (n : Nat) (s : State) : State :=
  (s.onCtx n (fun k => { k with wait := some ⟨.endless, 0, s.now, 0⟩ })).setLst n 4

/-- HALT of a context (R251). -/
def haltCtx (n : Nat) (s : State) : State := if n < 8 then laneHalt n (fall n s) else waitForever n s

/-- HALT. -/
def execHalt (n : Nat) (s : State) : Out := .next (issue n 0x01 (fun _ s => haltCtx n s) s)

/-- YIELD (R217). -/
def execYield (n : Nat) (s : State) : Out :=
  .next (issue n 0x02 (fun _ s => fall n (if n < 8 then s.setLane n { s.lane n with wdogAt := s.now } else s)) s)

/-- A jump to a target: one of 32,768 or above faults a supervisor context (R246). DEDUCED: assumption log 26. -/
def jump (n t : Nat) (s : State) : State := if 8 ≤ n ∧ 32768 ≤ t then supFault n 5 s else s.setPc n t

/-- BR (R248). -/
def execBr (n : Nat) (s : State) : Out := .next (issue n 0x03 (fun w s => jump n w.target s) s)

/-- BRC (R248). -/
def execBrc (n : Nat) (s : State) : Out :=
  .next (issue n 0x04 (fun w s => if (s.ctx n).p (bits w.rd 1 0) != bitAt w.rd 3 then jump n w.target s else fall n s) s)

/-- CALL (R249): the stack holds the index of the CALL; a full one is a supervisor fault.
DESIGN CHOICE: assumption log 29. -/
def execCall (n : Nat) (s : State) : Out :=
  .next (issue n 0x05 (fun w s =>
    if 8 ≤ n ∧ 8 ≤ (s.ctx n).ret.length then supFault n 2 s
    else if 8 ≤ n ∧ 32768 ≤ w.target then supFault n 5 s
    else (s.onCtx n (fun k => { k with ret := (s.pc n :: k.ret).take 8 })).setPc n w.target) s)

/-- RET (R249, R247): the context goes on after the CALL, whose fall-through may close a loop.
DESIGN CHOICE: assumption log 27. -/
def execRet (n : Nat) (s : State) : Out :=
  .next (issue n 0x06 (fun _ s =>
    match (s.ctx n).ret with
    | [] => if n < 8 then haltCtx n s else supFault n 2 s
    | i :: t => fall n ((s.onCtx n (fun k => { k with ret := t })).setPc n i)) s)

/-- LOOP (R247, R250). -/
def execLoop (n : Nat) (s : State) : Out :=
  .next (issue n 0x07 (fun w s =>
    let e := bits w.imm 14 0
    let k := bits w.imm 31 16
    if 8 ≤ n ∧ e ≤ s.pc n then supFault n 4 s
    else if k = 0 then s.setPc n (e + 1)
    else if 8 ≤ n ∧ 4 ≤ (s.ctx n).loops.length then supFault n 3 s
    else (s.onCtx n (fun x => { x with loops := ((e, k - 1, s.pc n + 1) :: x.loops).take 4 })).setPc n (s.pc n + 1)) s)

/-! ## Arithmetic (R240, R252, R253) -/

/-- An arithmetic instruction writes RD with a value of the word and the context. -/
def arith (n op : Nat) (val : PWord → Ctx → Nat) (s : State) : Out :=
  .next (issue n op (fun w s => fall n (s.setV n w.rd (val w (s.ctx n)))) s)

/-- MOVI. -/
def execMovi (n : Nat) (s : State) : Out := arith n 0x10 (fun w _ => w.imm) s
/-- MOV. -/
def execMov (n : Nat) (s : State) : Out := arith n 0x11 (fun w k => k.v w.rs) s
/-- ADD. -/
def execAdd (n : Nat) (s : State) : Out := arith n 0x12 (fun w k => k.v w.rs + w.b k) s
/-- SUB. -/
def execSub (n : Nat) (s : State) : Out := arith n 0x13 (fun w k => unsg 32 ((k.v w.rs : Int) - w.b k)) s
/-- MULQ. -/
def execMulq (n : Nat) (s : State) : Out :=
  arith n 0x14 (fun w k => unsg 32 (sat32 (asr (sgn 32 (k.v w.rs) * w.bMul k) (bits w.imm 4 0)))) s
/-- SHR. -/
def execShr (n : Nat) (s : State) : Out := arith n 0x15 (fun w k => k.v w.rs / 2 ^ (w.b k % 32)) s
/-- SHL. -/
def execShl (n : Nat) (s : State) : Out := arith n 0x16 (fun w k => k.v w.rs * 2 ^ (w.b k % 32)) s
/-- AND. -/
def execAnd (n : Nat) (s : State) : Out := arith n 0x17 (fun w k => Nat.land (k.v w.rs) (w.b k)) s
/-- OR. -/
def execOr (n : Nat) (s : State) : Out := arith n 0x18 (fun w k => Nat.lor (k.v w.rs) (w.b k)) s
/-- CMP. -/
def execCmp (n : Nat) (s : State) : Out :=
  .next (issue n 0x19 (fun w s =>
    fall n (s.onCtx n (fun k => k.setP (bits w.rd 1 0) (cmpCond (bits w.unit 3 1) (k.v w.rs) (w.b k))))) s)
/-- MIN. -/
def execMin (n : Nat) (s : State) : Out :=
  arith n 0x1A (fun w k => if sgn 32 (k.v w.rs) ≤ sgn 32 (w.b k) then k.v w.rs else w.b k) s
/-- MAX. -/
def execMax (n : Nat) (s : State) : Out :=
  arith n 0x1B (fun w k => if sgn 32 (w.b k) ≤ sgn 32 (k.v w.rs) then k.v w.rs else w.b k) s
/-- CLAMP. -/
def execClamp (n : Nat) (s : State) : Out :=
  arith n 0x1C (fun w k => unsg 32 (min (max (sgn 32 (k.v w.rs)) (w.clampLo k)) (w.clampHi k))) s

/-! ## Stamps (R241, R242) -/

/-- A mark and a tick with an offset, normalised with the mark period in force (R241). -/
def State.offset (s : State) (m t : Nat) (ofs : Int) : Stamp :=
  let p : Int := ((max 1 s.markLen : Nat) : Int)
  let k : Int := (t : Int) + ofs
  ⟨unsg 32 ((m : Int) + k / p), (k % p).toNat⟩

/-- The stamp that a selector names in context n, none where it is absent (R241, R242, R247). -/
def State.selected (s : State) (n : Nat) (w : PWord) : Option Stamp :=
  match w.ssrc with
  | 0 => (s.winStamp w.swin w.swhich).map (fun st => s.offset st.mark st.tick (sgn 20 w.sofs))
  | 1 => some (s.offset (s.vreg n (pairOf w.rs)) (s.vreg n (pairOf w.rs + 1)) (sgn 20 w.sofs))
  | 2 => some (s.offset s.markNo s.ticks w.sofs)
  | _ => none

/-- STAMP_ABSENT (R242): the context, its program counter and the window. -/
def stampAbsent (n win : Nat) (s : State) : State := s.raise 0x0702 4 n (s.pc n + 2 ^ 16 * win)

/-! ## Waits and marks (R264 to R269) -/

/-- WAITT (R264): an absent stamp ends it at once with TIMEOUT. -/
def execWaitt (n : Nat) (s : State) : Out :=
  .next (issue n 0x30 (fun w s =>
    match s.selected n w with
    | some st => beginWait n (.tick st) w.rd 0 s
    | none => fall n (s.setV n w.rd 1)) s)

/-- WAITM (R264). -/
def execWaitm (n : Nat) (s : State) : Out :=
  .next (issue n 0x31 (fun w s =>
    beginWait n (.mark (((if bitAt w.unit 0 then s.markNo else s.vreg n w.rs) + w.imm) % 2 ^ 32)) w.rd 0 s) s)

/-- WAITS (R224, R265). DESIGN CHOICE: assumption log 33. -/
def execWaits (n : Nat) (s : State) : Out := .next (issue n 0x32 (fun w s => beginWait n (.setp w.unit) w.rd w.imm s) s)

/-- WAITA (R265). -/
def execWaita (n : Nat) (s : State) : Out :=
  .next (issue n 0x33 (fun w s => beginWait n (.arrive (w.unit % 64) (s.vreg n w.rs)) w.rd w.imm s) s)

/-- A lane-only wait in a supervisor context (R243): nothing is performed, and the outcome is TIMEOUT. -/
def laneOnlyWait (n rd : Nat) (u : Nat) (s : State) : State := fall n ((supRefused n u s).setV n rd 1)

/-- BARL (R266). -/
def execBarl (n : Nat) (s : State) : Out :=
  .next (issue n 0x34 (fun w s =>
    if 8 ≤ n then laneOnlyWait n w.rd w.unit s
    else
      let s := (s.onCtx n (fun k => { k with
        wait := some ⟨.barl (bits w.imm 31 24) (bits w.imm 23 20), w.rd, s.now, bits w.imm 19 0⟩ })).setLst n 4
      endBarrier (bits w.imm 23 20) s) s)

/-- MARKQ (R268). -/
def execMarkq (n : Nat) (s : State) : Out :=
  .next (issue n 0x36 (fun w s => fall n ((s.setV n (pairOf w.rd) s.markNo).setV n (pairOf w.rd + 1) s.ticks)) s)

/-- WAITE (R225, R269). -/
def execWaite (n : Nat) (s : State) : Out :=
  .next (issue n 0x37 (fun w s => beginWait n (.sig (bits w.imm 31 20)) w.rd (bits w.imm 19 0) s) s)

/-! ## Unit operations (R254 to R261) -/

/-- A delivered operation of context n (R47, R221): one that is refused is not delivered; of a supervisor context every
refusal is recorded. DESIGN CHOICE: assumption log 137. -/
def deliverOp (n : Nat) (w : PWord) (kind : OpKind) (s : State) : State :=
  if s.opsStopped ∨ (8 ≤ n ∧ s.unitOk w.op w.unit = false) then fall n (if n < 8 then s else supRefused n w.unit s)
  else fall n (issueOp kind w.unit n (s.pc n) s)

/-- SETV (R255). -/
def execSetv (n : Nat) (s : State) : Out :=
  .next (issue n 0x20 (fun w s => deliverOp n w (.setp (bits w.imm 31 20) (bits w.imm 19 8) (bitAt w.imm 0)) s) s)

/-- A register-sourced code and slew lie in the ranges of a lane's declaration (R216, R255). -/
def State.inRange (s : State) (n u code slew : Nat) : Bool :=
  match (s.lane n).decls.find? (fun d => d.unit == u) with
  | some d => decide (d.vmin ≤ code ∧ code ≤ d.vmax ∧ 4 ≤ slew ∧ slew ≤ s.slewMax)
  | none => false

/-- SETVR (R255): a lane faults with RANGE; a supervisor context's code and slew are cut to 12 bits. -/
def execSetvr (n : Nat) (s : State) : Out :=
  .next (issue n 0x21 (fun w s =>
    let code := s.vreg n w.rs
    let slew := s.vreg n (bits w.imm 31 28)
    if n < 8 ∧ s.inRange n w.unit code slew = false then laneFault n 2 (s.pc n) s
    else deliverOp n w (.setp (code % 4096) (slew % 4096) (bitAt w.imm 0)) s) s)

/-- RAMP (R256, R247). -/
def execRamp (n : Nat) (s : State) : Out :=
  .next (issue n 0x22 (fun w s => deliverOp n w (.ramp (bits w.imm 31 20) (bits w.imm 19 0)) s) s)

/-- LLS (R257). -/
def execLls (n : Nat) (s : State) : Out := .next (issue n 0x23 (fun w s => deliverOp n w (.lls (bits w.imm 9 0)) s) s)

/-- GSEL (R257). -/
def execGsel (n : Nat) (s : State) : Out :=
  .next (issue n 0x24 (fun w s => deliverOp n w (.gsel (bits w.imm 4 4) (bits w.imm 3 0)) s) s)

/-- ARM (R242, R258). -/
def execArm (n : Nat) (s : State) : Out :=
  .next (issue n 0x25 (fun w s =>
    match s.selected n w with
    | some st => deliverOp n w (.arm st (w.ssrc == 0)) s
    | none => fall n (stampAbsent n w.swin s)) s)

/-- STAND (R247, R260). -/
def execStand (n : Nat) (s : State) : Out :=
  .next (issue n 0x26 (fun w s =>
    if bits w.imm 1 0 = 3 then fall n (if n < 8 then s else supRefused n w.unit s)
    else deliverOp n w (.stand (bits w.imm 1 0)) s) s)

/-- PWRON (R261). -/
def execPwron (n : Nat) (s : State) : Out := .next (issue n 0x27 (fun w s => deliverOp n w .pwron s) s)

/-- PWROFF (R261). -/
def execPwroff (n : Nat) (s : State) : Out := .next (issue n 0x28 (fun w s => deliverOp n w .pwroff s) s)

/-- FCST (R242, R259). -/
def execFcst (n : Nat) (s : State) : Out :=
  .next (issue n 0x42 (fun w s =>
    let win := bits w.imm 29 24
    let mx := bits w.imm 15 0
    match s.winStamp win 2 with
    | some st => deliverOp n w (.cover (some st) (if mx = 0 then none else some (s.now + 500 * mx))) s
    | none => if mx = 0 then fall n (stampAbsent n win s) else deliverOp n w (.cover none (some (s.now + 500 * mx))) s) s)

/-! ## RDT (R33, R262, R263) -/

/-- A unit's telemetry record (R31, R33): current in mA, lowest and highest voltage in 62.5 µV with the members that hold
them, NO_DATA, highest temperature in 0.25 °C with its member, a phase's over-temperature flag, fault output with its
stamp and the member that raised it first, active phase count. A leaf is its own member. -/
structure UnitRec where
  cur : Nat := 0
  vmin : Nat := 0
  vminId : Nat := 0
  vmax : Nat := 0
  vmaxId : Nat := 0
  noData : Bool := true
  temp : Int := 0
  tempId : Nat := 0
  ot : Bool := false
  fault : Nat := 0
  faultAny : Bool := false
  faultAt : Stamp := ⟨0, 0⟩
  faultId : Nat := 0
  phases : Nat := 0
  deriving DecidableEq, Repr

/-- The record of a leaf unit u from the snapshot record of its crew. -/
def Snap.leaf (r : Snap) (u cur phases : Nat) (ot : Bool) : UnitRec :=
  ⟨cur, if r.noData then 0 else r.volt, u, if r.noData then 0 else r.volt, u, r.noData, r.temp, u, ot, r.fault, r.faultAny,
    r.faultAt, u, phases⟩

/-- The record of a group after one more member v with record r: what an earlier member holds alike it keeps. -/
def State.addMember (s : State) (a : UnitRec) (v : Nat) (r : UnitRec) (first : Bool) : UnitRec :=
  let a := { a with cur := a.cur + r.cur, phases := a.phases + r.phases }
  let a := if r.noData ∨ (a.noData = false ∧ a.vmin ≤ r.vmin) then a else { a with vmin := r.vmin, vminId := v }
  let a := if r.noData ∨ (a.noData = false ∧ r.vmax ≤ a.vmax) then a else { a with vmax := r.vmax, vmaxId := v }
  let a := { a with noData := a.noData && r.noData }
  let a := if first ∨ a.temp < r.temp then { a with temp := r.temp, tempId := v } else a
  if r.faultAny && (!a.faultAny || decide (a.fault < r.fault) || (a.fault == r.fault && s.before r.faultAt a.faultAt)) then
    { a with fault := r.fault, faultAny := true, faultAt := r.faultAt, faultId := v }
  else a

/-- The record of a group from its members' records, in member order. -/
def State.groupRec (s : State) (l : List (Nat × UnitRec)) : UnitRec :=
  match l with
  | [] => {}
  | (v, r) :: t => t.foldl (fun a x => s.addMember a x.1 x.2 false) (s.addMember {} v r true)

/-- The telemetry record of unit u from the last complete snapshot, members followed n levels (R33, R391). A phase has its
share of its crew's current while it was in the ring at the snapshot's mark. -/
def State.unitRecN (s : State) : Nat → Nat → UnitRec
  | 0, _ => {}
  | n + 1, u =>
    let crewCur (r : Snap) : Nat := if r.state ∈ [0, 1, 5, 6, 8, 9] then 0 else r.current
    if u < 0x600 then
      let r := s.snap (u / 8)
      let on := r.ring.testBit (u % 8)
      r.leaf u (if on ∧ r.phases ≠ 0 then (roundOpen (crewCur r) r.phases).toNat else 0) on.toNat (r.ot.testBit (u % 8))
    else if u < 0x6C0 then (s.snap (u - 0x600)).leaf u (crewCur (s.snap (u - 0x600))) (s.snap (u - 0x600)).phases false
    else s.groupRec ((s.members u).map (fun v => (v, s.unitRecN n v)))

/-- The telemetry record of unit u: depth is at most 8 (R41). -/
def State.unitRec (s : State) (u : Nat) : UnitRec := s.unitRecN 9 u

/-- A snapshot value of unit u by its selector (R262); a reserved one gives 0 (R247).
DESIGN CHOICE: assumption log 31. -/
def State.rdtValue (s : State) (u sel : Nat) : Nat :=
  let r := s.unitRec u
  let uv (v : Nat) : Nat := (roundOpen ((125 * v : Nat) : Int) 2).toNat
  match sel with
  | 0 => r.cur
  | 1 => uv r.vmin
  | 2 => uv r.vmax
  | 3 => unsg 32 r.temp
  | 4 => if r.faultAny then r.fault else 0x80000000
  | 5 => r.phases
  | 6 => s.get DESC_W3.CONT_RATING u
  | _ => 0

/-- RDT (R262, R247): the snapshot form writes its value; the urgent form sends its request and stalls. -/
def execRdt (n : Nat) (s : State) : Out :=
  .next (issue n 0x29 (fun w s =>
    let u := w.unit
    if bitAt w.imm 31 = false then
      if 8 ≤ n ∧ s.unitExists u = false then fall n ((supRefused n u s).setV n w.rd 0)
      else fall n (s.setV n w.rd (s.rdtValue u (bits w.imm 3 0)))
    else if u < 0x600 ∨ 0x6C0 ≤ u then fall n ((if n < 8 then s else supRefused n u s).setV n w.rd 0x80000000)
    else if 18 ≤ bits w.imm 4 0 then fall n (s.setV n w.rd 0x80000000)
    else
      let s := s.onCrew (u - 0x600) (fun k => { k with rdtWant := k.rdtWant ++ [(n, bits w.imm 4 0)] })
      s.onCtx n (fun k => { k with wait := some ⟨.rdt, w.rd, s.now, 0⟩ })) s)

/-- RDT_RESULT (R263): an answer reaches its context, which goes on; a STOP that waited takes effect. -/
def execRdtResult (s : State) : Out :=
  match s.rdtAns with
  | [] => .next s
  | (n, v) :: rest =>
    let s := { s with rdtAns := rest }
    match (s.ctx n).wait with
    | some ⟨.rdt, rd, _, _⟩ =>
      let stop := (s.ctx n).stopPend
      let s := fall n (((s.unstalled n).onCtx n (fun k => { k with wait := none, stopPend := false })).setV n rd v)
      .next (if stop ∧ n < 8 then stopHalt n (s.pc n) s else s)
    | _ => .next s

/-! ## Windows, heats, slack, events (R270 to R275) -/

/-- A supervisor context may open and close window w (R270). -/
def State.supWindow (s : State) (w : Nat) : Bool := s.flag FCW_CFG.SUPER w || s.lst (s.get FCW_CFG.OWNER w) == 0

/-- WOPEN (R187, R270). -/
def execWopen (n : Nat) (s : State) : Out :=
  .next (issue n 0x40 (fun w s =>
    fall n (if 8 ≤ n ∧ s.supWindow (w.unit % 64) = false then supRefused n (w.unit % 64) s else windowOpen (w.unit % 64) s)) s)

/-- WCLOSE (R188, R270). -/
def execWclose (n : Nat) (s : State) : Out :=
  .next (issue n 0x41 (fun w s =>
    fall n (if 8 ≤ n ∧ s.supWindow (w.unit % 64) = false then supRefused n (w.unit % 64) s else windowClose (w.unit % 64) s)) s)

/-- HEAT (R242, R271). -/
def execHeat (n : Nat) (s : State) : Out :=
  .next (issue n 0x43 (fun w s =>
    if w.unit < 0x6E0 ∨ 0x6E8 ≤ w.unit then fall n (if n < 8 then s else supRefused n w.unit s)
    else match s.selected n w with
      | some st => fall n (openGated (w.unit - 0x6E0) st s)
      | none => fall n (stampAbsent n w.swin s)) s)

/-- The value of a CAPQ selector (R272, R309). -/
def State.capq (s : State) (sel u : Nat) : Nat :=
  let margin (k : Nat) (v : Nat) : Nat := unsg 32 ((s.get CAP_LIM.LIMIT k : Int) - s.get CAP_VALS.VALUE v)
  match sel with
  | 0 => s.get CAP_VALS.VALUE 1
  | 1 => margin 0 1
  | 2 => margin 1 2
  | 3 => margin 2 3
  | 4 => (if s.estMode then 0 else 2 ^ 31) + (roundRat (s.estOf u / 1000)).toNat % 2 ^ 31
  | 5 =>
    let b := s.get CAP_STAT.CEIL_BOUND 0
    s.get CAP_STAT.BIND_1MS 0 + 2 * s.get CAP_STAT.BIND_10MS 0 + 4 * s.get CAP_STAT.BIND_SUS 0 +
      (16 * bits b 2 2 + 32 * bits b 3 3 + 64 * bits b 1 1 + 128 * bits b 0 0)
  | _ => 0

/-- CAPQ (R272): an unknown unit in a supervisor context is refused (R221). DESIGN CHOICE: assumption log 33. -/
def execCapq (n : Nat) (s : State) : Out :=
  .next (issue n 0x44 (fun w s =>
    let sel := bits w.imm 3 0
    if 8 ≤ n ∧ sel = 4 ∧ s.unitExists w.unit = false then fall n ((supRefused n w.unit s).setV n w.rd 0)
    else fall n (s.setV n w.rd (s.capq sel w.unit))) s)

/-- EVT (R275): at most 16 in a mark; the next recorded one carries how many were dropped. -/
def execEvt (n : Nat) (s : State) : Out :=
  .next (issue n 0x50 (fun w s =>
    let k := s.ctx n
    if 16 ≤ k.evts then fall n (s.setCtx n { k with dropped := k.dropped + 1 })
    else
      let e : Event := ⟨0x0703, 4, n, s.stampNow, s.pc n + 2 ^ 16 * bits w.imm 15 0, k.v w.rs, min k.dropped 255, false⟩
      fall n ((s.setCtx n { k with evts := k.evts + 1, dropped := 0 }).raiseEv e)) s)

/-- The program-event counts of a new mark (R275). -/
def evtMark (s : State) : State := forAll (List.range 12) (fun s n => if (s.ctx n).evts = 0 then s else s.onCtx n (fun k => { k with evts := 0 })) s

/-! ## Supervisor instructions (R276 to R280) -/

/-- A memory access of a supervisor context starts, and the context stalls (R276, R277). -/
def startAccess (kind n : Nat) (w : PWord) (s : State) : State :=
  let wide := bitAt w.unit 0
  let rd := if wide then pairOf w.rd else w.rd
  let data := s.vreg n rd + (if wide then 2 ^ 32 * s.vreg n (rd + 1) else 0)
  s.onCtx n (fun k => { k with wait := some ⟨.access kind ((k.v w.rs + w.imm) % 2 ^ 32) wide data, rd, s.now, 0⟩ })

/-- LD. -/
def execLd (n : Nat) (s : State) : Out := .next (issue n 0x60 (startAccess 0 n) s)
/-- ST. -/
def execSt (n : Nat) (s : State) : Out := .next (issue n 0x61 (startAccess 1 n) s)
/-- AADD. -/
def execAadd (n : Nat) (s : State) : Out := .next (issue n 0x62 (startAccess 2 n) s)
/-- SWAP. -/
def execSwap (n : Nat) (s : State) : Out := .next (issue n 0x63 (startAccess 3 n) s)

/-- GRANT (R218, R278). -/
def execGrant (n : Nat) (s : State) : Out :=
  .next (issue n 0x64 (fun w s =>
    let l := bits w.unit 2 0
    let ws := (List.range 6).map (fun k => s.vreg n (w.rs + k))
    let x := s.vreg n (w.rs + 6)
    let r := s.grantResult l ws x
    fall n ((if r = 0 then setGrant l ws x s else s).setV n w.rd r)) s)

/-- SIGNAL (R280). -/
def execSignal (n : Nat) (s : State) : Out :=
  .next (issue n 0x66 (fun w s =>
    let c := bits w.unit 3 0
    fall n (if c < 12 then setSig c (bits w.imm 7 0) s else s)) s)

end Sys2Proof.Machine
end

