-- ==== Sys2Proof/Machine/Collector.lean ====
section
/-! DEFINITION. What the fault collector keeps (chapters 12 and 13): the recorder, the history queue and the first-fault
capture, the FC2 table, and the recurrences of cleared pairs. -/

namespace Sys2Proof.Machine

open Sys2Proof

/-! ## Scopes (R365, R366, and the tables of chapters 13 to 16) -/

/-- The plane of an event about a crew or a plane. -/
def eventPlane (e : Event) : List Nat :=
  if e.kind ≠ 1 then []
  else if 0x600 ≤ e.src ∧ e.src < 0x6C0 then [planeOf (e.src - 0x600)]
  else if 0x6C0 ≤ e.src ∧ e.src < 0x6E0 then [e.src - 0x6C0] else []

/-- The planes that an FC2 event names in its scope. -/
def scopeOf (e : Event) : List Nat :=
  if e.code = 0x0607 then
    (if e.kind = 3 then ([e.src, e.d0 % 2 ^ 16].filter (fun r => decide (r < 24))).map (fun r => 4 * (r / 3)) else []).eraseDups
  else if e.code = 0x0805 then (List.range 8).map (fun f => 4 * f)
  else if e.code = 0x0D06 ∨ e.code = 0x0E05 then List.range 32
  else if e.code = 0x0706 ∨ e.code = 0x0C03 then []
  else eventPlane e

/-! ## Records (R363, R364, R406, R407) -/

/-- The number after n, where 0 is never used. -/
def nextSeq (n : Nat) : Nat := if n % 2 ^ 32 = 0xFFFFFFFF then 1 else n % 2 ^ 32 + 1

/-- The recorder writes a record (R406, R407). -/
def record (e : Event) (inSafe first : Bool) (fltSeq : Nat) (s : State) : State :=
  let n := s.get REC_HEAD.NEXT_SEQ 0
  let r : Rec := ⟨n, e, inSafe, first, fltSeq⟩
  let s := { s.put REC_HEAD.NEXT_SEQ 0 (nextSeq n) with
             ring := (r :: s.ring).take 4096, recLap := s.recLap || n == 0xFFFFFFFF
             firstArea := if s.firstArea.length < 512 then s.firstArea ++ [r] else s.firstArea }
  s.put REC_CTL.FIRST_USED 0 s.firstArea.length

/-- An FC1, FC2 or FC3 event takes the next collector number in the history queue (R363), and may be the first fault
captured (R364): the number, and whether it was. -/
def history (e : Event) (inSafe : Bool) (s : State) : State × Nat × Bool :=
  let n := s.get FLT_HIST_HEAD.NEXT_SEQ 0
  let first : Bool := decide (2 ≤ classNo e.code) && !s.flag FLT_STAT.FIRST_VALID 0
  let x : FEntry := ⟨n, e, false, inSafe, first, 0⟩
  let s := { s.put FLT_HIST_HEAD.NEXT_SEQ 0 (nextSeq n) with fltHist := tset s.fltHist (n % 16) x }
  (if first then { s.put FLT_STAT.FIRST_VALID 0 1 with fltFirst := some x } else s, n, first)

/-! ## The FC2 table (R366, R369) -/

/-- The entry in use of a pair of code and source. -/
def State.fc2Find (s : State) (e : Event) : Option (Nat × FEntry) :=
  s.fc2.find? (fun x => x.2.ev.code == e.code && x.2.ev.kind == e.kind && x.2.ev.src == e.src)

/-- The lowest free index of the FC2 table; an entry is free only from the cycle after its clear (R374). -/
def State.fc2Free (s : State) : Option Nat := (List.range 32).find? (fun k => !thas s.fc2 k && !(s.cyc.on && thas s.cyc.freed k))

/-- An FC2 event takes its entry: whether one was to be had. -/
def fc2Take (e : Event) (n : Nat) (inSafe first : Bool) (s : State) : State × Bool :=
  match s.fc2Find e with
  | some (k, x) => ({ s with fc2 := tset s.fc2 k { x with repeats := min 255 (x.repeats + 1), live := x.live || !e.injected } }, true)
  | none =>
    match s.fc2Free with
    | some k =>
      (forAll (scopeOf e) (fun s p => latchStatus p 0x10 0 0 s) { s with fc2 := tset s.fc2 k ⟨n, e, !e.injected, inSafe, first, 0⟩ }, true)
    | none => (s, false)

/-- The pair of a cleared entry and an event. -/
def Cleared.isPair (r : Cleared) (e : Event) : Bool := r.code == e.code && r.kind == e.kind && r.src == e.src

/-- The record of a clear of this cycle, as an event, is no more. -/
def Event.clears (x e : Event) : Bool := x.code == 1 && x.d0 == e.code && x.d1 == e.src

/-- An event whose pair was cleared in this cycle comes before that clear, which finds LIVE set and is refused (R374): the
entry is there as before, with the record of an earlier clear of the pair. -/
def undoClear (e : Event) (s : State) : State :=
  match s.cyc.freed.find? (fun x => s.cyc.on && (x.2.1.ev.code == e.code && x.2.1.ev.kind == e.kind && x.2.1.ev.src == e.src)) with
  | none => s
  | some (k, x, old) =>
    let n := s.get FLT_CLEAR_STAT.CLEARED 0 - 1
    let s := { s with
      fc2 := tset s.fc2 k x
      cyc := { s.cyc with freed := tdel s.cyc.freed k }
      cleared := s.cleared.filter (fun (r : Cleared) => !r.isPair e) ++ old.toList
      intake := match s.intake.findIdx? (fun (y : Event) => y.clears e) with
        | some i => s.intake.eraseIdx i
        | none => s.intake }
    ((s.put FLT_CLEAR_STAT.CLEARED 0 n).put FLT_CLEAR_STAT.RESULT 0 (if n = 0 then 2 else 1)).put FLT_STAT.FIRST_VALID 0
      (max (s.get FLT_STAT.FIRST_VALID 0) (s.was FLT_STAT.FIRST_VALID 0))

/-- FC2_RECURRENCE (R369): the first event of a cleared pair since its clear counts within 100 ms of it, and resets the
count beyond; the third in a row raises FC3. DESIGN CHOICE: assumption log 74. -/
def recurrence (e : Event) (s : State) : State :=
  match s.cleared.find? (fun r => r.isPair e && r.armed) with
  | none => s
  | some r =>
    let n := if s.now ≤ r.at_ + 50000000 then r.count + 1 else 0
    let s := { s with cleared := s.cleared.map (fun x => if x.isPair e then { x with armed := false, count := n } else x) }
    if n = 3 then s.raise 0x0002 0 0 (e.code % 2 ^ 16 + 2 ^ 16 * (e.src % 2 ^ 16)) else s

/-! ## What every classified event leaves (R361, R406) -/

/-- The collector counts event e, keeps it in the history queue and the FC2 table as its class says, records it, and
triggers the streams that wait for its class (R401): the state, and whether an FC2 event has its entry. -/
def collect (e : Event) (safe : Bool) (s : State) : State × Bool :=
  let cl := classNo e.code
  let s := s.bump (if cl = 0 then FLT_CNT.FC0 else if cl = 1 then FLT_CNT.FC1 else if cl = 2 then FLT_CNT.FC2 else FLT_CNT.FC3) 0
  let (s, n, first) := if cl = 0 then (s, 0, false) else history e safe s
  let (s, room) := if cl = 2 then fc2Take e n safe first s else (s, true)
  let s := record e safe first n s
  (triggerStreams (fun s st => s.get CAP_MON_STRIG.TSRC st == 3 && decide (s.get CAP_MON_STRIG.CLASS st ≤ cl)) s, room)

/-- An event that arose before step COLLECTOR is classified at it (R439): every plane is OFF, so that a fault shutdown
finds nothing to do. One that starts a stop waits for the steps to end. DESIGN CHOICE: assumption log 63. -/
def collectFuse (e : Event) (s : State) : State :=
  let safe := s.flag FLT_STAT.SAFE 0
  let cl := classNo e.code
  if cl = 3 ∨ e.code = 0x0D06 ∨ e.code = 0x0E05 then { s with intake := s.intake ++ [e] }
  else
    let (s, room) := collect e safe s
    if safe then s
    else
      let s := if 2 ≤ cl ∨ (cl = 1 ∧ s.flag FLT_CTL.ALERT_FC1 0) then s.setOver FLT_STAT.ALERT_PEND 0 else s
      if cl = 2 then
        let s := recurrence e s
        if room then s else s.raise 0x0003 0 0 e.code e.src
      else s

end Sys2Proof.Machine
end

