-- ==== Sys2Proof/Machine/Crypto.lean ====
section
/-! DEFINITION. SHA-384 and the verification of ECDSA signatures on P-384, which the firmware check names (R431) and
their public standards define (PRESUMED, assumption log 40). -/

namespace Sys2Proof.Machine

open Sys2Proof

/-! ## SHA-384 -/

/-- A 64-bit word rotated right. -/
def ror64 (x k : Nat) : Nat := x / 2 ^ k + x % 2 ^ k * 2 ^ (64 - k)

/-- The greatest r below 2^k, over the bits found so far, with r^e at most n. -/
def rootOf (e n : Nat) : Nat → Nat → Nat
  | 0, r => r
  | k + 1, r => rootOf e n k (if (r + 2 ^ k) ^ e ≤ n then r + 2 ^ k else r)

/-- The first 64 bits after the point of the e-th root of p. -/
def fracRoot (e p : Nat) : Nat := rootOf e (p * 2 ^ (64 * e)) 72 0 % 2 ^ 64

/-- The first 80 primes: the numbers up to 409 that no prime below 23 divides, other than itself. -/
def primes80 : List Nat :=
  (List.range 410).filter (fun n => decide (2 ≤ n) && [2, 3, 5, 7, 11, 13, 17, 19].all (fun d => n % d != 0 || n == d))

/-- The round constants: of the cube roots of the first 80 primes. -/
def shaK : List Nat := primes80.map (fracRoot 3)

/-- The initial hash value of SHA-384: of the square roots of the ninth to the sixteenth prime. -/
def shaH : List Nat := ((primes80.drop 8).take 8).map (fracRoot 2)

/-- The value of big-endian bytes. -/
def beVal (l : List Byte) : Nat := l.foldl (fun a b => 256 * a + b.toNat) 0

/-- The message padded to whole blocks of 128 bytes. -/
def shaPad (m : List Byte) : List Byte :=
  m ++ [0x80#8] ++ List.replicate ((239 - m.length % 128) % 128) 0#8 ++
    (leBytes 16 (8 * m.length)).reverse

/-- The next word of the message schedule; the words so far come newest first. -/
def shaNext (w : List Nat) : Nat :=
  let a := w.getD 14 0
  let b := w.getD 1 0
  let s0 := Nat.xor (Nat.xor (ror64 a 1) (ror64 a 8)) (a / 2 ^ 7)
  let s1 := Nat.xor (Nat.xor (ror64 b 19) (ror64 b 61)) (b / 2 ^ 6)
  (w.getD 15 0 + s0 + w.getD 6 0 + s1) % 2 ^ 64

/-- The words of the schedule, n more of them. -/
def shaMore : Nat → List Nat → List Nat
  | 0, w => w
  | n + 1, w => shaMore n (shaNext w :: w)

/-- One round over the working variables. -/
def shaRound (v : List Nat) (kw : Nat × Nat) : List Nat :=
  match v with
  | [a, b, c, d, e, f, g, h] =>
    let s1 := Nat.xor (Nat.xor (ror64 e 14) (ror64 e 18)) (ror64 e 41)
    let ch := Nat.xor (Nat.land e f) (Nat.land (2 ^ 64 - 1 - e) g)
    let t1 := h + s1 + ch + kw.1 + kw.2
    let s0 := Nat.xor (Nat.xor (ror64 a 28) (ror64 a 34)) (ror64 a 39)
    let maj := Nat.xor (Nat.xor (Nat.land a b) (Nat.land a c)) (Nat.land b c)
    [(t1 + s0 + maj) % 2 ^ 64, a, b, c, (d + t1) % 2 ^ 64, e, f, g]
  | _ => v

/-- The sixteen words of a block. -/
def shaWords (blk : List Byte) : List Nat := (List.range 16).map (fun k => beVal ((blk.drop (8 * k)).take 8))

/-- One block. -/
def shaBlock (h : List Nat) (blk : List Byte) : List Nat :=
  let w := (shaMore 64 (shaWords blk).reverse).reverse
  (h.zip ((shaK.zip w).foldl shaRound h)).map (fun e => (e.1 + e.2) % 2 ^ 64)

/-- The first n blocks of padded bytes. -/
def shaBlocks : Nat → List Nat → List Byte → List Nat
  | 0, h, _ => h
  | n + 1, h, l => shaBlocks n (shaBlock h (l.take 128)) (l.drop 128)

/-- SHA-384 of a message, as its 48 bytes. PRESUMED: assumption log 40. -/
def sha384 (m : List Byte) : List Byte :=
  let p := shaPad m
  ((shaBlocks (p.length / 128) shaH p).take 6).flatMap (fun x => (leBytes 8 x).reverse)

/-! ## ECDSA on P-384 -/

/-- The field prime, the coefficient b, the base point and the group order. -/
def ecP : Nat := 2 ^ 384 - 2 ^ 128 - 2 ^ 96 + 2 ^ 32 - 1
def ecB : Nat := 0xB3312FA7E23EE7E4988E056BE3F82D19181D9C6EFE8141120314088F5013875AC656398D8A2ED19D2A85C8EDD3EC2AEF
def ecG : Nat × Nat := (0xAA87CA22BE8B05378EB1C71EF320AD746E1D3B628BA79B9859F741E082542A385502F25DBF55296C3A545E3872760AB7,
  0x3617DE4A96262C6F5D9E98BF9292DC29F8F41DBD289A147CE9DA3113B5F0B8C00A60B1CE1D7E819D7A431D7C90EA0E5F)
def ecN : Nat := 0xFFFFFFFFFFFFFFFFFFFFFFFFFFFFFFFFFFFFFFFFFFFFFFFFC7634D81F4372DDF581A0DB248B0A77AECEC196ACCC52973

/-- Euclid's algorithm on r and q, with the multiples t and u of the number to invert that they are modulo m. -/
def euclid (m : Nat) : Nat → Nat → Nat → Nat → Nat → Nat
  | 0, _, _, t, _ => t
  | f + 1, r, q, t, u => if q = 0 then t else euclid m f q (r % q) u ((t + (m - r / q * u % m)) % m)

/-- The inverse modulo a prime of 384 bits; 0 for 0. -/
def invMod (m a : Nat) : Nat := euclid m 600 m (a % m) 0 1

/-- x − y modulo the field prime. -/
def ecSub (x y : Nat) : Nat := (x + ecP - y % ecP) % ecP

/-- The sum of two points; none is the point at infinity. -/
def ecAdd : Option (Nat × Nat) → Option (Nat × Nat) → Option (Nat × Nat)
  | none, q => q
  | p, none => p
  | some (x1, y1), some (x2, y2) =>
    if x1 = x2 ∧ (y1 + y2) % ecP = 0 then none
    else
      let l := if x1 = x2 then ecSub (3 * x1 * x1) 3 * invMod ecP (2 * y1) % ecP
        else ecSub y2 y1 * invMod ecP (ecSub x2 x1) % ecP
      let x := ecSub (l * l) (x1 + x2)
      some (x, ecSub (l * ecSub x1 x) y1)

/-- A multiple of a point, over the low f bits of k. -/
def ecMul : Nat → Nat → Option (Nat × Nat) → Option (Nat × Nat)
  | 0, _, _ => none
  | f + 1, k, p => ecAdd (if k % 2 = 1 then p else none) (ecMul f (k / 2) (ecAdd p p))

/-- The signature (r, s), 48 bytes each, verifies under the public key over a digest (R431).
PRESUMED: assumption log 40. -/
def ecdsaVerifies (key sig digest : List Byte) : Bool :=
  let x := beVal (key.take 48)
  let y := beVal ((key.drop 48).take 48)
  let r := beVal (sig.take 48)
  let s := beVal ((sig.drop 48).take 48)
  if x < ecP ∧ y < ecP ∧ y * y % ecP = ecSub (x * x * x + ecB) (3 * x) ∧ 0 < r ∧ r < ecN ∧ 0 < s ∧ s < ecN then
    let w := invMod ecN s
    match ecAdd (ecMul 384 (beVal digest * w % ecN) (some ecG)) (ecMul 384 (r * w % ecN) (some (x, y))) with
    | none => false
    | some (vx, _) => vx % ecN == r
  else false

end Sys2Proof.Machine
end

