-- ==== Sys2Proof/Machine/Boot.lean ====
section
/-! DEFINITION. The start-up steps (chapter 15) with the firmware check (chapter 14): from VAON valid, or a FULL reset,
to release or recovery. -/

namespace Sys2Proof.Machine

open Sys2Proof

/-! ## The firmware image (R430, R431) -/

/-- n little-endian bytes at offset a of an image. -/
def imgVal (img : Nat → Byte) (a n : Nat) : Nat := leVal ((List.range n).map (fun k => img (a + k)))

/-- The bytes of an image from a on, n of them. -/
def imgBytes (img : Nat → Byte) (a n : Nat) : List Byte := (List.range n).map (fun k => img (a + k))

/-- A length or reserved field of the header breaks R430, or the data lies outside coordinator memory (R431). -/
def fwBadFormat (img : Nat → Byte) (room : Nat) : Bool :=
  let w (a : Nat) : Nat := imgVal img a 4
  let code := w 0x0C
  let data := w 0x10
  let at_ := w 0x14
  w 0x04 != 0x02000001 || bits (w 0x08) 31 16 != 0 ||
    decide (code % 8 ≠ 0 ∨ code < 8 ∨ 262144 < code ∨ data % 8 ≠ 0 ∨ 1048576 < data ∨ at_ % 8 ≠ 0) ||
    decide (at_ < 0x400000 ∨ 0x800000 < at_ + data) ||
    [0x18, 0x1C, 0x20, 0x24].any (fun a => decide (32768 ≤ w a)) ||
    decide (w 0x28 % 2 = 0 ∨ 16 ≤ w 0x28) || w 0x2C != 0x200 + code + data || decide (room < 0x200 + code + data) ||
    (imgBytes img 0xF0 0x110).any (fun b => b != 0#8)

/-- The signed bytes (R430). -/
def fwSigned (img : Nat → Byte) : List Byte := imgBytes img 0 0x90 ++ imgBytes img 0xF0 (imgVal img 0x2C 4 - 0xF0)

/-- The reason code of an image of which `room` bytes may be read (R431). -/
def State.fwCheck (s : State) (img : Nat → Byte) (room : Nat) : Nat :=
  if room < 4 ∨ imgVal img 0 4 ≠ 0x4657494D then 1
  else if room < 0x200 ∨ fwBadFormat img room then 2
  else if (sha384 (imgBytes img 0x30 96)).map (·.toNat) ≠ s.keyHash then 3
  else if imgVal img 0x08 2 < s.get ID_FW_SVN.SVN_MIN 0 then 4
  else if ecdsaVerifies (imgBytes img 0x30 96) (imgBytes img 0x90 96) (sha384 (fwSigned img)) = false then 5
  else 0

/-- The byte at a flash address (R470). -/
def State.fl (s : State) (a : Nat) : Byte := mget 0xFF#8 s.flash a

/-- The image of slot k, 0 A or 1 B (R470). -/
def State.slotImg (s : State) (k : Nat) : Nat → Byte := fun a => s.fl (0x200000 * k + a)

/-- The reason code of slot k (R431): the failed reads of a slot come last in the table's order.
DESIGN CHOICE: assumption log 62. -/
def State.slotCheck (s : State) (inp : BootIn) (k : Nat) : Nat :=
  if inp.flashUp = false then 1
  else
    let code := s.fwCheck (s.slotImg k) 0x200000
    if code = 0 ∧ inp.slotErr.contains k then 6 else code

/-- The code and data of an image of the right format are copied into their place, where the copy is then verified, so
that one refused for its key, SVN or signature leaves its bytes there (R431). DESIGN CHOICE: assumption log 62. -/
def fwCopy (img : Nat → Byte) (code : Nat) (s : State) : State :=
  if code ∈ [0, 3, 4, 5] then
    let n := imgVal img 0x0C 4
    let s := s.wrBytes 0x800000 (imgBytes img 0x200 n)
    s.wrBytes (imgVal img 0x14 4) (imgBytes img (0x200 + n) (imgVal img 0x10 4))
  else s

/-- The context of S`k` starts at its entry (R209, R440). -/
def startSuper (s : State) (k : Nat) : State :=
  ((s.setCtx (8 + k) {}).setPc (8 + k) (s.get ID_BOOT_ENTRY.ENTRY k)).setLst (8 + k) 3

/-- The contexts of START_MASK start (R432, R440). -/
def startSupers (s : State) : State := forAll (maskList (s.get ID_BOOT_STAT.START_MASK 0) 4) startSuper s

/-- The coordinator is released: mark 0 begins, its snapshot records are latched, and what they show of the time since the
previous record starts anew (R381, R389, R391). -/
def beginTime (s : State) : State :=
  let s := { s with markStart := s.now, markLen := s.get TB_CTL.PERIOD 0, pastLens := [], strobe := none, snaps := [] }
  let t := latchSnap 0 s.markLen (allCrews.map s.snapOf) (s.put TB_NOW_MARK.MARK 0 0)
  { t with crews := t.crews.map (fun e => (e.1, { e.2 with faultMax := none, vLo := none, vHi := none })) }

/-- An image that passed, and whose copy is in its place, is started: the coordinator is released (R430 to R432, R438,
R440); BOOT_US counts on from the entry into recovery, where there was one (R460). DESIGN CHOICE: assumption log 62. -/
def fwStart (img : Nat → Byte) (s : State) : State :=
  let s := beginTime (s.put ID_BOOT_STAT.BOOT_US 0 (min (s.get ID_BOOT_STAT.BOOT_US 0 + (s.now - s.bootAt) / 500) (2 ^ 20 - 1)))
  let s := ((s.put ID_FW_SVN.SVN 0 (imgVal img 0x08 2)).put ID_FW_STAT.MODE 0 1).put ID_BOOT_STAT.START_MASK 0 (imgVal img 0x28 4)
  let s := forAll (List.range 4) (fun s k => s.put ID_BOOT_ENTRY.ENTRY k (imgVal img (0x18 + 4 * k) 4)) s
  startSupers (s.put ID_BOOT_STAT.STEP 0 7)

/-- "Firmware image refused" with the slot and the code (R432). -/
def fwRefused (k code : Nat) (s : State) : State := s.raise 0x0C06 0 0 (k + 2 ^ 16 * code)

/-- RECOVERY (R433): no slot passes. DESIGN CHOICE: assumption log 62. -/
def recovery (s : State) : State := (s.put ID_FW_STAT.MODE 0 2).put ID_BOOT_STAT.STEP 0 8

/-- Step FIRMWARE and what follows it (R432, R438). -/
def fwStep (inp : BootIn) (s : State) : State :=
  let a := s.slotCheck inp 0
  let s := (fwCopy (s.slotImg 0) a s).put ID_FW_STAT.REASON_A 0 a
  if a = 0 then fwStart (s.slotImg 0) (s.put ID_FW_STAT.SLOT 0 0)
  else
    let s := fwRefused 0 a s
    let b := s.slotCheck inp 1
    let s := (fwCopy (s.slotImg 1) b s).put ID_FW_STAT.REASON_B 0 b
    if b = 0 then fwStart (s.slotImg 1) (s.put ID_FW_STAT.SLOT 0 1)
    else recovery (fwRefused 1 b s)

/-! ## FUSES (R37, R85, R169, R417) -/

/-- The fuse values, cut to the widths of the fields that they name. DESIGN CHOICE: assumption log 22. -/
def cutFuses (l : List (FKey × Nat)) : List (FKey × Nat) :=
  l.filterMap (fun e => match e.1.reg.fields.find? (fun f => f.lo == e.1.lo) with
    | some f => some (e.1, e.2 % 2 ^ f.width)
    | none => none)

/-- A region register of R417 as its word. -/
def putRegion (i v : Nat) (s : State) : State :=
  ((((s.put ID_RGN.EN i (bits v 31 31)).put ID_RGN.W i (bits v 30 30)).put ID_RGN.R i (bits v 29 29)).put ID_RGN.LAST i
    (bits v 27 16)).put ID_RGN.FIRST i (bits v 11 0)

/-- The region registers at release (R417). -/
def releaseRegions (s : State) : State :=
  [(0, 0xEFFF0000), (16, 0xAFFF0000), (17, 0xE5FF0400), (18, 0xC3FF0000), (32, 0xA7FF0400), (64, 0xE7FF0400),
    (80, 0xA7FF0400)].foldl (fun s e => putRegion e.1 e.2 s) s

/-- The phases that the fuse map takes out (R85). -/
def State.fusedPhases (s : State) : List Nat :=
  (List.range 1536).filter (fun ph => (s.get CREW_PH_STATE.FUSED (ph / 8)).testBit (ph % 8))

/-- Words 3 and 5 of the entries over a fused phase, as the boot ROM writes them (R37, R39). -/
def fuseUnits (l : List Nat) (s : State) : State :=
  if l = [] then s
  else forAll (s.units.filter (fun u => l.any (fun ph => (s.leafPhases u).contains ph))) (fun s u =>
    let live := (s.leafPhases u).filter (fun ph => !l.contains ph)
    ((s.put DESC_W3.CONT_RATING u (28 * live.length)).put DESC_W3.PEAK_RATING u (40 * live.length)).put DESC_W5.ACTIVE_PHASES u
      live.length |>.mark DESC_W5.FUSED u (decide (u < 0x600))) s

/-- The least capacity of plane p in A (R169). -/
def minCapacity (p : Nat) : Nat := [1792, 392, 98, 98].getD (p % 4) 0

/-- A plane below its least capacity is held off (R169). -/
def planeCheck (s : State) (p : Nat) : State :=
  if 14 * sumN ((planeCrews p).map s.usable) < minCapacity p then
    (s.onPlane p (fun q => { q with heldOff := true })).raisePlane 0x050A p
  else s

/-- What the fuse map leaves of crew c: forced down below five phases (R166), and H begins with the first slot of its
sequence, whose rotor skips FUSED phases (R98, R99). -/
def fuseCrew (s : State) (c : Nat) : State :=
  let s := if s.usable c < 5 then s.put CREW_PWR_STAT.FORCED c 1 else s
  if s.plainSlot c = (s.crew c).slot then s else s.onCrew c (fun k => { k with slot := s.plainSlot c })

/-- Step FUSES. -/
def fuseStep (s : State) : State :=
  let l := s.fusedPhases
  let s := forAll l (fun s ph => s.onPhase ph (fun p => { p with st := .fused })) s
  let s := forAll allCrews fuseCrew s
  releaseRegions (forAll (List.range 32) planeCheck (fuseUnits l s))

/-! ## MARCH and LOG (R337, R424, R469) -/

/-- The first mismatch of a march that fails is recorded (R427). -/
def marchFail (x : Mismatch) (s : State) : State :=
  ((s.put ID_MARCH_FAIL.WORD 0 x.word).put ID_MARCH_FAIL.ELEMENT 0 x.element).put ID_MARCH_FAIL.BIT 0 x.bit

/-- Step MARCH (R424, R427): one march of all the banks; its first mismatch is recorded, and the banks that fail are
marked. -/
def marchStep (inp : BootIn) (s : State) : State :=
  if s.flag ID_FUSE.BOOT_MARCH 0 then
    let bad := inp.march.filter (fun e => decide (e.1 < 12))
    let s := (s.put ID_MARCH_STAT.RESULT 0 (if bad = [] then 2 else 3)).put ID_MARCH_STAT.ELAPSED 0 (min inp.marchUs (2 ^ 20 - 1))
    let s := match bad with
      | [] => s
      | e :: _ => marchFail e.2 s
    forAll (bad.map (·.1)) (fun s k => (s.setBank k 2).raise 0x0C04 0 0 k) s
  else s

/-- Flash offset of ring slot k, of first-area slot k (R335, R470). -/
def ringOfs (k : Nat) : Nat := 0x1F01000 + 0x1000 * (k / 8) + 0x40 * (k % 8)
def firstOfs (k : Nat) : Nat := 0x1F00000 + 0x40 * k

/-- The SEQ of a valid record at a flash offset (R337). -/
def State.logSeq (s : State) (a : Nat) : Option Nat :=
  let b := mgetList 0xFF#8 s.flash a 0x40
  if leVal (b.take 4) = 0x534C4F47 ∧ leVal (b.drop 0x3C) = crc32 (b.take 0x3C) then some (leVal ((b.drop 4).take 4)) else none

/-- A slot of the log that something has been programmed into. DESIGN CHOICE: assumption log 64. -/
def State.logUsed (s : State) (a : Nat) : Bool := (mgetList 0xFF#8 s.flash a 0x40).any (fun b => b != 0xFF#8)

/-- The ring slot with the highest valid SEQ, and that SEQ. -/
def State.logLast (s : State) : Option (Nat × Nat) :=
  (List.range 64).foldl (fun b k => match s.logSeq (ringOfs k), b with
    | some q, some (j, r) => if r < q then some (k, q) else some (j, r)
    | some q, none => some (k, q)
    | none, b => b) none

/-- The number of waiting records is shown. -/
def showLog (s : State) : State := (s.put THM_LOG_STAT.PENDING 0 s.logQ.length).mark THM_LOG_STAT.BUSY 0 (!s.logQ.isEmpty)

/-- The ring sector that is to be kept erased ahead of the next slot, where something stands in it (R335). -/
def State.eraseDue (s : State) : Option Nat :=
  let n := s.get THM_LOG_STAT.NEXT_SLOT 0
  let k := (n + 7) / 8 % 8
  if s.flash.any (fun e => decide (ringOfs (8 * k) ≤ e.1 ∧ e.1 < ringOfs (8 * k) + 0x1000)) then some k else none

/-- Step LOG: SFDP, with the clock held to 100 MHz (R469), and the scan of the shutdown log, with the sector to erase and the records that wait. DESIGN CHOICE: assumption log 64. -/
def logStep (inp : BootIn) (s : State) : State :=
  let s := match inp.sfdp with
    | some (mhz, size) => (s.put ID_FLASH_STAT.MHZ 0 (min 100 mhz)).put ID_FLASH_STAT.SIZE 0 size
    | none => s.put ID_FLASH_STAT.ERR 0 2
  let firsts := (List.range 8).filterMap (fun k => s.logSeq (firstOfs k))
  let top := max (maxN firsts) (match s.logLast with | some (_, q) => q | none => 0)
  let s := s.put THM_LOG_STAT.FIRST_USED 0 ((List.range 8).filter (fun k => s.logUsed (firstOfs k))).length
  let s := s.put THM_LOG_STAT.NEXT_SLOT 0 (match s.logLast with | some (k, _) => (k + 1) % 64 | none => 0)
  let s : State := if firsts.isEmpty && s.logLast.isNone then s else s.put THM_LOG_SEQ.NEXT_SEQ 0 (top + 1)
  showLog { s with logErase := s.eraseDue }

/-! ## The steps in order -/

/-- Step COLLECTOR (R375, R439): a latch that is set leads into the safe state, and the events that wait are classified in
the order in which they arose. -/
def collectorStep (s : State) : State :=
  let s := { s with fltInit := true }
  let s := if s.flag FLT_STAT.FC3 0 then
      { (s.put ID_BOOT_STAT.LATCH 0 1).put FLT_STAT.SAFE 0 1 with stopDone := true }
    else s
  s.intake.foldl (fun s e => collectFuse e s) { s with intake := [] }

/-- Every crew's delivery is calibrated alongside the check of FIRMWARE (R388, R438). -/
def calStep (inp : BootIn) (s : State) : State :=
  forAll allCrews (fun s c => let x := inp.cal.getD c ([], 0); calWrite c x.1 x.2 s) s

/-- The start-up steps from CLEAR to release or recovery (R438). DESIGN CHOICE: assumption log 63. -/
def bootSteps (inp : BootIn) (s : State) : State :=
  let s := fuseStep { s.put ID_MEM_STAT.CLEARED 0 1 with bootAt := s.now }
  let s := logStep inp (marchStep inp (collectorStep s))
  fwStep inp ((calStep inp s).put ID_BOOT_STAT.BOOT_US 0 (min inp.us (2 ^ 20 - 1)))

/-- POWER_ON (R372, R422, R438, R451): VAON comes into its rating: everything but the flash, the FC3 latch and the
levels at the pins is new, and the start-up steps run with the fuses given. -/
def execPowerOn (fuses : List (FKey × Nat)) (keyHash : List Nat) (inp : BootIn) (s : State) : Out :=
  if s.get ID_BOOT_STAT.STEP 0 ≠ 0 then .next s
  else
    let latch := s.flag FLT_STAT.FC3 0
    let t : State := { pending := s.pending, flash := s.flash, fuse := cutFuses fuses, keyHash := keyHash,
                       coolantPin := s.coolantPin, pwrEnPin := s.pwrEnPin, trstPin := s.trstPin, vsbLead := inp.rise }
    .next (bootSteps inp (if latch then t.put FLT_STAT.FC3 0 1 else t))

/-- The registers that a FULL reset keeps: the collector's, the recorder's and ID_RST_STAT (R373, R407, R451).
DESIGN CHOICE: assumption log 61. -/
def fullKeeps : List Reg :=
  [.FLT_CTL, .FLT_STAT, .FLT_CLEAR_STAT, .FLT_CNT, .FLT_DROP, .FLT_HIST_HEAD, .FLT_INJECT0, .FLT_INJECT1, .REC_HEAD,
    .REC_OLDEST, .REC_CUR, .REC_CTL, .ID_RST_STAT]

/-- A FULL reset acts (R450 to R452): the start-up steps run again, and the collector, the recorder, the flash,
the pins' levels, the latched PMBus status (R468) and the STOP frames on their way to the FS dies (R455) are kept. DESIGN CHOICE: assumption log 61. -/
def fullReset (inp : BootIn) (s : State) : State :=
  let keep (k : FKey) : Bool := fullKeeps.contains k.reg || k == THM_STAT.COOLANT.key 0 || k == ID_PWR_STAT.PWR_EN.key 0
  let t : State := { pending := s.pending, now := s.now, markStart := s.now, resp := s.resp
                     fld := s.fld.filter (fun e => keep e.1), fuse := s.fuse, keyHash := s.keyHash
                     flash := s.flash, coolantPin := s.coolantPin, pwrEnPin := s.pwrEnPin, trstPin := s.trstPin
                     pmbLatch := s.pmbLatch, pmbCml := s.pmbCml
                     stgCmd := s.stgCmd.filter (fun e => e.2 == [0]), tapInstr := s.tapInstr, tapScan := s.tapScan, tapOut := s.tapOut
                     intake := s.intake, fltHist := s.fltHist, fltFirst := s.fltFirst, fc2 := s.fc2, cleared := s.cleared
                     fltInit := s.fltInit, vsbLead := s.vsbLead, vsbLow := s.vsbLow, ring := s.ring, recLap := s.recLap, firstArea := s.firstArea, logQ := s.logQ, logErase := s.logErase }
  bootSteps inp ((t.put ID_BOOT_STAT.KIND 0 1).put ID_RST_STAT.FULL_PEND 0 0)

end Sys2Proof.Machine
end

