-- ==== Sys2Proof/Machine/Stops.lean ====
section
/-! DEFINITION. What every stop shares: notices, host reset, RATE commands, the FS dies' stop, the critical stop, the
controlled stop, fault shutdowns of planes, the orderly shutdown, and the shutdown log (chapters 10, 12, 15). -/

namespace Sys2Proof.Machine

open Sys2Proof

/-! ## Notices, host reset and rates (R293, R446, R447, R482) -/

/-- A notice joins the queue of the notice port, of 64, with the present stamp. DESIGN CHOICE: assumption log 57. -/
def notice (kind cause scope index cap : Nat) (s : State) : State :=
  if 64 ≤ s.notices.length then s else { s with notices := s.notices ++ [⟨kind, cause, scope, index, s.stampNow, cap⟩] }

/-- THROTTLE with a cause for all 24 regions. -/
def throttleAll (cause : Nat) (s : State) : State := forAll (List.range 24) (fun s r => notice 2 cause 0 r 0 s) s

/-- The crossing calibration that runs ends with XCAL at v (R446, R448). DESIGN CHOICE: assumption log 59. -/
def endXcal (v : Nat) (s : State) : State := sendRates { s.put ID_PWR_STAT.XCAL 0 v with xcalHold := false }

/-- Host reset is asserted (R446): HOST_RUN clears, and a calibration that runs ends, or its hold before
XCAL_REQ (R447). -/
def assertHostReset (s : State) : State :=
  let s := { (s.put ID_PWR_CTL.HOST_RUN 0 0).put ID_PWR_STAT.HOST_RESET 0 1 with hostReset := true, xcalDue := false }
  if s.get ID_PWR_STAT.XCAL 0 = 1 then endXcal 0 s else if s.xcalHold then sendRates { s with xcalHold := false } else s

/-! ## The FS dies (R442, R474) -/

/-- The dies of DIE_MASK. -/
def State.dies (s : State) : List Nat := maskList (s.get STG_CTL.DIE_MASK 0) 16

/-- A command for die d waits for its link: a STOP cancels the others (R474). Codes 0 STOP, 1 ENABLE, 2 TRIM. -/
def stgSend (cmd : Nat) (s : State) (d : Nat) : State :=
  { s with stgCmd := tset s.stgCmd d (if cmd = 0 then [0] else ((tget [] s.stgCmd d).filter (fun x => x != cmd)) ++ [cmd]) }

/-- The FS dies are commanded to stop, and FS_EN clears. DESIGN CHOICE: assumption log 54. -/
def fsStop (s : State) : State :=
  let s := ((s.put ID_PWR_CTL.FS_EN 0 0).put ID_PWR_STAT.FS_ON 0 0).put ID_PWR_STAT.VIB_GOOD 0 0
  forAll s.dies (stgSend 0) { s with vibWas := false }

/-! ## Planes (R261, R365, R371) -/

/-- Every crew of plane p is OFF or LOCKED. DESIGN CHOICE: assumption log 56. -/
def State.planeDown (s : State) (p : Nat) : Bool := (planeCrews p).all (fun c => s.cst c == 0 || s.cst c == 9)

/-- A power-on of plane p that is queued or waits to be retried is given up. DESIGN CHOICE: assumption log 69. -/
def cancelPower (s : State) (p : Nat) : State :=
  if s.powerQ.contains p ∨ (planeCrews p).any (fun c => s.cst c == 1 || s.cst c == 8) then
    { forAll (planeCrews p) (fun s c => if s.cst c = 1 ∨ s.cst c = 8 then s.setCst c 0 else s) s with powerQ := s.powerQ.filter (fun q => q != p) }.onPlane p
      (fun q => { q with retry := false, powered := false, ceiling := none })
  else s

/-- Every power-on that is queued or waits to be retried is given up. DESIGN CHOICE: assumption log 69. -/
def cancelAll (s : State) : State := forAll (List.range 32) cancelPower s

/-- Plane p ramps down at the maximum slew (R333, R365): regulating crews ramp, the phases of the others are IDLE, and
a stand-down request is withdrawn, also one granted in this cycle (R374). -/
def rampPlane (kind : Ramp) (p : Nat) (s : State) : State :=
  let s := forAll (planeCrews p) (fun s c =>
    let s := withdrawStand c s
    if (s.crew c).reg then s else endRegulation c (idlePhases c s)) s
  s.onPlane p (fun q => { q with ramp := kind, shutIssued := false, retry := false })

/-- Plane p is below 50 mV: no shutdown or clamp has still to take it there (R332, R333). -/
def State.planeLow (s : State) (p : Nat) : Bool := (s.plane p).ramp == .none && !(s.plane p).discharging

/-- A fault shutdown of some plane has been issued and has not yet ended (R365, R456). -/
def State.faultGoing (s : State) : Bool :=
  (List.range 32).any (fun p => (s.plane p).shutIssued || (s.plane p).ramp == .fault || (s.plane p).discharging)

/-- A plane whose stop clamps take it below 50 mV (R332): its crews are OFF. -/
def planeIsOff (p : Nat) (s : State) : State :=
  let s := forAll (planeCrews p) (fun s c =>
    let s := (s.put CREW_TR_STAT.CLAMP_ON c 0).onCrew c (fun k => { k with stopClamp := false, standReq := none })
    if s.cst c = 9 then s else (endRegulation c (s.setCst c 0)).put CREW_SP_REF.REF c 0) s
  s.onPlane p (fun q => { q with powered := false, ramp := .none, shutIssued := false, discharging := false, retry := false,
                                 ceiling := none })

/-! ## The orderly shutdown (R454 to R456) -/

/-- Plane p has no part left in an orderly shutdown: OFF, LOCKED, or dark with no crew that PWROFF could act on. -/
def State.sdDone (s : State) (p : Nat) : Bool :=
  let q := s.plane p
  (q.ramp == .none) && !q.shutIssued && !q.discharging &&
    !((planeCrews p).any (fun c => s.alive c || s.cst c == 1 || s.cst c == 8))

/-- The planes of domain d that are not through with the shutdown. -/
def State.sdPlanes (s : State) (d : Nat) : List Nat :=
  ((List.range 8).map (fun f => 4 * f + d)).filter (fun p => !s.sdDone p)

/-- The end of an orderly shutdown (R455), and the FULL reset that waits for it (R452).
DESIGN CHOICE: assumption log 70. -/
def sdFinish (s : State) : State :=
  let s := { (fsStop s).put ID_PWR_STAT.SD 0 3 with orderly := false }
  match s.bootIn with
  | some inp => fullReset inp s
  | none => s

/-- The domains still to be powered off, the next one first; one that is through at once leads on to the next, unless a
fault shutdown runs (R456). -/
def sdGo : List Nat → State → State
  | [], s => sdFinish s
  | d :: t, s =>
    let s := (forAll (s.sdPlanes d) (fun s p => powerOff p s) s).put ID_PWR_STAT.SD_DOMAIN 0 d
    if s.sdPlanes d = [] ∧ s.faultGoing = false then sdGo t s else s

/-- The domains below d in power-off order: VMI 3, VLK 2, VMA 1, VLG 0. -/
def domainsAfter (d : Nat) : List Nat := ((List.range 4).filter (fun k => decide (k < d))).reverse

/-- An orderly shutdown goes on once every plane of the present domain is through, and those of a fault shutdown are OFF
(R456); a stop leaves it to the stop's end. DESIGN CHOICE: assumption log 56. -/
def sdAdvance (s : State) : State :=
  let d := s.get ID_PWR_STAT.SD_DOMAIN 0
  if s.orderly ∧ s.get ID_PWR_STAT.SD 0 = 2 ∧ s.stop = .none ∧ s.sdPlanes d = [] ∧ s.faultGoing = false then
    sdGo (domainsAfter d) (startHeldAll s)
  else s

/-- An orderly shutdown starts (R454); a second start has no effect (R456). -/
def startOrderly (s : State) : State :=
  if s.orderly then s
  else throttleAll 4 ({ cancelAll (stopLanes s) with orderly := true }.put ID_PWR_STAT.SD 0 1)

/-- SD_WAIT (R455): host reset is asserted, and the domains power off; a stop that runs takes them over (R456). -/
def execSdWait (s : State) : Out :=
  if ¬ s.orderly ∨ s.get ID_PWR_STAT.SD 0 ≠ 1 then .next s
  else
    let s := ((assertHostReset s).put ID_PWR_STAT.SD 0 2).put ID_PWR_STAT.SD_DOMAIN 0 3
    .next (if s.stop = .none then sdGo [3, 2, 1, 0] s else s)

/-! ## Stops (R332 to R334, R370, R371) -/

/-- The stop completes: the FS dies stop; an orderly shutdown, whose planes are now OFF, completes with it.
DESIGN CHOICE: assumption log 55. DESIGN CHOICE: assumption log 70. -/
def stopComplete (s : State) : State :=
  let s := { (fsStop s).put THM_STAT.STOPPING 0 0 with stop := .none, stopIssued := false, stopDone := true, stopDomain := none }
  if s.orderly then sdFinish s else s

/-- The critical stop starts in the cycle of its cause (R332): a controlled stop becomes critical (R334), and nothing
restarts where the part is stopped already in the safe state. -/
def startCritical (s : State) : State :=
  if s.stop = .critical ∨ (s.flag FLT_STAT.SAFE 0 ∧ s.stopDone) then s
  else
    let s := cancelAll (assertHostReset s)
    { (s.put THM_STAT.STOPPING 0 1).put THM_STAT.STOP_KIND 0 1 with
      stop := .critical, stopIssued := true, stopDone := false, stopDomain := none
      stopStamp := if s.stop = .none then some s.stampNow else s.stopStamp }

/-- The controlled stop starts at the debounce point (R333); it changes nothing in a critical stop (R334). -/
def startControlled (s : State) : State :=
  if s.stop ≠ .none ∨ (s.flag FLT_STAT.SAFE 0 ∧ s.stopDone) then s
  else
    let s := throttleAll 3 (cancelAll s)
    { (s.put THM_STAT.STOPPING 0 1).put THM_STAT.STOP_KIND 0 2 with
      stop := .controlled, stopDone := false, stopDomain := none, stopStamp := some s.stampNow }

/-- STOP_AT_CREWS (R332): the broadcast takes effect at all 192 crews; every clamp conducts until its plane is below
50 mV, of a plane that is OFF or LOCKED too. -/
def execStopAtCrews (s : State) : Out :=
  if ¬ s.stopIssued then .next s
  else
    let s := forAll allCrews (fun s c =>
      (endRegulation c (stopPhases c s)).onCrew c (fun k => { k with aidsOff := true, standReq := none })) s
    let s := forAll (List.range 32) (fun s p =>
      (forAll (planeCrews p) (fun s c => (s.put CREW_TR_STAT.CLAMP_ON c 1).onCrew c (fun k => { k with stopClamp := true })) s).onPlane p
        (fun q => { q with ramp := .none, shutIssued := false, discharging := true })) s
    .next (startHeldAll { s with stopIssued := false })

/-- The domains that a controlled stop has still to ramp down, the next one first (R333): every plane of it, which its
clamps take below 50 mV though it is OFF or LOCKED. -/
def stopGo : List Nat → State → State
  | [], s => stopComplete s
  | d :: _, s =>
    let s := forAll ((List.range 8).map (fun f => 4 * f + d)) (fun s p =>
      if (s.plane p).ramp = .fault ∨ (s.plane p).discharging then s else rampPlane .domain p s) s
    startHeldAll { s with stopDomain := some d }

/-- DOMAIN_SHUTDOWN (R333): 100 µs into a controlled stop. -/
def execDomainShutdown (s : State) : Out :=
  if s.stop ≠ .controlled ∨ s.stopDomain ≠ none then .next s else .next (stopGo [3, 2, 1, 0] (assertHostReset s))

/-- The stop that runs goes on, or completes, once a plane is down. -/
def stopAdvance (s : State) : State :=
  match s.stop, s.stopDomain with
  | .critical, _ => if ¬ s.stopIssued ∧ (List.range 32).all (fun p => !(s.plane p).discharging) then stopComplete s else s
  | .controlled, some d =>
    if (List.range 8).all (fun f => s.planeLow (4 * f + d)) then stopGo (domainsAfter d) s else s
  | _, _ => s

/-- PLANE_DISCHARGED (R332, R333, R365): a plane falls below 50 mV. -/
def execPlaneDischarged (p : Nat) (s : State) : Out :=
  if ¬ (s.plane p).discharging then .next s else .next (sdAdvance (stopAdvance (startHeldAll (planeIsOff p s))))

/-- SHEDDING_END (R164): a plane that a ramp down leaves OFF with its last crew lets an orderly shutdown go on. -/
def execSheddingEnd (c : Nat) (s : State) : Out := .next (sdAdvance (startHeldAll (sheddingEnd c s)))

/-- REF_STEP (R135): a plane that a ramp down leaves OFF lets an orderly shutdown go on.
DESIGN CHOICE: assumption log 71. -/
def execRefStep (c : Nat) (s : State) : Out :=
  let t := refStep c s
  .next (if s.ramping c ∧ ¬ t.ramping c then sdAdvance (startHeldAll t) else t)

/-! ## Fault shutdown (R365) -/

/-- The fault shutdown of plane p is issued at classification: not where it is OFF, down with every crew, LOCKED or
shut down already; queued and retried power-ons are given up, and stand-downs granted in this cycle withdrawn (R374). -/
def issueShutdown (s : State) (p : Nat) : State :=
  let q := s.plane p
  let s := cancelPower s p
  if s.planeDown p ∨ (planeCrews p).all (fun c => s.cst c == 5) ∨ q.shutIssued ∨ q.ramp = .fault ∨ q.discharging then s
  else
    let s := forAll ((planeCrews p).filter (fun c => (s.crew c).standAt == some s.now)) (fun s c => withdrawStand c s) s
    s.onPlane p (fun q => { q with shutIssued := true })

/-- FAULT_SHUTDOWN (R365): an issued shutdown takes effect at the crews of plane p. -/
def execFaultShutdown (p : Nat) (s : State) : Out :=
  if ¬ (s.plane p).shutIssued then .next s
  else if s.planeDown p then .next (sdAdvance (s.onPlane p (fun q => { q with shutIssued := false })))
  else .next (startHeldAll (rampPlane .fault p s))

/-! ## Sensor readings (R316, R320) -/

/-- The effective reading of sensor k (R320). -/
def State.effective (s : State) (k : Nat) : Option Int :=
  let own (j : Nat) : Option Int := (tget {} s.sensors j).conf.head?.map (·.1)
  if ¬ s.flag THM_SENS.BROKEN k then own k
  else if s.flag THM_SENS.SUBST k then (own (s.get THM_SUBST.SUB k)).map (· + s.getI THM_SUBST.OFS k)
  else none

/-- The rise of sensor k over a window of so many cycles (R316): the difference and the cycles it took. -/
def State.rise (s : State) (k window : Nat) : Option (Int × Nat) :=
  match (tget {} s.sensors k).conf with
  | [] => none
  | (v, t) :: rest => (rest.find? (fun e => decide (e.2 + window ≤ t))).map (fun e => (v - e.1, t - e.2))

/-- A rise in 0.25 °C/ms: 500,000 cycles make a millisecond. -/
def riseRate (e : Int × Nat) : Int := clampI (roundOpen (e.1 * 500000) (max 1 e.2)) (-32768) 32767

/-! ## The shutdown log (R335 to R337) -/

/-- The sensor with the highest effective reading on the die, and that reading; 0 and 0 where none has one. -/
def State.hottest (s : State) : Nat × Int :=
  ((List.range 960).foldl (fun b k => match s.effective k, b with
    | some v, some (_, w) => if w < v then some (k, v) else b
    | some v, none => some (k, v)
    | none, b => b) (none : Option (Nat × Int))).getD (0, 0)

/-- The region bands, eight of them from r on, four bits each. -/
def State.bandWord (s : State) (r : Nat) : Nat := sumN ((List.range 8).map (fun k => s.get THM_REG.BAND (r + k) * 2 ^ (4 * k)))

/-- Words 0x08 to 0x38 of the record of an event, as the event finds them; `during`: a stop already runs. -/
def State.logWords (s : State) (e : Event) (during : Bool) : List Nat :=
  let (hk, hv) := s.hottest
  let thermal : Bool := (e.code == 0x0908 || e.code == 0x0909) && !e.injected
  let tsrc := if thermal then e.d0 % 2 ^ 16 else if e.kind = 2 then
    unsg 16 (((tget {} s.sensors e.src).conf.head?.map (·.1)).getD 0) else 0
  let rho := if thermal then e.d0 / 2 ^ 16 else if e.kind = 2 then
    unsg 16 (((s.rise e.src 250000).map riseRate).getD 0) else 0
  let thr := s.get THM_STAT.THROTTLE 0
  [e.code * 2 ^ 16 + during.toNat * 2 ^ 9 + 3, e.stamp.mark, e.stamp.tick % 256 * 2 ^ 24 + (if e.kind = 0 then 0xFFFF else e.src % 2 ^ 16),
    unsg 16 hv * 2 ^ 16 + tsrc, rho * 2 ^ 16 + hk, s.get CAP_VALS.VALUE 0, min ((s.now + s.vsbLead) / 500000) (2 ^ 32 - 1),
    s.get THM_STAT.COOLANT 0 * 2 ^ 16 + thr % 2 ^ 16, thr / 2 ^ 16, s.bandWord 0, s.bandWord 8, s.bandWord 16, 0]

/-- A grave event asks for its record: at most four wait (R336). DESIGN CHOICE: assumption log 72. -/
def logEvent (e : Event) (during : Bool) (s : State) : State :=
  if 4 ≤ s.logQ.length then s.bump THM_LOG_STAT.DROPPED 0
  else showLog { s with logQ := s.logQ ++ [⟨s.logWords e during⟩] }

/-- The bytes of a record: MAGIC, SEQ, the words of the event with FLAGS[0], and the CRC (R337). -/
def LogRec.bytes (r : LogRec) (seq : Nat) (first : Bool) : List Byte :=
  let ws := [0x534C4F47, seq] ++ (match r.words with
    | w :: t => (w + first.toNat * 2 ^ 8) :: t
    | [] => [])
  let b := ws.flatMap (leBytes 4)
  b ++ leBytes 4 (crc32 b)

/-- What programming b over a byte leaves: b over an erased byte; over another the spec states no result. -/
def programmed (old b : Byte) : Byte := if old = 0xFF#8 then b else Config.overProgram old b

/-- Bytes programmed into flash from a on, or what a failed program leaves. -/
def flashPut (ok : Bool) (a : Nat) (b : List Byte) (s : State) : State :=
  let old := mgetList 0xFF#8 s.flash a b.length
  let new := if ok then List.zipWith programmed old b else (List.range b.length).map (fun k => Config.failedByte s.now (a + k))
  { s with flash := msetList 0xFF#8 s.flash a new }

/-- LOG_RECORD (R335, R336): the record that waits longest has been programmed, or its programming has failed, also in
the hold-up after VAON has gone, where no event can be raised; writing that reaches the erased sector asks for the erase
of the next. DESIGN CHOICE: assumption log 72. -/
def execLogRecord (ok : Bool) (s : State) : Out :=
  match s.logQ with
  | [] => .next s
  | r :: rest =>
    let slot := s.get THM_LOG_STAT.NEXT_SLOT 0
    let used := s.get THM_LOG_STAT.FIRST_USED 0
    let seq := s.get THM_LOG_SEQ.NEXT_SEQ 0
    let first : Bool := decide (used < 8)
    let b := r.bytes seq first
    let s := flashPut ok (ringOfs slot) b s
    let s := if first then (flashPut ok (firstOfs used) b s).put THM_LOG_STAT.FIRST_USED 0 (used + 1) else s
    let s := (s.put THM_LOG_STAT.NEXT_SLOT 0 ((slot + 1) % 64)).put THM_LOG_SEQ.NEXT_SEQ 0 (seq + 1)
    let s := { s with logQ := rest, logErase := if slot % 8 = 0 then some ((slot / 8 + 1) % 8) else s.logErase }
    let s := showLog s
    let s := if ok then s else s.setOver THM_LOG_STAT.FAIL 0
    .next (if ok ∨ s.get ID_BOOT_STAT.STEP 0 = 0 then s else s.raise 0x0907 0 0)

/-- RING_SECTOR_ERASE (R335): the erase of the oldest ring sector completes, while VSB is healthy and no stop runs.
DESIGN CHOICE: assumption log 72. -/
def execRingSectorErase (s : State) : Out :=
  match s.logErase with
  | none => .next s
  | some k =>
    if s.stop ≠ .none ∨ s.vsbLow then .next s
    else .next { s with flash := mclear s.flash (ringOfs (8 * k)) (ringOfs (8 * k) + 0x1000), logErase := none }

end Sys2Proof.Machine
end

