-- ==== Sys2Proof/Machine/Faults.lean ====
section
/-! DEFINITION. The fault collector and the event recorder (chapters 12 and 13): classification, class actions, the FC2
table with LIVE, clears and recurrences, the safe state, self-faults, injection, and the entries as words. -/

namespace Sys2Proof.Machine

open Sys2Proof

/-! ## Which event is classified next (R359) -/

/-- Event a is taken before event b. -/
def State.evBefore (s : State) (a b : Event) : Bool :=
  let ga := decide (2 ≤ classNo a.code)
  let gb := decide (2 ≤ classNo b.code)
  if ga != gb then ga
  else if s.before a.stamp b.stamp then true
  else if s.before b.stamp a.stamp then false
  else if classNo a.code ≠ classNo b.code then decide (classNo b.code < classNo a.code)
  else if a.code ≠ b.code then decide (a.code < b.code)
  else decide (a.src < b.src)

/-- The index of the event taken first: of equals, the one that arrived first. -/
def State.nextEvent (s : State) (l : List Event) : Nat :=
  ((List.range l.length).foldl (fun b k => match l[k]?, l[b]? with
    | some x, some y => if s.evBefore x y then k else b
    | _, _ => b) 0)

/-! ## LIVE (R366, and the tables of chapters 13 to 16) -/

/-- M1 in mW times 100 (R283). -/
def State.sum1ms (s : State) : Nat := sumN (s.capHist.take 100)

/-- The condition under which LIVE of an FC2 entry holds. -/
def State.liveCond (s : State) (e : Event) : Bool :=
  let p := (eventPlane e).headD 32
  let c := e.src - 0x600
  if e.code = 0x0205 ∨ e.code = 0x0404 then decide (p < 32) && !s.planeOff p
  else if e.code = 0x0305 then decide (p < 32) && (s.crew c).refLost
  else if e.code = 0x0509 then decide (p < 32) && (planeCrews p).all (fun d => decide (s.usable d < 5))
  else if e.code = 0x050A then true
  else if e.code = 0x050B then decide (p < 32) && (planeCrews p).any (fun d => s.cst d == 9)
  else if e.code = 0x0607 then decide (7 ≤ (s.strDiff e.src (e.d0 % 2 ^ 16)).natAbs)
  else if e.code = 0x0706 then
    (match (tget {} s.ctxs e.src).wait with
     | some w => w.cond == .faulted
     | none => false)
  else if e.code = 0x0805 then decide (100000 * s.get CAP_LIM.LIMIT 0 < s.sum1ms)
  else if e.code = 0x0B05 then decide (p < 32) && !s.flag TB_CAL.VALID c
  else if e.code = 0x0C03 then s.bankSt e.d0 == 2
  else if e.code = 0x0D06 then !s.stgLow.isEmpty
  else if e.code = 0x0E05 then s.flag ID_PWR_CTL.FS_EN 0 && !s.flag ID_PWR_STAT.VIB_GOOD 0
  else false

/-- LIVE of an FC2 entry now (R366): an entry of injected events alone has none. -/
def State.entryLive (s : State) (e : FEntry) : Bool := e.live && s.liveCond e.ev

/-! ## Class actions (R361, R365, R370, R371) -/

/-- The scope action of an FC2 event outside the safe state (R365, R457, R478). DESIGN CHOICE: assumption log 71. -/
def scopeAction (e : Event) (s : State) : State :=
  if e.code = 0x0D06 ∨ e.code = 0x0E05 then startCritical s else startHeldAll (forAll (scopeOf e) issueShutdown s)

/-- A thermal event or a coolant loss, not injected, starts its stop by itself (R332, R333). -/
def Event.startsStop (e : Event) : Bool := decide (e.code ∈ [0x0908, 0x0909, 0x090A]) && !e.injected

/-- A stop runs that event e did not start in the cycle of its own stamp (R337). -/
def State.duringStop (s : State) (e : Event) : Bool := (s.stop != .none) && !(e.startsStop && s.stopStamp == some e.stamp)

/-- FC3 outside the safe state (R370): the latch, the stop, the lanes, the log record. A thermal event or a coolant loss
has started its stop, with SAFE, in the cycle of its cause (R332, R333, R371), or met one that ran already (R337).
DESIGN CHOICE: assumption log 53. -/
def fc3Action (e : Event) (s : State) : State :=
  let s := logEvent e (s.duringStop e) s
  let s := stopLanes ((s.put FLT_STAT.FC3 0 1).put FLT_STAT.SAFE 0 1)
  let s := if e.code = 0x0908 ∨ e.code = 0x0909 then forAll (List.range 32) (fun s p => latchStatus p 0 0 0x80 s) s else s
  if e.startsStop then s
  else if e.code = 0x090A then startControlled { s with stopDone := false }
  else startCritical { s with stopDone := false }

/-- FC3 in the safe state (R335, R371): a log record; a critical cause takes over a controlled stop (R334).
DESIGN CHOICE: assumption log 73. -/
def fc3InSafe (e : Event) (s : State) : State :=
  let s := logEvent e (s.duringStop e) s
  if e.code ≠ 0x090A ∧ s.stop = .controlled then startCritical s else s

/-- An event is classified (R361). The FC3 event that sets the latch is not yet one of the safe state, though its stop may
have begun (R370, R371). DESIGN CHOICE: assumption log 53. DESIGN CHOICE: assumption log 73. -/
def classify (e : Event) (s : State) : State :=
  let cl := classNo e.code
  let safe := s.flag FLT_STAT.SAFE 0 && !(cl == 3 && !s.flag FLT_STAT.FC3 0)
  let (s, room) := collect e safe (undoClear e s)
  if safe then (if cl = 3 then fc3InSafe e s else s)
  else
    let s := if 2 ≤ cl ∨ (cl = 1 ∧ s.flag FLT_CTL.ALERT_FC1 0) then s.setOver FLT_STAT.ALERT_PEND 0 else s
    if cl = 2 then
      let s := scopeAction e (recurrence e s)
      if room then s else s.raise 0x0003 0 0 e.code e.src
    else if cl = 3 then fc3Action e s
    else s

/-- The collector, once initialised (R439), takes the event that comes first (R359). -/
def classifyNext (s : State) : State :=
  if ¬ s.fltInit then s
  else
    let k := s.nextEvent s.intake
    match s.intake[k]? with
    | none => s
    | some e => sdAdvance (classify e { s with intake := s.intake.eraseIdx k })

/-! ## Clears (R364, R367, R369) -/

/-- A cleared entry is kept among the last eight, and "FC2 cleared" is recorded. -/
def clearOne (s : State) (k : Nat) : State :=
  match s.fc2.find? (fun x => x.1 == k) with
  | none => s
  | some (_, x) =>
    let old := s.cleared.find? (fun r => r.isPair x.ev)
    let count := match old with
      | some r => if r.armed ∧ r.at_ + 50000000 < s.now then 0 else r.count
      | none => 0
    let r : Cleared := ⟨x.ev.code, x.ev.kind, x.ev.src, s.now, count, true⟩
    let l := s.cleared.filter (fun r => !r.isPair x.ev) ++ [r]
    { s with fc2 := tdel s.fc2 k, cleared := l.drop (l.length - 8), cyc := { s.cyc with freed := tset s.cyc.freed k (x, old) } }.raise 0x0001 0 0 x.ev.code x.ev.src

/-- A write to FLT_CLEAR (R367): one entry or all; the capture re-arms with an empty table and the latch clear (R364). -/
def fltClear (all : Bool) (index : Nat) (s : State) : State :=
  let ts := if all then (List.range 32).filter (thas s.fc2) else [index].filter (thas s.fc2)
  let go := ts.filter (fun k => match s.fc2.find? (fun x => x.1 == k) with
    | some (_, x) => !s.entryLive x
    | none => false)
  let s := forAll go clearOne s
  let s := (s.put FLT_CLEAR_STAT.CLEARED 0 go.length).put FLT_CLEAR_STAT.RESULT 0 (if ts = [] then 3 else if go = [] then 2 else 1)
  if s.fc2 = [] ∧ ¬ s.flag FLT_STAT.FC3 0 then s.put FLT_STAT.FIRST_VALID 0 0 else s

/-! ## Injection and self-faults (R377 to R379) -/

/-- The global lock is in force (R22, R495). -/
def State.locked (s : State) : Bool := s.flag ID_LOCK.LOCK 0 && decide (s.lockAt < s.now)

/-- A write of 1 to FLT_INJECT1.GO (R379). DESIGN CHOICE: assumption log 76. -/
def inject (s : State) : State :=
  let code := s.get FLT_INJECT0.CODE 0
  if s.locked then s
  else match classOf code with
    | none => s.setOver FLT_INJECT1.INJ_ERR 0
    | some 4 => s.setOver FLT_INJECT1.INJ_ERR 0
    | some _ => s.raiseEv ⟨code, s.get FLT_INJECT0.SRC_KIND 0, s.get FLT_INJECT0.SOURCE 0, s.stampNow, 0, 0, 0, true⟩

/-- A parity error (R377, R378), or a readback failure while PIN_CHECK is 1, takes the independent path.
DESIGN CHOICE: assumption log 75. -/
def selfFault (parity : Bool) (s : State) : State :=
  if ¬ parity ∧ ¬ s.flag FLT_CTL.PIN_CHECK 0 then s
  else
    let e : Event := ⟨if parity then 4 else 5, 0, 0, s.stampNow, 0, 0, 0, false⟩
    let s := startCritical (assertHostReset (logEvent e (s.stop != .none) s))
    let s := if s.flag FLT_STAT.SELF 0 then s else (s.put FLT_STAT.SELF 0 1).put FLT_STAT.SELF_CAUSE 0 (if parity then 1 else 2)
    (s.put FLT_STAT.FC3 0 1).put FLT_STAT.SAFE 0 1

/-- The levels of FAULT_P and FAULT_N (R375, R378). -/
def State.faultPins (s : State) : Bool × Bool :=
  if ¬ s.fltInit ∨ s.flag FLT_STAT.SELF 0 then (false, false)
  else if s.flag FLT_STAT.FC3 0 ∨ s.fc2 ≠ [] then (true, false) else (false, true)

/-! ## Entries and records as words (R380, R407, R408) -/

/-- The word of an event at offset 0x04, without LIVE. DESIGN CHOICE: assumption log 75.
DESIGN CHOICE: assumption log 109. -/
def eventWord (e : Event) (inSafe first : Bool) : Nat :=
  e.code * 2 ^ 16 + e.kind % 16 * 2 ^ 12 + inSafe.toNat * 2 ^ 10 + first.toNat * 2 ^ 9 + e.injected.toNat * 2 ^ 8 + classNo e.code % 4

/-- Word w of a fault entry, LIVE given. -/
def FEntry.word (x : FEntry) (live : Bool) (w : Nat) : Nat :=
  [x.seq, eventWord x.ev x.inSafe x.first + live.toNat * 2 ^ 11, x.ev.stamp.mark,
    x.ev.stamp.tick % 256 * 2 ^ 24 + x.repeats * 2 ^ 16 + x.ev.src, x.ev.d0, x.ev.d1].getD w 0

/-- The word at an address of FLT_FIRST, FLT_HIST or FLT_FC2, if one of them lies there. -/
def State.fltWord (s : State) (a : Nat) : Option Nat :=
  let w := a % 32 / 4
  if 0x300040 ≤ a ∧ a < 0x300060 then some ((s.fltFirst.map (fun x => x.word false w)).getD 0)
  else if 0x300100 ≤ a ∧ a < 0x300300 then
    some (((s.fltHist.find? (fun e => e.1 == (a - 0x300100) / 32)).map (fun e => e.2.word false w)).getD 0)
  else if 0x300400 ≤ a ∧ a < 0x300800 then
    some (((s.fc2.find? (fun e => e.1 == (a - 0x300400) / 32)).map (fun e => e.2.word (s.entryLive e.2) w)).getD 0)
  else none

/-- Word w of a recorder record (R407). -/
def Rec.word (r : Rec) (w : Nat) : Nat :=
  [r.seq, eventWord r.ev r.inSafe r.first, r.ev.stamp.mark, r.ev.stamp.tick % 256 * 2 ^ 24 + min 255 r.ev.aux * 2 ^ 16 + r.ev.src,
    r.ev.d0, r.ev.d1, r.fltSeq].getD w 0

/-- REC_OLDEST (R410). -/
def State.recOldest (s : State) : Nat := (s.ring.getLast?.map (·.seq)).getD 0

/-- Steps forward from recorder number a to b over 1 to 0xFFFF_FFFF (R410). -/
def seqSteps (a b : Nat) : Nat := (b + 0xFFFFFFFF - a) % 0xFFFFFFFF

/-- The record that the window shows (R408): of the first area, or the occupant of the ring slot to which the record
with SEQ equal to CUR was or, where it is not serially behind or the numbers have not wrapped so far, will be written.
DESIGN CHOICE: assumption log 77. -/
def State.recShown (s : State) : Option Rec :=
  let cur := s.get REC_CUR.SEQ 0
  if cur = 0 then none
  else if s.flag REC_CTL.AREA 0 then (if cur ≤ 512 then s.firstArea[cur - 1]? else none)
  else match s.ring with
    | [] => none
    | r :: _ =>
      let back := seqSteps cur r.seq
      if (if s.recLap then back < 2 ^ 31 else cur ≤ r.seq) then s.ring[back % 4096]? else s.ring[(4096 - seqSteps r.seq cur % 4096) % 4096]?

/-- REC_WIN word w. -/
def State.recWin (s : State) (w : Nat) : Nat := (s.recShown.map (fun r => r.word w)).getD 0

/-- REC_CUR advances by 1, skipping 0 (R408). -/
def recAdvance (s : State) : State := s.put REC_CUR.SEQ 0 (nextSeq (s.get REC_CUR.SEQ 0))

end Sys2Proof.Machine
end

