-- ==== Sys2Proof/Machine/Thermal.lean ====
section
/-! DEFINITION. Thermal management (chapter 10): sensor samples, broken sensors and substitutes, bands, throttling and
enforcement per region, thermal ceilings, and the coolant pin. Temperatures are in 0.25 °C; 500,000 cycles make 1 ms. -/

namespace Sys2Proof.Machine

open Sys2Proof

def State.sensor (s : State) (k : Nat) : Sensor := tget {} s.sensors k
def State.onSensor (s : State) (k : Nat) (f : Sensor → Sensor) : State := { s with sensors := tset s.sensors k (f (s.sensor k)) }
def State.regn (s : State) (r : Nat) : Region := tget {} s.regions r
def State.onRegn (s : State) (r : Nat) (f : Region → Region) : State := { s with regions := tset s.regions r (f (s.regn r)) }

/-- The region of sensor k (R311). -/
def sensorRegion (k : Nat) : Nat := if k < 192 then regionOf k else 3 * ((k - 192) / 96) + (k - 192) % 96 / 32

/-- The sensors of region r, ascending. -/
def regionSensors (r : Nat) : List Nat :=
  regionCrews r ++ (List.range 32).map (fun j => 192 + 96 * (r / 3) + 32 * (r % 3) + j)

/-- The planes that region r serves (chapter 09): the VLG plane of its field, or for CM the other three. -/
def regionPlanes (r : Nat) : List Nat :=
  if r % 3 = 2 then [4 * (r / 3) + 1, 4 * (r / 3) + 2, 4 * (r / 3) + 3] else [4 * (r / 3)]

/-- The regions of plane p. -/
def planeRegions (p : Nat) : List Nat := if p % 4 = 0 then [3 * (p / 4), 3 * (p / 4) + 1] else [3 * (p / 4) + 2]

/-! ## Bands (R323) -/

/-- The lower edge of a band. -/
def bandEdge (b : Nat) : Int := [-10000, 160, 260, 340, 380, 420].getD b 420

/-- The band into which a reading falls. -/
def bandOf' (t : Int) : Nat := if t < 160 then 0 else if t < 260 then 1 else if t < 340 then 2 else if t < 380 then 3 else if t < 420 then 4 else 5

/-- The band after a reading, from the present band. DESIGN CHOICE: assumption log 68. -/
def nextBand (b : Nat) (t : Int) : Nat := if b < bandOf' t then bandOf' t else if t + 8 ≤ bandEdge b then bandOf' t else b

/-! ## Ceilings (R327) -/

/-- M_p of the last interval in mW (R281). -/
def State.planeMw (s : State) (p : Nat) : Nat := sumN ((planeCrews p).map (fun c => s.get EST_CREW_MEAS.MW c))

/-- The thermal ceiling of plane p in mW, where it is under one. -/
def State.thmCeil (s : State) (p : Nat) : Option Rat :=
  (s.plane p).thmStart.map (fun x => x * (10 - (s.plane p).thmDrops : Nat) / 10)

/-- THM_PLANE shows the ceiling in W. -/
def showCeil (s : State) (p : Nat) : State :=
  match (s.plane p).thmStart, s.thmCeil p with
  | some a, some b => (s.put THM_PLANE.START p (roundRat (a / 1000)).toNat).put THM_PLANE.CEIL p (min 65534 (roundRat (b / 1000)).toNat)
  | _, _ => (s.put THM_PLANE.START p 0).put THM_PLANE.CEIL p 0xFFFF

/-- Region r enforces for a cause other than a held sensor alone. -/
def State.hotEnforce (s : State) (r : Nat) : Bool := s.flag THM_REG.ENFORCE r && (s.regn r).hot

/-- The thermal ceiling of plane p starts or is lifted as its regions say. -/
def ceilCheck (s : State) (p : Nat) : State :=
  if (planeRegions p).any s.hotEnforce then
    if (s.plane p).thmStart.isSome then s
    else showCeil (s.onPlane p (fun q => { q with thmStart := some ((9 * s.planeMw p : Nat) / 10 : Rat), thmDrops := 0 })) p
  else showCeil (s.onPlane p (fun q => { q with thmStart := none, thmDrops := 0 })) p

/-- THERMAL_CEILING_STEP (R327): 1 ms in which an enforcing region of plane p has held its request at RATE_MIN without
T_r falling. -/
def execThermalCeilingStep (p : Nat) (s : State) : Out :=
  if (s.plane p).thmStart.isSome ∧ (planeRegions p).any (fun r =>
      s.flag THM_REG.ENFORCE r && s.get CAP_RATE_REG.THM r == s.get THM_CTL.RATE_MIN 0 && !(s.regn r).falling) then
    .next (showCeil (s.onPlane p (fun q => { q with thmDrops := min 5 (q.thmDrops + 1) })) p)
  else .next s

/-! ## Throttling (R317, R318, R325 to R330) -/

/-- T_r: the largest effective reading of region r, if it has any (R317). -/
def State.tRegion (s : State) (r : Nat) : Option Int := maxI ((regionSensors r).filterMap s.effective)

/-- T_r of region r is at or above T_THROTTLE. -/
def State.regionHot (s : State) (r : Nat) : Bool :=
  match s.tRegion r with
  | some t => decide (s.getI THM_THRESH0.T_THROTTLE 0 ≤ t)
  | none => false

/-- RISE_SLOW counts as a cause in region r: in native mode (R330). -/
def State.regionSlow (s : State) (r : Nat) : Bool := s.flag THM_REG.SLOW r && !s.flag THM_CTL.MODE 0

/-- A cause of throttle holds in region r (R325). DESIGN CHOICE: assumption log 79. -/
def State.regionCause (s : State) (r : Nat) : Bool := s.regionHot r || s.regionSlow r || s.flag THM_REG.HELD r

/-- Region r enters throttle (R325): no grace time in DRC-1 mode (R330). -/
def enterThrottle (r : Nat) (s : State) : State :=
  let s := (notice 2 1 0 r 0 s).putBit THM_STAT.THROTTLE 0 r true
  let s := forAll (regionPlanes r) (fun s p => latchStatus p 0 0 0x40 s) s
  let s := sigLanes 9 (regionCrews r) s
  let s := s.raise 0x0905 3 r (Config.throttleCause (s.regionHot r) (s.regionSlow r) (s.flag THM_REG.HELD r) % 2 ^ 16)
  if s.flag THM_CTL.MODE 0 then s else s.put THM_REG.GRACE r 1

/-- Region r is in throttle. -/
def State.throttled (s : State) (r : Nat) : Bool := bitAt (s.get THM_STAT.THROTTLE 0) r

/-- The registers of region r, its warning and its entry into throttle follow its sensors.
DESIGN CHOICE: assumption log 68. DESIGN CHOICE: assumption log 79. -/
def regionCheck (r : Nat) (s : State) : State :=
  let t := s.tRegion r
  let ks := regionSensors r
  let held := ks.any (fun k => s.flag THM_SENS.BROKEN k && !s.flag THM_SENS.SUBST k)
  let fresh := ks.all (fun k => !(s.sensor k).conf.isEmpty)
  let s := (s.putI THM_REG.T_R r (t.getD 0)).mark THM_REG.HELD r held
  let s := s.mark THM_REG.SLOW r (ks.any (fun k => (s.sensor k).slowAt.isSome))
  let s := s.put THM_REG.BAND r (match t with
    | some v => if held || !fresh then 5 else nextBand (s.get THM_REG.BAND r) v
    | none => 5)
  let s := match t with
    | none => s
    | some v =>
      if s.flag THM_REG.WARN r then (if v < s.getI THM_THRESH0.T_WARN 0 - 8 then s.put THM_REG.WARN r 0 else s)
      else if s.getI THM_THRESH0.T_WARN 0 ≤ v then (s.put THM_REG.WARN r 1).raise 0x0901 3 r (unsg 16 v) else s
  if s.regionCause r && !s.throttled r then enterThrottle r s else s

/-- The checks of every region, after a write that changes thresholds or the mode. -/
def regionChecks (s : State) : State := forAll (List.range 24) (fun s r => regionCheck r s) s

/-- One step of enforcement in region r (R326). -/
def enforce (r : Nat) (s : State) : State :=
  let t := s.tRegion r
  let falling : Bool := match t, (s.regn r).lastT with
    | some v, some w => decide (v + 1 ≤ w)
    | _, _ => false
  let hot := s.regionHot r || s.regionSlow r
  let thm := s.get CAP_RATE_REG.THM r
  let thm' := if hot then (if falling || decide (thm ≤ s.get THM_CTL.RATE_MIN 0) then thm else thm - 1)
    else if s.flag THM_REG.HELD r then min thm (s.get THM_CTL.HELD_RATE 0) else thm
  let s := (s.put CAP_RATE_REG.THM r thm').onRegn r (fun g => { lastT := t, falling := falling, hot := g.hot || hot })
  sendRate (forAll (regionPlanes r) ceilCheck s) r

/-- The grace time of region r ends (R326): the region is still in throttle: enforcement begins with its first step. -/
def graceEnd (r : Nat) (s : State) : State :=
  if ¬ s.throttled r ∨ ¬ s.flag THM_REG.GRACE r then s
  else
    let s := ((s.put THM_REG.GRACE r 0).put THM_REG.ENFORCE r 1).onRegn r (fun _ => {})
    enforce r (s.raise 0x0906 3 r)

/-- The rate request of R330 for region r. -/
def State.drcRate (s : State) (r : Nat) : Nat :=
  let req := match s.tRegion r with
    | some t =>
      let d := t - s.getI THM_THRESH0.T_THROTTLE 0
      if 0 < d then max (s.get THM_CTL.RATE_MIN 0) (((1600 - 2 * s.get THM_DRC1.K 0 * d) / 100).toNat) else 16
    | none => 16
  if s.flag THM_REG.HELD r then min req (s.get THM_CTL.HELD_RATE 0) else req

/-- Every ENF_INT the request of region r is stepped, computed, or raised (R326, R328, R330). -/
def enforcementStep (r : Nat) (s : State) : State :=
  if s.flag THM_CTL.MODE 0 then sendRate (s.put CAP_RATE_REG.THM r (s.drcRate r)) r
  else if s.throttled r then (if s.flag THM_REG.ENFORCE r then enforce r s else s)
  else sendRate (s.put CAP_RATE_REG.THM r (min 16 (s.get CAP_RATE_REG.THM r + 1))) r

/-- The throttle of region r ends (R328): 1 ms without a cause and with T_r below T_THROTTLE − 2 °C. In native mode the request rises
at once by its first step. -/
def throttleEnd (r : Nat) (s : State) : State :=
  let cool : Bool := match s.tRegion r with
    | some t => decide (t < s.getI THM_THRESH0.T_THROTTLE 0 - 8)
    | none => true
  if ¬ s.throttled r ∨ s.regionCause r ∨ ¬ cool then s
  else
    let s := (notice 3 1 0 r 0 s).putBit THM_STAT.THROTTLE 0 r false
    let s := ((s.put THM_REG.ENFORCE r 0).put THM_REG.GRACE r 0).onRegn r (fun _ => {})
    let s := (forAll (regionPlanes r) ceilCheck s).raise 0x0902 3 r
    let thm := s.get CAP_RATE_REG.THM r
    if s.flag THM_CTL.MODE 0 then s else sendRate (s.put CAP_RATE_REG.THM r (min 16 (thm + 1))) r

/-! ## Broken sensors and substitutes (R319 to R322) -/

/-- The effective reading of sensor k is shown (R320). -/
def showSensor (s : State) (k : Nat) : State := s.putI THM_SENS.T k ((s.effective k).getD 0)

/-- The sensors for which sensor k stands in. -/
def State.substitutes (s : State) (k : Nat) : List Nat :=
  (List.range 960).filter (fun j => s.flag THM_SENS.SUBST j && s.get THM_SUBST.SUB j == k)

/-- What sensor k reads has changed: its reading, those that take it, and their regions are brought up. -/
def sensorChanged (k : Nat) (s : State) : State :=
  let js := k :: s.substitutes k
  forAll ((js.map sensorRegion).eraseDups) (fun s r => regionCheck r s) (forAll js showSensor s)

/-- The substitution of sensor j ends (R321). -/
def substEnd (result : Nat) (j : Nat) (s : State) : State :=
  ((s.put THM_SENS.SUBST j 0).put THM_SUBST.EN j 0).put THM_SUBST.RESULT j result

/-- Sensor k is broken with a cause (R319): the substitutions that use it end, and a crew's gate band is TB5 (R320). -/
def breakSensor (k cause : Nat) (s : State) : State :=
  let js := s.substitutes k
  let s := ((s.put THM_SENS.BROKEN k 1).put THM_SENS.CAUSE k cause).put THM_SENS.RATE k 0
  let s := s.onSensor k (fun x => { x with slowAt := none, spikes := [], crit := false, fast := false, biasFails := 0, retest := none })
  let s := s.raise 0x0903 2 k cause
  let s := if k < 192 then s.put CREW_GATE_SEL.BAND k 5 else s
  let s := forAll js (fun s j => (substEnd 5 j s).raise 0x0904 2 j) s
  sensorChanged k (forAll js (fun s j => sensorChanged j s) s)

/-- A criterion of R319 is met: an unbroken sensor breaks, and a retest fails with the new cause (R322). -/
def criterion (k cause : Nat) (s : State) : State :=
  if ¬ s.flag THM_SENS.BROKEN k then breakSensor k cause s
  else if (s.sensor k).retest.isSome then
    (s.put THM_SENS.CAUSE k cause).onSensor k (fun x => { x with retest := none, spikes := [], biasFails := 0 })
  else s

/-- A retest with 16 confirmed samples and a passed bias check passes (R322). -/
def retestCheck (k : Nat) (s : State) : State :=
  match (s.sensor k).retest with
  | some (n, true) =>
    if n < 16 then s
    else
      let s := ((s.put THM_SENS.BROKEN k 0).put THM_SENS.CAUSE k 0).onSensor k (fun x => { x with retest := none })
      sensorChanged k (if s.flag THM_SENS.SUBST k then substEnd 0 k s else s)
  | _ => s

/-- A voltage difference of dv nV lies within ±20 % of (k/q) × T × ln 2, where T is the reading v in kelvin (R319): k/q
is 1380649 / 16021766340 V/K, and ln 2 is taken to 30 digits. DESIGN CHOICE: assumption log 130. -/
def biasOk (dv v : Int) : Bool :=
  let n : Int := 1380649 * 10 ^ 9 * (25 * v + 27315) * 693147180559945309417232121458
  let d : Int := 16021766340 * 100 * 10 ^ 30
  decide (5 * ((dv * d - n).natAbs : Int) ≤ n)

/-- BIAS_CHECK (R319, R322): the front end of sensor k converts at I and 2I; the check passes or fails by its reading,
and twice running it fails as STUCK. A sensor without a reading is not judged. DESIGN CHOICE: assumption log 130. -/
def execBiasCheck (k : Nat) (dv : Int) (s : State) : Out :=
  match (s.sensor k).conf with
  | [] => .next s
  | (v, _) :: _ =>
    if biasOk dv v then
      .next (retestCheck k (s.onSensor k (fun x => { x with biasFails := 0, retest := x.retest.map (fun e => (e.1, true)) })))
    else
      let s := s.onSensor k (fun x => { x with biasFails := x.biasFails + 1 })
      .next (if 2 ≤ (s.sensor k).biasFails then criterion k 3 s else s)

/-- STALE (R319): the TEMP result of a crew sensor is 1 ms old, or has been unsettled for 1 ms. -/
def execStale (k : Nat) (s : State) : Out := .next (if 192 ≤ k then s else criterion k 5 s)

/-- A write of 1 to RETEST of sensor k (R322). -/
def retestWrite (k : Nat) (s : State) : State :=
  if s.flag THM_SENS.BROKEN k then s.onSensor k (fun x => { x with retest := some (0, false), spikes := [], biasFails := 0 }) else s

/-- The judgement of a substitution of sensor k by `sub` (R321): 1 accepted. DESIGN CHOICE: assumption log 78. -/
def State.substResult (s : State) (k sub : Nat) : Nat :=
  let dx : Int := (s.get THM_POS.X k : Int) - s.get THM_POS.X sub
  let dy : Int := (s.get THM_POS.Y k : Int) - s.get THM_POS.Y sub
  if ¬ s.flag THM_SENS.BROKEN k then 4
  else if 960 ≤ sub ∨ s.flag THM_SENS.BROKEN sub ∨ s.flag THM_SENS.SUBST sub then 3
  else if 40000 < dx * dx + dy * dy then 2 else 1

/-- A write of v to THM_SUBST of sensor k (R321). DESIGN CHOICE: assumption log 78. -/
def substWrite (k v : Nat) (s : State) : State :=
  let sub := bits v 9 0
  let s := (s.put THM_SUBST.OFS k (bits v 27 20)).put THM_SUBST.SUB k sub
  let r := if bits v 31 31 = 0 then 0 else s.substResult k sub
  let s := ((s.put THM_SUBST.EN k (if r = 1 then 1 else 0)).put THM_SUBST.RESULT k r).put THM_SENS.SUBST k (if r = 1 then 1 else 0)
  sensorChanged k s

/-! ## Samples (R312 to R319) -/

/-- A sample v between its predecessor and its successor is a spike (R313). -/
def isSpike (pred : Option Int) (v next : Int) : Bool :=
  match pred with
  | some p => decide ((80 < v - p ∧ 80 < v - next) ∨ (v - p < -80 ∧ v - next < -80))
  | none => false

/-- A rise of R316 meets a limit in 0.25 °C/ms. -/
def riseMet (limit : Nat) (e : Option (Int × Nat)) : Bool :=
  match e with
  | some (d, t) => decide (0 < t ∧ (limit * t : Nat) ≤ d * 500000)
  | none => false

/-- The readings kept for the rise limits: those of the last 5 ms and one older. -/
def keepConf (t : Nat) (l : List (Int × Nat)) : List (Int × Nat) :=
  l.takeWhile (fun e => decide (t < e.2 + 2500000)) ++ (l.dropWhile (fun e => decide (t < e.2 + 2500000))).take 1

/-- The sampling rate of sensor k after its confirmed sample at cycle t (R314). -/
def State.sampleRate (s : State) (k t : Nat) : Nat :=
  let x := s.sensor k
  let recent (o : Option Nat) : Bool := match o with | some u => decide (t < u + 5000000) | none => false
  if s.flag THM_SENS.BROKEN k then 0 else if recent x.hot2 || recent x.stepAt then 2 else if recent x.hot1 then 1 else 0

/-- The limits of R317 on the confirmed sample of an unbroken sensor: each stop event is raised when its limit is
first met, and SAFE is 1 from the start of its stop (R371). -/
def limitChecks (k : Nat) (v : Int) (s : State) : State :=
  let ρ := ((s.rise k 250000).map riseRate).getD 0
  let crit : Bool := decide (s.getI THM_THRESH1.T_CRIT 0 ≤ v)
  let fast := riseMet (s.get THM_RISE.FAST 0) (s.rise k 250000)
  let x := s.sensor k
  let d := unsg 16 v + 2 ^ 16 * unsg 16 ρ
  let s := s.onSensor k (fun x => { x with crit := crit, fast := fast })
  let s := if crit && !x.crit then ((startCritical s).put FLT_STAT.SAFE 0 1).raise 0x0908 2 k d else s
  if fast && !x.fast then ((startCritical s).put FLT_STAT.SAFE 0 1).raise 0x0909 2 k d else s

/-- A confirmed sample v of sensor k, taken at cycle t (R313 to R319). -/
def confirm (k : Nat) (v : Int) (t : Nat) (s : State) : State :=
  let thr := s.getI THM_THRESH0.T_THROTTLE 0
  let s := s.onSensor k (fun x => { x with
    conf := keepConf t ((v, t) :: x.conf)
    hot1 := if thr - 40 ≤ v then some t else x.hot1
    hot2 := if thr - 12 ≤ v then some t else x.hot2
    stepAt := match x.conf with | (w, _) :: _ => if 4 ≤ (v - w).natAbs then some t else x.stepAt | [] => x.stepAt
    retest := x.retest.map (fun e => (e.1 + 1, e.2)) })
  let s := if v < -220 then criterion k 1 s else if 700 < v then criterion k 2 s else retestCheck k s
  let s := if s.flag THM_SENS.BROKEN k then s
    else
      let slow := riseMet (s.get THM_RISE.SLOW 0) (s.rise k 2500000)
      let s := s.onSensor k (fun x => { x with
        slowAt := if slow then some t else match x.slowAt with
          | some u => if u + 2500000 ≤ t then none else some u
          | none => none })
      let s := if k < 192 then s.put CREW_GATE_SEL.BAND k (nextBand (s.get CREW_GATE_SEL.BAND k) v) else s
      limitChecks k v s
  sensorChanged k (s.put THM_SENS.RATE k (s.sampleRate k t))

/-- Sensor k is sampled (R312, R313), a crew sensor from its crew's temperature; the sample before is
confirmed, or is a spike, three of which within 100 ms are IMPLAUSIBLE. -/
def sensorSample (k : Nat) (reading : Int) (s : State) : State :=
  if 960 ≤ k then s
  else
    let v := if k < 192 then (s.crew k).temp else sgn 16 (unsg 16 reading)
    let x := s.sensor k
    match x.cur with
    | none => s.onSensor k (fun x => { x with cur := some (v, s.now) })
    | some (w, t) =>
      let s := s.onSensor k (fun x => { x with pred := some w, cur := some (v, s.now) })
      if isSpike x.pred w v then
        let l := t :: x.spikes.filter (fun u => decide (t ≤ u + 50000000))
        let s := s.onSensor k (fun x => { x with spikes := l, retest := x.retest.map (fun e => (0, e.2)) })
        if 3 ≤ l.length then criterion k 4 s else s
      else confirm k w t s

/-! ## Coolant (R331, R333) -/

/-- COOLANT_OK_PIN_CHANGE (R331): the filtered pin changes level. -/
def execCoolantOkPinChange (high : Bool) (s : State) : Out := .next { s with coolantPin := high }

/-- The pin has held its level for 200 µs. A fall is a coolant loss and starts the controlled
stop, with SAFE 1 from there on; in the safe state the pin has no effect (R371). -/
def coolantDebounce (s : State) : State :=
  if s.flag THM_STAT.COOLANT 0 = s.coolantPin ∨ (s.flag FLT_STAT.SAFE 0 ∧ s.stopDone) then s
  else
    let s := s.mark THM_STAT.COOLANT 0 s.coolantPin
    if s.coolantPin then s else (startControlled (s.raise 0x090A 0 0)).put FLT_STAT.SAFE 0 1

end Sys2Proof.Machine
end

