-- ==== Sys2Proof/Machine/Regatta.lean ====
section
/-! DEFINITION. Coordination across packages (chapter 11): messages, the umpire tree, reports and absence, the pool and
grants, slowdown notices, barriers, and the instructions BARX and SLACK. -/

namespace Sys2Proof.Machine

open Sys2Proof

/-! ## The tree (R340) -/

/-- L of a group of n members. -/
def rgtDepth (n : Nat) : Nat := if n ≤ 1 then 0 else if n ≤ 16 then 1 else if n ≤ 256 then 2 else 3

/-- The own index, the levels of the group, the number of levels that this member serves. -/
def State.rgtIdx (s : State) : Nat := s.get RGT_MEMBER.INDEX 0
def State.rgtL (s : State) : Nat := rgtDepth (s.get RGT_GROUP.SIZE 0)
def State.rgtServed (s : State) : Nat := ((List.range s.rgtL).filter (fun k => decide (s.rgtIdx % 16 ^ (k + 1) = 0))).length

/-- The members that hold the children of this member's node at a level. -/
def State.rgtKids (s : State) (lvl : Nat) : List Nat :=
  ((List.range 16).map (fun k => s.rgtIdx + k * 16 ^ (lvl - 1))).filter (fun i => decide (i < s.get RGT_GROUP.SIZE 0))

def State.ump (s : State) (lvl : Nat) : Umpire := tget {} s.rgtLevels lvl
def State.onUmp (s : State) (lvl : Nat) (f : Umpire → Umpire) : State := { s with rgtLevels := tset s.rgtLevels lvl (f (s.ump lvl)) }

/-! ## Messages (R341, R342) -/

/-- Words of a message, with its CRC. -/
def rgtWords (l : List Nat) : List Nat :=
  let b := (l ++ List.replicate (15 - l.length) 0).take 15
  b ++ [crc32 (b.flatMap (leBytes 4))]

/-- A message of a type leaves for a member: from this member's node at a level, with flags and payload. -/
def rgtSend (type lvl flags dst : Nat) (body : List Nat) (s : State) : State :=
  let h := [type * 2 ^ 28 + lvl * 2 ^ 24 + flags * 2 ^ 16 + s.get RGT_GROUP.GROUP_ID 0, s.rgtIdx * 2 ^ 16 + dst, s.rgtPeriod % 2 ^ 32]
  { s with rgtOut := s.rgtOut ++ [rgtWords (h ++ body)] }

/-- Word w of a message. -/
def mw (m : List Nat) (w : Nat) : Nat := m.getD w 0 % 2 ^ 32

/-- A message is good: its CRC holds, its group is the receiver's, and its type is not reserved. -/
def State.msgGood (s : State) (m : List Nat) : Bool :=
  m.length == 16 && mw m 15 == crc32 (((List.range 15).map (mw m)).flatMap (leBytes 4)) &&
    bits (mw m 0) 11 0 == s.get RGT_GROUP.GROUP_ID 0 && decide (1 ≤ bits (mw m 0) 31 28 ∧ bits (mw m 0) 31 28 ≤ 6)

/-- A message of type `type` arrives and `act` handles it, from the level and the member that sent it; a bad message is
dropped and counted, and while EN is 0 the member takes no part in a good one. DESIGN CHOICE: assumption log 86. -/
def onMessage (type : Nat) (m : List Nat) (act : Nat → Nat → State → State) (s : State) : State :=
  if s.msgGood m = false then s.bump RGT_CNT.BAD_MSG 0
  else if ¬ s.flag RGT_CTL.EN 0 then s
  else if bits (mw m 0) 31 28 ≠ type then s
  else act (bits (mw m 0) 27 24) (bits (mw m 1) 27 16) s

/-- A message goes down from this member's node at a level to its children: to the other members by the port, and on
through this member's own lower nodes to the member itself, which `act` then serves. -/
def rgtDown (type flags : Nat) (body : List Nat) (act : State → State) : Nat → State → State
  | 0, s => act s
  | lvl + 1, s =>
    let s := forAll ((s.rgtKids (lvl + 1)).filter (fun i => i != s.rgtIdx)) (fun s i => rgtSend type (lvl + 1) flags i body s) s
    rgtDown type flags body act lvl s

/-- The member that holds the parent of this member's node at a level. -/
def State.rgtParent (s : State) (lvl : Nat) : Nat := s.rgtIdx - s.rgtIdx % 16 ^ (lvl + 1)

/-! ## Slowdowns (R350, R351) -/

/-- The largest slowdown over a node's children, an absent one counting 0, and its index: the lower of equals. -/
def slowest (u : Umpire) : Nat × Nat :=
  ((u.kids.foldl (fun (b : Option (Nat × Nat)) e =>
    let x := (if e.2.absent then 0 else e.2.slow, e.2.slowIdx)
    match b with
    | none => some x
    | some y => if y.1 < x.1 ∨ (x.1 = y.1 ∧ x.2 < y.2) then some x else some y) none)).getD (0, 0)

/-- FOLLOWING shows whether a follow ceiling is in force. -/
def showFollow (s : State) : State :=
  s.mark RGT_STAT.FOLLOWING 0 (s.flag RGT_CTL.FOLLOW 0 && (List.range 8).any (fun f => (s.plane (4 * f)).followB.isSome))

/-- The follow ceilings are lifted. -/
def liftFollow (s : State) : State :=
  showFollow (forAll (List.range 8) (fun s f => s.onPlane (4 * f) (fun q => { q with followB := none })) s)

/-- A NOTICE_ALL reaches the member (R351). -/
def noticeMember (slow idx : Nat) (s : State) : State :=
  let s := (s.put RGT_SLOW.S_MAX 0 slow).put RGT_SLOW.S_IDX 0 idx
  if slow = 0 ∨ idx = s.rgtIdx then liftFollow s
  else
    let s := forAll (List.range 8) (fun s n => if s.flag LANE_GRANTX.REGATTA n then setSig n (2 ^ 11) s else s) (sigSupers 11 s)
    showFollow (forAll (List.range 8) (fun s f => s.onPlane (4 * f) (fun q =>
      { q with followB := some (q.followB.getD (s.planeMw (4 * f) : Rat)) })) s)

/-- The payload of NOTICE and NOTICE_ALL. -/
def slowBody (slow idx : Nat) : List Nat := [idx * 2 ^ 16 + slow]

/-- A slowdown goes up from this member's node at a level (R350): as a message, or to its own next node, which sends on
what has changed there; at the root as a NOTICE_ALL down. DESIGN CHOICE: assumption log 85. -/
def noticeUp : Nat → Nat → Nat → Nat → State → State
  | 0, _, _, _, s => s
  | n + 1, lvl, slow, idx, s =>
    if s.rgtL ≤ lvl then rgtDown 6 0 (slowBody slow idx) (noticeMember slow idx) s.rgtL s
    else if s.rgtParent lvl ≠ s.rgtIdx then rgtSend 5 lvl 0 (s.rgtParent lvl) (slowBody slow idx) s
    else
      let s := s.onUmp (lvl + 1) (fun u => { u with kids := tset u.kids s.rgtIdx { tget {} u.kids s.rgtIdx with slow := slow, slowIdx := idx } })
      let x := slowest (s.ump (lvl + 1))
      if x = (s.ump (lvl + 1)).sent then s
      else noticeUp n (lvl + 1) x.1 x.2 (s.onUmp (lvl + 1) (fun u => { u with sent := x }))

/-- A node's largest slowdown is brought up, and sent on where it has changed. -/
def nodeSlow (lvl : Nat) (s : State) : State :=
  let x := slowest (s.ump lvl)
  if x = (s.ump lvl).sent then s else noticeUp 4 lvl x.1 x.2 (s.onUmp lvl (fun u => { u with sent := x }))

/-- This member's node at level lvl serves the group, and member i is one of its children. -/
def State.isKid (s : State) (lvl i : Nat) : Bool := decide (1 ≤ lvl ∧ lvl ≤ s.rgtServed) && (s.rgtKids lvl).contains i

/-- NOTICE (R350): a child's slowdown arrives at a node. -/
def execNotice (m : List Nat) (s : State) : Out :=
  .next (onMessage 5 m (fun lvl src s =>
    if s.isKid (lvl + 1) src then
      nodeSlow (lvl + 1) (s.onUmp (lvl + 1) (fun u => { u with
        kids := tset u.kids src { tget {} u.kids src with slow := mw m 3 % 2 ^ 8, slowIdx := bits (mw m 3) 27 16 } }))
    else s) s)

/-- NOTICE_ALL (R350, R351): forwarded down, and taken by the member. -/
def execNoticeAll (m : List Nat) (s : State) : Out :=
  .next (onMessage 6 m (fun lvl _ s =>
    let slow := mw m 3 % 2 ^ 8
    let idx := bits (mw m 3) 27 16
    rgtDown 6 0 (slowBody slow idx) (noticeMember slow idx) (min (lvl - 1) s.rgtServed) s) s)

/-! ## Barriers (R352 to R354) -/

/-- A BARX of a lane is met: its wait is measured (R354). -/
def barMetLane (s : State) (n : Nat) : State :=
  match (s.ctx n).wait with
  | some w =>
    let ns := 2 * (s.now - w.at_)
    let s := s.put RGT_BAR_WAIT.WAIT 0 (min ns (2 ^ 32 - 1))
    endWait n 0 { s with rgtWait := some (match s.rgtWait with | some x => min x ns | none => ns) }
  | none => s

/-- The lanes that wait in BARX for a number. -/
def State.barxLanes (s : State) (num : Nat) : List Nat :=
  (List.range 8).filter (fun n => s.lst n == 4 && (match (s.ctx n).wait with
    | some w => w.cond == .barx num
    | none => false))

/-- A DONE reaches the member: every lane that waits in BARX for it is met; with none it is dropped (R353). -/
def doneMember (num : Nat) (s : State) : State := forAll (s.barxLanes num) barMetLane s

/-- The children that count for an open barrier of a node have all joined: the present ones, but for those that became
absent while it was open (R352, R353). -/
def barFull (u : Umpire) (b : Bar) : Bool := u.kids.all (fun e => e.2.absent || b.joined.contains e.1 || b.gone.contains e.1)

/-- What a child's JOIN for a barrier does at a node (R352): it opens or joins the entry, and closes a full one; the open
barriers after it, and whether it was full. None where a ninth would be opened. -/
def Umpire.join (u : Umpire) (child num : Nat) : Option (List Bar × Bool) :=
  match u.bars.find? (fun b => b.num == num) with
  | none =>
    let b : Bar := ⟨num, [child], []⟩
    if 8 ≤ u.bars.length then none else if barFull u b then some (u.bars, true) else some (u.bars ++ [b], false)
  | some x =>
    let b : Bar := { x with joined := if x.joined.contains child then x.joined else x.joined ++ [child] }
    if barFull u b then some (u.bars.filter (fun y => y.num != num), true)
    else some (u.bars.map (fun y => if y.num = num then b else y), false)

/-- A JOIN goes up from this member's node at a level (R352): as a message, or to its own next node, which opens or
fills its entry and closes a full one; at the root as a DONE down. -/
def joinUp : Nat → Nat → Nat → State → State
  | 0, _, _, s => s
  | n + 1, lvl, num, s =>
    if s.rgtL ≤ lvl then rgtDown 4 0 [num] (doneMember num) s.rgtL s
    else if s.rgtParent lvl ≠ s.rgtIdx then rgtSend 3 lvl 0 (s.rgtParent lvl) [num] s
    else
      match (s.ump (lvl + 1)).join s.rgtIdx num with
      | none => (s.bump RGT_CNT.BAR_FULL 0).raise 0x0A02 6 s.rgtIdx
      | some (bs, full) =>
        let s := s.onUmp (lvl + 1) (fun u => { u with bars := bs })
        if full then joinUp n (lvl + 1) num s else s

/-- A child's JOIN arrives at a node at a level (R352). -/
def nodeJoin (lvl child num : Nat) (s : State) : State :=
  match (s.ump lvl).join child num with
  | none => (s.bump RGT_CNT.BAR_FULL 0).raise 0x0A02 6 s.rgtIdx
  | some (bs, full) =>
    let s := s.onUmp lvl (fun u => { u with bars := bs })
    if full then joinUp 4 lvl num s else s

/-- The open barriers of a node that its present children have filled are forwarded and closed (R353). -/
def barsRecheck (lvl : Nat) (s : State) : State :=
  let u := s.ump lvl
  let full := (u.bars.filter (barFull u)).map (·.num)
  forAll full (fun s num => joinUp 4 lvl num s) (s.onUmp lvl (fun u => { u with bars := u.bars.filter (fun b => !full.contains b.num) }))

/-- JOIN (R352). -/
def execJoin (m : List Nat) (s : State) : Out :=
  .next (onMessage 3 m (fun lvl src s => if s.isKid (lvl + 1) src then nodeJoin (lvl + 1) src (mw m 3 % 2 ^ 12) s else s) s)

/-- DONE (R352): forwarded down, and taken by the member. -/
def execDone (m : List Nat) (s : State) : Out :=
  .next (onMessage 4 m (fun lvl _ s =>
    let num := mw m 3 % 2 ^ 12
    rgtDown 4 0 [num] (doneMember num) (min (lvl - 1) s.rgtServed) s) s)

/-- BARX (R267, R352, R354). -/
def execBarx (n : Nat) (s : State) : Out :=
  .next (issue n 0x35 (fun w s =>
    let num := bits w.imm 31 20
    if 8 ≤ n then laneOnlyWait n w.rd w.unit s
    else if ¬ s.flag RGT_CTL.EN 0 then fall n ((s.raise 0x0A03 4 n).setV n w.rd 1)
    else
      let s := (s.onCtx n (fun k => { k with wait := some ⟨.barx num, w.rd, s.now, bits w.imm 19 0⟩ })).setLst n 4
      joinUp 4 0 num s) s)

/-- SLACK (R273, R344). -/
def execSlack (n : Nat) (s : State) : Out :=
  .next (issue n 0x45 (fun w s => if 8 ≤ n then fall n (supRefused n w.unit s) else fall n { s with rgtSlack := some (s.vreg n w.rs) }) s)

/-! ## Reports (R343 to R345) -/

/-- The sum of reports as a node forms it (R345). -/
def Report.add (a : Report) (c : Child) : Report :=
  let r := c.report
  if c.absent then { a with absent := a.absent + r.members, pmin := a.pmin + r.pmin + sumN r.want + r.spare }
  else
    { members := a.members + r.members, absent := a.absent + r.absent, power := a.power + r.power, pmin := a.pmin + r.pmin
      spare := a.spare + r.spare, want := (List.range 8).map (fun b => a.want.getD b 0 + r.want.getD b 0)
      throttled := a.throttled || r.throttled }

/-- The sums over a node's children. -/
def nodeSum (u : Umpire) : Report := u.kids.foldl (fun a e => a.add e.2) {}

/-- The payload of a REPORT. -/
def Report.body (r : Report) : List Nat :=
  [r.members * 2 ^ 16 + r.absent % 2 ^ 16, r.power % 2 ^ 32, r.pmin % 2 ^ 32, r.spare % 2 ^ 32] ++
    (List.range 8).map (fun b => r.want.getD b 0 % 2 ^ 32)

/-- The REPORT that a message carries. -/
def reportOf (m : List Nat) : Report :=
  { members := mw m 3 / 2 ^ 16, absent := mw m 3 % 2 ^ 16, power := mw m 4, pmin := mw m 5, spare := mw m 6
    want := (List.range 8).map (fun b => mw m (7 + b)), throttled := bitAt (mw m 0) 16 }

/-- A child's REPORT is kept, and makes it present again (R345). -/
def keepReport (lvl child : Nat) (r : Report) (s : State) : State :=
  let was := (tget {} (s.ump lvl).kids child).absent
  let s := s.onUmp lvl (fun u => { u with kids := tset u.kids child { tget {} u.kids child with report := r, age := 0, absent := false } })
  if was then nodeSlow lvl s else s

/-- REPORT (R345). -/
def execReport (m : List Nat) (s : State) : Out :=
  .next (onMessage 1 m (fun lvl src s => if s.isKid (lvl + 1) src then keepReport (lvl + 1) src (reportOf m) s else s) s)

/-- The slack that the next report carries, in ns, if there is one (R344). -/
def State.slackNow (s : State) : Option Nat := if s.flag RGT_CTL.SLACK_SRC 0 then s.rgtMeas else s.rgtSlack

/-- The band of a slack in ns (R344). -/
def slackBand : Option Nat → Nat
  | none => 7
  | some ns => if ns < 1000 then 0 else min 7 (Nat.log2 (ns / 1000) + 1)

/-- P_MAX in W (R343). -/
def State.rgtPmax (s : State) : Nat :=
  min (s.get RGT_LIMIT.PMAX 0) (min (s.get CAP_LIM.LIMIT 0) (min (s.get CAP_LIM.LIMIT 1) (s.get CAP_LIM.LIMIT 2)))

/-- The total demand D of the last pass in mW (R286). -/
def State.totalDemand (s : State) : Rat := (List.range 32).foldl (fun a p => a + tget 0 s.capDem p) 0

/-- The member's own REPORT for a band (R343). -/
def State.ownReport (s : State) (band : Nat) : Report :=
  let pmin := sumN ((List.range 4).map (fun d => s.get CAP_CLASS.FLOOR d))
  let pmax := s.rgtPmax
  let head := (roundRat (s.totalDemand * (100 + s.get RGT_CTL.HEADROOM 0 : Nat) / 100000)).toNat
  let want := min head pmax - pmin
  { members := 1, absent := 0, power := s.rgtPower / (1000 * max 1 s.rgtPasses), pmin := pmin, spare := pmax - pmin - want
    want := (List.range 8).map (fun b => if b = band then want else 0), throttled := s.get RGT_SLOW.S_OWN 0 != 0 }

/-- One more period has passed at a node: children whose REPORT is older than 3 periods become absent (R345), and no
longer count for the barriers that are open (R353). -/
def ageKids (lvl : Nat) (s : State) : State :=
  let s := s.onUmp lvl (fun u => { u with kids := u.kids.map (fun e => (e.1, { e.2 with age := e.2.age + 1 })) })
  let gone := ((s.ump lvl).kids.filter (fun e => !e.2.absent && decide (3 < e.2.age))).map (·.1)
  let s := s.onUmp lvl (fun u => { u with
    kids := u.kids.map (fun e => if gone.contains e.1 then (e.1, { e.2 with absent := true }) else e)
    bars := u.bars.map (fun b => { b with gone := b.gone ++ gone }) })
  let s := forAll gone (fun s i => s.raise 0x0A01 6 i) s
  if gone = [] then s else nodeSlow lvl (barsRecheck lvl s)

/-! ## The pool (R347, R348) -/

/-- The fills of the eight bands of a pool above the minima, and what is left. -/
def fills : Nat → List Nat → List Nat × Nat
  | r, [] => ([], r)
  | r, w :: t =>
    let give := min w r
    let x := fills (r - give) t
    ((if w = 0 then 0xFFFF else 65535 * give / w) :: x.1, x.2)

/-- A GRANT from sums and a pool: fills, SPARE_FILL, FLAGS[0]. -/
def divide (pool : Nat) (r : Report) : List Nat × Nat × Bool :=
  if pool < r.pmin then (List.replicate 8 0, 0, true)
  else
    let x := fills (pool - r.pmin) ((List.range 8).map (fun b => r.want.getD b 0))
    (x.1, if r.spare = 0 then 0xFFFF else 65535 * min x.2 r.spare / r.spare, false)

/-- The payload of a GRANT. -/
def grantBody (fs : List Nat) (sf pool : Nat) : List Nat :=
  (List.range 4).map (fun k => fs.getD (2 * k) 0 + fs.getD (2 * k + 1) 0 * 2 ^ 16) ++ [sf * 2 ^ 16, pool]

/-- A GRANT reaches the member (R346, R348). -/
def grantMember (fs : List Nat) (sf : Nat) (short : Bool) (s : State) : State :=
  let s := { (s.put RGT_STAT.CONTACT 0 1).mark RGT_STAT.POOL_SHORT 0 short with rgtQuiet := 0 }
  match s.rgtOwn with
  | none => s
  | some (r, b) => s.put RGT_GRANT.G 0 (r.pmin + sumN r.want * fs.getD b 0 / 65535 + r.spare * sf / 65535)

/-- The fields of a GRANT message. -/
def grantOf (m : List Nat) : List Nat × Nat × Bool :=
  ((List.range 8).map (fun b => mw m (3 + b / 2) / 2 ^ (16 * (b % 2)) % 2 ^ 16), mw m 7 / 2 ^ 16, bitAt (mw m 0) 16)

/-- REGATTA_GRANT (R347, R348): forwarded down, and taken by the member. -/
def execRegattaGrant (m : List Nat) (s : State) : Out :=
  .next (onMessage 2 m (fun lvl _ s =>
    let (fs, sf, short) := grantOf m
    rgtDown 2 short.toNat (grantBody fs sf (mw m 8)) (grantMember fs sf short) (min (lvl - 1) s.rgtServed) s) s)

/-- POOL_DIVISION (R347): the root divides its pool by the sums and sends the GRANT down. -/
def rootGrant (r : Report) (s : State) : State :=
  let pool := s.get RGT_POOL.POOL 0
  let (fs, sf, short) := divide pool r
  let s := match short, s.rgtShort with
    | true, none => { s.raise 0x0A05 6 s.rgtIdx with rgtShort := some 0 }
    | true, some n => if 100 ≤ n + 1 then { s.raise 0x0A05 6 s.rgtIdx with rgtShort := some 0 } else { s with rgtShort := some (n + 1) }
    | false, some n => { s with rgtShort := if 100 ≤ n + 1 then none else some (n + 1) }
    | false, none => s
  rgtDown 2 short.toNat (grantBody fs sf pool) (grantMember fs sf short) s.rgtL s

/-- The node at a level sends its REPORT up; the root divides the pool (R345, R347). -/
def nodeReport (s : State) (lvl : Nat) : State :=
  let s := ageKids lvl s
  let r := nodeSum (s.ump lvl)
  if s.rgtL ≤ lvl then rootGrant r s
  else if s.rgtParent lvl ≠ s.rgtIdx then rgtSend 1 lvl r.throttled.toNat (s.rgtParent lvl) r.body s
  else keepReport (lvl + 1) s.rgtIdx r s

/-- CONTACT_LOST (R346): three own periods without a GRANT, besides the one in which the last came. -/
def contactCheck (s : State) : State :=
  let s := { s with rgtQuiet := s.rgtQuiet + 1 }
  if 4 ≤ s.rgtQuiet ∧ s.flag RGT_STAT.CONTACT 0 then
    (liftFollow ((s.put RGT_STAT.CONTACT 0 0).put RGT_STAT.CEILED 0 0)).raise 0x0A04 6 s.rgtIdx
  else s

/-- Every node of the member reports, in rising order of level, and the members that its highest one counts as absent
are shown. DESIGN CHOICE: assumption log 85. -/
def nodesReport (s : State) : State :=
  let s := forAll ((List.range s.rgtServed).map (· + 1)) nodeReport s
  let absent := if s.rgtServed = 0 then 0 else (nodeSum (s.ump s.rgtServed)).absent
  { s with rgtPeriod := s.rgtPeriod + 1 }.put RGT_STAT.ABSENT 0 absent

/-- REPORT_PERIOD (R343 to R347): PERIOD passes have gone by since the last one: the member reports, each of its nodes
in rising order of level reports what its children sent, and the root divides the pool. -/
def execReportPeriod (s : State) : Out :=
  if ¬ s.flag RGT_CTL.EN 0 ∨ s.rgtPasses < s.get RGT_CTL.PERIOD 0 then .next s
  else
    let s := { s with rgtMeas := s.rgtWait.orElse (fun _ => s.rgtMeas), rgtWait := none }
    let b := slackBand s.slackNow
    let s := ((s.mark RGT_SLACK.NONE 0 s.slackNow.isNone).put RGT_SLACK.BAND 0 b).put RGT_SLACK.SLACK 0
      (min (roundOpen (s.slackNow.getD 0) 1000).toNat (2 ^ 24 - 1))
    let r := s.ownReport b
    let s := { s.put RGT_LIMIT.PMAX_EFF 0 s.rgtPmax with rgtOwn := some (r, b), rgtPasses := 0, rgtPower := 0 }
    let s := contactCheck s
    let s := if s.rgtL = 0 then rootGrant r s
      else if s.rgtParent 0 ≠ s.rgtIdx then rgtSend 1 0 r.throttled.toNat (s.rgtParent 0) r.body s
      else keepReport 1 s.rgtIdx r s
    .next (nodesReport s)

/-! ## Membership (R339) -/

/-- EN is set: the member takes part, with the nodes that it serves. -/
def rgtJoin (s : State) : State :=
  if s.get RGT_GROUP.SIZE 0 ≤ s.rgtIdx then s.setOver RGT_STAT.CFG_ERR 0
  else
    let lv (k : Nat) : Nat × Umpire :=
      (k + 1, { kids := (s.rgtKids (k + 1)).map (fun i => (i, { slowIdx := i })), sent := (0, s.rgtIdx) })
    let s := { s with rgtLevels := (List.range s.rgtServed).map lv, rgtOwn := none, rgtPasses := 0, rgtPower := 0, rgtPeriod := 0
                      rgtQuiet := 0, rgtShort := none, rgtSlack := none, rgtWait := none, rgtMeas := none }
    (s.put RGT_CTL.EN 0 1).mark RGT_STAT.ROOT 0 (s.rgtIdx == 0)

/-- EN is cleared: the member leaves, and its ceilings are lifted. DESIGN CHOICE: assumption log 86. -/
def rgtLeave (s : State) : State :=
  let s := { s.put RGT_CTL.EN 0 0 with rgtLevels := [], rgtOwn := none }
  liftFollow (((s.put RGT_STAT.CONTACT 0 0).put RGT_STAT.ROOT 0 0).put RGT_STAT.CEILED 0 0)

end Sys2Proof.Machine
end

