-- ==== Sys2Proof/Machine/Capping.lean ====
section
/-! DEFINITION. Power capping (chapter 09): the pass of R146 and R285 with its measures, budgets, classes, allowances,
heat budgets, rate steps, throttle requests and overruns, and the derating of planes (R167). Powers are in mW. -/

namespace Sys2Proof.Machine

open Sys2Proof

/-! ## Measures (R281, R283) -/

/-- M_c of the interval that ends: energy in 5 × 10⁻¹⁶ J over 10 µs, in mW. DESIGN CHOICE: assumption log 80. -/
def measureCrew (s : State) (c : Nat) : State :=
  let m := (roundOpen (s.crew c).energy 20000000).toNat
  (s.put EST_CREW_MEAS.MW c m).onCrew c (fun k => { k with energy := 0 })

/-- The interval power P in mW. -/
def State.dieMw (s : State) : Nat := sumN ((List.range 32).map s.planeMw)

/-- The measures of P after an interval (R283): A is held in 2⁻³² W. -/
def measure (s : State) : State :=
  let s := forAll allCrews measureCrew s
  let p := s.dieMw
  let s := { s with capHist := (p :: s.capHist).take 1000
                    capA := s.capA + roundOpen ((p : Int) * 4294967296 - 1000 * s.capA) 100000000
                    capPass := s.capPass + 1
                    rgtPasses := s.rgtPasses + 1, rgtPower := s.rgtPower + p }
  let s := (s.put CAP_VALS.VALUE 0 (p / 1000)).put CAP_VALS.VALUE 1 (s.sum1ms / 100000)
  let s := (s.put CAP_VALS.VALUE 2 (sumN s.capHist / 1000000)).put CAP_VALS.VALUE 3 (s.capA / 4294967296).toNat
  forAll (List.range 32) (fun s p => s.onPlane p (fun q => { q with
    recent := if q.powered then (sumN ((planeCrews p).map s.iPos) :: q.recent).take 100 else [] })) s

/-! ## Budgets and demand (R285, R286) -/

/-- The effective limit of cap k (0 1 ms, 1 10 ms, 2 sustained) in mW. Every CAP_ field that a write sets counts in a pass
as its cycle found it: a write of that cycle applies from the following pass (R296). -/
def State.effLimit (s : State) (k : Nat) : Rat :=
  (1000 * s.was CAP_LIM.LIMIT k : Nat) * (if s.flag CAP_STAT.MODE 0 then 1 else 92 / 100 : Rat)

/-- A in mW. -/
def State.ewma (s : State) : Rat := (s.capA : Rat) * 1000 / 4294967296

/-- The budget of cap k in mW. -/
def State.budget (s : State) (k : Nat) : Rat :=
  let b : Rat := match k with
    | 0 => 100 * s.effLimit 0 - (sumN (s.capHist.take 99) : Rat)
    | 1 => 1000 * s.effLimit 1 - (sumN (s.capHist.take 999) : Rat)
    | _ => s.ewma + (s.effLimit 2 - s.ewma) * 100000
  max 0 b

/-- D_p in mW (R286). -/
def State.demandOf (s : State) (p : Nat) : Rat :=
  let m : Rat := s.planeMw p
  if s.flag CAP_STAT.MODE 0 ∧ p % 4 < 2 then
    max m ((planeCrews p).foldl (fun a c => a + (tget {} s.estCal c).est) 0)
  else m

/-- D_d of a class in mW. -/
def State.classDemand (s : State) (d : Nat) : Rat := (List.range 8).foldl (fun a f => a + tget 0 s.capDem (4 * f + d)) 0

/-! ## Allocation (R287 to R290) -/

/-- The classes in priority order served from R: their allocations above the floors. -/
def serve (s : State) : List Nat → Rat → Tab Rat
  | [], _ => []
  | d :: t, r =>
    let f : Rat := 1000 * s.was CAP_CLASS.FLOOR d
    let want := max (min (s.classDemand d) (1000 * s.was CAP_CLASS.CEIL d : Rat) - f) 0
    let give := min want r
    tset (serve s t (r - give)) d (f + give)

/-- A_d of every class in mW, and FLOOR_HELD. -/
def State.allocate (s : State) (b : Rat) : Tab Rat × Bool :=
  let floors : Rat := (List.range 4).foldl (fun a d => a + (1000 * s.was CAP_CLASS.FLOOR d : Nat)) 0
  if b < floors then ((List.range 4).map (fun d => (d, ((1000 * s.was CAP_CLASS.FLOOR d : Nat) : Rat))), true)
  else (serve s [2, 3, 1, 0] (b - floors), false)

/-- The smaller of a power and a ceiling, if there is one. -/
def capBy (w : Rat) : Option Rat → Rat
  | some c => min w c
  | none => w

/-- The current ceiling of plane p in mW (R167, R290): A × the highest effective target in 0.1 µV. -/
def State.currentCeil (s : State) (p : Nat) : Option Rat :=
  (s.plane p).ceiling.map (fun a => (a * maxN ((planeCrews p).map s.target) : Nat) / (10000 : Rat))

/-- The regatta ceiling of plane p in mW; a GRANT of the pass's own cycle, contact that it regains included, applies from the
pass after it (R349). -/
def State.regattaCeil (s : State) (p : Nat) : Option Rat :=
  let g : Rat := 1000 * s.was RGT_GRANT.G 0
  if s.flag RGT_CTL.EN 0 ∧ s.flag RGT_CTL.APPLY 0 ∧ s.flag RGT_STAT.CONTACT 0 ∧ s.was RGT_STAT.CONTACT 0 = 1 ∧ g < s.totalDemand then
    some (g * tget 0 s.capDem p / s.totalDemand)
  else none

/-- The follow ceiling of plane p in mW (R351). -/
def State.followCeil (s : State) (p : Nat) : Option Rat :=
  if s.flag RGT_CTL.FOLLOW 0 then
    (s.plane p).followB.map (fun b => b * (256 - min (s.get RGT_SLOW.S_MAX 0) (s.get RGT_CTL.FOLLOW_MAX 0) : Nat) / 256)
  else none

/-- W_p in mW (R290): the share of the class truncated to a whole W, under every ceiling in force.
DESIGN CHOICE: assumption log 87. -/
def State.allowance (s : State) (a : Tab Rat) (p : Nat) : Rat :=
  let ad := tget 0 a (p % 4)
  let dd := s.classDemand (p % 4)
  let w := if dd = 0 then ad / 8 else ad * tget 0 s.capDem p / dd
  let w : Rat := 1000 * (w / 1000).floor
  capBy (capBy (capBy (capBy w (s.currentCeil p)) (s.thmCeil p)) (s.regattaCeil p)) (s.followCeil p)

/-! ## Enforcement (R291 to R295) -/

/-- M_p of the interval exceeds the allowance of the pass before (R290). -/
def State.isOver (s : State) (old : Tab Rat) (p : Nat) : Bool := thas old p && decide (tget 0 old p < (s.planeMw p : Rat))

/-- M_p is at or below 0.95 of the allowance of the pass before (R292, R294). DESIGN CHOICE: assumption log 87. -/
def State.isEasy (s : State) (old : Tab Rat) (p : Nat) : Bool :=
  !thas old p || decide ((s.planeMw p : Rat) ≤ tget 0 old p * 95 / 100)

/-- The heat budget of field f (R291). -/
def heatBudgetOf (s : State) (f : Nat) : State :=
  let w := tget 0 s.capAllow (4 * f)
  let d := tget 0 s.capDem (4 * f)
  s.put CAP_HEAT.BUDGET f (if w < d then max 10 ((s.get MSH_CTL.BUDGET f : Rat) * w / d).floor.toNat else 1023)

/-- One region's capping rate request (R292): a step down for an over plane, or up after UP_INT easy passes. -/
def rateStep (down : List Nat) (old : Tab Rat) (s : State) (r : Nat) : State :=
  let cap := s.get CAP_RATE_REG.CAP r
  let s := if down.contains r then (if s.was CAP_CTL.RATE_MIN 0 < cap then s.put CAP_RATE_REG.CAP r (cap - 1) else s) else s
  let n := if (regionPlanes r).all (s.isEasy old) then tget 0 s.capUp r + 1 else 0
  let s := if s.was CAP_CTL.UP_INT 0 ≤ n then
      { s.put CAP_RATE_REG.CAP r (min 16 (s.get CAP_RATE_REG.CAP r + 1)) with capUp := tdel s.capUp r }
    else { s with capUp := if n = 0 then tdel s.capUp r else tset s.capUp r n }
  sendRate s r

/-- CAP_THROTTLE (R294) of plane p, from whether it was over with its regions at RATE_MIN before this pass's steps.
DESIGN CHOICE: assumption log 88. -/
def throttlePlane (low : List Nat) (s : State) (p : Nat) : State :=
  let n := if low.contains p then tget 0 s.capMinRun p + 1 else 0
  let s := { s with capMinRun := if n = 0 then tdel s.capMinRun p else tset s.capMinRun p n }
  let f := p / 4
  if s.was CAP_CTL.THR_INT 0 ≤ n ∧ ¬ s.capThr.contains p then
    let s := { s with capThr := s.capThr ++ [p] }.raisePlane 0x0803 p
    if bitAt (s.get CAP_STAT.THROTTLE 0) f then s else (notice 2 2 1 f 0 s).putBit CAP_STAT.THROTTLE 0 f true
  else s

/-- The cap throttle of field f is withdrawn after UP_INT easy passes of its throttled planes (R294). -/
def throttleField (old : Tab Rat) (s : State) (f : Nat) : State :=
  let ps := s.capThr.filter (fun p => p / 4 == f)
  if ps = [] then s
  else
    let n := if ps.all (s.isEasy old) then tget 0 s.capRel f + 1 else 0
    if s.was CAP_CTL.UP_INT 0 ≤ n then
      let s := { s with capThr := s.capThr.filter (fun p => p / 4 != f), capRel := tdel s.capRel f }
      (notice 3 2 1 f 0 s).putBit CAP_STAT.THROTTLE 0 f false
    else { s with capRel := if n = 0 then tdel s.capRel f else tset s.capRel f n }

/-- Cap k is above its written limit at this pass (R295): counted, and recorded at most once per 100 passes. -/
def overrun (above : Bool) (cnt : Fld) (k measure : Nat) (s : State) : State :=
  if ¬ above then s
  else
    let s := s.bump cnt 0
    if thas s.capOverAt k ∧ s.capPass < tget 0 s.capOverAt k + 100 then s
    else { s with capOverAt := tset s.capOverAt k s.capPass }.raise 0x0802 0 0 (k + 1) measure

/-- CAP_OVERRUN (R295). DESIGN CHOICE: assumption log 91. -/
def overruns (s : State) : State :=
  let lim (k : Nat) : Nat := s.was CAP_LIM.LIMIT k
  let s := overrun (decide (100000 * lim 0 < s.sum1ms)) CAP_OVR_CNT.M1 0 (s.get CAP_VALS.VALUE 1) s
  let s := overrun (decide (1000000 * lim 1 < sumN s.capHist)) CAP_OVR_CNT.M10 1 (s.get CAP_VALS.VALUE 2) s
  let s := overrun (decide ((lim 2 : Int) * 4294967296 < s.capA)) CAP_OVR_CNT.SUS 2 (s.get CAP_VALS.VALUE 3) s
  let high := if 105000 * lim 0 < s.sum1ms then s.capHigh + 1 else 0
  let s := { s with capHigh := high }
  if high = 100 then s.raise 0x0805 0 0 else s

/-! ## Binding (R286, R289) -/

/-- The budgets, what binds and governs, and "cap bound" (R286, R289): the die budget. -/
def binding (s : State) : State × Rat :=
  let d := s.totalDemand
  let bs := (List.range 3).map s.budget
  let b := min (bs.getD 0 0) (min (bs.getD 1 0) (bs.getD 2 0))
  let binds (k : Nat) : Bool := decide (bs.getD k 0 < d)
  let gov := match (List.range 3).find? (fun k => binds k && bs.getD k 0 == b) with
    | some k => k + 1
    | none => 0
  let before := s.flag CAP_STAT.BIND_1MS 0 || s.flag CAP_STAT.BIND_10MS 0 || s.flag CAP_STAT.BIND_SUS 0
  let s := ((s.mark CAP_STAT.BIND_1MS 0 (binds 0)).mark CAP_STAT.BIND_10MS 0 (binds 1)).mark CAP_STAT.BIND_SUS 0 (binds 2)
  let w := min (b / 1000).floor.toNat (2 ^ 32 - 1)
  let s := (s.put CAP_STAT.GOVERN 0 gov).put CAP_VALS.VALUE 4 w
  if gov ≠ 0 ∧ ¬ before then
    let s := sigSupers 10 s
    let due : Bool := match s.capBoundAt with
      | some n => decide (n + 100 ≤ s.capPass)
      | none => true
    (if due then { s with capBoundAt := some s.capPass }.raise 0x0801 0 0 gov w else s, b)
  else (s, b)

/-- The allocations and allowances of the pass (R288 to R290). -/
def allowances (b : Rat) (s : State) : State :=
  let (a, held) := s.allocate b
  let s := s.mark CAP_STAT.FLOOR_HELD 0 held
  let s := forAll (List.range 4) (fun s d =>
    ((s.put CAP_ALLOC.DEMAND d (roundRat (s.classDemand d / 1000)).toNat).put CAP_ALLOC.ALLOC d (roundRat (tget 0 a d / 1000)).toNat).putBit
      CAP_STAT.CEIL_BOUND 0 d (decide (tget 0 a d < s.classDemand d))) s
  let ws := (List.range 32).map (fun p => (p, s.allowance a p))
  let s := s.mark RGT_STAT.CEILED 0 ((s.regattaCeil 0).isSome)
  let s := { s with capAllow := ws }
  let s := forAll (List.range 32) (fun s p =>
    (s.put CAP_PLANE.MEAS p (roundOpen (s.planeMw p) 1000).toNat).put CAP_PLANE.ALLOW p (roundRat (tget 0 ws p / 1000)).toNat) s
  let bound := (List.range 32).filter (fun p => decide (tget 0 ws p < tget 0 s.capDem p))
  let new := bound.filter (fun p => !s.capBound.contains p)
  { forAll new (fun s p => sigLanes 10 (planeCrews p) s) s with capBound := bound }

/-! ## The own slowdown (R350) -/

/-- The current that a plane is asked to carry, in mA (R167): over 1 ms, or as a loaded program declares for it.
DESIGN CHOICE: assumption log 89. -/
def State.planeDemand (s : State) (p : Nat) : Nat :=
  let decl := maxN ((List.range 8).flatMap (fun n =>
    if s.lst n < 2 then [] else ((s.lane n).decls.filter (fun d => d.unit == planeUnit p)).map (fun d => 500 * max d.peak d.cont)))
  max ((roundOpen (sumN (s.plane p).recent) 100).toNat) decl

/-- A VLG plane is dark: powered, with no crew left that regulates or starts (R168).
DESIGN CHOICE: assumption log 66. -/
def State.planeDark (s : State) (p : Nat) : Bool :=
  (s.plane p).powered && !s.planeDown p && !(planeCrews p).any (fun c => s.alive c || s.cst c == 1 || s.cst c == 8)

/-- s_own (R350). -/
def State.slowOwn (s : State) : Nat :=
  let hot := ((List.range 24).filter (fun r => r % 3 != 2 && s.flag THM_REG.ENFORCE r)).map (fun r => 16 * (16 - s.get MSH_REG_CFG.RATE r))
  let der := ((List.range 8).filter (fun f => (s.plane (4 * f)).ceiling.isSome)).map (fun f =>
    let d := s.planeDemand (4 * f)
    256 - ceilDiv (256 * (1000 * s.capacity (4 * f))) (max 1 d))
  if s.stop ≠ .none ∨ s.stopIssued ∨ s.flag FLT_STAT.SAFE 0 ∨ (List.range 8).any (fun f => s.planeDark (4 * f)) then 255
  else min 255 (maxN (hot ++ der))

/-- The own slowdown is brought up, and a change is sent, unless one was sent since the last pass: the next pass then
sends it (R350). DESIGN CHOICE: assumption log 89. -/
def slowPass (s : State) : State :=
  let n := s.slowOwn
  let s := s.put RGT_SLOW.S_OWN 0 n
  if n = s.slowSent ∨ s.slowAt = some s.capPass then s
  else if s.flag RGT_CTL.EN 0 then noticeUp 4 0 n s.rgtIdx { s with slowSent := n, slowAt := some s.capPass }
  else { s with slowSent := n }

/-! ## The pass -/

/-- The RATE in force at region r, without a firmware request that the cycle of the pass has written (R293, R296). -/
def State.rateFound (s : State) (r : Nat) : Nat :=
  if s.xcalHold then 16 else min (s.was CAP_RATE_REG.FW r) (min (s.get CAP_RATE_REG.CAP r) (s.get CAP_RATE_REG.THM r))

/-- The capping pass (R285 to R296): all from the measures of the interval that ends and the settings in force. -/
def cappingPass (s : State) : State :=
  let s := showMode (measure s)
  let s := forAll estCrews calibrateCrew s
  let s := { s with capDem := (List.range 32).map (fun p => (p, s.demandOf p)) }
  let old := s.capAllow
  let overs := (List.range 32).filter (s.isOver old)
  let low := overs.filter (fun p => (planeRegions p).all (fun r => decide (s.rateFound r ≤ s.was CAP_CTL.RATE_MIN 0)))
  let down := (overs.filter (fun p => p % 4 != 0 || s.capOver.contains p)).flatMap planeRegions
  let (s, b) := binding s
  let s := forAll (List.range 8) heatBudgetOf (allowances b s)
  let s := forAll (List.range 24) (rateStep down old) s
  let s := forAll (List.range 8) (throttleField old) (forAll (List.range 32) (throttlePlane low) s)
  slowPass (showMode (overruns { s with capOver := overs }))

/-- SHARING_PASS (R146, R147, R163, R285): sharing trims, stand-downs in crew order, and the capping pass. -/
def execSharingPass (s : State) : Out :=
  .next (cappingPass (forAll allCrews standGrant (forAll (List.range 32) sharePlane s)))

/-! ## Derating (R167) -/

/-- A DERATE notice with the present capacity, and bit 8 in the lanes that hold a crew of the plane (R225). -/
def derateNotice (p : Nat) (s : State) : State :=
  let cap := s.capacity p
  sigLanes 8 (planeCrews p) ((notice 1 0 0 p cap s).onPlane p (fun q => { q with capSent := cap }))

/-- The derating of plane p (R167): the capacity of a powered plane has changed, or covers demand again. The admission and
the return to OFF, of each crew after PWROFF too, are no changes. DESIGN CHOICE: assumption log 90. -/
def derate (p : Nat) (s : State) : State :=
  let q := s.plane p
  let cap := s.capacity p
  if ¬ q.powered ∨ (cap = 0 ∧ q.capSent = 0 ∧ q.ceiling = none) then s
  else
    let s := if cap ≠ q.capSent then derateNotice p s else s
    if 1000 * cap < s.planeDemand p then
      let s := latchStatus p 0 0x20 0 (s.onPlane p (fun q => { q with ceiling := some cap }))
      if q.ceiling.isNone then s.raisePlane 0x0507 p else s
    else if q.ceiling.isSome then
      let s := s.onPlane p (fun q => { q with ceiling := none })
      if cap ≠ q.capSent then s else derateNotice p s
    else s

/-! ## The commands that change the own slowdown (R350) -/

/-- DERATE (R167, R350). -/
def execDerate (p : Nat) (s : State) : Out := .next (slowPass (derate p s))

/-- ENFORCEMENT_STEP (R326, R328, R330, R350). -/
def execEnforcementStep (r : Nat) (s : State) : Out := .next (slowPass (enforcementStep r s))

/-- GRACE_END (R326, R350). -/
def execGraceEnd (r : Nat) (s : State) : Out := .next (slowPass (graceEnd r s))

/-- THROTTLE_END (R328, R350). -/
def execThrottleEnd (r : Nat) (s : State) : Out := .next (slowPass (throttleEnd r s))

/-- CLASSIFICATION (R359): the collector, once initialised (R439), takes the event that comes first; a dark plane or a
stop that it brings about is a slowdown (R350). -/
def execClassification (s : State) : Out := .next (slowPass (classifyNext s))

/-- SELF_FAULT (R377, R378): the independent path and its stop, a slowdown (R350). -/
def execSelfFault (parity : Bool) (s : State) : Out := .next (slowPass (selfFault parity s))

/-- SENSOR_SAMPLE (R312, R313): the sample, and the slowdown of a stop that it starts (R350). -/
def execSensorSample (k : Nat) (reading : Int) (s : State) : Out := .next (slowPass (sensorSample k reading s))

/-- COOLANT_DEBOUNCE (R331): the pin, and the slowdown of the stop that its fall starts (R350). -/
def execCoolantDebounce (s : State) : Out := .next (slowPass (coolantDebounce s))

end Sys2Proof.Machine
end

