-- ==== Sys2Proof/Machine/Loader.lean ====
section
/-! DEFINITION. The loader (R226 to R234, R279): LOADP, and the checks of an image in their order. -/

namespace Sys2Proof.Machine

open Sys2Proof

/-! ## LOADP (R229, R231 step 1) -/

/-- n bytes at a can be the loader's source: inside coordinator memory and the regions permitted to the loader DMA. -/
def State.loaderMay (s : State) (a n : Nat) : Bool := decide (0x400000 ≤ a ∧ a + n ≤ 0x800000) && s.permits 2 a n true false

/-- The result of a load of lane l (R229): LANE_LOAD_STAT, and bit 9 of every supervisor context. -/
def loadReport (l reason isUnit index : Nat) (s : State) : State :=
  sigSupers 9 (((s.put LANE_LOAD_STAT.REASON l reason).put LANE_LOAD_STAT.IS_UNIT l isUnit).put LANE_LOAD_STAT.INDEX l index)

/-- The checks of step 1 before the source (R231): 0 passes. -/
def State.loadBar (s : State) (l : Nat) : Nat :=
  if s.startsStopped then 0x19
  else if s.load.isSome then 0x01
  else if s.lst l ≠ 0 then 0x02
  else if s.bankSt 10 ≠ 0 ∨ s.bankSt 11 ≠ 0 then 0x03
  else 0

/-- The loader starts for lane l with the image at `a` (R229). DEDUCED: assumption log 35. -/
def startLoad (l a base : Nat) (s : State) : State :=
  let bar := s.loadBar l
  if bar ≠ 0 then loadReport l bar 0 0 s
  else if a % 8 ≠ 0 ∨ s.loaderMay a 64 = false then loadReport l 0x04 0 0 s
  else
    let r := readChecks a 64 s
    if r.2 = false then loadReport l 0x04 0 0 r.1
    else
      let s := r.1
      let n := min (max 64 (s.rd 4 (a + 0x20))) 0x100000
      if s.loaderMay a n then
        let r := readChecks a n s
        { r.1.setLst l 1 with load := some ⟨l, base, mgetList 0 s.mem a n, r.2⟩ }
      else { s.setLst l 1 with load := some ⟨l, base, mgetList 0 s.mem a 64, false⟩ }

/-- LOADP (R279). -/
def execLoadp (n : Nat) (s : State) : Out :=
  .next (issue n 0x65 (fun w s => fall n (startLoad (bits w.unit 2 0) (s.vreg n w.rs) (bits w.imm 14 0) s)) s)

/-! ## Header and unit table (R226, R227, R231 steps 2 and 3) -/

/-- Word k of an image's header. -/
def hword (b : List Byte) (k : Nat) : Nat := cval b (4 * k) 4

/-- Where the code starts and ends. -/
def codeAt (b : List Byte) : Nat := 0x40 + 16 * hword b 3
def codeEnd (b : List Byte) : Nat := codeAt b + 8 * hword b 2

/-- The header breaks R226 (BAD_FORMAT). DESIGN CHOICE: assumption log 36. -/
def headerBad (b : List Byte) : Bool :=
  let ofs := hword b 6
  let len := hword b 7
  let il := hword b 8
  hword b 0 != 0x50534955 || hword b 1 != 0x00400001 || decide (hword b 2 = 0 ∨ 32768 < hword b 2) ||
    decide (512 < hword b 3) || decide (hword b 2 ≤ hword b 4) || decide (1000000 < hword b 5) ||
    decide (0x100000 < il) || decide (il % 8 ≠ 0) ||
    (if ofs = 0 then len != 0 || il != codeEnd b else decide (ofs < codeEnd b) || il != ofs + len) ||
    [11, 12, 13, 14, 15].any (fun k => hword b k != 0)

/-- The entries of the unit table. -/
def unitTable (b : List Byte) : List (List Nat) :=
  (List.range (hword b 3)).map (fun k => (List.range 4).map (fun j => cval b (0x40 + 16 * k + 4 * j) 4))

/-- A unit table entry as declared. -/
def declOf (e : List Nat) : UDecl :=
  ⟨e.getD 0 0 % 4096, bits (e.getD 1 0) 31 16, bits (e.getD 1 0) 15 0, bits (e.getD 2 0) 23 12, bits (e.getD 2 0) 11 0⟩

/-- Unit u takes setpoints: it has a window and is no phase (R32, R227). -/
def State.hasWindow (s : State) (u : Nat) : Bool := decide (0x600 ≤ u) && s.unitExists u && !s.flag DESC_W4.WIN_EMPTY u

/-- The code of the first check that a unit table entry fails, 0 if none; `before` holds the units declared above it. -/
def State.entryCode (s : State) (l : Nat) (before : List Nat) (e : List Nat) : Nat :=
  let d := declOf e
  let ranged : Bool := s.hasWindow d.unit || !s.unitExists d.unit
  if 4096 ≤ e.getD 0 0 ∨ 2 ^ 24 ≤ e.getD 2 0 ∨ e.getD 3 0 ≠ 0 then 0x05
  else if before.contains d.unit ∨ (ranged = true ∧ d.vmax < d.vmin) ∨ d.peak < d.cont then 0x08
  else if s.unitExists d.unit = false then 0x09
  else if s.inSet l d.unit = false then 0x0A
  else if s.get DESC_W3.CONT_RATING d.unit < d.cont ∨ s.get DESC_W3.PEAK_RATING d.unit < d.peak then 0x0B
  else if s.hasWindow d.unit = true ∧ (d.vmin < s.get DESC_W4.VMIN_CODE d.unit ∨ s.get DESC_W4.VMAX_CODE d.unit < d.vmax ∨
      (s.leafCrews d.unit).any (fun c => decide (d.vmin < s.winLo c ∨ s.winHi c < d.vmax)) = true) then 0x0F
  else 0

/-- The first failing entry of the unit table: its code and index. -/
def State.tableCode (s : State) (l : Nat) : List (List Nat) → Nat → List Nat → Option (Nat × Nat)
  | [], _, _ => none
  | e :: t, i, before =>
    let c := s.entryCode l before e
    if c ≠ 0 then some (c, i) else s.tableCode l t (i + 1) ((declOf e).unit :: before)

/-! ## Instructions (R231 step 4, R238 to R240) -/

/-- The reserved bits of a stamp selector, and bit 0 of the pair that it names (R239, R241); beside another source RS is
marked no "0" and is not read. -/
def selReserved (w : PWord) : Bool :=
  bits w.imm 21 20 != 0 || (w.ssrc != 0 && bits w.imm 29 22 != 0) || (w.ssrc == 1 && w.rs % 2 == 1)

/-- A reserved bit of the word is set, by the entries of chapter 08. -/
def reservedSet (w : PWord) : Bool :=
  let reg := w.unit % 2 == 1
  match w.op with
  | 0x00 | 0x01 | 0x02 | 0x06 => w.unit != 0 || w.rd != 0 || w.rs != 0 || w.imm != 0
  | 0x03 | 0x05 => w.unit != 0 || w.rd != 0 || w.rs != 0 || bits w.imm 31 15 != 0
  | 0x04 => w.unit != 0 || bitAt w.rd 2 || w.rs != 0 || bits w.imm 31 15 != 0
  | 0x07 => w.unit != 0 || w.rd != 0 || w.rs != 0 || bitAt w.imm 15
  | 0x10 => w.unit != 0 || w.rs != 0
  | 0x11 => w.unit != 0 || w.imm != 0
  | 0x14 => bits w.unit 11 1 != 0 || (if reg then bits w.imm 27 5 != 0 else bits w.imm 7 5 != 0)
  | 0x15 | 0x16 => bits w.unit 11 1 != 0 || (if reg then bits w.imm 27 0 != 0 else bits w.imm 31 5 != 0)
  | 0x19 => bits w.unit 11 4 != 0 || bits w.rd 3 2 != 0 || (reg && bits w.imm 27 0 != 0)
  | 0x1C => bits w.unit 11 1 != 0 || (reg && bits w.imm 23 0 != 0)
  | 0x12 | 0x13 | 0x17 | 0x18 | 0x1A | 0x1B => bits w.unit 11 1 != 0 || (reg && bits w.imm 27 0 != 0)
  | 0x20 => w.rd != 0 || w.rs != 0 || bits w.imm 7 1 != 0
  | 0x21 => w.rd != 0 || bits w.imm 27 1 != 0
  | 0x22 => w.rd != 0 || w.rs != 0
  | 0x23 => w.rd != 0 || w.rs != 0 || bits w.imm 31 10 != 0
  | 0x24 => w.rd != 0 || w.rs != 0 || bits w.imm 31 5 != 0
  | 0x25 => w.rd != 0 || selReserved w
  | 0x26 => w.rd != 0 || w.rs != 0 || bits w.imm 31 2 != 0
  | 0x27 | 0x28 => w.rd != 0 || w.rs != 0 || w.imm != 0
  | 0x29 => w.rs != 0 || (if bitAt w.imm 31 then bits w.imm 30 5 != 0 else bits w.imm 30 4 != 0)
  | 0x30 => w.unit != 0 || selReserved w
  | 0x31 => bits w.unit 11 1 != 0
  | 0x32 => w.rs != 0
  | 0x34 | 0x35 | 0x37 => w.unit != 0 || w.rs != 0
  | 0x36 => w.unit != 0 || w.rd % 2 == 1 || w.rs != 0 || w.imm != 0
  | 0x40 | 0x41 => bits w.unit 11 6 != 0 || w.rd != 0 || w.rs != 0 || w.imm != 0
  | 0x42 => w.rd != 0 || w.rs != 0 || bits w.imm 31 30 != 0 || bits w.imm 23 16 != 0
  | 0x43 => w.rd != 0 || selReserved w
  | 0x44 => (bits w.imm 3 0 != 4 && w.unit != 0) || w.rs != 0 || bits w.imm 31 4 != 0
  | 0x45 => w.unit != 0 || w.rd != 0 || w.imm != 0
  | 0x50 => w.unit != 0 || w.rd != 0 || bits w.imm 31 16 != 0
  | _ => false

/-- The word names a unit of the unit table (R228). -/
def namesUnit (w : PWord) : Bool :=
  decide (0x20 ≤ w.op ∧ w.op ≤ 0x29) || w.op == 0x32 || w.op == 0x42 || (w.op == 0x44 && bits w.imm 3 0 == 4)

/-- The window that the word names (R228, R242). A WAITA whose UNIT is above 63 names a window that no lane owns.
DEDUCED: assumption log 129. -/
def namedWindow (w : PWord) : Option Nat :=
  if w.op ∈ [0x33, 0x40, 0x41] then some w.unit
  else if w.op = 0x42 then some (bits w.imm 29 24)
  else if w.op ∈ [0x25, 0x30, 0x43] ∧ w.ssrc = 0 then some w.swin
  else none

/-- An immediate lies outside its range (OPERAND_RANGE), for the instruction at index i of code `ws` in lane l. -/
def operandBad (l : Nat) (ws : List PWord) (i : Nat) (w : PWord) : Bool :=
  let noStamp := w.ssrc == 3 || (w.ssrc == 0 && w.swhich == 3)
  match w.op with
  | 0x07 =>
    let e := bits w.imm 14 0
    bits w.imm 31 16 == 0 || decide (e ≤ i) ||
      (match ws[e]? with
       | some x => decide (x.op ∈ [0x03, 0x04, 0x05, 0x06, 0x07])
       | none => false)
  | 0x19 => bits w.unit 3 1 == 7
  | 0x22 => bits w.imm 19 0 == 0
  | 0x23 | 0x24 | 0x42 => decide (w.unit < 0x600)
  | 0x25 => noStamp || decide (w.unit < 0x600)
  | 0x26 => bits w.imm 1 0 == 3 || decide (w.unit < 0x600)
  | 0x27 | 0x28 => !takesPower w.unit
  | 0x29 => if bitAt w.imm 31 then decide (18 ≤ bits w.imm 4 0) || decide (w.unit < 0x600 ∨ 0x6C0 ≤ w.unit)
    else decide (6 < bits w.imm 3 0)
  | 0x30 => noStamp
  | 0x34 => !bitAt w.imm (24 + l)
  | 0x37 => bits w.imm 31 20 == 0
  | 0x43 => noStamp || decide (w.unit < 0x6E0 ∨ 0x6E8 ≤ w.unit)
  | 0x44 => decide (5 < bits w.imm 3 0)
  | _ => false

/-- The least code among the instruction checks that the word fails, 0 if none (R231, R232). -/
def State.insnCode (s : State) (l : Nat) (decls : List UDecl) (ws : List PWord) (i : Nat) (w : PWord) : Nat :=
  let decl := decls.find? (fun d => d.unit == w.unit)
  let setp : Bool := decide (w.op ∈ [0x20, 0x21, 0x22])
  let named : Bool := w.op == 0x43 || namesUnit w
  if w.op ∉ opcodes ∨ 0x60 ≤ w.op then 0x0C
  else if named = true ∧ s.unitExists w.unit = false then 0x09
  else if w.predBad = true ∨ reservedSet w = true then 0x0C
  else if namesUnit w = true ∧ decl = none then 0x0D
  else if setp = true ∧ s.hasWindow w.unit = false then 0x0E
  else if w.op ∈ [0x20, 0x22] ∧ (match decl with
      | some d => decide (bits w.imm 31 20 < d.vmin ∨ d.vmax < bits w.imm 31 20)
      | none => false) = true then 0x0F
  else if w.op = 0x20 ∧ (bits w.imm 19 8 < 4 ∨ s.slewMax < bits w.imm 19 8) then 0x10
  else if operandBad l ws i w = true then 0x11
  else if (match namedWindow w with
      | some v => decide (64 ≤ v) || !s.flag FCW_CFG.EN v || s.get FCW_CFG.OWNER v != l || s.flag FCW_CFG.SUPER v
      | none => false) = true then 0x12
  else if w.op = 0x43 ∧ bitAt (s.get LANE_GRANTX.FIELDS l) (w.unit - 0x6E0) = false then 0x13
  else if w.op ∈ [0x35, 0x45] ∧ s.flag LANE_GRANTX.REGATTA l = false then 0x14
  else 0

/-- The first failing instruction: its code and index. -/
def State.codeCode (s : State) (l : Nat) (decls : List UDecl) (ws : List PWord) : List PWord → Nat → Option (Nat × Nat)
  | [], _ => none
  | w :: t, i =>
    let c := s.insnCode l decls ws i w
    if c ≠ 0 then some (c, i) else s.codeCode l decls ws t (i + 1)

/-! ## Control flow (R233, R234, R249, R250) -/

/-- The LOOP bodies of a code: first and last index. -/
def loopBodies (ws : List PWord) : List (Nat × Nat) :=
  (ws.zip (List.range ws.length)).filterMap (fun e => if e.1.op = 0x07 then some (e.2 + 1, bits e.1.imm 14 0) else none)

/-- The innermost body that holds index k: the one that starts last. -/
def innerBody (bodies : List (Nat × Nat)) (k : Nat) : Option (Nat × Nat) :=
  (bodies.filter (fun b => decide (b.1 ≤ k ∧ k ≤ b.2))).foldl (fun a b => match a with
    | none => some b
    | some x => if x.1 ≤ b.1 then some b else a) none

/-- The instruction can fall through: it is no unconditional HALT, BR or RET. -/
def canFall (w : PWord) : Bool := !(w.pred == 0 && decide (w.op ∈ [0x01, 0x03, 0x06]))

/-- The instruction at i breaks BRANCH_RANGE (R234, R250). -/
def branchBad (ws : List PWord) (i : Nat) (w : PWord) : Bool :=
  let n := ws.length
  let bodies := loopBodies ws
  let t := bits w.imm 14 0
  (w.op == 0x07 && decide (n ≤ t)) ||
    (decide (w.op = 0x03 ∨ w.op = 0x04) && (decide (n ≤ t) || innerBody bodies t != innerBody bodies i)) ||
    (w.op == 0x05 && (decide (n ≤ t) || (innerBody bodies t).isSome)) ||
    (i + 1 == n && canFall w)

/-- The successors of index i within its routine: fall-through and branch target. -/
def flowNext (ws : List PWord) (i : Nat) : List Nat :=
  match ws[i]? with
  | none => []
  | some w =>
    (if canFall w && decide (i + 1 < ws.length) then [i + 1] else []) ++
      (if w.op = 0x03 ∨ w.op = 0x04 then [bits w.imm 14 0] else [])

/-- The indices reachable from a set within a routine, by n rounds. -/
def flowReach (ws : List PWord) : Nat → List Nat → List Nat
  | 0, l => l
  | n + 1, l =>
    let more := ((l.flatMap (flowNext ws)).eraseDups).filter (fun j => !l.contains j)
    if more = [] then l else flowReach ws n (l ++ more)

/-- The targets of the CALLs that a routine at index f can reach. -/
def callees (ws : List PWord) (f : Nat) : List Nat :=
  ((flowReach ws ws.length [f]).filterMap (fun i => match ws[i]? with
    | some w => if w.op = 0x05 then some (bits w.imm 14 0) else none
    | none => none)).eraseDups

/-- A chain of k further calls can follow a call of a routine in the set. -/
def callChain (ws : List PWord) : Nat → List Nat → Bool
  | 0, l => !l.isEmpty
  | k + 1, l => !l.isEmpty && callChain ws k ((l.flatMap (callees ws)).eraseDups)

/-- The instruction at i breaks NESTING (R232): its body nests too deep or overlaps another, or it calls too deep. -/
def nestBad (ws : List PWord) (i : Nat) (w : PWord) : Bool :=
  let bodies := loopBodies ws
  let b := (i + 1, bits w.imm 14 0)
  (w.op == 0x07 && (bodies.any (fun a => decide (a.1 < b.1 ∧ b.1 ≤ a.2 ∧ a.2 < b.2)) ||
      decide (4 < (bodies.filter (fun a => decide (a.1 ≤ b.1 ∧ b.2 ≤ a.2))).length))) ||
    (w.op == 0x05 && callChain ws 8 [bits w.imm 14 0])

/-- A wait of the word carries a timeout field that is 0 (R233). -/
def endlessWait (w : PWord) : Bool :=
  (decide (w.op = 0x32 ∨ w.op = 0x33) && w.imm == 0) || (decide (w.op ∈ [0x34, 0x35, 0x37]) && bits w.imm 19 0 == 0)

/-- The indices left after n rounds of removing those from which every way leaves the set: cycles other than the back
edges of LOOPs, calls included (R233). -/
def cyclic (ws : List PWord) : Nat → List Nat → List Nat
  | 0, l => l
  | n + 1, l =>
    let keep := l.filter (fun i => (flowNext ws i ++ (match ws[i]? with
      | some w => if w.op = 0x05 then [bits w.imm 14 0] else []
      | none => [])).any (fun j => l.contains j))
    if keep.length = l.length then l else cyclic ws n keep

/-- The first index at which p holds. -/
def firstAt (p : Nat → PWord → Bool) : List PWord → Nat → Option Nat
  | [], _ => none
  | w :: t, i => if p i w then some i else firstAt p t (i + 1)

/-- The control-flow check (R231 step 5): code and index of the first failure, of its four checks in turn, each over the
whole code; of a cycle the first index that can reach it. DESIGN CHOICE: assumption log 136. -/
def flowCode (ws : List PWord) (wdog : Nat) : Option (Nat × Nat) :=
  match firstAt (branchBad ws) ws 0 with
  | some i => some (0x15, i)
  | none =>
    match firstAt (nestBad ws) ws 0 with
    | some i => some (0x16, i)
    | none =>
      if wdog ≠ 0 then none
      else match firstAt (fun _ w => endlessWait w) ws 0 with
        | some i => some (0x17, i)
        | none => ((cyclic ws ws.length (List.range ws.length)).head?).map (fun i => (0x17, i))

/-! ## The end of a load (R229, R231) -/

/-- A load of lane l is refused from step 2 on: the lane is IDLE again. DESIGN CHOICE: assumption log 36. -/
def loadRefuse (l code isUnit index : Nat) (s : State) : State := loadReport l code isUnit index (s.setLst l 0)

/-- NO_ROOM (R232). -/
def State.noRoom (s : State) (l base n : Nat) : Bool :=
  decide (32768 < base + n) || (List.range 8).any (fun m => m != l && s.lst m != 0 &&
    decide (base < s.get LANE_IMAGE.BASE m + s.get LANE_IMAGE.COUNT m ∧ s.get LANE_IMAGE.BASE m < base + n))

/-- An image is accepted: the lane is LOADED, and the references of its units rise (R44, R228, R304). -/
def loadAccept (l base : Nat) (b : List Byte) (decls : List UDecl) (ws : List PWord) (s : State) : State :=
  let wins := (ws.filterMap namedWindow).eraseDups
  let refs := (decls.map (·.unit) ++ ws.filterMap (fun w => if w.op = 0x43 then some w.unit else none)).eraseDups
  let s := forAll refs (fun s u => s.put DESC_W7.PROG_REFS u (s.get DESC_W7.PROG_REFS u + 1)) s
  let s := s.setLane l ⟨hword b 4, hword b 5, decls, wins, refs, 0, none⟩
  let s := ((s.put LANE_IMAGE.BASE l base).put LANE_IMAGE.COUNT l (hword b 2)).put LANE_JOB.JOB_ID l (hword b 10)
  let s := if hword b 6 = 0 then s else installModel l (b.drop (hword b 6)) s
  loadReport l 0 0 0 ((s.setPc l (hword b 4)).setLst l 2)

/-- The checks of steps 2 to 6 on the image of a load, and its outcome. -/
def finishLoad (x : Load) (s : State) : State :=
  let l := x.lane
  let b := x.img
  let n := hword b 2
  if headerBad b then loadRefuse l 0x05 0 0 s
  else if x.srcOk = false then loadRefuse l 0x04 0 0 s
  else if s.noRoom l x.base n then loadRefuse l 0x07 0 0 s
  else if crc32 ((b.drop 0x40).take (hword b 8 - 0x40)) ≠ hword b 9 then loadRefuse l 0x06 0 0 s
  else
    let code := (b.drop (codeAt b)).take (8 * n)
    let ws := (List.range n).map (fun k => PWord.ofNat (cval b (codeAt b + 8 * k) 8))
    let tab := unitTable b
    let decls := tab.map declOf
    let s := s.wrBytes (0x840000 + 8 * x.base) code
    match s.tableCode l tab 0 [] with
    | some (c, i) => loadRefuse l c 1 i s
    | none =>
      match s.codeCode l decls ws ws 0 with
      | some (c, i) => loadRefuse l c 0 i s
      | none =>
        match flowCode ws (hword b 5) with
        | some (c, i) => loadRefuse l c 0 i s
        | none =>
          if hword b 6 = 0 then loadAccept l x.base b decls ws s
          else
            let c := modelCode (b.drop (hword b 6)) (some (hword b 7))
            let s := s.put EST_STAT.LOAD_REASON 0 c
            if c = 0 then loadAccept l x.base b decls ws s else loadRefuse l 0x18 0 0 s

/-- LOAD_COMPLETE (R229): the load that runs ends. -/
def execLoadComplete (s : State) : Out :=
  match s.load with
  | none => .next s
  | some x => .next (finishLoad x { s with load := none })

end Sys2Proof.Machine
end

