-- ==== Sys2Proof/Machine/Coord.lean ====
section
/-! DEFINITION. Coordinator memory at work (chapter 14): scrubbing, the march engine, the safety table's check, the
mailboxes, and the recovery commands. -/

namespace Sys2Proof.Machine

open Sys2Proof

/-! ## Scrubbing (R419) -/

/-- 64-bit words of a bank. -/
def bankWords (k : Nat) : Nat := (bankHi k - bankLo k) / 8

/-- SCRUB (R418, R419): bank k reads the next word of its walk; `ecc` is what its check bits show. An uncorrectable
word is left as it is. -/
def execScrub (bank ecc : Nat) (s : State) : Out :=
  if 12 ≤ bank ∨ s.get ID_MEM_CTL.SCRUB 0 = 0 ∨ s.bankSt bank ≠ 0 then .next s
  else
    let k := tget 0 s.scrubAt bank
    let s := { s with scrubAt := tset s.scrubAt bank ((k + 1) % bankWords bank) }
    .next (readCheck ecc (bankLo bank + 8 * k) s).1

/-! ## The march engine (R423 to R427) -/

/-- The reason that refuses a march of a bank (R425, R427), 0 if none. DESIGN CHOICE: assumption log 92. -/
def State.marchRefusal (s : State) (bank : Nat) (preserve : Bool) : Nat :=
  if s.march.isSome then 6
  else if bank = 8 ∨ bank = 9 ∨ 12 ≤ bank then 5
  else if 10 ≤ bank ∧ (List.range 8).any (fun l => decide (s.lst l ∈ [1, 3, 4])) then 4
  else if preserve ∧ s.bankSt bank = 2 then 5
  else 0

/-- The program region of lane l lies wholly or partly in a bank. -/
def State.laneIn (s : State) (l bank : Nat) : Bool :=
  let a := 0x840000 + 8 * s.get LANE_IMAGE.BASE l
  decide (a < bankHi bank ∧ bankLo bank < a + 8 * s.get LANE_IMAGE.COUNT l)

/-- A march of a bank starts: the bank is offline, and a destructive march of the job half unloads its lanes (R425). -/
def marchStart (bank : Nat) (preserve : Bool) (s : State) : State :=
  let s := { (s.put ID_MARCH_STAT.RESULT 0 1).put ID_MARCH_STAT.BANK 0 bank with march := some (bank, preserve), marchAt := s.now }
  let ls := if 10 ≤ bank ∧ preserve = false then
      (List.range 8).filter (fun l => decide (s.lst l ∈ [2, 5, 6]) && s.laneIn l bank) else []
  forAll ls (fun s l => loadReport l 3 0 0 (laneUnload l s)) ((s.put ID_MARCH_STAT.ELAPSED 0 0).setBank bank 1)

/-- A write of ID_MARCH_CTL (R425): GO with BANK and PRESERVE of the same write; a refused request changes RESULT only.
DESIGN CHOICE: assumption log 92. -/
def marchGo (go : Bool) (bank : Nat) (preserve : Bool) (s : State) : State :=
  let r := if go then s.marchRefusal bank preserve else 0
  let t := (s.put ID_MARCH_CTL.PRESERVE 0 preserve.toNat).put ID_MARCH_CTL.BANK 0 bank
  if r ≠ 0 then s.put ID_MARCH_STAT.RESULT 0 r else if go then marchStart bank preserve t else t

/-- The words of a bank are written anew, with valid check bits. -/
def goodWords (bank : Nat) (s : State) : State := s.renew (bankLo bank) (bankHi bank - bankLo bank)

/-- MARCH_COMPLETE (R423, R427): the march that runs passes, or fails at its first mismatch. -/
def execMarchComplete (fail : Option Mismatch) (us : Nat) (s : State) : Out :=
  match s.march with
  | none => .next s
  | some (bank, preserve) =>
    let s := { s.put ID_MARCH_STAT.ELAPSED 0 (min us (2 ^ 20 - 1)) with march := none }
    let s := if preserve then s else { goodWords bank s with mem := mclear s.mem (bankLo bank) (bankHi bank) }
    match fail with
    | none => .next ((s.put ID_MARCH_STAT.RESULT 0 2).setBank bank 0)
    | some x =>
      .next ((((marchFail x s).put ID_MARCH_STAT.RESULT 0 3).setBank bank 2).raise 0x0C03 0 0 bank)

/-! ## The safety table (R428, R429) -/

/-- A register as its word: each field at its place. -/
def State.word32 (s : State) (r : Reg) (i : Nat) : Nat := sumN (r.fields.map (fun f => s.get f i * 2 ^ f.lo))

/-- The 40 bytes that the CRC covers, in address order. -/
def State.safetyBytes (s : State) : List Byte :=
  ((List.range 4).map (fun d => s.word32 .ID_SAFE_DOM d) ++ [s.word32 .ID_SAFE_LIM0 0, s.word32 .ID_SAFE_LIM1 0] ++
    (List.range 4).map (fun d => s.word32 .ID_SAFE_FLOOR d)).flatMap (leBytes 4)

/-- SAFETY_CRC_CHECK (R429). -/
def execSafetyCrcCheck (s : State) : Out :=
  .next (if crc32 s.safetyBytes = s.get ID_SAFE_CRC.CRC 0 then s else s.raise 0x0C05 0 0)

/-! ## Mailboxes (R434 to R436) -/

/-- The action bits of ID_MBX_CTL: 0 POST, 1 TAKE, 2 DONE, 3 RELEASE. The state it leads to, where writer, slot and
state allow it. -/
def mbxTo (host : Bool) (slot action st : Nat) : Option Nat :=
  if slot < 12 then
    match action, host, st with
    | 0, true, 0 => some 1
    | 1, false, 1 => some 2
    | 2, false, 2 => some 3
    | 3, true, 3 => some 0
    | _, _, _ => none
  else
    match action, host, st with
    | 0, false, 0 => some 1
    | 3, true, 1 => some 0
    | _, _, _ => none

/-- One action on a slot. -/
def mbxAction (host : Bool) (slot : Nat) (s : State) (action : Nat) : State :=
  match mbxTo host slot action (s.get ID_MBX_CTL.STATE slot) with
  | none => s.setOver ID_MBX_CTL.REFUSED slot
  | some st =>
    let s := s.put ID_MBX_CTL.STATE slot st
    if action = 0 then
      let s := s.wrap ID_MBX_CTL.SEQ slot
      if slot < 12 then setSig (8 + s.get ID_MBX_CFG.CTX 0) (2 ^ s.get ID_MBX_CFG.SIG 0) s else s
    else s

/-- The actions of a word written to ID_MBX_CTL: one bit asks for one; several at once are refused.
DESIGN CHOICE: assumption log 93. -/
def mbxActions (host : Bool) (slot v : Nat) (s : State) : State :=
  match maskList v 4 with
  | [] => s
  | [a] => mbxAction host slot s a
  | _ => s.setOver ID_MBX_CTL.REFUSED slot

/-- A data word of a slot may be written (R435). -/
def State.mbxOpen (s : State) (host : Bool) (slot : Nat) : Bool :=
  let st := s.get ID_MBX_CTL.STATE slot
  if slot < 12 then (if host then st == 0 else st == 2) else !host && st == 0

/-- ID_MBX_SUM (R436). -/
def State.mbxSum (s : State) : Nat :=
  maskOf ((List.range 16).filter (fun n => s.get ID_MBX_CTL.STATE n == if n < 12 then 3 else 1))

/-! ## Recovery (R433) -/

/-- DATA of word w, 1 to 15, of slot 0. -/
def State.mbx0 (s : State) (w : Nat) : Nat := s.get ID_MBX_DATA.DATA (w - 1)

/-- The boot ROM has a posted command of slot 0 to serve. -/
def State.recoveryDue (s : State) : Bool := s.get ID_FW_STAT.MODE 0 == 2 && s.get ID_MBX_CTL.STATE 0 == 1

/-- The response to the command of slot 0: the code into DATA1[31:16], and DONE. -/
def recoveryAnswer (code : Nat) (s : State) : State :=
  (s.put ID_MBX_DATA.DATA 0 (s.mbx0 1 % 2 ^ 16 + 2 ^ 16 * code)).put ID_MBX_CTL.STATE 0 3

/-- The reason code of the image of n bytes at address a of coordinator memory. DESIGN CHOICE: assumption log 94. -/
def recoveryCheck (a n : Nat) (s : State) : State × Nat :=
  if a < 0x400000 ∨ 0x800000 < a + n then (s, 2)
  else
    let r := readChecks a n s
    let code := s.fwCheck (fun x => mget 0 s.mem (a + x)) n
    (r.1, if code = 0 ∧ r.2 = false then 6 else code)

/-- RECOVER_BOOT (R431 to R433). -/
def execRecoverBoot (s : State) : Out :=
  if s.recoveryDue = false ∨ s.mbx0 1 % 2 ^ 16 ≠ 0x0100 then .next s
  else
    let a := s.mbx0 2
    let img : Nat → Byte := fun x => mget 0 s.mem (a + x)
    let (s, code) := recoveryCheck a (s.mbx0 3) s
    let s := recoveryAnswer code ((fwCopy img code s).put ID_FW_STAT.REASON_REC 0 code)
    .next (if code = 0 then fwStart img s else s)

/-- RECOVERY_REPORT (R433): REPORT, and the answer to every other command. -/
def execRecoveryReport (s : State) : Out :=
  if s.recoveryDue = false ∨ s.mbx0 1 % 2 ^ 16 = 0x0100 then .next s
  else if s.mbx0 1 % 2 ^ 16 = 0x0101 then
    .next (recoveryAnswer 0 (s.put ID_MBX_DATA.DATA 1 (s.word32 .ID_FW_STAT 0)))
  else .next (recoveryAnswer 0xFF s)

end Sys2Proof.Machine
end

