-- ==== Sys2Proof/Machine/Startup.lean ====
section
/-! DEFINITION. Supplies, host release, reset requests and supply loss (chapter 15). -/

namespace Sys2Proof.Machine

open Sys2Proof

/-! ## The FS dies' figures (R475, R477) -/

/-- Die d counts for the FS capacity: ready, neither lost nor faulted. -/
def State.dieUp (s : State) (d : Nat) : Bool :=
  s.flag STG_DIE_STAT.READY d && !s.flag STG_DIE_STAT.LOST d && !s.flag STG_DIE_STAT.FAULT d

/-- STG_STAT and STG_SUM follow the dies (R475). -/
def showDies (s : State) : State :=
  let s := s.put STG_STAT.READY 0 (maskOf ((List.range 16).filter (fun d => s.flag STG_DIE_STAT.READY d)))
  let s := s.put STG_STAT.UNAVAIL 0 (maskOf ((List.range 16).filter (fun d =>
    s.flag STG_DIE_STAT.LOST d || s.flag STG_DIE_STAT.FAULT d)))
  let n := (s.dies.filter s.dieUp).length
  let s := s.put STG_SUM.CAP_A 0 (n * 120000 / (220 + s.get STG_CTL.VIB_SET 0))
  s.put STG_SUM.DRAW_A 0 (roundOpen (sumN (s.dies.map (fun d => s.get STG_DIE_MEAS.IOUT d))) 10).toNat

/-! ## FS_EN and VIB (R441, R442, R478) -/

/-- A plane is OFF or LOCKED, every plane is. -/
def State.allDown (s : State) : Bool := (List.range 32).all s.planeDown

/-- An accepted FS_EN = 1 (R442, R474, R477): the dies are enabled and trimmed, and lost or faulted ones return. -/
def fsStart (s : State) : State :=
  let s := { ((s.put ID_PWR_CTL.FS_EN 0 1).put ID_PWR_STAT.FS_ON 0 1).put ID_PWR_STAT.VIB_GOOD 0 0 with
    vibWas := false, stgMiss := [] }
  let s := forAll s.dies (fun s d => (s.put STG_DIE_STAT.LOST d 0).put STG_DIE_STAT.FAULT d 0) s
  showDies (forAll s.dies (fun s d => stgSend 2 (stgSend 1 s d) d) s)

/-- A write of FS_EN that changes it (R442). -/
def fsWrite (on : Bool) (s : State) : State :=
  if on = s.flag ID_PWR_CTL.FS_EN 0 then s
  else if on then
    if s.flag ID_PWR_STAT.PWR_EN 0 ∧ s.get ID_FW_STAT.MODE 0 = 1 ∧ ¬ s.flag FLT_STAT.FC3 0 ∧ ¬ s.orderly then fsStart s
    else s.setOver ID_PWR_STAT.FS_REFUSED 0
  else if s.allDown then fsStop s
  else s.setOver ID_PWR_STAT.FS_REFUSED 0

/-- VIB_GOOD (R442): every die reports ready, and every crew's VIB channel reads 2.2 to 2.6 V.
DESIGN CHOICE: assumption log 96. -/
def execVibGood (s : State) : Out :=
  let inRange (c : Nat) : Bool := decide (22000000 ≤ s.vibOf c ∧ s.vibOf c ≤ 26000000)
  if s.flag ID_PWR_CTL.FS_EN 0 ∧ s.dies.all (fun d => s.flag STG_DIE_STAT.READY d) ∧ allCrews.all inRange then
    .next { s.put ID_PWR_STAT.VIB_GOOD 0 1 with vibWas := true }
  else .next s

/-- VIB_START_FAILED (R442): 5 ms after FS_EN without VIB_GOOD. -/
def execVibStartFailed (s : State) : Out :=
  if s.flag ID_PWR_CTL.FS_EN 0 ∧ ¬ s.vibWas then .next ((fsStop s).raise 0x0D04 0 0) else .next s

/-- PWR_EN_PIN_CHANGE (R441, R463): the filtered pin changes level. -/
def execPwrEnPinChange (high : Bool) (s : State) : Out := .next { s with pwrEnPin := high }

/-- PWR_EN_DEBOUNCE (R441, R454): the pin has held its level long enough. A fall with FS_EN set starts an orderly
shutdown; in the safe state the pin has no effect (R371). DESIGN CHOICE: assumption log 65.
DESIGN CHOICE: assumption log 97. -/
def execPwrEnDebounce (s : State) : Out :=
  if s.get ID_BOOT_STAT.STEP 0 = 0 ∨ s.flag ID_PWR_STAT.PWR_EN 0 = s.pwrEnPin ∨ (s.flag FLT_STAT.SAFE 0 ∧ s.stopDone) then .next s
  else
    let s := s.mark ID_PWR_STAT.PWR_EN 0 s.pwrEnPin
    .next (if s.pwrEnPin = false ∧ s.flag ID_PWR_CTL.FS_EN 0 then startOrderly (s.raise 0x0D03 0 0) else s)

/-! ## Host release and crossing calibration (R446 to R448) -/

/-- A write of HOST_RUN that changes it (R446). -/
def hostWrite (on : Bool) (s : State) : State :=
  if on = s.flag ID_PWR_CTL.HOST_RUN 0 then s
  else if on then
    if ¬ s.flag FLT_STAT.FC3 0 ∧ ¬ s.orderly ∧ s.stop = .none ∧
        (List.range 32).all (fun p => s.planeOn p || (s.plane p).heldOff) then
      { (s.put ID_PWR_CTL.HOST_RUN 0 1).put ID_PWR_STAT.HOST_RESET 0 0 with
        hostReset := false, xcalDue := true, hostAt := s.now }
    else s.setOver ID_PWR_STAT.RUN_REFUSED 0
  else assertHostReset s

/-- A write of ID_PWR_CTL: SD_WAIT, FS_EN, HOST_RUN, then SHUTDOWN (R442, R446, R454, R460).
DESIGN CHOICE: assumption log 95. -/
def pwrCtlWrite (v : Nat) (s : State) : State :=
  let s := s.put ID_PWR_CTL.SD_WAIT 0 (min 100 (bits v 7 0))
  let s := hostWrite (bitAt v 30) (fsWrite (bitAt v 31) s)
  if bitAt v 29 then startOrderly s else s

/-- XCAL_REQ (R446, R447): 10 µs after host reset was released. DESIGN CHOICE: assumption log 58. -/
def execXcalReq (s : State) : Out :=
  if ¬ s.xcalDue then .next s
  else .next (sendRates { s.put ID_PWR_STAT.XCAL 0 1 with xcalDue := false, xcalHold := true, strReq := [], strTarget := [] })

/-- XCAL_DONE (R448, R484): sampled only while XCAL_REQ is high. -/
def execXcalDone (s : State) : Out :=
  if s.get ID_PWR_STAT.XCAL 0 ≠ 1 then .next s
  else
    let t := { s with cyc.xcal := if s.cyc.on then some ((List.range 24).map (fun r => s.get MSH_STR_CNT.STRETCHES r)) else none }
    .next (endXcal 2 (forAll (List.range 24) (fun s r => s.put MSH_STR_CNT.STRETCHES r 0) t))

/-- An XCAL_DONE of this cycle is taken back: with XCAL_FAIL in the same cycle the calibration has not ended (R484). -/
def undoDone (s : State) : State :=
  match s.cyc.xcal with
  | some l =>
    if s.get ID_PWR_STAT.XCAL 0 = 2 then
      { forAll (List.range 24) (fun s r => s.put MSH_STR_CNT.STRETCHES r (l.getD r 0)) (s.put ID_PWR_STAT.XCAL 0 1) with cyc.xcal := none }
    else s
  | none => s

/-- The crossing calibration fails (R448). -/
def xcalFailed (s : State) : State :=
  if s.get ID_PWR_STAT.XCAL 0 ≠ 1 then s else assertHostReset ((endXcal 3 s).raise 0x0D05 0 0)

/-- XCAL_FAIL (R448, R484). -/
def execXcalFail (s : State) : Out := .next (xcalFailed (undoDone s))

/-- XCAL_TIMEOUT (R448): 500 µs without an answer. -/
def execXcalTimeout (s : State) : Out := .next (xcalFailed s)

/-! ## Reset requests (R450 to R453) -/

/-- What the start-up steps of a FULL reset will show where its request carries no such operand (assumption log 3). -/
def State.openBoot (s : State) : BootIn :=
  { rise := 0, march := (Config.bootMarch s.now).map (fun x => (x.1, ⟨x.2.1, x.2.2.1, x.2.2.2⟩))
    marchUs := Config.bootMarchUs s.now, sfdp := Config.bootSfdp s.now, flashUp := Config.bootFlashUp s.now
    slotErr := Config.bootSlotErr s.now, us := Config.bootUs s.now, cal := Config.bootCal s.now }

/-- A lane of an ENGINE reset: stopped, unloaded, its grants cleared; a load that runs is given up (R451). -/
def engineLane (s : State) (l : Nat) : State :=
  let s := if s.lst l = 3 ∨ s.lst l = 4 then laneHalt l s else s
  let s := if s.lst l = 1 then { s.setLst l 0 with load := none } else if s.lst l = 0 then s else laneUnload l s
  setGrant l [] 0 s

/-- An ENGINE reset (R451, R453). DESIGN CHOICE: assumption log 98. -/
def engineReset (s : State) : State :=
  let s := forAll (List.range 8) engineLane s
  let s := forAll (List.range 64) (fun s w => if s.get FCW_STAT.STATE w = 2 then windowClose w s else s) s
  let s := forAll [8, 9, 10, 11] (fun s n => (s.setCtx n {}).setLst n 0) s
  startSupers { s.put ID_BOOT_STAT.KIND 0 2 with tracks := [] }

/-- "Reset requested" with the kind and the requester, and the request is counted.
DESIGN CHOICE: assumption log 98. -/
def resetAccepted (kind req : Nat) (s : State) : State :=
  ((s.raise 0x0D01 0 0 (kind + 2 ^ 16 * req)).put ID_RST_STAT.REQUESTER 0 req).bump ID_RST_STAT.COUNT 0

/-- An accepted FULL acts at once, or after the orderly shutdown (R452). -/
def fullRequest (inp : BootIn) (s : State) : State :=
  if (s.flag FLT_STAT.SAFE 0 ∧ s.stopDone) ∨ (List.range 32).all s.planeOff then fullReset inp s
  else startOrderly { s.put ID_RST_STAT.FULL_PEND 0 1 with bootIn := some inp }

/-- A write of v to ID_RST_CTL (R450, R453); requester 1 a supervisor context, 2 the management port. -/
def rstWrite (req v : Nat) (inp : BootIn) (s : State) : State :=
  let kind := bits v 1 0
  if bits v 31 24 ≠ 0x5A ∨ (kind ≠ 1 ∧ kind ≠ 2) ∨ s.get ID_BOOT_STAT.STEP 0 < 7 ∨ s.flag ID_RST_STAT.FULL_PEND 0 then
    s.setOver ID_RST_STAT.REFUSED 0
  else if kind = 1 then fullRequest inp (resetAccepted 1 req s)
  else engineReset (resetAccepted 2 req s)

/-! ## Supply loss (R372, R458, R459) -/

/-- STANDBY_SUPPLY_LOST (R458): VSB has lain below 2.9 V for 10 µs while VAON is valid. -/
def execStandbySupplyLost (s : State) : Out :=
  .next (if s.get ID_BOOT_STAT.STEP 0 = 0 then s else { s with vsbLow := true }.raise 0x0D07 0 0)

/-- What the log writer keeps through the hold-up (R336). -/
def logKeys : List FKey :=
  [THM_LOG_STAT.NEXT_SLOT.key 0, THM_LOG_STAT.FIRST_USED.key 0, THM_LOG_SEQ.NEXT_SEQ.key 0]

/-- VAON_LOSS (R372, R459): all is lost but the flash, the FC3 latch, the levels at the pins, and, through the hold-up,
the log records that wait (R336). DESIGN CHOICE: assumption log 23. DESIGN CHOICE: assumption log 72. -/
def execVaonLoss (s : State) : Out :=
  let t : State := { pending := s.pending, flash := s.flash, coolantPin := s.coolantPin, pwrEnPin := s.pwrEnPin,
                     trstPin := s.trstPin, logQ := s.logQ, vsbLow := true
                     fld := s.fld.filter (fun e => logKeys.contains e.1) }
  .next (if s.flag FLT_STAT.FC3 0 then t.put FLT_STAT.FC3 0 1 else t)

/-- FC3_LATCH_CLEAR (R372): VSB has lain below 1.0 V so long that the latch clears; VAON is then out of its rating.
DESIGN CHOICE: assumption log 23. -/
def execFc3LatchClear (s : State) : Out :=
  .next (if s.get ID_BOOT_STAT.STEP 0 = 0 then s.put FLT_STAT.FC3 0 0 else s)

end Sys2Proof.Machine
end

