-- ==== Sys2Proof/Machine/Pins.lean ====
section
/-! DEFINITION. SMBus and PMBus, serial flash, the test access port, the stage link and the notice port
(chapter 16). -/

namespace Sys2Proof.Machine

open Sys2Proof

/-! ## Numbers of PMBus (R466) -/

/-- The nearest integer, halves upwards. -/
def nearest (q : Rat) : Int := (2 * q.num + q.den) / (2 * q.den)

/-- LINEAR11: the smallest exponent from −8 to 15 whose rounded mantissa fits in s11. -/
def linear11 (q : Rat) : Nat :=
  let m (k : Nat) : Int := nearest (q * 256 / ((2 ^ k : Nat) : Rat))
  let k := ((List.range 24).find? (fun k => decide (-1024 ≤ m k ∧ m k ≤ 1023))).getD 23
  unsg 5 ((k : Int) - 8) * 2 ^ 11 + unsg 11 (m k)

/-- ULINEAR16 with exponent −12 of a voltage in 0.1 µV. -/
def ulinear16 (uv : Nat) : Nat := min 65535 ((2 * uv * 4096 + 10000000) / 20000000)

/-! ## Reads (R465, R466) -/

/-- PAGE in force. -/
def State.page (s : State) : Nat := s.get ID_PMB_CFG.PAGE 0

/-- Bits set in STATUS_CML. -/
def cml (bits : Nat) (s : State) : State := { s with pmbCml := Nat.lor s.pmbCml bits }

/-- The PEC of a transaction's bytes: the CRC-8 of the SMBus specification. PRESUMED: assumption log 132. -/
def crc8 (l : List Nat) : Nat :=
  l.foldl (fun c b => (List.range 8).foldl (fun c _ => if 128 ≤ c then Nat.xor (2 * c % 256) 7 else 2 * c) (Nat.xor c (b % 256))) 0

/-- The own address with the direction bit, as it stands on the bus. -/
def State.smbAddr (s : State) (rd : Bool) : Nat := 2 * s.get ID_PMB_CFG.ADDR 0 + rd.toNat

/-- A read of command `code`: the bytes of the plane that PAGE selects, or all ones while it selects every plane, and their
PEC (R464, R465). -/
def pmbRead (code : Nat) (val : Nat → List Nat) (s : State) : State :=
  let out (d : List Nat) : List Nat := d ++ [crc8 ([s.smbAddr false, code, s.smbAddr true] ++ d)]
  if s.page = 0xFF then cml 0x40 { s with smbOut := out ((val 0).map (fun _ => 0xFF)) }
  else { s with smbOut := out (val s.page) }

/-- The two bytes of a word, low first. -/
def wordBytes (v : Nat) : List Nat := [v % 256, v / 256 % 256]

/-- The snapshot records of plane p (R391). -/
def State.snaps' (s : State) (p : Nat) : List Snap := (planeCrews p).map s.snap

/-- The least of a list, 0 if empty. -/
def leastN (l : List Nat) : Nat := (minN l).getD 0

/-! ## Status (R468) -/

/-- The status bits of plane p whose conditions hold now: STATUS_VOUT, STATUS_IOUT, STATUS_TEMPERATURE. -/
def State.statusLive (s : State) (p : Nat) : Nat × Nat × Nat :=
  let cs := planeCrews p
  let uv : Bool := cs.any (fun c => s.flag CREW_GB_STAT.UNREACH c)
  let fc2 : Bool := s.fc2.any (fun e => (scopeOf e.2.ev).contains p)
  let oc : Bool := (s.plane p).ceiling.isSome || cs.any (fun c => s.flag CREW_OVL_STAT.FOLD c)
  let hot : Bool := (planeRegions p).any s.throttled
  (uv.toNat * 0x20 + fc2.toNat * 0x10, oc.toNat * 0x20, hot.toNat * 0x40 + (s.flag FLT_STAT.FC3 0).toNat * 0x80)

/-- The latched status bits of plane p. -/
def State.status (s : State) (p : Nat) : Nat × Nat × Nat := tget (0, 0, 0) s.pmbLatch p

/-- STATUS_WORD of plane p, STATUS_BYTE its low byte: the summary bits of the PMBus specification.
PRESUMED: assumption log 101. -/
def State.statusSummary (s : State) (p : Nat) : Nat :=
  let (v, i, t) := s.status p
  let b (x : Nat) : Nat := (x != 0 : Bool).toNat
  let off := (!s.planeOn p).toNat
  b v * 2 ^ 15 + b i * 2 ^ 14 + off * 2 ^ 11 + off * 2 ^ 6 + b t * 2 ^ 2 + b s.pmbCml * 2 + b (v + i)

/-- CLEAR_FAULTS (R362, R468): latched bits whose conditions no longer hold clear, on every page. -/
def clearStatus (s : State) : State :=
  let s := { s with
    pmbCml := 0
    pmbLatch := s.pmbLatch.map (fun (e : Nat × Nat × Nat × Nat) =>
      let (v, i, t) := s.statusLive e.1
      (e.1, Nat.land e.2.1 v, Nat.land e.2.2.1 i, Nat.land e.2.2.2 t)) }
  s.clearBits FLT_STAT.ALERT_PEND 0 1

/-! ## PMBus commands (R464 to R468) -/

/-- A write with a wrong PEC byte is not performed. DESIGN CHOICE: assumption log 100. -/
def pmbWrite (pec : Bool) (act : State → State) (s : State) : State :=
  let s := { s with smbOut := [] }
  if pec then act s else cml 0x20 s

/-- A write refused under the write-protect fuse. -/
def pmbRefused (s : State) : State := ((cml 0x80 s).bump ID_PMB_CFG.REFUSED 0).raise 0x0E01 0 0

/-- PMB_WP is set. -/
def State.pmbWp (s : State) : Bool := s.flag ID_FUSE.PMB_WP 0

/-- A write to a command that is only read: refused under the fuse (R467), else ignored with CML bit 7.
DESIGN CHOICE: assumption log 100. -/
def pmbNoWrite (pec : Bool) (s : State) : State := pmbWrite pec (fun s => if s.pmbWp then pmbRefused s else cml 0x80 s) s

/-- A command that is only read. -/
def pmbReadOnly (code : Nat) (rd pec : Bool) (val : Nat → List Nat) (s : State) : Out :=
  .next (if rd then pmbRead code val s else pmbNoWrite pec s)

/-- A write of PAGE. DESIGN CHOICE: assumption log 100. -/
def writePage (v : Nat) (s : State) : State :=
  if v < 0x20 ∨ v = 0xFF then s.put ID_PMB_CFG.PAGE 0 v else cml 0x40 s

/-- PAGE (R465). -/
def execPage (rd : Bool) (v : Nat) (pec : Bool) (s : State) : Out :=
  .next (if rd then pmbRead 0x00 (fun _ => [s.page]) s else pmbWrite pec (writePage v) s)

/-- CLEAR_FAULTS. -/
def execClearFaults (pec : Bool) (s : State) : Out := .next (pmbWrite pec clearStatus s)

/-- WRITE_PROTECT: read-only. -/
def execWriteProtect (rd : Bool) (pec : Bool) (s : State) : Out :=
  pmbReadOnly 0x10 rd pec (fun _ => [if s.pmbWp then 0x80 else 0]) s

/-- CAPABILITY. -/
def execCapability (rd pec : Bool) (s : State) : Out :=
  pmbReadOnly 0x19 rd pec (fun _ => [0xD0]) s

/-- VOUT_MODE. -/
def execVoutMode (rd pec : Bool) (s : State) : Out :=
  pmbReadOnly 0x20 rd pec (fun _ => [0x14]) s

/-- The setpoint code of a ULINEAR16 value (R467). -/
def voutCode (v : Nat) : Nat := clampN ((250 * v + 256) / 512 - 600) 0 4095

/-- A setpoint of plane p joins the management port's operations (R50, R467). -/
def pmbSetpoint (code : Nat) (s : State) (p : Nat) : State :=
  let op : Op := ⟨0, .setpKeep code, planeUnit p, [], 15, 0⟩
  match s.uop with
  | none => { s.put ID_UOP_STAT.BUSY 0 1 with uop := some op, eng.uopAt := s.now }
  | some _ => { s with uopWait := s.uopWait ++ [op] }

/-- A write of VOUT_COMMAND: refused by the fuse; where Clatis takes no unit operation it delivers none. -/
def writeVout (v : Nat) (s : State) : State :=
  if s.pmbWp then pmbRefused s
  else if s.opsStopped then s
  else forAll (if s.page = 0xFF then List.range 32 else [s.page]) (pmbSetpoint (voutCode v)) s

/-- VOUT_COMMAND (R466, R467). -/
def execVoutCommand (rd : Bool) (v : Nat) (pec : Bool) (s : State) : Out :=
  .next (if rd then pmbRead 0x21 (fun p => wordBytes (ulinear16 (codeUv (maxN ((s.snaps' p).map (·.target)))))) s
    else pmbWrite pec (writeVout v) s)

/-- STATUS_BYTE. -/
def execStatusByte (rd pec : Bool) (s : State) : Out :=
  pmbReadOnly 0x78 rd pec (fun p => [s.statusSummary p % 256]) s
/-- STATUS_WORD. -/
def execStatusWord (rd pec : Bool) (s : State) : Out :=
  pmbReadOnly 0x79 rd pec (fun p => wordBytes (s.statusSummary p)) s
/-- STATUS_VOUT. -/
def execStatusVout (rd pec : Bool) (s : State) : Out :=
  pmbReadOnly 0x7A rd pec (fun p => [(s.status p).1]) s
/-- STATUS_IOUT. -/
def execStatusIout (rd pec : Bool) (s : State) : Out :=
  pmbReadOnly 0x7B rd pec (fun p => [(s.status p).2.1]) s
/-- STATUS_TEMPERATURE. -/
def execStatusTemperature (rd pec : Bool) (s : State) : Out :=
  pmbReadOnly 0x7D rd pec (fun p => [(s.status p).2.2]) s
/-- STATUS_CML. -/
def execStatusCml (rd pec : Bool) (s : State) : Out :=
  pmbReadOnly 0x7E rd pec (fun _ => [s.pmbCml]) s

/-- The mean VIB of plane p's crews in V. -/
def State.meanVib (s : State) (p : Nat) : Rat :=
  (planeCrews p).foldl (fun a c => a + s.vibOf c) 0 / ((planeCrews p).length : Rat) / 10000000

/-- READ_VIN. DESIGN CHOICE: assumption log 102. -/
def execReadVin (rd pec : Bool) (s : State) : Out :=
  pmbReadOnly 0x88 rd pec (fun p => wordBytes (linear11 (s.meanVib p))) s
/-- READ_VOUT: the lowest voltage of the crews that have one, in 62.5 µV of the snapshot.
DESIGN CHOICE: assumption log 102. -/
def execReadVout (rd pec : Bool) (s : State) : Out :=
  pmbReadOnly 0x8B rd pec (fun p => wordBytes (ulinear16 (625 * leastN (((s.snaps' p).filter (fun r => !r.noData)).map (·.volt))))) s
/-- READ_IOUT. -/
def execReadIout (rd pec : Bool) (s : State) : Out :=
  pmbReadOnly 0x8C rd pec (fun p => wordBytes (linear11 ((sumN ((s.snaps' p).map (·.current)) : Rat) / 1000))) s
/-- READ_TEMPERATURE_1. -/
def execReadTemperature1 (rd pec : Bool) (s : State) : Out :=
  pmbReadOnly 0x8D rd pec (fun p => wordBytes (linear11 (((maxI ((s.snaps' p).map (·.temp))).getD 0 : Int) / (4 : Rat)))) s
/-- READ_POUT. -/
def execReadPout (rd pec : Bool) (s : State) : Out :=
  pmbReadOnly 0x96 rd pec (fun p => wordBytes (linear11 ((s.planeMw p : Rat) / 1000))) s
/-- PMBUS_REVISION. -/
def execPmbusRevision (rd pec : Bool) (s : State) : Out :=
  pmbReadOnly 0x98 rd pec (fun _ => [0x33]) s
/-- MFR_ID: a block read, its count first: "AELLIS". -/
def execMfrId (rd pec : Bool) (s : State) : Out :=
  pmbReadOnly 0x99 rd pec (fun _ => [6, 0x41, 0x45, 0x4C, 0x4C, 0x49, 0x53]) s
/-- MFR_MODEL: "DRC-2". -/
def execMfrModel (rd pec : Bool) (s : State) : Out :=
  pmbReadOnly 0x9A rd pec (fun _ => [5, 0x44, 0x52, 0x43, 0x2D, 0x32]) s

/-- UNSUPPORTED_COMMAND (R466, R467): a read answers ones; a write is ignored, or refused by the fuse. -/
def execUnsupportedCommand (code : Nat) (rd : Bool) (len : Nat) (pec : Bool) (s : State) : Out :=
  .next (if rd then cml 0x80 (pmbRead code (fun _ => List.replicate len 0xFF) s) else pmbNoWrite pec s)

/-- ALERT_RESPONSE (R464): the target's own address while ALERT# is asserted, and the answer releases nothing. -/
def execAlertResponse (s : State) : Out :=
  .next { s with smbOut := if s.flag FLT_STAT.ALERT_PEND 0 then [s.smbAddr false, crc8 [0x19, s.smbAddr false]] else [] }

/-! ## Serial flash (R470, R472) -/

/-- Bytes of flash that an operation spans: erases take their size. -/
def flashSpan (op len : Nat) : Nat := if op = 2 then 4096 else if op = 3 then 65536 else len

/-- A request is malformed. -/
def flashBad (op addr m len : Nat) : Bool :=
  decide (4 ≤ op) ||
    (if 2 ≤ op then decide (addr % flashSpan op len ≠ 0)
     else decide (m % 8 ≠ 0 ∨ m < 0x400000 ∨ 0x800000 < m + len ∨ len % 8 ≠ 0 ∨ len < 8 ∨ 1048576 < len))

/-- A program or an erase touches the shutdown log (R470). -/
def flashLog (op addr len : Nat) : Bool :=
  decide (1 ≤ op ∧ addr < 0x1F09000 ∧ 0x1F00000 < addr + flashSpan op len)

/-- The flash DMA may move the data of an operation (R416). -/
def State.flashMay (s : State) (op m len : Nat) : Bool := decide (2 ≤ op) || s.permits 4 m len (op == 1) (op == 0)

/-- An operation ends with a result; "flash error" for the codes of R472. -/
def flashEnd (err addr : Nat) (s : State) : State :=
  let s := { (s.put ID_FLASH_STAT.BUSY 0 0).put ID_FLASH_STAT.ERR 0 err with flashOp := none }
  if err ∈ [1, 3, 4, 7] then s.raise 0x0E02 0 0 err addr else s

/-- A write of v to ID_FLASH_CTL (R472). DESIGN CHOICE: assumption log 99. -/
def flashCtlWrite (v : Nat) (s : State) : State :=
  let op := bits v 30 28
  let s := s.put ID_FLASH_CTL.OP 0 op
  let addr := s.get ID_FLASH_ADDR.ADDR 0
  let m := s.get ID_FLASH_MEM.MEM 0
  let len := s.get ID_FLASH_LEN.LEN 0
  if ¬ bitAt v 31 then s
  else if s.flashOp.isSome ∨ flashBad op addr m len then s.put ID_FLASH_STAT.ERR 0 8
  else if flashLog op addr len then s.put ID_FLASH_STAT.ERR 0 5
  else if s.flashMay op m len = false then s.put ID_FLASH_STAT.ERR 0 6
  else { s.put ID_FLASH_STAT.BUSY 0 1 with flashOp := some (op, addr, m, len) }

/-- The results that the flash can give an operation: none, NO_RESPONSE, a failed program, a failed erase. -/
def flashResult (op err : Nat) : Bool := err == 0 || err == 1 || (err == 3 && op == 1) || (err == 4 && decide (2 ≤ op))

/-- An operation that ran to its end: its data moves. DESIGN CHOICE: assumption log 99. -/
def flashMove (err op addr m len : Nat) (s : State) : State :=
  if err = 1 then flashEnd 1 addr s
  else if op = 0 then flashEnd err addr (s.wrBytes m (mgetList 0xFF#8 s.flash addr len))
  else if op = 1 then
    let r := readChecks m len s
    if r.2 then flashEnd err addr (flashPut (err == 0) addr (mgetList 0 s.mem m len) r.1) else flashEnd 7 addr r.1
  else if err = 0 then flashEnd 0 addr { s with flash := mclear s.flash addr (addr + flashSpan op len) }
  else flashEnd err addr (flashPut false addr (List.replicate (flashSpan op len) 0#8) s)

/-- A bank that holds some of the n bytes at a is offline (R426). -/
def State.anyOffline (s : State) (a n : Nat) : Bool :=
  (List.range 12).any (fun k => s.bankSt k != 0 && decide (bankLo k < a + n ∧ a < bankHi k))

/-- FLASH_OPERATION_END (R426, R472): the operation that runs ends; a transfer with an offline bank waits. -/
def execFlashOperationEnd (err : Nat) (s : State) : Out :=
  match s.flashOp with
  | none => .next s
  | some (op, addr, m, len) =>
    if flashResult op err = false ∨ (op ≤ 1 ∧ s.anyOffline m len = true) then .next s
    else if s.flashMay op m len = false then .next (flashEnd 6 addr s)
    else .next (flashMove err op addr m len s)

/-! ## JTAG (R473) -/

/-- Some plane is not OFF. -/
def State.anyPlaneUp (s : State) : Bool := (List.range 32).any (fun p => !s.planeOff p)

/-- The instruction as it acts: EXTEST, CLAMP and HIGHZ as BYPASS while a plane is not OFF. -/
def State.tapActs (s : State) : Nat := if s.tapInstr ∈ [0x00, 0x02, 0x03] ∧ s.anyPlaneUp then 0xFF else s.tapInstr

/-- The level at an output pin of the board: driven low, driven high, or not driven (R462). -/
inductive PinLevel where
  | low | high | z
  deriving DecidableEq, Repr

/-- A level by its number: 0 low, 1 high, else not driven. -/
def PinLevel.level (n : Nat) : PinLevel := if n = 0 then .low else if n = 1 then .high else .z

/-- The number of a level. -/
def PinLevel.code : PinLevel → Nat
  | .low => 0
  | .high => 1
  | .z => 2

/-- The levels that the block gives its output pins (R462), in order FAULT_P, FAULT_N, SDA, ALERT#, QSPI_CLK, QSPI_CS#,
QSPI_IO0 to QSPI_IO3, TDO: SDA is released and TDO not driven between transfers, ALERT# is pulled low while ALERT_PEND is 1 (R362),
and with no flash transfer QSPI_CLK is low, QSPI_CS# high and QSPI_IO are inputs. DESIGN CHOICE: assumption log 103. -/
def State.corePins (s : State) : List PinLevel :=
  let out (b : Bool) : PinLevel := if b then .high else .low
  let idle : Bool := s.flashOp.isNone && s.logQ.isEmpty && s.logErase.isNone
  let qspi (k : Nat) (rest : PinLevel) : PinLevel := if idle then rest else PinLevel.level (Config.flashPins s.now k)
  [out s.faultPins.1, out s.faultPins.2, .z, if s.fltInit ∧ s.flag FLT_STAT.ALERT_PEND 0 then .low else .z,
    qspi 0 .low, qspi 1 .high, qspi 2 .z, qspi 3 .z, qspi 4 .z, qspi 5 .z, .z]

/-- The levels at the output pins (R473): while the port's instruction acts, EXTEST and CLAMP drive them from the boundary
register, and HIGHZ drives none. -/
def State.pins (s : State) : List PinLevel :=
  if s.tapActs = 0x00 ∨ s.tapActs = 0x02 then
    (List.range s.corePins.length).map (fun k => PinLevel.level (Config.boundaryDrive s.tapScan k))
  else if s.tapActs = 0x03 then List.replicate s.corePins.length .z
  else s.corePins

/-- What the boundary register captures at the pins: those that the block drives, COOLANT_OK and PWR_EN, and others.
DESIGN CHOICE: assumption log 103. -/
def State.boundary (s : State) : Nat :=
  Config.boundaryPins s.now (s.pins.map (·.code) ++ [s.coolantPin.toNat, s.pwrEnPin.toNat])

/-- The port takes an instruction, unless TRST# holds it in Test-Logic-Reset; `act` is what its data register does. -/
def tap (code : Nat) (act : State → State) (s : State) : State :=
  if s.trstPin then act { s with tapInstr := code, tapOut := 0 } else s

/-- EXTEST: the boundary register captures the pins, and its new contents drive them.
DESIGN CHOICE: assumption log 103. -/
def execExtest (scan : Nat) (s : State) : Out :=
  .next (tap 0x00 (fun s => if s.anyPlaneUp then s else { s with tapOut := s.boundary, tapScan := scan }) s)

/-- SAMPLE/PRELOAD. -/
def execSamplePreload (pins scan : Nat) (s : State) : Out :=
  .next (tap 0x01 (fun s => { s with tapOut := pins, tapScan := scan }) s)

/-- CLAMP. -/
def execJtagClamp (s : State) : Out := .next (tap 0x02 (fun s => s) s)
/-- HIGHZ. -/
def execHighz (s : State) : Out := .next (tap 0x03 (fun s => s) s)

/-- IDCODE. -/
def execIdcode (s : State) : Out :=
  .next (tap 0xFE (fun s => { s with tapOut :=
    Config.jtagVersion % 16 * 2 ^ 28 + 0xD2C2 * 2 ^ 12 + Config.jtagManufacturer % 2048 * 2 + 1 }) s)

/-- BYPASS, and every other code. -/
def execBypass (s : State) : Out := .next (tap 0xFF (fun s => s) s)

/-- TRST# changes level: low is Test-Logic-Reset, with IDCODE in force. DESIGN CHOICE: assumption log 103. -/
def execTrst (high : Bool) (s : State) : Out :=
  .next (if high then { s with trstPin := true } else { s with trstPin := false, tapInstr := 0xFE, tapOut := 0 })

/-! ## Stage link (R457, R474 to R478) -/

/-- The frames that wait for die d leave in their order, and the poll after them. -/
def pollDie (s : State) (d : Nat) : State :=
  let s := sendFrames s d
  { s with stgOut := tset s.stgOut d (tget [] s.stgOut d ++ [3]), stgWait := tset s.stgWait d (tget [] s.stgWait d ++ [3]) }

/-- POLL (R474): every die of DIE_MASK. -/
def execPoll (s : State) : Out := .next (forAll s.dies pollDie s)

/-- The oldest frame that die d has not answered is done with. -/
def frameOver (d : Nat) (s : State) : State := { s with stgWait := tset s.stgWait d (tget [] s.stgWait d).tail }

/-- A die failed to give a valid answer: at the third in a row it is lost (R477).
DESIGN CHOICE: assumption log 104. -/
def dieMissed (d : Nat) (s : State) : State :=
  let n := tget 0 s.stgMiss d + 1
  let s : State := { frameOver d s with stgMiss := tset s.stgMiss d (min n 3) }
  if 3 ≤ n ∧ ¬ s.flag STG_DIE_STAT.LOST d then showDies ((s.put STG_DIE_STAT.LOST d 1).raise 0x0E03 0 0 d) else s

/-- The 48 V input of die d by its poll (R457). -/
def dieVin (d vin : Nat) (s : State) : State :=
  if vin < 400 then
    if s.stgLow.contains d then s else { s with stgLow := d :: s.stgLow }.raise 0x0D06 0 0
  else { s with stgLow := s.stgLow.filter (fun x => x != d) }

/-- A valid answer of die d to a poll. -/
def dieAnswer (d : Nat) (ready fault : Bool) (fcode vin iout : Nat) (temp : Int) (s : State) : State :=
  let s := ((s.mark STG_DIE_STAT.READY d ready).put STG_DIE_STAT.FCODE d fcode).putI STG_DIE_STAT.T d temp
  let s := (s.put STG_DIE_MEAS.VIN d vin).put STG_DIE_MEAS.IOUT d iout
  let s := if fault && !s.flag STG_DIE_STAT.FAULT d then (s.put STG_DIE_STAT.FAULT d 1).raise 0x0E04 0 0 d else s
  showDies (dieVin d vin s)

/-- FS_ANSWER (R474): die d answers the oldest frame that it has not answered; only the answer to a poll carries its state.
DESIGN CHOICE: assumption log 104. -/
def execFsAnswer (d : Nat) (crcOk ready fault : Bool) (fcode vin iout : Nat) (temp : Int) (s : State) : Out :=
  match tget [] s.stgWait d with
  | [] => .next s
  | k :: _ =>
    if ¬ crcOk then .next (dieMissed d (s.bump STG_ERR.CRC_ERR 0))
    else
      let s : State := { frameOver d s with stgMiss := tset s.stgMiss d 0 }
      .next (if k = 3 then dieAnswer d ready fault fcode vin iout temp s else s)

/-- FRAME_TIMEOUT (R474, R477): die d has not answered its oldest frame within 2 µs. -/
def execFrameTimeout (d : Nat) (s : State) : Out :=
  if tget [] s.stgWait d = [] then .next s else .next (dieMissed d (s.bump STG_ERR.TIMEOUTS 0))

/-- A write of v to STG_CTL (R476): DIE_MASK only while FS_EN is 0. -/
def stgCtlWrite (v : Nat) (s : State) : State :=
  let on := s.flag ID_PWR_CTL.FS_EN 0
  let s := if on then s else s.put STG_CTL.DIE_MASK 0 (bits v 31 16)
  let s := s.put STG_CTL.VIB_SET 0 (min 40 (bits v 5 0))
  showDies (if on then forAll s.dies (stgSend 2) s else s)

/-- VIB_LOST (R478): the mean of the crews' VIB readings has lain below 2.20 V for 10 µs. DESIGN CHOICE: assumption log 96. -/
def execVibLost (s : State) : Out :=
  let vs := (allCrews.filter (fun c => thas (s.crew c).hHeld 9)).map s.vibOf
  if s.flag ID_PWR_CTL.FS_EN 0 ∧ s.vibWas ∧ s.flag ID_PWR_STAT.VIB_GOOD 0 ∧ vs.foldl (· + ·) 0 < 22000000 * (vs.length : Rat) then
    .next ((s.put ID_PWR_STAT.VIB_GOOD 0 0).raise 0x0E05 0 0)
  else .next s

/-! ## The notice port (R482) -/

/-- The three words of a notice. -/
def Notice.words (n : Notice) : List Nat :=
  [n.kind * 2 ^ 28 + n.cause * 2 ^ 24 + n.scope * 2 ^ 20 + n.index, n.stamp.mark, n.stamp.tick % 256 * 2 ^ 24 + n.cap % 2 ^ 16]

/-- NOTICE_SEND (R482): the notice that was raised first leaves, in the next cycle where one has left in this. -/
def execNoticeSend (s : State) : Out :=
  let s := if s.notices ≠ [] ∧ s.cyc.noticed then passCycle s else s
  match s.notices with
  | [] => .next s
  | n :: t => .next { s with noticeOut := some n, notices := t, cyc.noticed := s.cyc.on }

/-! ## The region lines of the host die (R481) -/

/-- The 72 bits of the temperature-band broadcast: the band code of region r in bits [3r+2:3r]. -/
def State.bandLines (s : State) : Nat := sumN ((List.range 24).map (fun r => s.get THM_REG.BAND r % 8 * 2 ^ (3 * r)))

/-- STRETCHr: the regions to which a stretch request is out, of droops or of a realignment. -/
def State.stretchLines (s : State) : Nat := maskOf ((List.range 24).filter (fun r => s.strReq.contains r || s.aligning r))

/-- RATEr: the numerator in force in region r. -/
def State.rateLine (s : State) (r : Nat) : Nat := s.get MSH_REG_CFG.RATE r

end Sys2Proof.Machine
end

