-- ==== Sys2Proof/Machine/Bus.lean ====
section
/-! DEFINITION. The management map (R16 to R23, R276, R277, R416, R491 to R498): reads and writes of registers and
memories by the management port, the test access port and supervisor contexts; access codes, the global lock, the write
rules of the blocks, and what a register write does beside storing its fields. -/

namespace Sys2Proof.Machine

open Sys2Proof

/-! ## Masters and addresses -/

/-- The master is the management port, or the test access port, which counts as it (R473). -/
def isHost : Master → Bool
  | .sup _ => false
  | _ => true

/-- The master's code (R417): 0 processor, 1 management port. -/
def masterCode (m : Master) : Nat := (isHost m).toNat

/-- The bits of field f in a register word, and the word with them replaced. -/
def Fld.ofWord (f : Fld) (v : Nat) : Nat := bits v f.hi f.lo
def Fld.inWord (f : Fld) (v x : Nat) : Nat := setBits v f.lo f.width x

/-- The word with field f held between lo and hi. -/
def Fld.hold (f : Fld) (lo hi v : Nat) : Nat := f.inWord v (clampN (f.ofWord v) lo hi)

/-- The per-instance blocks: an unnamed address in them reads 0 and ignores writes (R492). -/
def inBlock (a : Nat) : Bool :=
  decide ((0x100000 ≤ a ∧ a < 0x1C0000) ∨ (0x200000 ≤ a ∧ a < 0x200C00) ∨ (0x280000 ≤ a ∧ a < 0x284000) ∨
    (0x350000 ≤ a ∧ a < 0x350100))

/-- The fault entries, which are read-only words (R380). -/
def isFltEntry (a : Nat) : Bool :=
  decide ((0x300040 ≤ a ∧ a < 0x300060) ∨ (0x300100 ≤ a ∧ a < 0x300300) ∨ (0x300400 ≤ a ∧ a < 0x300800))

/-- What a word address names: a register in use, a place that reads as it does and takes no write, or nothing. -/
inductive Place where
  | reg (r : Reg) (i : Nat)
  | fixed
  | unnamed
  deriving DecidableEq, Repr

/-- The place at a word address; of a supervisor block only LANE_STAT and LANE_SIG are in use (R235).
DESIGN CHOICE: assumption log 13. -/
def placeAt (a : Nat) : Place :=
  match regAt a with
  | some (r, i) =>
    if decide (0x200800 ≤ a ∧ a < 0x200C00) && r != .LANE_STAT && r != .LANE_SIG then .fixed else .reg r i
  | none => if inBlock a || isFltEntry a then .fixed else .unnamed

/-! ## Reads -/

/-- The mask of crew c's phases in a state. -/
def State.phMask (s : State) (c : Nat) (p : PhaseSt) : Nat :=
  maskOf ((List.range 8).filter (fun k => (s.phase (8 * c + k)).st == p))

/-- Field f of instance i as a read returns it: of most fields the stored value, of the rest what they show now.
DESIGN CHOICE: assumption log 24. -/
def State.shown (s : State) (f : Fld) (i : Nat) : Nat :=
  match f.reg with
  | .CREW_RING_STAT =>
    if f.lo = CREW_RING_STAT.ACTIVE_MASK.lo then maskOf (s.ringOf i)
    else if f.lo = CREW_RING_STAT.ACTIVE_COUNT.lo then s.activeCount i else s.get f i
  | .CREW_PH_STATE =>
    if f.lo = CREW_PH_STATE.STRUCK.lo then s.phMask i .struck
    else if f.lo = CREW_PH_STATE.FUSED.lo then s.phMask i .fused
    else if f.lo = CREW_PH_STATE.BLANKED.lo then s.phMask i .blanked else s.get f i
  | .CREW_OVL_STAT => if f.lo = CREW_OVL_STAT.FOLD_OFFSET.lo then s.foldOfs i else s.get f i
  | .CREW_GB_STAT =>
    if f.lo = CREW_GB_STAT.AGE_VALID.lo then (bitAt (s.get CAP_MON_AGE_CTL.VALID 0) (regionOf i)).toNat else s.get f i
  | .MSH_STAT =>
    if f.lo = MSH_STAT.SEQ.lo then s.mshSeq i
    else if f.lo = MSH_STAT.QUEUED.lo then ((s.mar i).arrived s.now).length
    else sumN (((s.mar i).arrived s.now).map (·.cls))
  | .CAP_STAT => if f.lo = CAP_STAT.MODE.lo then s.estMode.toNat else s.get f i
  | .EST_STAT =>
    if f.lo = EST_STAT.OK.lo then s.estMode.toNat else if f.lo = EST_STAT.NOT_CONV.lo then s.notConv else s.get f i
  | .CAP_CLASS_HW => if f.lo = CAP_CLASS_HW.HW_FLOOR.lo then s.get ID_SAFE_FLOOR.HW_FLOOR i else s.get f i
  | .THM_THRESH1 => if f.lo = THM_THRESH1.T_CRIT_MAX.lo then s.get ID_SAFE_LIM1.T_CRIT_MAX 0 else s.get f i
  | .ID_MARCH_STAT =>
    if f.lo = ID_MARCH_STAT.ELAPSED.lo ∧ s.march.isSome then min ((s.now - s.marchAt) / 500) (2 ^ 20 - 1) else s.get f i
  | .TB_NOW_TICKS => s.ticks
  | .TB_STAT =>
    if f.lo = TB_STAT.CAL_BAD.lo then (allCrews.filter (fun c => !s.flag TB_CAL.VALID c)).length else s.get f i
  | .FLT_STAT =>
    if f.lo = FLT_STAT.PIN_P.lo then s.faultPins.1.toNat
    else if f.lo = FLT_STAT.PIN_N.lo then s.faultPins.2.toNat
    else if f.lo = FLT_STAT.FC2_OPEN.lo then s.fc2.length else s.get f i
  | .REC_OLDEST => s.recOldest
  | .REC_WIN => s.recWin i
  | .ID_PMB_CFG => if f.lo = ID_PMB_CFG.WP.lo then s.pmbWp.toNat else s.get f i
  | .LANE_STAT => if f.lo = LANE_STAT.PC.lo then s.pcShown i else s.get f i
  | .LANE_WDOG => s.wdogRemain i
  | .ID_MBX_SUM => s.mbxSum
  | .RGT_MEMBER =>
    if f.lo = RGT_MEMBER.SERVED.lo then s.rgtServed else if f.lo = RGT_MEMBER.LEVELS.lo then s.rgtL else s.get f i
  | _ => s.get f i

/-- The word that a read of instance i of register r returns: WO fields and reserved bits read 0 (R21, R23). -/
def State.regWord (s : State) (r : Reg) (i : Nat) : Nat :=
  sumN ((r.fields.filter (fun f => f.acc != .WO)).map (fun f =>
    (if f.acc = .RC then s.ripe f i else s.shown f i) % 2 ^ f.width * 2 ^ f.lo))

/-- What a read of register r changes (R21, R95, R408): RC fields clear, a sample is taken, the recorder advances. -/
def afterRead (r : Reg) (i : Nat) (s : State) : State :=
  let s := (r.fields.filter (fun f => f.acc == .RC)).foldl (fun s f => s.clearRipe f i) s
  match r with
  | .CREW_AB => takeOnRead (i / 2) (i % 2 == 1) s
  | .REC_WIN => if i = 7 ∧ s.flag REC_CTL.AUTO 0 then recAdvance s else s
  | _ => s

/-- The low words of the 64-bit RO pairs (R20): TB_NOW, ID_SERIAL. DESIGN CHOICE: assumption log 12. -/
def pairLows : List Nat := [0x370008, 0x000010]

/-- The word at a place of the register map, and the state after its read. -/
def readPlace (a : Nat) (s : State) : State × Nat :=
  match placeAt a with
  | .reg r i => (afterRead r i s, s.regWord r i)
  | _ => (s, (s.fltWord a).getD 0)

/-- A 32-bit read of a register (R20): of the low word of a pair it latches the high word, which the next 32-bit read of
the high word returns. DESIGN CHOICE: assumption log 12. -/
def readReg32 (a : Nat) (s : State) : State × Nat :=
  if thas s.hiLatch a then ({ s with hiLatch := tdel s.hiLatch a }, tget 0 s.hiLatch a)
  else if pairLows.contains a then
    readPlace a { s with hiLatch := tset s.hiLatch (a + 4) (readPlace (a + 4) s).2 }
  else readPlace a s

/-- Whether every word of an access of n bytes at a names a register or a fixed place. -/
def named (a n : Nat) : Bool := (List.range (n / 4)).all (fun k => placeAt (a + 4 * k) != .unnamed)

/-- The form of an access: naturally aligned, 4 or 8 bytes (R19), inside the window. -/
def formOk (a n : Nat) : Bool := decide ((n = 4 ∨ n = 8) ∧ a % n = 0 ∧ a + n ≤ 0x1000000)

/-- The memories of the map: coordinator memory, the program store, forecast memory. -/
def inMem (a : Nat) : Bool := inCM a || inPS a || inFM a

/-- The cause that turns an access away before it reaches its block (R416, R498): 2 form, 3 region registers.
DESIGN CHOICE: assumption log 10. -/
def State.accessBar (s : State) (m : Master) (a n : Nat) (rd wr : Bool) : Nat :=
  if formOk a n = false then 2 else if s.permitted (masterCode m) a n rd wr = false then 3 else 0

/-- The management port answers only from step RELEASED or RECOVERY on (R480). DESIGN CHOICE: assumption log 10.
DESIGN CHOICE: assumption log 112. -/
def State.closed (s : State) (m : Master) : Bool := (isHost m) && decide (s.get ID_BOOT_STAT.STEP 0 < 7)

/-! ## Coordinator memory within one cycle (R415, R418, R426) -/

/-- A write to coordinator memory (R418, R426): a word written in part is read first. -/
def writeCM (a n ecc v : Nat) (s : State) : State × Nat :=
  if s.offline a then (s, 5)
  else if n = 8 then (s.wrBytes a (leBytes 8 v), 0)
  else
    let r := readCheck ecc a s
    if r.2 then (r.1.wr 4 a v, 0) else (r.1, 5)

/-- An atomic operation of a supervisor context on coordinator memory (R277): the old value, or the failure.
DESIGN CHOICE: assumption log 11. -/
def busAtomic (swap : Bool) (a n v ecc : Nat) (s : State) : State × Option Nat :=
  if s.accessBar (.sup 0) a n true true ≠ 0 ∨ inCM a = false then (s, none)
  else
    let r := readCheck ecc a s
    if r.2 then
      let old := r.1.rd n a
      (r.1.wr n a (if swap then v else (old + v) % 2 ^ (8 * n)), some old)
    else (r.1, none)

/-- The command issues, and may let cycles pass before it does (R47, R211). -/
def issues : Instr → Bool
  | .uopIssue => true
  | .nop _ | .halt _ | .yield _ | .br _ | .brc _ | .call _ | .ret _ | .loop _ | .movi _ | .mov _ | .add _ | .sub _
  | .mulq _ | .shr _ | .shl _ | .and _ | .or _ | .cmp _ | .min _ | .max _ | .clamp _ | .setv _ | .setvr _ | .ramp _
  | .lls _ | .gsel _ | .arm _ | .stand _ | .pwron _ | .pwroff _ | .rdt _ | .waitt _ | .waitm _ | .waits _ | .waita _
  | .barl _ | .barx _ | .markq _ | .waite _ | .wopen _ | .wclose _ | .fcst _ | .heat _ | .capq _ | .slack _ | .evt _
  | .ld _ | .st _ | .aadd _ | .swap _ | .grant _ | .loadp _ | .signal _ => true
  | _ => false

/-- The address at which a waiting command stores to coordinator memory, and the state after its store, if it makes one. -/
def State.storing (s : State) : Instr → Option (Nat × State)
  | .registerWrite m a n v ecc =>
    if s.closed m ∨ s.accessBar m a n false true ≠ 0 ∨ inCM a = false then none else some (a, (writeCM a n ecc v s).1)
  | .accessComplete k ecc =>
    match (tget {} s.ctxs k).wait with
    | some ⟨.access 1 a wide v, _, _, _⟩ =>
      if s.accessBar (.sup (k - 8)) a (if wide then 8 else 4) false true ≠ 0 ∨ inCM a = false then none
      else some (a, (writeCM a (if wide then 8 else 4) ecc v s).1)
    | some ⟨.access 2 a wide v, _, _, _⟩ => some (a, (busAtomic false a (if wide then 8 else 4) v ecc s).1)
    | some ⟨.access 3 a wide v, _, _, _⟩ => some (a, (busAtomic true a (if wide then 8 else 4) v ecc s).1)
    | _ => none
  | _ => none

/-- The n bytes at a of a memory as a read returns them (R415): those after the first store to their 64-bit word that still
waits in this cycle, which ends at the latest with a command that issues. DESIGN CHOICE: assumption log 127. -/
def State.readThrough (s : State) (n a : Nat) : Nat :=
  let store := if s.cyc.on then
      ((s.pending.takeWhile (fun c => !issues c)).filterMap s.storing).find? (fun e => e.1 / 8 == a / 8) else none
  match store with
  | some (_, t) => t.rd n a
  | none => s.rd n a

/-- A read of n bytes at a by a master: the state after, and the data or the cause of the failure. `ecc` is what the
check bits of a memory word show. -/
def busRead (m : Master) (a n ecc : Nat) (s : State) : State × Except Nat Nat :=
  if s.accessBar m a n true false ≠ 0 then (s, .error (s.accessBar m a n true false))
  else if inMem a then
    let r := readCheck ecc a s
    (r.1, if r.2 then .ok (r.1.readThrough n a) else .error 5)
  else if named a n = false then (s, .error 1)
  else if n = 4 then let r := readReg32 a s; (r.1, .ok r.2)
  else
    let lo := readPlace a s
    let hi := readPlace (a + 4) s
    ((readPlace (a + 4) (readPlace a s).1).1, .ok (lo.2 + 2 ^ 32 * hi.2))

/-! ## Writes: who may write, and what a write may not change -/

/-- The register holds a field of one of the access codes. -/
def Reg.has (r : Reg) (l : List Access) : Bool := r.fields.any (fun f => l.contains f.acc)

/-- The block refuses a management-port write to instance i of register r (R38, R213, R235, R310, R338, R355, R380, R411,
R435, R437, R460, R490, R495). -/
def State.hostBars (s : State) (r : Reg) (i : Nat) : Bool :=
  let a := r.info.base
  if 0x900000 ≤ a then true
  else if (0x200000 ≤ a ∧ a < 0x201000) ∨ r = .ID_PWR_CTL ∨ r = .ID_LOCK then true
  else if r = .FLT_STAT ∨ r = .ID_MBX_CTL then false
  else if r = .ID_MBX_DATA then !s.mbxOpen true (i / 15)
  else if 0x300000 ≤ a ∧ a < 0x310000 then true
  else if 0x310000 ≤ a ∧ a < 0x340000 then r.has [.RW, .RWL]
  else if (0x370000 ≤ a ∧ a < 0x400000) ∨ (0x350000 ≤ a ∧ a < 0x350100) ∨ (0x10300 ≤ a ∧ a < 0x10400) then r.has [.RW, .WO]
  else decide ((0x10000 ≤ a ∧ a < 0x10200) ∨ (0x10400 ≤ a ∧ a < 0x10600) ∨ (0x10800 ≤ a ∧ a < 0x100000))

/-- The block refuses a write of a supervisor context (R50, R435). -/
def State.supBars (s : State) (r : Reg) (i : Nat) : Bool :=
  if r = .ID_MBX_DATA then !s.mbxOpen false (i / 15)
  else r == .ID_UOP_LO || r == .ID_UOP_HI || r == .ID_UOP_CTL || r == .ID_UOP_STAT

/-- The block refuses a write of a master to the word at a. -/
def State.bars (s : State) (host : Bool) (a : Nat) : Bool :=
  match placeAt a with
  | .reg r i => if host then s.hostBars r i else s.supBars r i
  | .fixed => host && (isFltEntry a || (regAt a).isSome)
  | .unnamed => false

/-- The word with its RWL fields at their present values, and whether one of them differed (R22). -/
def State.lockWord (s : State) (r : Reg) (i v : Nat) : Nat × Bool :=
  (r.fields.filter (fun f => f.acc == .RWL)).foldl (fun e f =>
    (f.inWord e.1 (s.get f i), e.2 || f.ofWord v != s.get f i)) (v, false)

/-- A write at a to RWL fields while the lock is in force tries to change one (R22, R497).
DEDUCED: assumption log 21. -/
def State.violates (s : State) (a v : Nat) : Bool :=
  match placeAt a with
  | .reg r i => s.locked && (s.lockWord r i v).2
  | _ => false

/-- The word as its fields are stored: values outside a field's valid range set the nearer end, and a reserved channel
code leaves the field as it is (R99). DEDUCED: assumption log 21. -/
def State.adjust (s : State) (r : Reg) (i v : Nat) : Nat :=
  match r with
  | .CREW_MOD_CTL => CREW_MOD_CTL.K_ON.hold 640 1280 v
  | .CREW_RING_CTL => CREW_RING_CTL.SPACING.hold 2 8 v
  | .CREW_FSC_CTL => CREW_FSC_CTL.TRIP_MAX.hold 4 31 (CREW_FSC_CTL.LIMIT.hold 36 (s.get ID_SAFE_LIM0.FSC_MAX 0) v)
  | .CREW_DEAD_CTL => CREW_DEAD_CTL.NC_MAX.hold 8 255 v
  | .CREW_H_CTL => if 17 < CREW_H_CTL.CH.ofWord v then CREW_H_CTL.CH.inWord v (s.get CREW_H_CTL.CH i) else v
  | .CREW_H_SEQ => if 17 < CREW_H_SEQ.CH.ofWord v then CREW_H_SEQ.CH.inWord v (s.get CREW_H_SEQ.CH i) else v
  | .CREW_TR_CTL => CREW_TR_CTL.OV_TH.hold 0 28 (CREW_TR_CTL.DROOP_TH.hold 0 28 v)
  | .CREW_GB_CTL => CREW_GB_CTL.GB_FC.hold 30 127 (CREW_GB_CTL.GB_DEF.hold 30 127 v)
  | .CREW_PWR_CTL => CREW_PWR_CTL.SS_SLEW.hold 4 s.slewMax v
  | .CAP_MON_AGE_TRIM =>
    let f := s.getI CAP_MON_AGE_TRIM.FACTORY i
    CAP_MON_AGE_TRIM.TRIM.inWord v (unsg 6 (clampI (sgn 6 (CAP_MON_AGE_TRIM.TRIM.ofWord v)) (f - 8) (f + 8)))
  | .MSH_CTL => MSH_CTL.BUDGET.hold 10 1023 (MSH_CTL.SPACING.hold 4 31 (MSH_CTL.STALL_TO.hold 1 255 v))
  | .MSH_ALIGN_CTL => MSH_ALIGN_CTL.ALIGN_TH.hold 1 3 v
  | .CAP_CTL => CAP_CTL.UP_INT.hold 1 255 (CAP_CTL.THR_INT.hold 1 255 (CAP_CTL.RATE_MIN.hold 4 16 v))
  | .CAP_LIM => CAP_LIM.LIMIT.hold 0 (s.get CAP_LIM.MAX i) v
  | .CAP_CLASS => CAP_CLASS.FLOOR.hold (s.get ID_SAFE_FLOOR.HW_FLOOR i) 65535 v
  | .CAP_RATE_REG => CAP_RATE_REG.FW.hold 4 16 v
  | .THM_CTL =>
    THM_CTL.HELD_RATE.hold 4 16 (THM_CTL.GRACE.hold 1 500 (THM_CTL.ENF_INT.hold 1 255 (THM_CTL.RATE_MIN.hold 4 16 v)))
  | .THM_THRESH1 =>
    if s.getI ID_SAFE_LIM1.T_CRIT_MAX 0 < sgn 16 v then THM_THRESH1.T_CRIT.inWord v (s.get ID_SAFE_LIM1.T_CRIT_MAX 0) else v
  | .THM_DRC1 => THM_DRC1.K.hold 1 50 v
  | .RGT_CTL => RGT_CTL.PERIOD.hold 2 100 v
  | .RGT_GROUP => RGT_GROUP.SIZE.hold 1 4096 v
  | _ => v

/-- Thresholds out of order (R315): T_WARN ≤ T_THROTTLE ≤ T_CRIT − 5 °C fails. -/
def thrBad (warn thr crit : Int) : Bool := decide (thr < warn ∨ crit - 20 < thr)

/-- The floors of the classes against the least limit (R287). -/
def floorsBad (floors limits : List Nat) : Bool := decide (92 * (minN limits).getD 0 < 100 * sumN floors)

/-- Floors and limits, with one of them replaced. -/
def State.floorsWith (s : State) (k x : Nat) : List Nat :=
  (List.range 4).map (fun d => if d = k then x else s.get CAP_CLASS.FLOOR d)
def State.limitsWith (s : State) (k x : Nat) : List Nat :=
  (List.range 3).map (fun d => if d = k then x else s.get CAP_LIM.LIMIT d)

/-- The flag that a write sets where its register refuses the word and stays unchanged (R287, R315, R316, R329,
R339). -/
def State.refuses (s : State) (r : Reg) (i v : Nat) : Option Fld :=
  match r with
  | .THM_CTL =>
    if THM_CTL.MODE.ofWord v ≠ s.get THM_CTL.MODE 0 ∧ s.get THM_STAT.THROTTLE 0 ≠ 0 then some THM_STAT.CFG_ERR else none
  | .THM_THRESH0 =>
    if thrBad (sgn 16 (THM_THRESH0.T_WARN.ofWord v)) (sgn 16 (THM_THRESH0.T_THROTTLE.ofWord v)) (s.getI THM_THRESH1.T_CRIT 0) then
      some THM_STAT.CFG_ERR else none
  | .THM_THRESH1 =>
    if thrBad (s.getI THM_THRESH0.T_WARN 0) (s.getI THM_THRESH0.T_THROTTLE 0) (sgn 16 (THM_THRESH1.T_CRIT.ofWord v)) then
      some THM_STAT.CFG_ERR else none
  | .THM_RISE => if THM_RISE.FAST.ofWord v ≤ THM_RISE.SLOW.ofWord v then some THM_STAT.CFG_ERR else none
  | .RGT_GROUP => if s.flag RGT_CTL.EN 0 then some RGT_STAT.CFG_ERR else none
  | .RGT_MEMBER => if s.flag RGT_CTL.EN 0 then some RGT_STAT.CFG_ERR else none
  | .CAP_CLASS =>
    if CAP_CLASS.CEIL.ofWord v < CAP_CLASS.FLOOR.ofWord v ∨
        floorsBad (s.floorsWith i (CAP_CLASS.FLOOR.ofWord v)) (s.limitsWith 3 0) then some CAP_STAT.CFG_ERR else none
  | .CAP_LIM =>
    if floorsBad (s.floorsWith 4 0) (s.limitsWith i (CAP_LIM.LIMIT.ofWord v)) then some CAP_STAT.CFG_ERR else none
  | _ => none

/-- The fields of a word are stored under their access codes (R21). -/
def storeFields (r : Reg) (i v : Nat) (s : State) : State :=
  r.fields.foldl (fun s f =>
    match f.acc with
    | .RW => s.put f i (f.ofWord v)
    | .RWL => s.put f i (f.ofWord v)
    | .W1C => s.clearBits f i (f.ofWord v)
    | _ => s) s

/-! ## Writes: registers that act -/

/-- A write to CREW_FSC_CTL: "limit clamped" above the safety-table limit (R69). -/
def fscWrite (c v : Nat) (s : State) : State :=
  if s.get ID_SAFE_LIM0.FSC_MAX 0 < CREW_FSC_CTL.LIMIT.ofWord v then s.raiseCrew 0x0201 c (CREW_FSC_CTL.LIMIT.ofWord v) else s

/-- A write to CREW_AB_CTL (R92): its MODE is a request where it differs from the mode in force or takes one back.
DESIGN CHOICE: assumption log 15. -/
def abCtlWrite (c v : Nat) (s : State) : State :=
  let mode := CREW_AB_CTL.MODE.ofWord v
  if mode = s.get CREW_AB_STAT.MODE_ACT c ∧ (s.crew c).modeReq = none then s else abModeWrite c mode s

/-- A write to CREW_AB_TRIG (R91): pulses count anew; FIRE triggers where SRC is SOFT. -/
def abTrigWrite (c v : Nat) (s : State) : State :=
  let s := s.onCrew c (fun k => { k with trigPulses := 0 })
  if CREW_AB_TRIG.FIRE.ofWord v = 1 ∧ CREW_AB_TRIG.SRC.ofWord v = 2 then trigger c (2000 * s.now) s else s

/-- A write to CREW_H_CTL that selects single-channel mode (R103), or ends it, MODE being 1 before (R102).
DESIGN CHOICE: assumption log 20. -/
def hCtlWrite (c v : Nat) (single : Bool) (s : State) : State :=
  if CREW_H_CTL.MODE.ofWord v = 1 ∧ s.simAllowed c = false then
    ((s.put CREW_H_CTL.MODE c 0).setOver CREW_H_STAT.MODE_REFUSED c).raiseCrew 0x0301 c
  else if CREW_H_CTL.MODE.ofWord v = 0 ∧ single then s.onCrew c (fun k => { k with toEntry0 := true })
  else s

/-- A write to CREW_OW_CTL (R114, R116). DESIGN CHOICE: assumption log 16. -/
def owCtlWrite (c v : Nat) (s : State) : State :=
  if CREW_OW_CTL.RETRY.ofWord v = 1 then startConfirm c true s
  else if CREW_OW_CTL.CONFIRM.ofWord v = 1 then startConfirm c false s else s

/-- A write to CREW_PWR_CTL: STAND, REJOIN, UNLOCK (R163, R173, R260). -/
def crewPwrWrite (c v : Nat) (s : State) : State :=
  let s := if CREW_PWR_CTL.STAND.ofWord v = 1 then
      s.onCrew c (fun k => { k with standReq := some (CREW_PWR_CTL.STAND_KIND.ofWord v) }) else s
  let s := if CREW_PWR_CTL.REJOIN.ofWord v = 1 then rejoinPark c s else s
  if CREW_PWR_CTL.UNLOCK.ofWord v = 1 then unlock c s else s

/-- A write to EST_CTL (R304). -/
def estCtlWrite (v : Nat) (s : State) : State :=
  let s := setSrc (EST_CTL.SRC.ofWord v) s
  if EST_CTL.FW_LOAD.ofWord v = 1 then fwLoadModel s else s

/-- A change of EN by a write to RGT_CTL (R339): `was` is EN before it. -/
def rgtEnWrite (v was : Nat) (s : State) : State :=
  let en := RGT_CTL.EN.ofWord v
  let s := s.put RGT_CTL.EN 0 was
  showFollow (if en = was then s else if en = 1 then rgtJoin s else rgtLeave s)

/-- A write to TB_CTL (R381, R385, R396). -/
def tbCtlWrite (v : Nat) (s : State) : State :=
  let s := tbWrite (TB_CTL.PERIOD.ofWord v) (TB_CTL.SYNC.ofWord v) s
  if TB_CTL.HIST_CLR.ofWord v = 1 then forAll allCrews histClear s else s

/-- A write to CAP_MON_SCTL (R398, R400): while a stream runs, only ARM = 0 acts, and a refused ARM
leaves it IDLE. DESIGN CHOICE: assumption log 14. -/
def sctlWrite (st v : Nat) (s : State) : State :=
  if s.streaming st then
    if CAP_MON_SCTL.ARM.ofWord v = 0 then stopStream st s else s.setOver CAP_MON_SSTAT.CFG_ERR st
  else if CAP_MON_SCTL.ARM.ofWord v = 0 then storeFields .CAP_MON_SCTL st v s
  else
    let s' := storeFields .CAP_MON_SCTL st v s
    if s'.armRefused st then (s.setOver CAP_MON_SSTAT.CFG_ERR st).put CAP_MON_SSTAT.STATE st 0 else armStream st s'

/-- A write to CAP_MON_SBUF or CAP_MON_STRIG (R398, R401): refused while the stream runs, but for FIRE. -/
def sbufWrite (st v : Nat) (s : State) : State :=
  if s.streaming st then s.setOver CAP_MON_SSTAT.CFG_ERR st else storeFields .CAP_MON_SBUF st v s
def strigWrite (st v : Nat) (s : State) : State :=
  if s.streaming st = false then storeFields .CAP_MON_STRIG st v s
  else if CAP_MON_STRIG.FIRE.ofWord v = 1 then fireStream st s else s.setOver CAP_MON_SSTAT.CFG_ERR st

/-- A write of SET_LOCK (R495): the lock governs the cycles that follow. -/
def setLockWrite (v : Nat) (s : State) : State :=
  if v % 2 = 1 ∧ s.flag ID_LOCK.LOCK 0 = false then { s.put ID_LOCK.LOCK 0 1 with lockAt := s.now } else s

/-- What a stored write does beside storing: v is the word, `old` the state before it. -/
def afterWrite (host : Bool) (r : Reg) (i v : Nat) (old s : State) : State :=
  match r with
  | .CREW_MOD_CTL => if CREW_MOD_CTL.BAL_EN.ofWord v = 0 then zeroTrims i s else s
  | .CREW_FSC_CTL => fscWrite i v s
  | .CREW_PH_RESTORE => restore i (v % 256) s
  | .CREW_DITHER_SEED => loadSeed i s
  | .CREW_AB_CTL => abCtlWrite i v s
  | .CREW_AB_TRIG => abTrigWrite i v s
  | .CREW_H_CTL => hCtlWrite i v (old.flag CREW_H_CTL.MODE i) s
  | .CREW_H_REF => refSel i (v % 4) (s.put CREW_H_REF.REF_SEL i (old.get CREW_H_REF.REF_SEL i))
  | .CREW_OW_CTL => owCtlWrite i v s
  | .CREW_DP_CTL => if v % 2 = 1 then resumeWrite i s else s
  | .CREW_DP_COMMIT => commitWrite i (v % 65536) s
  | .CREW_PWR_CTL => crewPwrWrite i v s
  | .CREW_VMIN => if CREW_VMIN.REARM.ofWord v = 1 then vminRearm i s else s
  | .CREW_VMAX => if CREW_VMAX.REARM.ofWord v = 1 then s.put CREW_VMAX.VMAX i 0 else s
  | .CREW_HIST_CTL => if CREW_HIST_CTL.CLEAR.ofWord v = 1 then histClear s i else s
  | .CAP_MON_AGE_CTL => if CAP_MON_AGE_CTL.DIE_REARM.ofWord v = 1 then s.put CAP_MON_DIE_VMIN.VMIN 0 65535 else s
  | .CAP_RATE_REG => sendRate s i
  | .THM_CTL => regionChecks s
  | .THM_THRESH0 => regionChecks s
  | .THM_THRESH1 => regionChecks s
  | .THM_RISE => regionChecks s
  | .THM_SENS => if THM_SENS.RETEST.ofWord v = 1 then retestWrite i s else s
  | .RGT_CTL => rgtEnWrite v (old.get RGT_CTL.EN 0) s
  | .FLT_CLEAR => fltClear (FLT_CLEAR.ALL.ofWord v == 1) (FLT_CLEAR.INDEX.ofWord v) s
  | .FLT_INJECT1 => if v % 2 = 1 then inject s else s
  | .TB_SNAP_CTL => if TB_SNAP_CTL.REQ.ofWord v = 1 then snapReq s else s
  | .ID_MBX_CTL => mbxActions host i v s
  | .ID_LOCK => setLockWrite v s
  | _ => s

/-- The registers whose whole write is one operation, and all others: adjusted, refused or stored, then acting. `inp` is
what the silicon shows if the write requests a FULL reset. -/
def writeReg (inp : BootIn) (host : Bool) (r : Reg) (i v : Nat) (s : State) : State :=
  match r with
  | .DESC_W0 => descWrite i 0 v s
  | .DESC_W1 => descWrite i 1 v s
  | .DESC_W2 => descWrite i 2 v s
  | .DESC_W3 => descWrite i 3 v s
  | .DESC_W4 => descWrite i 4 v s
  | .DESC_W5 => descWrite i 5 v s
  | .DESC_W6 => descWrite i 6 v s
  | .DESC_W7 => descWrite i 7 v s
  | .SLOT_SHADOW => shadowWrite i v s
  | .FCW_CFG => fcwCfg i v s
  | .FCW_RING => fcwRing i (FCW_RING.BASE.ofWord v) s
  | .FCW_PTR => ringRelease i (FCW_PTR.RD.ofWord v) s
  | .LANE_CTL => laneCtl i v s
  | .EST_CTL => estCtlWrite v s
  | .THM_SUBST => substWrite i v s
  | .TB_CTL => tbCtlWrite v s
  | .TB_CAL_CTL => calRequest (TB_CAL_CTL.ALL.ofWord v == 1) (TB_CAL_CTL.ONE.ofWord v == 1) (TB_CAL_CTL.CREW.ofWord v) s
  | .CAP_MON_SCTL => sctlWrite i v s
  | .CAP_MON_SBUF => sbufWrite i v s
  | .CAP_MON_STRIG => strigWrite i v s
  | .ID_MARCH_CTL =>
    marchGo (ID_MARCH_CTL.GO.ofWord v == 1) (ID_MARCH_CTL.BANK.ofWord v) (ID_MARCH_CTL.PRESERVE.ofWord v == 1) s
  | .ID_RST_CTL => rstWrite (if host then 2 else 1) v inp s
  | .ID_PWR_CTL => pwrCtlWrite v s
  | .ID_FLASH_CTL => flashCtlWrite v s
  | .STG_CTL => stgCtlWrite v s
  | r =>
    let v := if s.locked then (s.lockWord r i v).1 else v
    let x := s.adjust r i v
    let x := if s.locked then (s.lockWord r i x).1 else x
    match s.refuses r i x with
    | some f => s.setOver f 0
    | none => afterWrite host r i v s (storeFields r i x s)

/-- A word written at a word address of the register map. -/
def writePlace (inp : BootIn) (host : Bool) (a v : Nat) (s : State) : State :=
  match placeAt a with
  | .reg r i => writeReg inp host r i v s
  | _ => s

/-- A lock violation by a master at address a (R497). -/
def lockViolation (m : Master) (a : Nat) (s : State) : State :=
  ((s.bump ID_LOCK_VIOL.COUNT 0).put ID_LOCK_VIOL.MASTER 0 (masterCode m)).put ID_LOCK_ADDR.ADDR 0 a

/-- The words of an access of n bytes of value v at a: a 64-bit access writes both in one cycle, and an action in the
low word finds the high word written. -/
def accessWords (a n v : Nat) : List (Nat × Nat) :=
  if n = 8 then [(a + 4, v / 2 ^ 32 % 2 ^ 32), (a, v % 2 ^ 32)] else [(a, v % 2 ^ 32)]

/-- The word written asks for a unit operation (R50). -/
def asksUop (ws : List (Nat × Nat)) : Bool := ws.any (fun e => e.1 == 0x10608 && e.2 % 2 == 1)

/-- A write of registers: 1 an unnamed address, 4 the block's own rule, 0 done. -/
def writeRegs (inp : BootIn) (m : Master) (a n v : Nat) (s : State) : State × Nat :=
  let ws := accessWords a n v
  if named a n = false then (s, 1)
  else if ws.any (fun e => s.bars (isHost m) e.1) then (s, 4)
  else
    let s := if ws.any (fun e => s.violates e.1 e.2) then lockViolation m a s else s
    let s := ws.foldl (fun s e => writePlace inp (isHost m) e.1 e.2 s) s
    if asksUop ws then let r := uopGo s; (r.1, if r.2 then 4 else 0) else (s, 0)

/-- A write of n bytes of v at a by a master: the state after, and the cause of the failure, 0 for none.
DESIGN CHOICE: assumption log 11. -/
def busWrite (inp : BootIn) (m : Master) (a n v ecc : Nat) (s : State) : State × Nat :=
  if s.accessBar m a n false true ≠ 0 then (s, s.accessBar m a n false true)
  else if inCM a then writeCM a n ecc v s
  else if inPS a || inFM a then (s, 4)
  else writeRegs inp m a n v s

/-! ## Answers -/

/-- A failed access (R19, R276, R498): an error response with data 0, counted for the management port; a processor
access raises "supervisor access fault". -/
def failAccess (m : Master) (a cause : Nat) (s : State) : State :=
  let s := { s with resp := ⟨true, 0⟩ }
  match m with
  | .sup k => s.raise 0x0705 4 (8 + k) (s.pc (8 + k)) a
  | _ => ((s.bump ID_ERR_CNT.COUNT 0).put ID_ERR_CNT.CAUSE 0 cause).put ID_ERR_ADDR.ADDR 0 a

/-- A read by a master. -/
def portRead (m : Master) (a n ecc : Nat) (s : State) : State :=
  if s.closed m then { s with resp := ⟨true, 0⟩ }
  else match busRead m a n ecc s with
    | (s, .ok d) => { s with resp := ⟨false, d⟩ }
    | (s, .error c) => failAccess m a c s

/-- A write by a master; before release the port answers with an error, and a write of ID_RST_CTL is a refused reset
request as well (R450). -/
def portWrite (inp : BootIn) (m : Master) (a n v ecc : Nat) (s : State) : State :=
  if s.closed m then
    { (if a ≤ Reg.ID_RST_CTL.addr 0 ∧ Reg.ID_RST_CTL.addr 0 < a + n then s.setOver ID_RST_STAT.REFUSED 0 else s) with resp := ⟨true, 0⟩ }
  else
    let r := busWrite inp m a n v ecc s
    if r.2 = 0 then { r.1 with resp := ⟨false, 0⟩ } else failAccess m a r.2 r.1

/-- A 32-bit write of instance i of register r by a master. DESIGN CHOICE: assumption log 9. -/
def regWrite (m : Master) (r : Reg) (i v : Nat) (s : State) : State := portWrite s.openBoot m (r.addr i) 4 v 0 s

end Sys2Proof.Machine
end

