-- ==== Sys2Proof/Machine/Dma.lean ====
section
/-! DEFINITION. What the block moves by itself, or on behalf of a context: supervisor accesses as they complete, snapshot
copies, capture pages, the begin of a mark, and power operations as they are delivered. -/

namespace Sys2Proof.Machine

open Sys2Proof

/-! ## Supervisor accesses (R276, R277) -/

/-- The register of an access, or its pair, receives d. DESIGN CHOICE: assumption log 18. -/
def setData (n rd : Nat) (wide : Bool) (d : Nat) (s : State) : State :=
  let s := s.setV n rd d
  if wide then s.setV n (rd + 1) (d / 2 ^ 32) else s

/-- "Supervisor access fault" of context n at address a (R276). DESIGN CHOICE: assumption log 18. -/
def accessFault (n a : Nat) (s : State) : State := s.raise 0x0705 4 n (s.pc n) a

/-- The access of a context is made: the state after, with its register written; a failure writes 0 to it, but for a
store. -/
def doAccess (n kind a : Nat) (wide : Bool) (data rd ecc : Nat) (s : State) : State :=
  let nb := if wide then 8 else 4
  match kind with
  | 0 => match busRead (.sup (n - 8)) a nb ecc s with
    | (s, .ok d) => setData n rd wide d s
    | (s, .error _) => setData n rd wide 0 (accessFault n a s)
  | 1 => match busWrite s.openBoot (.sup (n - 8)) a nb data ecc s with
    | (s, 0) => s
    | (s, _) => accessFault n a s
  | k => match busAtomic (k == 3) a nb data ecc s with
    | (s, some d) => setData n rd wide d s
    | (s, none) => setData n rd wide 0 (accessFault n a s)

/-- ACCESS_COMPLETE (R276): the access that context n stalls for is made, and the context goes on; a store that resets
the context leaves it as the reset does. -/
def execAccessComplete (n ecc : Nat) (s : State) : Out :=
  match (s.ctx n).wait with
  | some ⟨.access kind a wide data, rd, _, _⟩ =>
    let s := doAccess n kind a wide data rd ecc s
    .next (if (s.ctx n).wait.isSome then fall n ((s.unstalled n).onCtx n (fun k => { k with wait := none })) else s)
  | _ => .next s

/-! ## Snapshot copies (R392) -/

/-- A 64-bit word of a DMA write: the state after, and whether the region registers have refused none so far. -/
def dmaWord (master : Nat) (e : State × Bool) (w : Nat × List Byte) : State × Bool :=
  if e.2 && inCM w.1 && e.1.permitted master w.1 8 false true then (e.1.wrBytes w.1 w.2, true) else (e.1, false)

/-- Bytes in groups of eight with their addresses, n of them from a on. -/
def dmaWords (a n : Nat) (l : List Byte) : List (Nat × List Byte) :=
  (List.range n).map (fun k => (a + 8 * k, (l.drop (8 * k)).take 8))

/-- The bytes of a copy: the header, then the records in crew order. -/
def snapBytes (m len : Nat) (recs : List Snap) : List Byte :=
  leBytes 4 m ++ leBytes 4 (192 * 2 ^ 16 + len % 256) ++ leBytes 8 0 ++
    recs.flatMap (fun r => r.words.flatMap (leBytes 4))

/-- SNAPSHOT_COPY (R392, R426): the pending copy of a complete snapshot is written, unless a bank that it needs is
offline; a refused word ends it with ERR. DESIGN CHOICE: assumption log 19. -/
def execSnapshotCopy (s : State) : Out :=
  match s.snapData with
  | none => .next s
  | some (m, len, recs) =>
    let a := 0x400000 + 8 * s.get TB_SNAP_CTL.PTR 0
    if s.offline a ∨ s.offline (a + 3087) then .next s
    else
      let r := (dmaWords a 386 (snapBytes m len recs)).foldl (dmaWord 3) ({ s with snapData := none }, true)
      let s := r.1.put TB_SNAP_CTL.BUSY 0 0
      .next (if r.2 then s else s.setOver TB_SNAP_CTL.ERR 0)

/-! ## Capture pages (R399, R400, R405) -/

/-- A byte of bits, bit 0 first. -/
def byteOf (l : List Bool) : Byte := BitVec.ofNat 8 (maskOf ((List.range 8).filter (fun k => l.getD k false)))

/-- The payload of a page. -/
def payload (bits : List Bool) : List Byte := (List.range 1008).map (fun k => byteOf ((bits.drop (8 * k)).take 8))

/-- The header of page `seq` of stream st. DESIGN CHOICE: assumption log 50. -/
def pageHeader (s : State) (st seq : Nat) (k : Stream) : List Byte :=
  let g (f : Fld) := s.get f st
  let (first, mark, tick) := match k.starts.find? (fun x => decide (x.1 < k.paged + 8064)) with
    | some (o, some (m, h)) => (o - k.paged, m.mark, m.tick % 256 * 2 + h.toNat)
    | some (o, none) => (o - k.paged, Config.pageMark st seq % 2 ^ 32, Config.pageTick st seq % 512)
    | none => (0xFFFF, Config.pageMark st seq % 2 ^ 32, Config.pageTick st seq % 512)
  leBytes 4 seq ++ leBytes 4 (first * 2 ^ 16 + g CAP_MON_SCTL.SRC * 2 ^ 8 + g CAP_MON_SCTL.CREW) ++ leBytes 4 mark ++
    leBytes 4 (tick * 2 ^ 23 + (k.trigSeq == some seq).toNat * 2 ^ 22 + g CAP_MON_SCTL.CODING * 2 ^ 21 + g CAP_MON_SCTL.K * 2 ^ 19)

/-- A page has been written: the stream's counts go on, and it is DONE where its mode or its end says so. -/
def pageDone (st seq : Nat) (k : Stream) (s : State) : State :=
  let pages := s.get CAP_MON_SBUF.PAGES st + 1
  let idx := s.get CAP_MON_SSTAT.NEXT st
  let rest := k.bits.drop 8064
  let s := s.setStream st { k with
    bits := rest, paged := k.paged + 8064, starts := k.starts.filter (fun x => decide (k.paged + 8064 ≤ x.1)) }
  let s := (s.put CAP_MON_SSEQ.PAGE_SEQ st (seq + 1)).put CAP_MON_SSTAT.NEXT st ((idx + 1) % pages)
  let full : Bool := match k.trigSeq with
    | some t => s.get CAP_MON_SSTAT.STATE st == 2 && decide (t + s.get CAP_MON_STRIG.POST st ≤ seq)
    | none => false
  if (s.get CAP_MON_SCTL.MODE st = 0 ∧ idx + 1 = pages) ∨ full = true ∨ (k.ended = true ∧ rest = []) then
    s.put CAP_MON_SSTAT.STATE st 3
  else s

/-- A refused page puts the stream in ERROR, with "capture stopped". DESIGN CHOICE: assumption log 19. -/
def pageRefused (st a : Nat) (s : State) : State := (s.put CAP_MON_SSTAT.STATE st 4).raise 0x0B04 0 0 st a

/-- CAPTURE_PAGE (R399, R405): a full page, or the last one of a closed bitstream, is written, payload before header. -/
def execCapturePage (st : Nat) (s : State) : Out :=
  let k := s.stream st
  let seq := k.paged / 8064
  let a := 0x400000 + 1024 * (s.get CAP_MON_SBUF.BASE st + s.get CAP_MON_SSTAT.NEXT st)
  if ¬ s.streaming st ∨ (k.bits.length < 8064 ∧ ¬ (k.ended ∧ k.bits ≠ [])) ∨ s.offline a then .next s
  else if s.permitted 3 (a + 16) 8 false true then
    .next (pageDone st seq k ((s.wrBytes (a + 16) (payload k.bits)).wrBytes a (pageHeader s st seq k)))
  else .next (pageRefused st (a + 16) s)

/-! ## Marks (R382) -/

/-- MARK_BEGIN (R382): the mark whose strobe was issued begins. `slips` pairs crews whose own count has strayed with that
count (R383). -/
def execMarkBegin (slips : List (Nat × Nat)) (s : State) : Out :=
  match s.strobe with
  | none => .next s
  | some (m, len, numbered) => .next (beginMark m len numbered slips (evtMark (fcMark s)))

/-! ## Power operations (R170, R261, R368, R444) -/

/-- A domain before that of plane p in its field is neither ON nor held off (R444). -/
def State.outOfOrder (s : State) (p : Nat) : Bool :=
  (List.range (p % 4)).any (fun d => !(s.planeOn (p / 4 * 4 + d) || (s.plane (p / 4 * 4 + d)).heldOff))

/-- A delivered PWRON of plane p is judged: the refusals that are recorded come first, whatever the plane's state, and it
acts only on a plane every crew of which is OFF. DESIGN CHOICE: assumption log 83. -/
def powerOn (op : Op) (p : Nat) (s : State) : State :=
  if s.opsStopped = true ∨ s.get ID_FW_STAT.MODE 0 = 2 then s
  else if s.fc2.any (fun e => (scopeOf e.2.ev).contains p) then
    s.raise 0x050C 1 (planeUnit p) op.issuer (if op.issuer < 12 then op.pc else 0)
  else if (planeCrews p).any (fun c => s.cst c == 9) then s
  else if s.outOfOrder p then s.raisePlane 0x0D02 p
  else if (s.plane p).heldOff ∨ s.planeOff p = false ∨ ¬ (planeCrews p).any (fun c => (s.crew c).calRun || s.hearsPower c) then s
  else
    let s := forAll (planeCrews p) (fun s c => (s.put CREW_PWR_STAT.ADMIT_ROUNDS c 0).put CREW_PWR_STAT.TRIES c 0) s
    tryAdmit p (s.onPlane p (fun q => { q with tries := 0 }))

/-- PWRON_DELIVERY (R170, R261): a crew in its delivery calibration holds it (R388). -/
def execPwronDelivery (s : State) : Out :=
  match s.flight with
  | op :: rest =>
    let p := op.unit - 0x6C0
    .next (if op.kind = .pwron then powerOn op p (forAll (planeCrews p) (holdOp op) { s with flight := rest }) else s)
  | [] => .next s

/-- PWROFF_DELIVERY (R261). -/
def execPwroffDelivery (s : State) : Out :=
  match s.flight with
  | op :: rest =>
    let p := op.unit - 0x6C0
    .next (if op.kind = .pwroff then
        startHeldAll (powerOff p (forAll (planeCrews p) (holdOp op) { s with flight := rest }))
      else s)
  | [] => .next s

end Sys2Proof.Machine
end

