-- ==== Sys2Proof/Machine/Actions.lean ====
section
/-! DEFINITION. The commands that are accesses of the management map: reads and writes at an address, and the writes and
reads that have rows of their own. The data operand of such a write is the whole 32-bit word that the master writes to
the row's register, so a row acts as its data asks (assumption log 9). -/

namespace Sys2Proof.Machine

open Sys2Proof

/-! ## Accesses at an address -/

/-- REGISTER_WRITE (R19 to R23, R497, R498): a master writes size bytes of data at an address. -/
def execRegisterWrite (m : Master) (addr size data ecc : Nat) (s : State) : Out :=
  .next (portWrite s.openBoot m addr size data ecc s)

/-- REGISTER_READ (R19 to R21): a master reads size bytes at an address. -/
def execRegisterRead (m : Master) (addr size ecc : Nat) (s : State) : Out := .next (portRead m addr size ecc s)

/-- AB_READ (R95): a master reads CREW_AB_A or CREW_AB_B of crew c; 8 bytes from CREW_AB_A on read both. Without a
master it is the crew sequencer that reads, which takes samples in the same way and answers no port.
DESIGN CHOICE: assumption log 121. -/
def execAbRead (m : Option Master) (c : Nat) (isB : Bool) (size : Nat) (s : State) : Out :=
  .next (match m with
    | some m => portRead m (Reg.CREW_AB.addr (abI c isB)) size 0 s
    | none => if size = 8 ∧ ¬ isB then takeOnRead c true (takeOnRead c false s) else takeOnRead c isB s)

/-- REC_WIN7_READ (R408): a master reads REC_WIN7, or REC_WIN6 and REC_WIN7 with 8 bytes. -/
def execRecWin7Read (m : Master) (size : Nat) (s : State) : Out :=
  .next (portRead m (Reg.REC_WIN.addr (if size = 8 then 6 else 7)) size 0 s)

/-- DBG (R473): a management-port access of the test access port, or BYPASS. DESIGN CHOICE: assumption log 112. -/
def execDbg (wr : Bool) (addr data ecc : Nat) (s : State) : Out :=
  if s.locked ∨ s.flag ID_FUSE.JTAG_DBG 0 = false then .next (tap 0x40 (fun s => s) s)
  else .next (tap 0x40 (fun s =>
    let s := if wr then portWrite s.openBoot .jtag addr 4 data ecc s else portRead .jtag addr 4 ecc s
    { s with tapOut := s.resp.data }) s)

/-! ## Writes with rows of their own -/

/-- DESCRIPTOR_WRITE (R38): a write of word w of the descriptor entry of unit u. -/
def execDescriptorWrite (m : Master) (u w data : Nat) (s : State) : Out :=
  .next (portWrite s.openBoot m (Reg.DESC_W0.addr u + 4 * w) 4 data 0 s)

/-- RESTORE (R83): a write of CREW_PH_RESTORE of crew c. -/
def execRestore (m : Master) (c data : Nat) (s : State) : Out := .next (regWrite m .CREW_PH_RESTORE c data s)

/-- FULL (R450, R452): a write of ID_RST_CTL; `boot` is what the silicon shows as the block starts again. -/
def execFull (m : Master) (data : Nat) (boot : BootIn) (s : State) : Out :=
  .next (portWrite boot m (Reg.ID_RST_CTL.addr 0) 4 data 0 s)

/-- SET_LOCK (R495): a write of ID_LOCK. -/
def execSetLock (m : Master) (data : Nat) (s : State) : Out := .next (regWrite m .ID_LOCK 0 data s)

/-- DITHER_SEED (R60): a write of CREW_DITHER_SEED of crew c. -/
def execDitherSeed (m : Master) (c : Nat) (data : Nat) (s : State) : Out := .next (regWrite m .CREW_DITHER_SEED c data s)

/-- AB_FIRE (R91): a write of CREW_AB_TRIG of crew c. Without a master it is the crew sequencer's trigger, which acts
where SRC is SEQUENCER. DESIGN CHOICE: assumption logs 9 and 121. -/
def execAbFire (m : Option Master) (c : Nat) (data : Nat) (s : State) : Out :=
  .next (match m with
    | some m => regWrite m .CREW_AB_TRIG c data s
    | none => if s.get CREW_AB_TRIG.SRC c = 3 then trigger c (2000 * s.now) s else s)

/-- AB_MODE (R92): a write of CREW_AB_CTL of crew c. -/
def execAbMode (m : Master) (c : Nat) (data : Nat) (s : State) : Out := .next (regWrite m .CREW_AB_CTL c data s)

/-- H_MODE (R103): a write of CREW_H_CTL of crew c. -/
def execHMode (m : Master) (c : Nat) (data : Nat) (s : State) : Out := .next (regWrite m .CREW_H_CTL c data s)

/-- REF_SEL (R107): a write of CREW_H_REF of crew c. -/
def execRefSel (m : Master) (c : Nat) (data : Nat) (s : State) : Out := .next (regWrite m .CREW_H_REF c data s)

/-- CONFIRM (R114): a write of CREW_OW_CTL of crew c. Without a master it is the crew sequencer that runs the test of its
calibration (R165). DESIGN CHOICE: assumption log 121. -/
def execConfirm (m : Option Master) (c : Nat) (data : Nat) (s : State) : Out :=
  .next (match m with
    | some m => regWrite m .CREW_OW_CTL c data s
    | none => sequencerTest c s)

/-- RETRY (R116): a write of CREW_OW_CTL of crew c. -/
def execRetry (m : Master) (c : Nat) (data : Nat) (s : State) : Out := .next (regWrite m .CREW_OW_CTL c data s)

/-- RESUME (R141): a write of CREW_DP_CTL of crew c. -/
def execResume (m : Master) (c : Nat) (data : Nat) (s : State) : Out := .next (regWrite m .CREW_DP_CTL c data s)

/-- COMMIT (R128): a write of CREW_DP_COMMIT of crew c. -/
def execCommit (m : Master) (c : Nat) (data : Nat) (s : State) : Out := .next (regWrite m .CREW_DP_COMMIT c data s)

/-- STAND_WRITE (R163): a write of CREW_PWR_CTL of crew c. -/
def execStandWrite (m : Master) (c : Nat) (data : Nat) (s : State) : Out := .next (regWrite m .CREW_PWR_CTL c data s)

/-- REJOIN (R260): a write of CREW_PWR_CTL of crew c. -/
def execRejoin (m : Master) (c : Nat) (data : Nat) (s : State) : Out := .next (regWrite m .CREW_PWR_CTL c data s)

/-- UNLOCK (R173): a write of CREW_PWR_CTL of crew c. -/
def execUnlock (m : Master) (c : Nat) (data : Nat) (s : State) : Out := .next (regWrite m .CREW_PWR_CTL c data s)

/-- VMIN_REARM (R174): a write of CREW_VMIN of crew c. -/
def execVminRearm (m : Master) (c : Nat) (data : Nat) (s : State) : Out := .next (regWrite m .CREW_VMIN c data s)

/-- DIE_REARM (R174): a write of CAP_MON_AGE_CTL. -/
def execDieRearm (m : Master) (data : Nat) (s : State) : Out := .next (regWrite m .CAP_MON_AGE_CTL 0 data s)

/-- FCW_CFG_WRITE (R185): a write of FCW_CFG of window w. -/
def execFcwCfgWrite (m : Master) (w : Nat) (data : Nat) (s : State) : Out := .next (regWrite m .FCW_CFG w data s)

/-- RING_RELEASE (R192): a write of FCW_PTR of window w. -/
def execRingRelease (m : Master) (w : Nat) (data : Nat) (s : State) : Out := .next (regWrite m .FCW_PTR w data s)

/-- START (R213): a write of LANE_CTL of lane n. -/
def execStart (m : Master) (n : Nat) (data : Nat) (s : State) : Out := .next (regWrite m .LANE_CTL n data s)

/-- STOP (R213): a write of LANE_CTL of lane n. -/
def execStop (m : Master) (n : Nat) (data : Nat) (s : State) : Out := .next (regWrite m .LANE_CTL n data s)

/-- UNLOAD (R213): a write of LANE_CTL of lane n. -/
def execUnload (m : Master) (n : Nat) (data : Nat) (s : State) : Out := .next (regWrite m .LANE_CTL n data s)

/-- FW_LOAD (R304): a write of EST_CTL. -/
def execFwLoad (m : Master) (data : Nat) (s : State) : Out := .next (regWrite m .EST_CTL 0 data s)

/-- EST_SRC (R304): a write of EST_CTL. -/
def execEstSrc (m : Master) (data : Nat) (s : State) : Out := .next (regWrite m .EST_CTL 0 data s)

/-- SUBSTITUTION (R321): a write of THM_SUBST of sensor k. -/
def execSubstitution (m : Master) (k : Nat) (data : Nat) (s : State) : Out := .next (regWrite m .THM_SUBST k data s)

/-- RETEST (R322): a write of THM_SENS of sensor k. -/
def execRetest (m : Master) (k : Nat) (data : Nat) (s : State) : Out := .next (regWrite m .THM_SENS k data s)

/-- FC2_CLEAR (R367): a write of FLT_CLEAR. -/
def execFc2Clear (m : Master) (data : Nat) (s : State) : Out := .next (regWrite m .FLT_CLEAR 0 data s)

/-- FC2_CLEAR_ALL (R367): a write of FLT_CLEAR. -/
def execFc2ClearAll (m : Master) (data : Nat) (s : State) : Out := .next (regWrite m .FLT_CLEAR 0 data s)

/-- ALERT_CLEAR (R362): a write of FLT_STAT. -/
def execAlertClear (m : Master) (data : Nat) (s : State) : Out := .next (regWrite m .FLT_STAT 0 data s)

/-- INJECTION (R379): a write of FLT_INJECT1. -/
def execInjection (m : Master) (data : Nat) (s : State) : Out := .next (regWrite m .FLT_INJECT1 0 data s)

/-- SNAPSHOT_REQ (R392): a write of TB_SNAP_CTL. -/
def execSnapshotReq (m : Master) (data : Nat) (s : State) : Out := .next (regWrite m .TB_SNAP_CTL 0 data s)

/-- HIST_CLR (R396): a write of TB_CTL. -/
def execHistClr (m : Master) (data : Nat) (s : State) : Out := .next (regWrite m .TB_CTL 0 data s)

/-- HIST_CLEAR (R396): a write of CREW_HIST_CTL of crew c. -/
def execHistClear (m : Master) (c : Nat) (data : Nat) (s : State) : Out := .next (regWrite m .CREW_HIST_CTL c data s)

/-- CAL_ALL (R388): a write of TB_CAL_CTL. -/
def execCalAll (m : Master) (data : Nat) (s : State) : Out := .next (regWrite m .TB_CAL_CTL 0 data s)

/-- CAL_ONE (R388): a write of TB_CAL_CTL. -/
def execCalOne (m : Master) (data : Nat) (s : State) : Out := .next (regWrite m .TB_CAL_CTL 0 data s)

/-- VMAX_REARM (R393): a write of CREW_VMAX of crew c. -/
def execVmaxRearm (m : Master) (c : Nat) (data : Nat) (s : State) : Out := .next (regWrite m .CREW_VMAX c data s)

/-- CAPTURE_ARM (R398): a write of CAP_MON_SCTL of stream st. -/
def execCaptureArm (m : Master) (st : Nat) (data : Nat) (s : State) : Out := .next (regWrite m .CAP_MON_SCTL st data s)

/-- CAPTURE_STOP (R400): a write of CAP_MON_SCTL of stream st. -/
def execCaptureStop (m : Master) (st : Nat) (data : Nat) (s : State) : Out := .next (regWrite m .CAP_MON_SCTL st data s)

/-- CAPTURE_FIRE (R401): a write of CAP_MON_STRIG of stream st. -/
def execCaptureFire (m : Master) (st : Nat) (data : Nat) (s : State) : Out := .next (regWrite m .CAP_MON_STRIG st data s)

/-- MARCH_GO (R425): a write of ID_MARCH_CTL. -/
def execMarchGo (m : Master) (data : Nat) (s : State) : Out := .next (regWrite m .ID_MARCH_CTL 0 data s)

/-- POST (R434): a write of ID_MBX_CTL of slot slot. -/
def execPost (m : Master) (slot : Nat) (data : Nat) (s : State) : Out := .next (regWrite m .ID_MBX_CTL slot data s)

/-- TAKE (R434): a write of ID_MBX_CTL of slot slot. -/
def execTake (m : Master) (slot : Nat) (data : Nat) (s : State) : Out := .next (regWrite m .ID_MBX_CTL slot data s)

/-- MAILBOX_DONE (R434): a write of ID_MBX_CTL of slot slot. -/
def execMailboxDone (m : Master) (slot : Nat) (data : Nat) (s : State) : Out := .next (regWrite m .ID_MBX_CTL slot data s)

/-- RELEASE (R434): a write of ID_MBX_CTL of slot slot. -/
def execRelease (m : Master) (slot : Nat) (data : Nat) (s : State) : Out := .next (regWrite m .ID_MBX_CTL slot data s)

/-- FS_EN (R442): a write of ID_PWR_CTL. -/
def execFsEn (m : Master) (data : Nat) (s : State) : Out := .next (regWrite m .ID_PWR_CTL 0 data s)

/-- HOST_RUN (R446): a write of ID_PWR_CTL. -/
def execHostRun (m : Master) (data : Nat) (s : State) : Out := .next (regWrite m .ID_PWR_CTL 0 data s)

/-- SHUTDOWN (R454): a write of ID_PWR_CTL. -/
def execShutdown (m : Master) (data : Nat) (s : State) : Out := .next (regWrite m .ID_PWR_CTL 0 data s)

/-- ENGINE (R450): a write of ID_RST_CTL. -/
def execEngine (m : Master) (data : Nat) (s : State) : Out := .next (regWrite m .ID_RST_CTL 0 data s)

/-- READ (R472): a write of ID_FLASH_CTL. -/
def execRead (m : Master) (data : Nat) (s : State) : Out := .next (regWrite m .ID_FLASH_CTL 0 data s)

/-- PROGRAM (R472): a write of ID_FLASH_CTL. -/
def execProgram (m : Master) (data : Nat) (s : State) : Out := .next (regWrite m .ID_FLASH_CTL 0 data s)

/-- ERASE_4_KIB (R472): a write of ID_FLASH_CTL. -/
def execErase4Kib (m : Master) (data : Nat) (s : State) : Out := .next (regWrite m .ID_FLASH_CTL 0 data s)

/-- ERASE_64_KIB (R472): a write of ID_FLASH_CTL. -/
def execErase64Kib (m : Master) (data : Nat) (s : State) : Out := .next (regWrite m .ID_FLASH_CTL 0 data s)

/-- VIB_SET (R476): a write of STG_CTL. -/
def execVibSet (m : Master) (data : Nat) (s : State) : Out := .next (regWrite m .STG_CTL 0 data s)

/-- VALIDATION (R41): a write of word 0 of the descriptor entry of unit u. -/
def execValidation (m : Master) (u : Nat) (data : Nat) (s : State) : Out := .next (regWrite m .DESC_W0 u data s)

/-- REMOVAL (R43): a write of word 0 of the descriptor entry of unit u. -/
def execRemoval (m : Master) (u : Nat) (data : Nat) (s : State) : Out := .next (regWrite m .DESC_W0 u data s)

/-- UOP_GO (R50): a write of ID_UOP_CTL. -/
def execUopGo (m : Master) (data : Nat) (s : State) : Out := .next (regWrite m .ID_UOP_CTL 0 data s)

end Sys2Proof.Machine
end

