-- ==== Sys2Proof/Machine/Dispatch.lean ====
section
/-! DEFINITION. The dispatch of a command to its meaning: one arm per constructor. -/

namespace Sys2Proof.Machine

open Sys2Proof

/-- The effect of one command on everything but the queue (R1). -/
def exec (i : Instr) (s : State) : Host.Outcome State Fault Refusal :=
  match i with
  | .registerWrite m addr size data ecc => Sys2Proof.Machine.execRegisterWrite m addr size data ecc s
  | .setLock m data => Sys2Proof.Machine.execSetLock m data s
  | .descriptorWrite m u w data => Sys2Proof.Machine.execDescriptorWrite m u w data s
  | .validation m u data => Sys2Proof.Machine.execValidation m u data s
  | .validationComplete u => Sys2Proof.Machine.execValidationComplete u s
  | .removal m u data => Sys2Proof.Machine.execRemoval m u data s
  | .removalComplete u => Sys2Proof.Machine.execRemovalComplete u s
  | .capabilityRecompute phase => Sys2Proof.Machine.execCapabilityRecompute phase s
  | .grantUpdate lane => Sys2Proof.Machine.execGrantUpdate lane s
  | .uopGo m data => Sys2Proof.Machine.execUopGo m data s
  | .uopIssue => Sys2Proof.Machine.execUopIssue s
  | .pulse c overdrive demandPs gapPs vib => Sys2Proof.Machine.execPulse c overdrive demandPs gapPs vib s
  | .endOfOnTime ph rise => Sys2Proof.Machine.execEndOfOnTime ph rise s
  | .minimumOffTimeEnd ph => Sys2Proof.Machine.execMinimumOffTimeEnd ph s
  | .fastLimitTrip ph => Sys2Proof.Machine.execFastLimitTrip ph s
  | .blankEnd ph => Sys2Proof.Machine.execBlankEnd ph s
  | .tripWindow c => Sys2Proof.Machine.execTripWindow c s
  | .overTemp ph live held => Sys2Proof.Machine.execOverTemp ph live held s
  | .restore m c data => Sys2Proof.Machine.execRestore m c data s
  | .balanceTrim c => Sys2Proof.Machine.execBalanceTrim c s
  | .crewOverload c => Sys2Proof.Machine.execCrewOverload c s
  | .foldOffset c => Sys2Proof.Machine.execFoldOffset c s
  | .overloadUnresolved c => Sys2Proof.Machine.execOverloadUnresolved c s
  | .testPulse ph vPlane vib => Sys2Proof.Machine.execTestPulse ph vPlane vib s
  | .ditherSeed m c data => Sys2Proof.Machine.execDitherSeed m c data s
  | .abSampleLand c isB raw back => Sys2Proof.Machine.execAbSampleLand c isB raw back s
  | .abRead m c isB size => Sys2Proof.Machine.execAbRead m c isB size s
  | .abFire m c data => Sys2Proof.Machine.execAbFire m c data s
  | .abMode m c data => Sys2Proof.Machine.execAbMode m c data s
  | .modeChange c => Sys2Proof.Machine.execModeChange c s
  | .hSlotEnd c => Sys2Proof.Machine.execHSlotEnd c s
  | .hResult c raw => Sys2Proof.Machine.execHResult c raw s
  | .urgentRequest c rdt sampling => Sys2Proof.Machine.execUrgentRequest c rdt sampling s
  | .hMode m c data => Sys2Proof.Machine.execHMode m c data s
  | .refSel m c data => Sys2Proof.Machine.execRefSel m c data s
  | .refSettled c => Sys2Proof.Machine.execRefSettled c s
  | .localOvervoltage c above => Sys2Proof.Machine.execLocalOvervoltage c above s
  | .confirm m c data => Sys2Proof.Machine.execConfirm m c data s
  | .retry m c data => Sys2Proof.Machine.execRetry m c data s
  | .pullEnd c => Sys2Proof.Machine.execPullEnd c s
  | .senseSwitch c => Sys2Proof.Machine.execSenseSwitch c s
  | .datapathUpdate c => Sys2Proof.Machine.execDatapathUpdate c s
  | .updateCompletion c t8 => Sys2Proof.Machine.execUpdateCompletion c t8 s
  | .missWindow c => Sys2Proof.Machine.execMissWindow c s
  | .resume m c data => Sys2Proof.Machine.execResume m c data s
  | .commit m c data => Sys2Proof.Machine.execCommit m c data s
  | .commitCopy c => Sys2Proof.Machine.execCommitCopy c s
  | .setpointCommand => Sys2Proof.Machine.execSetpointCommand s
  | .refStep c => Sys2Proof.Machine.execRefStep c s
  | .llsDelivery => Sys2Proof.Machine.execLlsDelivery s
  | .gselDelivery => Sys2Proof.Machine.execGselDelivery s
  | .sharingPass => Sys2Proof.Machine.execSharingPass s
  | .trimTake => Sys2Proof.Machine.execTrimTake s
  | .droop c remote loc => Sys2Proof.Machine.execDroop c remote loc s
  | .droopRearm c remote loc => Sys2Proof.Machine.execDroopRearm c remote loc s
  | .reservoirReady c => Sys2Proof.Machine.execReservoirReady c s
  | .armDelivery => Sys2Proof.Machine.execArmDelivery s
  | .armedFiring c => Sys2Proof.Machine.execArmedFiring c s
  | .overshootClamp c remote loc => Sys2Proof.Machine.execOvershootClamp c remote loc s
  | .clampOff c remote loc => Sys2Proof.Machine.execClampOff c remote loc s
  | .clampWindow c => Sys2Proof.Machine.execClampWindow c s
  | .planeFloor p => Sys2Proof.Machine.execPlaneFloor p s
  | .coverDelivery => Sys2Proof.Machine.execCoverDelivery s
  | .coverExpiry c => Sys2Proof.Machine.execCoverExpiry c s
  | .ageSlack mon slack => Sys2Proof.Machine.execAgeSlack mon slack s
  | .standWrite m c data => Sys2Proof.Machine.execStandWrite m c data s
  | .standDelivery => Sys2Proof.Machine.execStandDelivery s
  | .sheddingEnd c => Sys2Proof.Machine.execSheddingEnd c s
  | .crewCalibrationEnd c aOfs bOfs ind => Sys2Proof.Machine.execCrewCalibrationEnd c aOfs bOfs ind s
  | .rejoin m c data => Sys2Proof.Machine.execRejoin m c data s
  | .derate p => Sys2Proof.Machine.execDerate p s
  | .pwronDelivery => Sys2Proof.Machine.execPwronDelivery s
  | .queueReevaluation => Sys2Proof.Machine.execQueueReevaluation s
  | .softStartAbort c remote loc => Sys2Proof.Machine.execSoftStartAbort c remote loc s
  | .powerOnRetry p => Sys2Proof.Machine.execPowerOnRetry p s
  | .unlock m c data => Sys2Proof.Machine.execUnlock m c data s
  | .pwroffDelivery => Sys2Proof.Machine.execPwroffDelivery s
  | .vminRearm m c data => Sys2Proof.Machine.execVminRearm m c data s
  | .dieRearm m data => Sys2Proof.Machine.execDieRearm m data s
  | .forecastWrite tile w words width => Sys2Proof.Machine.execForecastWrite tile w words width s
  | .intake f => Sys2Proof.Machine.execIntake f s
  | .arrival => Sys2Proof.Machine.execArrival s
  | .creditReturn => Sys2Proof.Machine.execCreditReturn s
  | .fcwCfgWrite m w data => Sys2Proof.Machine.execFcwCfgWrite m w data s
  | .ringRelease m w data => Sys2Proof.Machine.execRingRelease m w data s
  | .startRequest tile cls => Sys2Proof.Machine.execStartRequest tile cls s
  | .heatOpen f => Sys2Proof.Machine.execHeatOpen f s
  | .heatGrant f => Sys2Proof.Machine.execHeatGrant f s
  | .startStalled f => Sys2Proof.Machine.execStartStalled f s
  | .stretch r => Sys2Proof.Machine.execStretch r s
  | .realignment r => Sys2Proof.Machine.execRealignment r s
  | .start m n data => Sys2Proof.Machine.execStart m n data s
  | .stop m n data => Sys2Proof.Machine.execStop m n data s
  | .unload m n data => Sys2Proof.Machine.execUnload m n data s
  | .watchdog n => Sys2Proof.Machine.execWatchdog n s
  | .waitEnd n => Sys2Proof.Machine.execWaitEnd n s
  | .loadComplete => Sys2Proof.Machine.execLoadComplete s
  | .nop n => Sys2Proof.Machine.execNop n s
  | .halt n => Sys2Proof.Machine.execHalt n s
  | .yield n => Sys2Proof.Machine.execYield n s
  | .br n => Sys2Proof.Machine.execBr n s
  | .brc n => Sys2Proof.Machine.execBrc n s
  | .call n => Sys2Proof.Machine.execCall n s
  | .ret n => Sys2Proof.Machine.execRet n s
  | .loop n => Sys2Proof.Machine.execLoop n s
  | .movi n => Sys2Proof.Machine.execMovi n s
  | .mov n => Sys2Proof.Machine.execMov n s
  | .add n => Sys2Proof.Machine.execAdd n s
  | .sub n => Sys2Proof.Machine.execSub n s
  | .mulq n => Sys2Proof.Machine.execMulq n s
  | .shr n => Sys2Proof.Machine.execShr n s
  | .shl n => Sys2Proof.Machine.execShl n s
  | .and n => Sys2Proof.Machine.execAnd n s
  | .or n => Sys2Proof.Machine.execOr n s
  | .cmp n => Sys2Proof.Machine.execCmp n s
  | .min n => Sys2Proof.Machine.execMin n s
  | .max n => Sys2Proof.Machine.execMax n s
  | .clamp n => Sys2Proof.Machine.execClamp n s
  | .setv n => Sys2Proof.Machine.execSetv n s
  | .setvr n => Sys2Proof.Machine.execSetvr n s
  | .ramp n => Sys2Proof.Machine.execRamp n s
  | .lls n => Sys2Proof.Machine.execLls n s
  | .gsel n => Sys2Proof.Machine.execGsel n s
  | .arm n => Sys2Proof.Machine.execArm n s
  | .stand n => Sys2Proof.Machine.execStand n s
  | .pwron n => Sys2Proof.Machine.execPwron n s
  | .pwroff n => Sys2Proof.Machine.execPwroff n s
  | .rdt n => Sys2Proof.Machine.execRdt n s
  | .rdtResult => Sys2Proof.Machine.execRdtResult s
  | .waitt n => Sys2Proof.Machine.execWaitt n s
  | .waitm n => Sys2Proof.Machine.execWaitm n s
  | .waits n => Sys2Proof.Machine.execWaits n s
  | .waita n => Sys2Proof.Machine.execWaita n s
  | .barl n => Sys2Proof.Machine.execBarl n s
  | .barx n => Sys2Proof.Machine.execBarx n s
  | .markq n => Sys2Proof.Machine.execMarkq n s
  | .waite n => Sys2Proof.Machine.execWaite n s
  | .wopen n => Sys2Proof.Machine.execWopen n s
  | .wclose n => Sys2Proof.Machine.execWclose n s
  | .fcst n => Sys2Proof.Machine.execFcst n s
  | .heat n => Sys2Proof.Machine.execHeat n s
  | .capq n => Sys2Proof.Machine.execCapq n s
  | .slack n => Sys2Proof.Machine.execSlack n s
  | .evt n => Sys2Proof.Machine.execEvt n s
  | .ld n => Sys2Proof.Machine.execLd n s
  | .st n => Sys2Proof.Machine.execSt n s
  | .aadd n => Sys2Proof.Machine.execAadd n s
  | .swap n => Sys2Proof.Machine.execSwap n s
  | .accessComplete n ecc => Sys2Proof.Machine.execAccessComplete n ecc s
  | .grant n => Sys2Proof.Machine.execGrant n s
  | .loadp n => Sys2Proof.Machine.execLoadp n s
  | .signal n => Sys2Proof.Machine.execSignal n s
  | .estimatorUpdate counts => Sys2Proof.Machine.execEstimatorUpdate counts s
  | .fwLoad m data => Sys2Proof.Machine.execFwLoad m data s
  | .modelCheckComplete => Sys2Proof.Machine.execModelCheckComplete s
  | .estSrc m data => Sys2Proof.Machine.execEstSrc m data s
  | .sensorSample k reading => Sys2Proof.Machine.execSensorSample k reading s
  | .biasCheck k dv => Sys2Proof.Machine.execBiasCheck k dv s
  | .stale k => Sys2Proof.Machine.execStale k s
  | .graceEnd r => Sys2Proof.Machine.execGraceEnd r s
  | .enforcementStep r => Sys2Proof.Machine.execEnforcementStep r s
  | .thermalCeilingStep p => Sys2Proof.Machine.execThermalCeilingStep p s
  | .throttleEnd r => Sys2Proof.Machine.execThrottleEnd r s
  | .substitution m k data => Sys2Proof.Machine.execSubstitution m k data s
  | .retest m k data => Sys2Proof.Machine.execRetest m k data s
  | .coolantDebounce => Sys2Proof.Machine.execCoolantDebounce s
  | .domainShutdown => Sys2Proof.Machine.execDomainShutdown s
  | .stopAtCrews => Sys2Proof.Machine.execStopAtCrews s
  | .planeDischarged p => Sys2Proof.Machine.execPlaneDischarged p s
  | .logRecord ok => Sys2Proof.Machine.execLogRecord ok s
  | .reportPeriod => Sys2Proof.Machine.execReportPeriod s
  | .report msg => Sys2Proof.Machine.execReport msg s
  | .regattaGrant msg => Sys2Proof.Machine.execRegattaGrant msg s
  | .join msg => Sys2Proof.Machine.execJoin msg s
  | .done msg => Sys2Proof.Machine.execDone msg s
  | .notice msg => Sys2Proof.Machine.execNotice msg s
  | .noticeAll msg => Sys2Proof.Machine.execNoticeAll msg s
  | .classification => Sys2Proof.Machine.execClassification s
  | .faultShutdown p => Sys2Proof.Machine.execFaultShutdown p s
  | .fc2Clear m data => Sys2Proof.Machine.execFc2Clear m data s
  | .fc2ClearAll m data => Sys2Proof.Machine.execFc2ClearAll m data s
  | .alertClear m data => Sys2Proof.Machine.execAlertClear m data s
  | .selfFault parity => Sys2Proof.Machine.execSelfFault parity s
  | .injection m data => Sys2Proof.Machine.execInjection m data s
  | .markStrobe => Sys2Proof.Machine.execMarkStrobe s
  | .markBegin slips => Sys2Proof.Machine.execMarkBegin slips s
  | .snapshotComplete missing => Sys2Proof.Machine.execSnapshotComplete missing s
  | .snapshotReq m data => Sys2Proof.Machine.execSnapshotReq m data s
  | .snapshotCopy => Sys2Proof.Machine.execSnapshotCopy s
  | .histClr m data => Sys2Proof.Machine.execHistClr m data s
  | .histClear m c data => Sys2Proof.Machine.execHistClear m c data s
  | .calAll m data => Sys2Proof.Machine.execCalAll m data s
  | .calOne m data => Sys2Proof.Machine.execCalOne m data s
  | .deliveryCalibrationEnd c rtts phase => Sys2Proof.Machine.execDeliveryCalibrationEnd c rtts phase s
  | .vmaxRearm m c data => Sys2Proof.Machine.execVmaxRearm m c data s
  | .captureArm m st data => Sys2Proof.Machine.execCaptureArm m st data s
  | .captureStop m st data => Sys2Proof.Machine.execCaptureStop m st data s
  | .captureFire m st data => Sys2Proof.Machine.execCaptureFire m st data s
  | .captureTrigger st => Sys2Proof.Machine.execCaptureTrigger st s
  | .captureBlock st => Sys2Proof.Machine.execCaptureBlock st s
  | .capturePage st => Sys2Proof.Machine.execCapturePage st s
  | .recWin7Read m size => Sys2Proof.Machine.execRecWin7Read m size s
  | .scrub bank ecc => Sys2Proof.Machine.execScrub bank ecc s
  | .marchGo m data => Sys2Proof.Machine.execMarchGo m data s
  | .marchComplete fail us => Sys2Proof.Machine.execMarchComplete fail us s
  | .safetyCrcCheck => Sys2Proof.Machine.execSafetyCrcCheck s
  | .post m slot data => Sys2Proof.Machine.execPost m slot data s
  | .take m slot data => Sys2Proof.Machine.execTake m slot data s
  | .mailboxDone m slot data => Sys2Proof.Machine.execMailboxDone m slot data s
  | .release m slot data => Sys2Proof.Machine.execRelease m slot data s
  | .recoverBoot => Sys2Proof.Machine.execRecoverBoot s
  | .recoveryReport => Sys2Proof.Machine.execRecoveryReport s
  | .powerOn fuses keyHash boot => Sys2Proof.Machine.execPowerOn fuses keyHash boot s
  | .pwrEnDebounce => Sys2Proof.Machine.execPwrEnDebounce s
  | .fsEn m data => Sys2Proof.Machine.execFsEn m data s
  | .vibGood => Sys2Proof.Machine.execVibGood s
  | .vibStartFailed => Sys2Proof.Machine.execVibStartFailed s
  | .hostRun m data => Sys2Proof.Machine.execHostRun m data s
  | .xcalReq => Sys2Proof.Machine.execXcalReq s
  | .xcalDone => Sys2Proof.Machine.execXcalDone s
  | .xcalFail => Sys2Proof.Machine.execXcalFail s
  | .xcalTimeout => Sys2Proof.Machine.execXcalTimeout s
  | .full m data boot => Sys2Proof.Machine.execFull m data boot s
  | .engine m data => Sys2Proof.Machine.execEngine m data s
  | .shutdown m data => Sys2Proof.Machine.execShutdown m data s
  | .sdWait => Sys2Proof.Machine.execSdWait s
  | .standbySupplyLost => Sys2Proof.Machine.execStandbySupplyLost s
  | .vaonLoss => Sys2Proof.Machine.execVaonLoss s
  | .page rd v pec => Sys2Proof.Machine.execPage rd v pec s
  | .clearFaults pec => Sys2Proof.Machine.execClearFaults pec s
  | .writeProtect rd pec => Sys2Proof.Machine.execWriteProtect rd pec s
  | .capability rd pec => Sys2Proof.Machine.execCapability rd pec s
  | .voutMode rd pec => Sys2Proof.Machine.execVoutMode rd pec s
  | .voutCommand rd v pec => Sys2Proof.Machine.execVoutCommand rd v pec s
  | .statusByte rd pec => Sys2Proof.Machine.execStatusByte rd pec s
  | .statusWord rd pec => Sys2Proof.Machine.execStatusWord rd pec s
  | .statusVout rd pec => Sys2Proof.Machine.execStatusVout rd pec s
  | .statusIout rd pec => Sys2Proof.Machine.execStatusIout rd pec s
  | .statusTemperature rd pec => Sys2Proof.Machine.execStatusTemperature rd pec s
  | .statusCml rd pec => Sys2Proof.Machine.execStatusCml rd pec s
  | .readVin rd pec => Sys2Proof.Machine.execReadVin rd pec s
  | .readVout rd pec => Sys2Proof.Machine.execReadVout rd pec s
  | .readIout rd pec => Sys2Proof.Machine.execReadIout rd pec s
  | .readTemperature1 rd pec => Sys2Proof.Machine.execReadTemperature1 rd pec s
  | .readPout rd pec => Sys2Proof.Machine.execReadPout rd pec s
  | .pmbusRevision rd pec => Sys2Proof.Machine.execPmbusRevision rd pec s
  | .mfrId rd pec => Sys2Proof.Machine.execMfrId rd pec s
  | .mfrModel rd pec => Sys2Proof.Machine.execMfrModel rd pec s
  | .unsupportedCommand code rd len pec => Sys2Proof.Machine.execUnsupportedCommand code rd len pec s
  | .alertResponse => Sys2Proof.Machine.execAlertResponse s
  | .read m data => Sys2Proof.Machine.execRead m data s
  | .program m data => Sys2Proof.Machine.execProgram m data s
  | .erase4Kib m data => Sys2Proof.Machine.execErase4Kib m data s
  | .erase64Kib m data => Sys2Proof.Machine.execErase64Kib m data s
  | .flashOperationEnd err => Sys2Proof.Machine.execFlashOperationEnd err s
  | .extest scan => Sys2Proof.Machine.execExtest scan s
  | .samplePreload pins scan => Sys2Proof.Machine.execSamplePreload pins scan s
  | .jtagClamp => Sys2Proof.Machine.execJtagClamp s
  | .highz => Sys2Proof.Machine.execHighz s
  | .dbg wr addr data ecc => Sys2Proof.Machine.execDbg wr addr data ecc s
  | .idcode => Sys2Proof.Machine.execIdcode s
  | .bypass => Sys2Proof.Machine.execBypass s
  | .trst high => Sys2Proof.Machine.execTrst high s
  | .poll => Sys2Proof.Machine.execPoll s
  | .fsAnswer d crcOk ready fault fcode vin iout temp => Sys2Proof.Machine.execFsAnswer d crcOk ready fault fcode vin iout temp s
  | .frameTimeout d => Sys2Proof.Machine.execFrameTimeout d s
  | .vibSet m data => Sys2Proof.Machine.execVibSet m data s
  | .vibLost => Sys2Proof.Machine.execVibLost s
  | .noticeSend => Sys2Proof.Machine.execNoticeSend s
  | .registerRead m addr size ecc => Sys2Proof.Machine.execRegisterRead m addr size ecc s
  | .phaseCurrentReachesZero ph => Sys2Proof.Machine.execPhaseCurrentReachesZero ph s
  | .pwrEnPinChange high => Sys2Proof.Machine.execPwrEnPinChange high s
  | .coolantOkPinChange high => Sys2Proof.Machine.execCoolantOkPinChange high s
  | .fc3LatchClear => Sys2Proof.Machine.execFc3LatchClear s
  | .ringSectorErase => Sys2Proof.Machine.execRingSectorErase s

end Sys2Proof.Machine
end

