-- ==== Sys2Proof/Machine/Step.lean ====
section
/-! DEFINITION. One step of the block: the command at the front of the queue acts; with none waiting, one coordinator
cycle passes (assumption log 1). -/

namespace Sys2Proof.Machine

open Sys2Proof

/-- One step (R9, R24): the front command acts on the state without it; an empty queue lets one coordinator cycle of
2 ns go by, with what a cycle and the end of a tick bring (R91, R397, R447). Commands of one cycle act one after another.
DESIGN CHOICE: assumption log 1. DESIGN CHOICE: assumption log 6. DESIGN CHOICE: assumption log 127. -/
def step (s : State) : Host.Outcome State Fault Refusal :=
  match s.pending with
  | c :: rest => exec c { s with pending := rest }
  | [] => .next (idleCycle s)

/-- The state with the command that a table word spells at the front of its queue.
DESIGN CHOICE: assumption log 5. -/
def State.withFetchWord (s : State) (nbits w : Nat) : State :=
  match decodeTableWord nbits w with
  | some c => { s with pending := c :: s.pending }
  | none => s

end Sys2Proof.Machine
end

