-- ==== Sys2Proof/Safety.lean ====
section
/-! DEFINITION. What claims about runs are stated in: the invariants of the state, the relation that every command
keeps, and what a statement says stays as it was. -/

namespace Sys2Proof.Machine

open Sys2Proof

/-- A field of the register map: its register's table has a row of its bits. -/
abbrev Fld.mapped (f : Fld) : Prop := (f.reg.fields.any fun g => g.lo == f.lo && g.hi == f.hi) = true

/-- Every listed value belongs to a field of the map and fits its width. -/
def fitList (l : List (FKey × Nat)) : Prop :=
  ∀ e ∈ l, ∃ f ∈ e.1.reg.fields, f.lo = e.1.lo ∧ e.2 < 2 ^ f.width

/-- The invariant of the state: memories and flash in canonical form (R412, R469), every stored register value, and
every value that the fuses load, inside its field (R18, R23). -/
structure State.Inv (s : State) : Prop where
  mem : Memory.wf 0 s.mem
  flash : Memory.wf 0xFF#8 s.flash
  fld : fitList s.fld
  fuse : fitList s.fuse

/-- What every command keeps: the queue that it found, and the invariant. -/
structure Kept (s t : State) : Prop where
  pending : t.pending = s.pending
  inv : s.Inv → t.Inv

/-! ## What statements say of an outcome -/

/-- The command completes, and its next state is as P says. -/
def Does (o : Out) (P : State → Prop) : Prop := ∃ t, o = .next t ∧ P t

/-- Every register field but those of the list reads as before. -/
def SameRegs (l : List FKey) (s t : State) : Prop := ∀ f i, f.key i ∉ l → t.get f i = s.get f i

/-- Every byte of the map's memories and of the flash reads as before. -/
def SameMem (s t : State) : Prop :=
  ∀ a, mget 0 t.mem a = mget 0 s.mem a ∧ mget 0xFF#8 t.flash a = mget 0xFF#8 s.flash a

/-- Every phase outside the list is as before. -/
def SamePhases (l : List Nat) (s t : State) : Prop := ∀ q, q ∉ l → t.phase q = s.phase q

/-- Every crew outside the list holds what it held. -/
def SameCrews (l : List Nat) (s t : State) : Prop := ∀ c, c ∉ l → t.crew c = s.crew c

/-- The map names instance i of register r at the register's address (R491). -/
def Reg.placed (r : Reg) (i : Nat) : Prop := placeAt (r.addr i) = .reg r i

/-- A 32-bit write of v to instance i of register r by a master is taken (R19, R22, R416, R480, R491): the map has the
instance, the master may use the bus, a region register permits it, the register's block does not bar it, and it breaks
no lock. -/
structure State.Takes (s : State) (m : Master) (r : Reg) (i v : Nat) : Prop where
  placed : r.placed i
  open_ : s.closed m = false
  region : s.permitted (masterCode m) (r.addr i) 4 false true = true
  block : s.bars (isHost m) (r.addr i) = false
  lock : s.violates (r.addr i) (v % 2 ^ 32) = false

/-- The state with a completed access's answer: no error, data d (R19). -/
def State.answered (s : State) (d : Nat) : State := { s with resp := ⟨false, d⟩ }

/-- A 32-bit read of instance i of register r by a master is taken and returns the register's own word (R19, R20, R416,
R480): the master may use the bus, a region register permits it, no high word waits at the address, and it is not the low
word of a 64-bit pair. -/
structure State.Reads (s : State) (m : Master) (r : Reg) (i : Nat) : Prop where
  placed : r.placed i
  open_ : s.closed m = false
  region : s.permitted (masterCode m) (r.addr i) 4 true false = true
  fresh : thas s.hiLatch (r.addr i) = false
  single : pairLows.contains (r.addr i) = false

/-- An access of n bytes at a by a master, once the bus is open to it, fails with a cause (R19, R416, R426, R492, R493,
R498): 2 its form, 3 the region registers, 1 an unnamed address, 4 a write that only hardware makes, 5 an offline bank. -/
def State.TurnsAway (s : State) (m : Master) (a n : Nat) (wr : Bool) (cause : Nat) : Prop :=
  if formOk a n = false then cause = 2
  else if s.permitted (masterCode m) a n (!wr) wr = false then cause = 3
  else if inMem a = false then cause = 1 ∧ ∃ k, k < n / 4 ∧ placeAt (a + 4 * k) = .unnamed
  else if wr = true ∧ inCM a = false then cause = 4
  else cause = 5 ∧ s.offline a = true

/-- The collector has room for an event of any class (R360). -/
def State.room (s : State) : Prop := (s.intake.filter (fun x => classNo x.code ≤ 1)).length < 64

/-- No word of the checked memories holds an error (R418). -/
def State.clean (s : State) : Prop := s.eccBad = [] ∧ s.flips = []

/-- The word at address a holds no error (R418). -/
def State.goodAt (s : State) (a : Nat) : Prop := a / 8 * 8 ∉ s.eccBad ∧ tget 0 s.flips (a / 8 * 8) = 0

/-- An event of the present instant (R356). -/
def State.eventOf (s : State) (code kind src : Nat) (d0 : Nat := 0) (d1 : Nat := 0) : Event :=
  ⟨code, kind, src, s.stampOf code kind src, d0, d1, 0, false⟩

/-- The counters of events that found no room (R360): what raising an event may change among the registers. -/
def dropKeys : List FKey := [FLT_DROP.FC0.key 0, FLT_DROP.FC1.key 0]

/-- What the notice of an own slowdown may change among the registers, at a root that takes it at once (R350, R351). -/
def slowKeys : List FKey :=
  [RGT_SLOW.S_OWN.key 0, RGT_SLOW.S_MAX.key 0, RGT_SLOW.S_IDX.key 0, RGT_STAT.FOLLOWING.key 0] ++ (List.range 12).map LANE_SIG.SIG.key

/-- Every register field but those of the list reads as before, and the own slowdown is brought up (R350): it shows what
the state now gives, and its notice changes what a NOTICE_ALL may change; without EN nothing is sent. -/
def SlowRegs (l : List FKey) (s t : State) : Prop :=
  t.get RGT_SLOW.S_OWN 0 = t.slowOwn ∧ SameRegs (l ++ slowKeys) s t ∧
  (s.flag RGT_CTL.EN 0 = false → SameRegs (RGT_SLOW.S_OWN.key 0 :: l) s t)

/-- An action of ID_MBX_CTL moves slot k to a state and does nothing else (R434). -/
def MbxMoves (k st : Nat) (s t : State) : Prop :=
  t.get ID_MBX_CTL.STATE k = st ∧ SameRegs [ID_MBX_CTL.STATE.key k, ID_MBX_CTL.REFUSED.key k] s t ∧ SamePhases [] s t ∧
  SameCrews [] s t ∧ SameMem s t

/-- A crossing calibration that ran has failed (R448): host reset is asserted and the event raised. -/
def XcalFails (s t : State) : Prop :=
  t.get ID_PWR_STAT.XCAL 0 = 3 ∧ t.hostReset = true ∧ t.get ID_PWR_STAT.HOST_RESET 0 = 1 ∧ t.get ID_PWR_CTL.HOST_RUN 0 = 0 ∧
  t.xcalHold = false ∧ t.intake = s.intake ++ [s.eventOf 0x0D05 0 0] ∧
  SameRegs ([ID_PWR_STAT.XCAL.key 0, ID_PWR_STAT.HOST_RESET.key 0, ID_PWR_CTL.HOST_RUN.key 0] ++
    (List.range 24).map MSH_REG_CFG.RATE.key) s t ∧ SamePhases [] s t ∧ SameCrews [] s t ∧ SameMem s t

/-- A PMBus read of a command code answers val and a PEC, or while PAGE is 0xFF as many bytes of ones (R464, R465). -/
def PmbAnswers (code : Nat) (val : List Nat) (s t : State) : Prop :=
  (∃ d, t.smbOut = d ++ [crc8 ([2 * s.get ID_PMB_CFG.ADDR 0, code, 2 * s.get ID_PMB_CFG.ADDR 0 + 1] ++ d)] ∧ d.length = val.length ∧
    (s.page ≠ 0xFF → d = val ∧ t.pmbCml = s.pmbCml) ∧
    (s.page = 0xFF → (∀ b ∈ d, b = 0xFF) ∧ t.pmbCml = Nat.lor s.pmbCml 0x40)) ∧
  t.pmbLatch = s.pmbLatch ∧ SameRegs [] s t ∧ SamePhases [] s t ∧ SameCrews [] s t ∧ SameMem s t

/-- A write of GO for operation op with no operation running (R472): it ends at once with ERR 8 where it is misaligned or its
length is none, 5 where it would change the shutdown log, 6 where the flash DMA may not move its data, and else runs. -/
def FlashGoes (op : Nat) (s t : State) : Prop :=
  (if (op ≤ 1 ∧ (s.get ID_FLASH_MEM.MEM 0 % 8 ≠ 0 ∨ s.get ID_FLASH_MEM.MEM 0 < 0x400000 ∨
        0x800000 < s.get ID_FLASH_MEM.MEM 0 + s.get ID_FLASH_LEN.LEN 0 ∨ s.get ID_FLASH_LEN.LEN 0 % 8 ≠ 0 ∨
        s.get ID_FLASH_LEN.LEN 0 < 8 ∨ 1048576 < s.get ID_FLASH_LEN.LEN 0)) ∨
      (op = 2 ∧ s.get ID_FLASH_ADDR.ADDR 0 % 4096 ≠ 0) ∨ (op = 3 ∧ s.get ID_FLASH_ADDR.ADDR 0 % 65536 ≠ 0) then
    t.get ID_FLASH_STAT.ERR 0 = 8 ∧ t.flashOp = none ∧ t.get ID_FLASH_STAT.BUSY 0 = s.get ID_FLASH_STAT.BUSY 0
  else if 1 ≤ op ∧ s.get ID_FLASH_ADDR.ADDR 0 < 0x1F09000 ∧
      0x1F00000 < s.get ID_FLASH_ADDR.ADDR 0 + (if op = 1 then s.get ID_FLASH_LEN.LEN 0 else if op = 2 then 4096 else 65536) then
    t.get ID_FLASH_STAT.ERR 0 = 5 ∧ t.flashOp = none ∧ t.get ID_FLASH_STAT.BUSY 0 = s.get ID_FLASH_STAT.BUSY 0
  else if op ≤ 1 ∧ s.permits 4 (s.get ID_FLASH_MEM.MEM 0) (s.get ID_FLASH_LEN.LEN 0) (op == 1) (op == 0) = false then
    t.get ID_FLASH_STAT.ERR 0 = 6 ∧ t.flashOp = none ∧ t.get ID_FLASH_STAT.BUSY 0 = s.get ID_FLASH_STAT.BUSY 0
  else t.get ID_FLASH_STAT.BUSY 0 = 1 ∧ t.get ID_FLASH_STAT.ERR 0 = s.get ID_FLASH_STAT.ERR 0 ∧
    t.flashOp = some (op, s.get ID_FLASH_ADDR.ADDR 0, s.get ID_FLASH_MEM.MEM 0, s.get ID_FLASH_LEN.LEN 0)) ∧
  t.get ID_FLASH_CTL.OP 0 = op ∧ t.intake = s.intake ∧
  SameRegs [ID_FLASH_CTL.OP.key 0, ID_FLASH_STAT.BUSY.key 0, ID_FLASH_STAT.ERR.key 0] s t ∧ SamePhases [] s t ∧
  SameCrews [] s t ∧ SameMem s t

/-- The test port takes an instruction, which acts as BYPASS where it may not act (R473), and nothing else changes. -/
def TapTakes (code : Nat) (s t : State) : Prop :=
  t.tapInstr = code ∧ t.tapActs = (if code ≤ 3 ∧ code ≠ 1 ∧ s.anyPlaneUp then 0xFF else code) ∧ t.faultPins = s.faultPins ∧
  t.pwrEnPin = s.pwrEnPin ∧ t.resp = s.resp ∧ SameRegs [] s t ∧ SamePhases [] s t ∧ SameCrews [] s t ∧ SameMem s t

/-- The commands that wait for die d, in the order in which they leave: STOP, ENABLE, TRIM (R474). -/
def State.dieFrames (s : State) (d : Nat) : List Nat :=
  (if 0 ∈ tget [] s.stgCmd d then [0] else []) ++ (if 1 ∈ tget [] s.stgCmd d then [1] else []) ++
    (if 2 ∈ tget [] s.stgCmd d then [2] else [])

/-- The oldest frame that waited for an answer of die d went without a valid one (R474, R477): it is counted by one of the
two counters, and the third in a row makes the die lost, with its event. -/
def DieMisses (counts other : Fld) (d : Nat) (s t : State) : Prop :=
  t.get counts 0 = min (s.get counts 0 + 1) (2 ^ counts.width - 1) ∧ t.get other 0 = s.get other 0 ∧
  tget [] t.stgWait d = (tget [] s.stgWait d).tail ∧
  t.get STG_DIE_STAT.READY d = s.get STG_DIE_STAT.READY d ∧
  (if 2 ≤ tget 0 s.stgMiss d then
    t.get STG_DIE_STAT.LOST d = 1 ∧
    t.intake = s.intake ++ (if s.flag STG_DIE_STAT.LOST d = true then [] else [s.eventOf 0x0E03 0 0 d])
  else tget 0 t.stgMiss d = tget 0 s.stgMiss d + 1 ∧ t.get STG_DIE_STAT.LOST d = s.get STG_DIE_STAT.LOST d ∧ t.intake = s.intake) ∧
  SameRegs [counts.key 0, STG_DIE_STAT.LOST.key d, STG_STAT.READY.key 0, STG_STAT.UNAVAIL.key 0, STG_SUM.CAP_A.key 0,
    STG_SUM.DRAW_A.key 0] s t ∧ SamePhases [] s t ∧ SameCrews [] s t ∧ SameMem s t

/-- A counter after one more count: it stays at its field's largest value (R21). -/
def Fld.count (f : Fld) (n : Nat) : Nat := min (n + 1) (2 ^ f.width - 1)

/-! ## Instructions -/

/-- Every context outside the list holds what it held. -/
def SameCtxs (l : List Nat) (s t : State) : Prop := ∀ k, k ∉ l → t.ctx k = s.ctx k

/-- Context n issues the instruction at its program counter, which has opcode op and acts (R209 to R211, R237): the
context runs, neither waiting nor stalled; the fetch is good; PRED is no reserved value and holds. -/
structure State.Issues (s : State) (n op : Nat) : Prop where
  can : s.canIssue n = true
  fetch : s.fetch n = (s, true)
  word : (s.word n).op = op
  pred : (s.word n).predBad = false
  acts : (s.word n).acts (s.ctx n).preds = true

/-- What an instruction of context n leaves as it was, but for the register fields of the list: other contexts, crews,
phases and memory; a lane counts the issue (R235). -/
def IssueFrame (n : Nat) (l : List FKey) (s t : State) : Prop :=
  SameRegs ([LANE_STAT.PC.key n, LANE_ISSUE_CNT.ISSUED.key n] ++ l) s t ∧
  t.get LANE_ISSUE_CNT.ISSUED n =
    (if n < 8 then LANE_ISSUE_CNT.ISSUED.count (s.get LANE_ISSUE_CNT.ISSUED n) else s.get LANE_ISSUE_CNT.ISSUED n) ∧
  SameCtxs [n] s t ∧ SamePhases [] s t ∧ SameCrews [] s t ∧ SameMem s t

/-- Context n goes on after its instruction (R250): at the next index, or where a loop that ends there continues. -/
def GoesOn (n : Nat) (s t : State) : Prop :=
  t.pc n = (fallLoops (s.pc n) (s.ctx n).loops).1 % 2 ^ 15 ∧ (t.ctx n).loops = (fallLoops (s.pc n) (s.ctx n).loops).2 ∧
  (t.ctx n).ret = (s.ctx n).ret ∧ (t.ctx n).wait = none

/-- Context n goes on with no register and no predicate changed. -/
def WritesNone (n : Nat) (s t : State) : Prop :=
  GoesOn n s t ∧ (∀ k, k < 16 → t.vreg n k = s.vreg n k) ∧ (t.ctx n).preds = (s.ctx n).preds ∧ IssueFrame n [] s t

/-- Context n goes on with v in its register r, cut to 32 bits, and no other register and no predicate changed. -/
def WritesReg (n r v : Nat) (s t : State) : Prop :=
  GoesOn n s t ∧ t.vreg n r = v % 2 ^ 32 ∧ (∀ k, k < 16 → k ≠ r → t.vreg n k = s.vreg n k) ∧
  (t.ctx n).preds = (s.ctx n).preds ∧ IssueFrame n [] s t

/-- Context n waits at its instruction for a condition, with the register of its outcome and a timeout in ticks from the
present cycle (R223). -/
def WaitsFor (n : Nat) (c : Cond) (r timeout : Nat) (s t : State) : Prop :=
  (t.ctx n).wait = some ⟨c, r, s.now, timeout⟩ ∧ t.lst n = 4 ∧ t.pc n = s.pc n ∧ (t.ctx n).regs = (s.ctx n).regs ∧
  (t.ctx n).preds = (s.ctx n).preds ∧ (t.ctx n).loops = (s.ctx n).loops ∧ (t.ctx n).ret = (s.ctx n).ret ∧
  IssueFrame n [LANE_STAT.STATE.key n] s t

/-- Context n stalls for an access of a kind (0 LD, 1 ST, 2 AADD, 3 SWAP) at v(RS) + IMM32, of four bytes with RD or of eight
with the pair of RD, with the data that it holds there as it issues (R276). -/
def StallsForAccess (n kind : Nat) (s t : State) : Prop :=
  (t.ctx n).wait = some (if bitAt (s.word n).unit 0 then
      ⟨.access kind ((s.vreg n (s.word n).rs + (s.word n).imm) % 2 ^ 32) true
        (s.vreg n (pairOf (s.word n).rd) + 2 ^ 32 * s.vreg n (pairOf (s.word n).rd + 1)), pairOf (s.word n).rd, s.now, 0⟩
    else ⟨.access kind ((s.vreg n (s.word n).rs + (s.word n).imm) % 2 ^ 32) false (s.vreg n (s.word n).rd), (s.word n).rd,
      s.now, 0⟩) ∧
  t.pc n = s.pc n ∧ (t.ctx n).regs = (s.ctx n).regs ∧ SameRegs [] s t ∧ SameCtxs [n] s t ∧ SamePhases [] s t ∧
  SameCrews [] s t ∧ SameMem s t

/-- Context n issues an operation to the leaf crews of a unit, behind those already on their way (R47), and goes on. -/
def Delivers (n u : Nat) (kind : OpKind) (s t : State) : Prop :=
  t.flight = s.flight ++ [⟨s.opNext, kind, u, s.leafCrews u, n, s.pc n⟩] ∧ WritesNone n s t

/-- Context n may deliver an operation of opcode op to unit u (R50, R221, R254): nothing has stopped the delivery of
operations, and a supervisor context names a unit that accepts it; a lane's loader has checked it. -/
def State.mayDeliver (s : State) (n op u : Nat) : Prop := s.opsStopped = false ∧ (n < 8 ∨ s.unitOk op u = true)

/-- A supervisor context faults with a cause (R246): it waits without end at the instruction, and "supervisor fault" is
raised, an FC2 event that always finds room. -/
def SupFaults (n cause : Nat) (s t : State) : Prop :=
  (t.ctx n).wait = some ⟨.faulted, 0, s.now, 0⟩ ∧ t.lst n = 4 ∧ t.pc n = s.pc n ∧ (t.ctx n).regs = (s.ctx n).regs ∧
  t.intake = s.intake ++ [s.eventOf 0x0706 4 n ((cause + 2 ^ 16 * s.pc n) % 2 ^ 32)] ∧
  SameRegs [LANE_STAT.STATE.key n] s t ∧ SameCtxs [n] s t ∧ SamePhases [] s t ∧ SameCrews [] s t ∧ SameMem s t

/-- A lane faults with a cause (R216): it is FAULTED, its wait is over, every supervisor context is signalled, and "lane
fault" is raised where the collector has room. -/
def LaneFaults (n cause : Nat) (s t : State) : Prop :=
  t.lst n = 6 ∧ t.get LANE_STAT.FAULT n = cause ∧ t.pc n = s.pc n % 2 ^ 15 ∧ (t.ctx n).wait = none ∧
  (t.ctx n).regs = (s.ctx n).regs ∧
  (∀ k, 8 ≤ k → k < 12 → bitAt (t.get LANE_SIG.SIG k) 8 = true) ∧
  (s.room → t.intake = s.intake ++ [s.eventOf 0x0704 4 n ((cause + 2 ^ 16 * s.pc n) % 2 ^ 32)]) ∧
  SameCtxs [n] s t ∧ SamePhases [] s t ∧ SameCrews [] s t ∧ SameMem s t

/-- The context and the opcode of a command that issues an instruction (R243); none of the others. -/
def issueOf (i : Instr) : Option (Nat × Nat) :=
  match i with
  | .nop n => some (n, 0x00)
  | .halt n => some (n, 0x01)
  | .yield n => some (n, 0x02)
  | .br n => some (n, 0x03)
  | .brc n => some (n, 0x04)
  | .call n => some (n, 0x05)
  | .ret n => some (n, 0x06)
  | .loop n => some (n, 0x07)
  | .movi n => some (n, 0x10)
  | .mov n => some (n, 0x11)
  | .add n => some (n, 0x12)
  | .sub n => some (n, 0x13)
  | .mulq n => some (n, 0x14)
  | .shr n => some (n, 0x15)
  | .shl n => some (n, 0x16)
  | .and n => some (n, 0x17)
  | .or n => some (n, 0x18)
  | .cmp n => some (n, 0x19)
  | .min n => some (n, 0x1A)
  | .max n => some (n, 0x1B)
  | .clamp n => some (n, 0x1C)
  | .setv n => some (n, 0x20)
  | .setvr n => some (n, 0x21)
  | .ramp n => some (n, 0x22)
  | .lls n => some (n, 0x23)
  | .gsel n => some (n, 0x24)
  | .arm n => some (n, 0x25)
  | .stand n => some (n, 0x26)
  | .pwron n => some (n, 0x27)
  | .pwroff n => some (n, 0x28)
  | .rdt n => some (n, 0x29)
  | .waitt n => some (n, 0x30)
  | .waitm n => some (n, 0x31)
  | .waits n => some (n, 0x32)
  | .waita n => some (n, 0x33)
  | .barl n => some (n, 0x34)
  | .barx n => some (n, 0x35)
  | .markq n => some (n, 0x36)
  | .waite n => some (n, 0x37)
  | .wopen n => some (n, 0x40)
  | .wclose n => some (n, 0x41)
  | .fcst n => some (n, 0x42)
  | .heat n => some (n, 0x43)
  | .capq n => some (n, 0x44)
  | .slack n => some (n, 0x45)
  | .evt n => some (n, 0x50)
  | .ld n => some (n, 0x60)
  | .st n => some (n, 0x61)
  | .aadd n => some (n, 0x62)
  | .swap n => some (n, 0x63)
  | .grant n => some (n, 0x64)
  | .loadp n => some (n, 0x65)
  | .signal n => some (n, 0x66)
  | _ => none

end Sys2Proof.Machine
end

