-- ==== Sys2Proof/Certificates/Slice0/Obligations.lean ====
section
/-! DEFINITION. What this model's provers are asked to prove. -/

open Sys2Proof Sys2Proof.Machine

/-- PhaseTimersAndTrips. The minimum off-time ends in READY; a blank time ends in READY, for a phase under test too; a
test pulse ends in TEST, where the minimum off-time runs until its end lets the next one start; a 10 µs window of a
crew sets the trip counts of its eight phases to 0 and changes no state of theirs; at zero current a struck phase
turns its low side off and stays STRUCK, and a stopping phase goes IDLE. No other phase, no register, no crew and no
memory changes. A trip in ON turns the phase's high side off and its low side on, counts in FSC_TRIPS and in the
window, and below TRIP_MAX leaves the phase BLANKED with no other register, phase or crew changed; at TRIP_MAX the
phase is STRUCK. The end of an on-time whose current rise passes the conduction check ends the phase's run of poor
pulses and enters OFF_MIN, with nothing else changed. An over-temperature comparator that stays asserted shows in
OT_LIVE and strikes a phase of the ring with cause 3; one that is not asserted, or not yet for 1 µs, only shows its
level there. A strike changes no other phase where five usable phases stay, and forces the crew down where fewer stay;
a restore of the same tick does not take a phase struck in it. -/
def Obligations.PhaseTimersAndTrips : Prop :=
  (∀ ph s, (s.phase ph).st = .offMin → Does (exec (.minimumOffTimeEnd ph) s) fun t =>
    (t.phase ph).st = .ready ∧ SamePhases [ph] s t ∧ SameRegs [] s t ∧ SameCrews [] s t ∧ SameMem s t) ∧
  (∀ ph s, (s.phase ph).st = .blanked → Does (exec (.blankEnd ph) s) fun t =>
    (t.phase ph).st = .ready ∧ (t.phase ph).inTest = (s.phase ph).inTest ∧ SamePhases [ph] s t ∧ SameRegs [] s t ∧
    SameCrews [] s t ∧ SameMem s t) ∧
  (∀ ph s, (s.phase ph).st ≠ .offMin → (s.phase ph).testWait = true → Does (exec (.minimumOffTimeEnd ph) s) fun t =>
    t.phase ph = { s.phase ph with testWait := false } ∧ SamePhases [ph] s t ∧ SameRegs [] s t ∧ SameCrews [] s t ∧
    SameMem s t) ∧
  (∀ ph rise s, (s.phase ph).testOn = true → Does (exec (.endOfOnTime ph rise) s) fun t =>
    t.phase ph = { s.phase ph with testOn := false, lowSide := true, st := .test, testWait := true } ∧
    SamePhases [ph] s t ∧ SameRegs [] s t ∧ SameCrews [] s t ∧ SameMem s t) ∧
  (∀ c s, Does (exec (.tripWindow c) s) fun t =>
    (∀ k, k < 8 → t.phase (8 * c + k) = { s.phase (8 * c + k) with winTrips := 0 }) ∧
    SamePhases (crewPhases c) s t ∧ SameRegs [] s t ∧ SameCrews [] s t ∧ SameMem s t) ∧
  (∀ ph s, (s.phase ph).st = .struck → Does (exec (.phaseCurrentReachesZero ph) s) fun t =>
    t.phase ph = { s.phase ph with lowSide := false } ∧ SamePhases [ph] s t ∧ SameRegs [] s t ∧ SameCrews [] s t ∧
    SameMem s t) ∧
  (∀ ph s, (s.phase ph).st = .stopping → Does (exec (.phaseCurrentReachesZero ph) s) fun t =>
    t.phase ph = { s.phase ph with lowSide := false, st := .idle } ∧ SamePhases [ph] s t ∧ SameRegs [] s t ∧
    SameCrews [] s t ∧ SameMem s t) ∧
  (∀ ph s, (s.phase ph).st = .on → (s.phase ph).winTrips + 1 < s.get CREW_FSC_CTL.TRIP_MAX (ph / 8) →
    Does (exec (.fastLimitTrip ph) s) fun t =>
      t.get CREW_PH_CNT.FSC_TRIPS ph = min (s.get CREW_PH_CNT.FSC_TRIPS ph + 1) (2 ^ CREW_PH_CNT.FSC_TRIPS.width - 1) ∧
      (t.phase ph).st = .blanked ∧ (t.phase ph).lowSide = true ∧ (t.phase ph).winTrips = (s.phase ph).winTrips + 1 ∧
      SamePhases [ph] s t ∧ SameRegs [CREW_PH_CNT.FSC_TRIPS.key ph] s t ∧ SameCrews [] s t ∧ SameMem s t) ∧
  (∀ ph s, (s.phase ph).st = .on → s.get CREW_FSC_CTL.TRIP_MAX (ph / 8) ≤ (s.phase ph).winTrips + 1 →
    Does (exec (.fastLimitTrip ph) s) fun t =>
      t.get CREW_PH_CNT.FSC_TRIPS ph = min (s.get CREW_PH_CNT.FSC_TRIPS ph + 1) (2 ^ CREW_PH_CNT.FSC_TRIPS.width - 1) ∧
      (t.phase ph).st = .struck ∧ (t.phase ph).lowSide = true ∧ t.get CREW_PH_TRIM.TRIM (ph / 8) = 0 ∧ SameMem s t ∧
      (s.cyc.on = true → t.restorable (ph / 8) (ph % 8) = false) ∧
      (5 < s.usable (ph / 8) → SamePhases [ph] s t) ∧ (s.usable (ph / 8) ≤ 5 → t.flag CREW_PWR_STAT.FORCED (ph / 8) = true)) ∧
  (∀ ph rise s, (s.phase ph).st = .on → (s.phase ph).testOn = false → 1 ≤ s.get CREW_DEAD_CTL.NC_MAX (ph / 8) →
    ¬ ((rise * 88000 : Nat) : Rat) < ((s.phase ph).terms.vib - (s.phase ph).terms.vref : Rat) * (s.phase ph).terms.onTime →
    Does (exec (.endOfOnTime ph rise) s) fun t =>
      (t.phase ph).st = .offMin ∧ (t.phase ph).lowSide = true ∧ t.get CREW_PH_CNT.NC_RUN ph = 0 ∧
      SamePhases [ph] s t ∧ SameRegs [CREW_PH_CNT.NC_RUN.key ph] s t ∧ SameCrews [] s t ∧ SameMem s t) ∧
  (∀ ph live held s, (s.phase ph).st ≠ .fused → (live && held) = false → Does (exec (.overTemp ph live held) s) fun t =>
    bitAt (t.get CREW_PH_CAUSE.OT_LIVE (ph / 8)) (ph % 8) = live ∧ SameRegs [CREW_PH_CAUSE.OT_LIVE.key (ph / 8)] s t ∧
    SamePhases [] s t ∧ SameCrews [] s t ∧ SameMem s t) ∧
  (∀ ph s, inRing (s.phase ph) = true → Does (exec (.overTemp ph true true) s) fun t =>
    (t.phase ph).st = .struck ∧ (t.phase ph).lowSide = true ∧
    bitAt (t.get CREW_PH_CAUSE.OT_LIVE (ph / 8)) (ph % 8) = true ∧
    bits (t.get CREW_PH_CAUSE.CAUSE (ph / 8)) (2 * (ph % 8) + 1) (2 * (ph % 8)) = 3 ∧
    t.get CREW_PH_TRIM.TRIM (ph / 8) = 0 ∧ (s.cyc.on = true → t.restorable (ph / 8) (ph % 8) = false) ∧ SameMem s t ∧
    (5 < s.usable (ph / 8) → SamePhases [ph] s t) ∧ (s.usable (ph / 8) ≤ 5 → t.flag CREW_PWR_STAT.FORCED (ph / 8) = true))

/-- PulseIssue. With fewer than t_SP since the last pulse no pulse is issued and nothing changes; nor is one issued where
the demand has lapsed, which ends a hold uncounted, or before the demand's first-pulse delay is over. A demand that
then finds no phase of the ring READY begins a ring hold, counted once, and changes no other register and no phase.
Else the first READY phase in ring order, from the pointer or from the stroke phase, enters ON with its low side off
and the five terms of its on-time latched; the pointer names the ring's next phase; a hold ends, and a pulse that
comes later than it was due counts one that no command has begun; no other phase and no memory changes. The life of
HOLD, the operand that says when the demand arose, and the SPACING that bounds the gap are the model's choices
(assumption logs 51, 7 and 120). -/
def Obligations.PulseIssue : Prop :=
  (∀ c od dem gap vib s, gap < 125 * s.get CREW_RING_CTL.SPACING c → exec (.pulse c od dem gap vib) s = .next s) ∧
  (∀ c od dem gap vib s, (s.crew c).reg = true → (s.crew c).ovInhibit = false → s.tSp c ≤ gap → gap < dem →
    Does (exec (.pulse c od dem gap vib) s) fun t => t.flag CREW_RING_STAT.HOLD c = false ∧
      SameRegs [CREW_RING_STAT.HOLD.key c] s t ∧ SamePhases [] s t ∧ SameCrews [] s t ∧ SameMem s t) ∧
  (∀ c od dem gap vib s, dem ≤ gap → gap < dem + s.firstDelay c → exec (.pulse c od dem gap vib) s = .next s) ∧
  (∀ c od dem gap vib s, (s.crew c).reg = true → (s.crew c).ovInhibit = false → max (dem + s.firstDelay c) (s.tSp c) ≤ gap →
    (∀ k, k < 8 → (s.phase (8 * c + k)).st ≠ .ready) → Does (exec (.pulse c od dem gap vib) s) fun t =>
      t.flag CREW_RING_STAT.HOLD c = true ∧
      t.get CREW_HOLD_CNT.HOLDS c = (if s.flag CREW_RING_STAT.HOLD c then s.get CREW_HOLD_CNT.HOLDS c
        else CREW_HOLD_CNT.HOLDS.count (s.get CREW_HOLD_CNT.HOLDS c)) ∧
      SameRegs [CREW_RING_STAT.HOLD.key c, CREW_HOLD_CNT.HOLDS.key c] s t ∧ SamePhases [] s t ∧ SameCrews [] s t ∧
      SameMem s t) ∧
  (∀ c od dem gap vib k s, (s.crew c).reg = true → (s.crew c).ovInhibit = false →
    max (dem + s.firstDelay c) (s.tSp c) ≤ gap →
    (ringFrom (s.ringOf c) (if s.get CREW_RING_CTL.STROKE_OD c ≠ 0 ∧ (s.get CREW_RING_CTL.STROKE_OD c + 1) * 1000 < od ∧
        s.flag CREW_RING_STAT.STEP_EVENT c = false then s.get CREW_RING_STAT.STROKE c else s.get
          CREW_RING_STAT.POINTER c)).find?
      (fun j => (s.phase (8 * c + j)).st == .ready) = some k →
    Does (exec (.pulse c od dem gap vib) s) fun t =>
      (t.phase (8 * c + k)).st = .on ∧ (t.phase (8 * c + k)).lowSide = false ∧
      (t.phase (8 * c + k)).terms = ⟨s.get CREW_MOD_CTL.K_ON c, s.get CREW_SP_REF.REF c, vib, (dither c s).2, s.trimOf c k,
        s.gateWord c, rippleMv (s.get CREW_MOD_CTL.RIPPLE c)⟩ ∧
      t.get CREW_RING_STAT.POINTER c = nextIn (s.ringOf c) k % 8 ∧ t.flag CREW_RING_STAT.HOLD c = false ∧
      t.get CREW_HOLD_CNT.HOLDS c = (if s.flag CREW_RING_STAT.HOLD c = false ∧ max (dem + s.firstDelay c) (s.tSp c) < gap then
        CREW_HOLD_CNT.HOLDS.count (s.get CREW_HOLD_CNT.HOLDS c) else s.get CREW_HOLD_CNT.HOLDS c) ∧
      (t.crew c).firstPulse = false ∧
      SamePhases [8 * c + k] s t ∧ SameMem s t)

/-- RestoreOverloadAndTrims. A write to CREW_PH_RESTORE judges each requested phase on its state as the tick began; RESULT
shows the judgements; an accepted phase, still STRUCK and not by a strike of this tick, is IDLE in a crew that is powered off or stood down and READY otherwise, with its
trip count at 0, and a phase that is refused or not requested is as before. A write of SEED stores it and loads the
shift register with it, or with 1 for 0. Both answer without error. A regulating crew that is not folded and whose
filtered current is at or above 115 % of its rating enters the fold state and counts it; outside shedding the fold
offset grows by 16 µV a tick while a folded crew is above its fold level, and falls by 16 µV otherwise, never beyond
what the window leaves; an overload at the floor that lasts raises FC2 and changes no register; a balance step moves
each trim of the ring by at most one step and changes no other register; the sequencer of a CALIBRATING crew puts an
IDLE phase in TEST, and gives one in TEST whose minimum off-time is over its next pulse, whose terms have no dither
and no trim and the sensed plane voltage. -/
def Obligations.RestoreOverloadAndTrims : Prop :=
  (∀ m c data s, s.Takes m .CREW_PH_RESTORE c data → Does (exec (.restore m c data) s) fun t =>
      (∀ k, k < 8 → bits (t.get CREW_PH_RESTORE_STAT.RESULT c) (2 * k + 1) (2 * k) =
        if bitAt data k then restoreResult s.tickView c k else 0) ∧
      (∀ k, k < 8 → bitAt data k = true → restoreResult s.tickView c k = 1 → s.restorable c k = true →
        t.phase (8 * c + k) = { s.phase (8 * c + k) with
          st := if s.crewDown c then .idle else .ready
          lowSide := !s.crewDown c
          winTrips := 0
          restoredAt := some s.now }) ∧
      SamePhases (((List.range 8).filter fun k => bitAt data k && restoreResult s.tickView c k == 1 &&
        s.restorable c k).map (8 * c + ·)) s t ∧ SameMem s t ∧ t.resp = ⟨false, 0⟩) ∧
  (∀ m c data s, s.Takes m .CREW_DITHER_SEED c data → Does (exec (.ditherSeed m c data) s) fun t =>
    t.get CREW_DITHER_SEED.SEED c = data % 2 ^ 15 ∧
    (t.crew c).lfsr = (if data % 2 ^ 15 = 0 then 1 else data % 2 ^ 15) ∧ SameRegs [CREW_DITHER_SEED.SEED.key c] s t ∧
    SameCrews [c] s t ∧ SamePhases [] s t ∧ SameMem s t ∧ t.resp = ⟨false, 0⟩) ∧
  (∀ c s, (s.crew c).reg = true → s.flag CREW_OVL_STAT.FOLD c = false →
    115 * s.foldRating c ≤ 100 * s.get CREW_OVL_FILT.FILT_MA c → Does (exec (.crewOverload c) s) fun t =>
    t.flag CREW_OVL_STAT.FOLD c = true ∧
    t.get CREW_OVL_CNT.FOLDS c = min (s.get CREW_OVL_CNT.FOLDS c + 1) (2 ^ CREW_OVL_CNT.FOLDS.width - 1) ∧
    SameRegs [CREW_OVL_STAT.FOLD.key c, CREW_OVL_CNT.FOLDS.key c, FLT_DROP.FC0.key 0, FLT_DROP.FC1.key 0] s t ∧
    SamePhases [] s t ∧ SameMem s t) ∧
  (∀ c s, (s.crew c).reg = true → s.cst c ≠ 4 → Does (exec (.foldOffset c) s) fun t =>
    (t.crew c).foldUv = min (if s.flag CREW_OVL_STAT.FOLD c = true ∧ (s.foldLevel c : Int) < s.sumMa c then
      (s.crew c).foldUv + 16 else (s.crew c).foldUv - 16) (s.foldMax c) ∧ SamePhases [] s t ∧ SameMem s t) ∧
  (∀ c s, s.flag CREW_OVL_STAT.FLOOR c = true → (s.foldLevel c : Int) < s.sumMa c →
    Does (exec (.overloadUnresolved c) s) fun t =>
      t.intake = s.intake ++ [s.eventOf 0x0205 1 (crewUnit c)] ∧ SameRegs [] s t ∧ SamePhases [] s t ∧
      SameMem s t) ∧
  (∀ c s, s.flag CREW_MOD_CTL.BAL_EN c = true → Does (exec (.balanceTrim c) s) fun t =>
    (∀ k, k < 8 → (t.trimOf c k - s.trimOf c k).natAbs ≤ 1) ∧
    SameRegs [CREW_PH_TRIM.TRIM.key c] s t ∧ SamePhases [] s t ∧ SameCrews [] s t ∧ SameMem s t) ∧
  (∀ ph vPlane vib s, s.cst (ph / 8) = 6 → (s.crew (ph / 8)).calOw = 0 → ((s.phase ph).st = .idle ∨
    ((s.phase ph).st = .test ∧ (s.phase ph).testOn = false ∧ (s.phase ph).testWait = false)) →
      Does (exec (.testPulse ph vPlane vib) s) fun t =>
    (t.phase ph).st = .test ∧ (t.phase ph).testOn = true ∧ (t.phase ph).lowSide = false ∧
    (t.phase ph).terms = ⟨s.get CREW_MOD_CTL.K_ON (ph / 8), vPlane, vib, 0, 0, s.gateWord (ph / 8),
      rippleMv (s.get CREW_MOD_CTL.RIPPLE (ph / 8))⟩ ∧ SamePhases (crewPhases (ph / 8)) s t ∧ SameMem s t)

/-- SamplesAndModes. A landing sample shows NEW 1, the mode and the input it was taken with, its trimmed code (with the background correction
of R112 where assumption log 134 has it), and OVR where it replaced an untaken sample, which also sets the converter's overrun bit and counts; in simultaneous mode none
lands without an accepted trigger. A 32-bit read in simultaneous mode, by a master or by the crew sequencer, takes the
sample, and answers a master with the word; in interleaved mode it takes nothing. A trigger by software or by the crew
sequencer in simultaneous mode is accepted, with the inputs selected then, where the last accepted one lies 8 ns back
or more, and dropped and counted where it lies nearer (the clock that judges this is assumption log 121's choice). A
write of CREW_AB_CTL that asks for another mode than the one in force is accepted for interleaved mode, and for
simultaneous mode while the crew is off, stood down or in its sequencer's calibration; otherwise MODE stays 0,
MODE_REFUSED is set and "converter mode refused" is raised. An accepted mode takes effect at the tick boundary. A
write of CREW_H_CTL that asks for single-channel mode is refused alike; one that ends it makes H go on at entry 0; a
reserved channel code leaves CH as it was. -/
def Obligations.SamplesAndModes : Prop :=
  (∀ c b raw back s, s.abInput c b back = none → exec (.abSampleLand c b raw back) s = .next s) ∧
  (∀ c b raw back input s, s.abInput c b back = some input → Does (exec (.abSampleLand c b raw back) s) fun t =>
    t.get CREW_AB.NEW (abI c b) = 1 ∧ t.flag CREW_AB.OVR (abI c b) = s.flag CREW_AB.NEW (abI c b) ∧
    t.get CREW_AB.MODE (abI c b) = (s.abTag c back).1 % 2 ∧ t.get CREW_AB.INPUT (abI c b) = input % 2 ^ CREW_AB.INPUT.width ∧
    t.getI CREW_AB.SAMPLE (abI c b) = abTrim raw (s.getI (if b then CREW_AB_TRIM.B_OFS else CREW_AB_TRIM.A_OFS) c)
      (s.getI (if b then CREW_AB_TRIM.B_GAIN else CREW_AB_TRIM.A_GAIN) c)
      (if (s.abTag c back).1 = 0 then s.bgCorr c input else 0) ∧
    (s.flag CREW_AB.NEW (abI c b) = true → t.get (if b then CREW_AB_STAT.B_OVR else CREW_AB_STAT.A_OVR) c = 1 ∧
      t.get (if b then CREW_AB_OVR_CNT.B_OVRS else CREW_AB_OVR_CNT.A_OVRS) c =
        (if b then CREW_AB_OVR_CNT.B_OVRS else CREW_AB_OVR_CNT.A_OVRS).count
          (s.get (if b then CREW_AB_OVR_CNT.B_OVRS else CREW_AB_OVR_CNT.A_OVRS) c)) ∧
    SameRegs ([CREW_AB.NEW.key (abI c b), CREW_AB.OVR.key (abI c b), CREW_AB.MODE.key (abI c b), CREW_AB.INPUT.key (abI c b),
      CREW_AB.SAMPLE.key (abI c b), CREW_AB_STAT.A_OVR.key c, CREW_AB_STAT.B_OVR.key c, CREW_AB_OVR_CNT.A_OVRS.key c,
      CREW_AB_OVR_CNT.B_OVRS.key c, CREW_DP_MISS_CNT.MISSES.key c, CREW_DP_MISS_WIN.WIN.key c, CREW_DP_STAT.MISS_RUN.key c] ++
      dropKeys) s t ∧ SamePhases [] s t ∧ SameCrews [c] s t ∧ SameMem s t) ∧
  (∀ c b s, Does (exec (.abRead none c b 4) s) fun t =>
    t.flag CREW_AB.NEW (abI c b) = (!s.flag CREW_AB_STAT.MODE_ACT c && s.flag CREW_AB.NEW (abI c b)) ∧ t.resp = s.resp ∧
    SameRegs [CREW_AB.NEW.key (abI c b)] s t ∧ SamePhases [] s t ∧ SameCrews [] s t ∧ SameMem s t) ∧
  (∀ m c b s, s.Reads m .CREW_AB (abI c b) → Does (exec (.abRead (some m) c b 4) s) fun t =>
    t.resp = ⟨false, s.regWord .CREW_AB (abI c b)⟩ ∧
    t.flag CREW_AB.NEW (abI c b) = (!s.flag CREW_AB_STAT.MODE_ACT c && s.flag CREW_AB.NEW (abI c b)) ∧
    SameRegs [CREW_AB.NEW.key (abI c b)] s t ∧ SamePhases [] s t ∧ SameCrews [] s t ∧ SameMem s t) ∧
  (∀ m c data s, s.Takes m .CREW_AB_TRIG c data → CREW_AB_TRIG.FIRE.ofWord data = 1 → CREW_AB_TRIG.SRC.ofWord data = 2 →
    s.flag CREW_AB_STAT.MODE_ACT c = true →
    (∀ u, (s.crew c).lastTrig = some u → 2000 * s.now < u ∨ u + 8000 ≤ 2000 * s.now) →
    Does (exec (.abFire (some m) c data) s) fun t =>
      (t.crew c).trigA = (s.crew c).trigA ++ [s.get CREW_AB_CTL.A_SEL c] ∧
      (t.crew c).trigB = (s.crew c).trigB ++ [s.get CREW_AB_CTL.B_SEL c] ∧
      (t.crew c).lastTrig = some (2000 * s.now) ∧ t.get CREW_AB_TRIG.SRC c = 2 ∧
      SameRegs [CREW_AB_TRIG.SRC.key c, CREW_AB_TRIG.PDIV.key c, CREW_AB_TRIG.DELAY.key c] s t ∧ SamePhases [] s t ∧
      SameCrews [c] s t ∧ SameMem s t) ∧
  (∀ m c data u s, s.Takes m .CREW_AB_TRIG c data → CREW_AB_TRIG.FIRE.ofWord data = 1 → CREW_AB_TRIG.SRC.ofWord data = 2 →
    s.flag CREW_AB_STAT.MODE_ACT c = true → (s.crew c).lastTrig = some u → u ≤ 2000 * s.now → 2000 * s.now < u + 8000 →
    Does (exec (.abFire (some m) c data) s) fun t =>
      (t.crew c).trigA = (s.crew c).trigA ∧ (t.crew c).trigB = (s.crew c).trigB ∧ (t.crew c).lastTrig = some u ∧
      t.get CREW_AB_STAT.TRIG_DROPS c = CREW_AB_STAT.TRIG_DROPS.count (s.get CREW_AB_STAT.TRIG_DROPS c) ∧
      SameRegs [CREW_AB_TRIG.SRC.key c, CREW_AB_TRIG.PDIV.key c, CREW_AB_TRIG.DELAY.key c, CREW_AB_STAT.TRIG_DROPS.key c] s t ∧
      SamePhases [] s t ∧ SameCrews [c] s t ∧ SameMem s t) ∧
  (∀ c data s, s.get CREW_AB_TRIG.SRC c = 3 → s.flag CREW_AB_STAT.MODE_ACT c = true →
    (∀ u, (s.crew c).lastTrig = some u → 2000 * s.now < u ∨ u + 8000 ≤ 2000 * s.now) → Does (exec (.abFire none c data) s) fun t =>
      (t.crew c).trigA = (s.crew c).trigA ++ [s.get CREW_AB_CTL.A_SEL c] ∧
      (t.crew c).trigB = (s.crew c).trigB ++ [s.get CREW_AB_CTL.B_SEL c] ∧
      (t.crew c).lastTrig = some (2000 * s.now) ∧
      SameRegs [] s t ∧ SamePhases [] s t ∧ SameCrews [c] s t ∧ SameMem s t) ∧
  (∀ m c data s, s.Takes m .CREW_AB_CTL c data → CREW_AB_CTL.MODE.ofWord data ≠ s.get CREW_AB_STAT.MODE_ACT c →
    (CREW_AB_CTL.MODE.ofWord data = 0 ∨ s.simAllowed c = true) → Does (exec (.abMode m c data) s) fun t =>
      t.get CREW_AB_CTL.MODE c = CREW_AB_CTL.MODE.ofWord data ∧ (t.crew c).modeReq = some (CREW_AB_CTL.MODE.ofWord data) ∧
      SameRegs [CREW_AB_CTL.MODE.key c, CREW_AB_CTL.A_SEL.key c, CREW_AB_CTL.B_SEL.key c, CREW_AB_CTL.PHASE.key c] s t ∧
      SamePhases [] s t ∧ SameCrews [c] s t ∧ SameMem s t) ∧
  (∀ m c data s, s.Takes m .CREW_AB_CTL c data → CREW_AB_CTL.MODE.ofWord data = 1 → s.get CREW_AB_STAT.MODE_ACT c = 0 →
    s.simAllowed c = false → s.room → Does (exec (.abMode m c data) s) fun t =>
      t.get CREW_AB_CTL.MODE c = 0 ∧ t.get CREW_AB_STAT.MODE_REFUSED c = 1 ∧ (t.crew c).modeReq = (s.crew c).modeReq ∧
      t.intake = s.intake ++ [s.eventOf 0x0301 1 (crewUnit c)] ∧ SamePhases [] s t ∧ SameMem s t) ∧
  (∀ c v s, (s.crew c).modeReq = some v → Does (exec (.modeChange c) s) fun t =>
    t.get CREW_AB_STAT.MODE_ACT c = v % 2 ∧ (t.crew c).modeReq = none ∧ (t.crew c).oldTags = s.keepTags c ∧
    SameRegs [CREW_AB_STAT.MODE_ACT.key c] s t ∧ SamePhases [] s t ∧ SameCrews [c] s t ∧ SameMem s t) ∧
  (∀ m c data s, s.Takes m .CREW_H_CTL c data → (CREW_H_CTL.MODE.ofWord data = 0 ∨ s.simAllowed c = true) →
    Does (exec (.hMode m c data) s) fun t =>
      t.get CREW_H_CTL.MODE c = CREW_H_CTL.MODE.ofWord data ∧ t.get CREW_H_CTL.SEQ_LEN c = CREW_H_CTL.SEQ_LEN.ofWord data ∧
      t.get CREW_H_CTL.CH c = (if 17 < CREW_H_CTL.CH.ofWord data then s.get CREW_H_CTL.CH c % 32
        else CREW_H_CTL.CH.ofWord data) ∧
      (t.crew c).toEntry0 = ((s.crew c).toEntry0 ||
        (decide (CREW_H_CTL.MODE.ofWord data = 0) && s.flag CREW_H_CTL.MODE c)) ∧
      SameRegs [CREW_H_CTL.MODE.key c, CREW_H_CTL.SEQ_LEN.key c, CREW_H_CTL.ALIGN.key c, CREW_H_CTL.CH.key c,
        CREW_H_CTL.STIME.key c, CREW_H_CTL.GAIN.key c] s t ∧ SamePhases [] s t ∧ SameCrews [c] s t ∧ SameMem s t) ∧
  (∀ m c data s, s.Takes m .CREW_H_CTL c data → CREW_H_CTL.MODE.ofWord data = 1 → s.simAllowed c = false → s.room →
    Does (exec (.hMode m c data) s) fun t =>
      t.get CREW_H_CTL.MODE c = 0 ∧ t.get CREW_H_STAT.MODE_REFUSED c = 1 ∧
      t.intake = s.intake ++ [s.eventOf 0x0301 1 (crewUnit c)] ∧ SamePhases [] s t ∧ SameMem s t)

/-- SlotsReferencesAndOpenWire. A slot's end hands it on to its result and starts the fault logic's urgent slot if one
waits, else the next entry of the sequence, wrapped at its length, or entry 0 after single-channel mode. A result is
written with VALID, its gain and alignment, the end code and SAT beyond the range, whether its reference was settled,
and one more count, whatever consumers do with it. A fault-logic request waits for the end of a slot that converts,
and starts at once, with one more preemption, in place of one that samples; an RDT request waits with its channel's
timing, and one that finds another pending or converting is refused. A write of REF_SEL 3 leaves the reference and its
settling; any other value selects it and starts settling, and the end of settling sets REF_SETTLED. The local
over-voltage check suppresses demand and starts a confirmation test, and ends without one; CONFIRM and RETRY start a
test, and RETRY takes over the return of one that runs (assumption log 16's choice); the crew sequencer starts the
test of a calibration with its phases IDLE; the end of the pull asks for the line's second conversion; at the tick
boundary the control input changes over with its 20 mV. -/
def Obligations.SlotsReferencesAndOpenWire : Prop :=
  (∀ c u s, (s.crew c).urgFault = some u → Does (exec (.hSlotEnd c) s) fun t =>
    (t.crew c).hDone = (s.crew c).hDone ++ [s.endedSlot c] ∧ (t.crew c).slot = t.urgentSlot c u ∧
    (t.crew c).urgFault = none ∧ (t.crew c).toEntry0 = false ∧
    t.get CREW_H_STAT.ENTRY c = (if (s.crew c).toEntry0 then 0 else match (s.crew c).slot.src with
      | .seq e => s.entryAfter c e % 16
      | _ => s.get CREW_H_STAT.ENTRY c) ∧
    t.get CREW_H_STAT.URG_BUSY c = 1 ∧ SameRegs [CREW_H_STAT.URG_BUSY.key c, CREW_H_STAT.ENTRY.key c] s t ∧
    SamePhases [] s t ∧ SameCrews [c] s t ∧ SameMem s t) ∧
  (∀ c e s, (s.crew c).urgFault = none → (s.crew c).urgRdt = none → (s.crew c).slot.src = .seq e →
    Does (exec (.hSlotEnd c) s) fun t =>
      (t.crew c).hDone = (s.crew c).hDone ++ [s.endedSlot c] ∧
      t.get CREW_H_STAT.ENTRY c = (if (s.crew c).toEntry0 then 0 else s.entryAfter c e % 16) ∧
      (t.crew c).toEntry0 = false ∧ (t.crew c).slot = t.plainSlot c ∧ t.get CREW_H_STAT.URG_BUSY c = 0 ∧
      SameRegs [CREW_H_STAT.URG_BUSY.key c, CREW_H_STAT.ENTRY.key c] s t ∧ SamePhases [] s t ∧ SameCrews [c] s t ∧
        SameMem s t) ∧
  (∀ c raw sl rest s, (s.crew c).hDone = sl :: rest → Does (exec (.hResult c raw) s) fun t =>
    t.get CREW_H_RES.VALID (16 * c + sl.ch) = 1 ∧ t.flag CREW_H_RES.SAT (16 * c + sl.ch) = (s.hCode c sl.ch raw).2 ∧
    t.flag CREW_H_RES.UNSETTLED (16 * c + sl.ch) = (!sl.settled) ∧
    t.get CREW_H_RES.GAIN (16 * c + sl.ch) = sl.gain % 4 ∧
    t.get CREW_H_RES.COUNT (16 * c + sl.ch) = (s.get CREW_H_RES.COUNT (16 * c + sl.ch) + 1) % 2 ^ CREW_H_RES.COUNT.width ∧
    t.get CREW_H_RES.RESULT (16 * c + sl.ch) =
      hAlign (s.flag CREW_H_CTL.ALIGN c) sl.ch (s.hCode c sl.ch raw).1 % 2 ^ 16 ∧ (t.crew c).hDone = rest ∧
        SamePhases [] s t ∧ SameCrews [c] s t ∧ SameMem s t) ∧
  (∀ c raw (s : State), (s.hCode c 8 raw).1 ≤ 2047 ∧ -2048 ≤ (s.hCode c 8 raw).1 ∧
    (2047 < raw → s.hCode c 8 raw = (2047, true)) ∧ (raw < -2048 → s.hCode c 8 raw = (-2048, true))) ∧
  (∀ c ch rest s, (s.crew c).faultWant = ch :: rest → s.faultBusy c = false →
    Does (exec (.urgentRequest c false false) s) fun t =>
      (t.crew c).urgFault = some { src := .fault, ch := ch, rotor := 0, stime := 7, gain := 0 } ∧
        (t.crew c).faultWant = rest ∧ (t.crew c).slot = (s.crew c).slot ∧
      SameRegs [] s t ∧ SamePhases [] s t ∧ SameCrews [c] s t ∧ SameMem s t) ∧
  (∀ c ch rest s, (s.crew c).faultWant = ch :: rest → s.faultBusy c = false →
    ((s.crew c).slot.src = .single ∨ ∃ e, (s.crew c).slot.src = .seq e) →
    Does (exec (.urgentRequest c false true) s) fun t =>
      (t.crew c).slot = s.mkSlot c .fault ch 7 0 ∧ (t.crew c).urgFault = none ∧ (t.crew c).hDone = (s.crew c).hDone ∧
      t.get CREW_H_STAT.PREEMPTS c = CREW_H_STAT.PREEMPTS.count (s.get CREW_H_STAT.PREEMPTS c) ∧
      SameRegs [CREW_H_STAT.PREEMPTS.key c, CREW_H_STAT.URG_BUSY.key c] s t ∧ SamePhases [] s t ∧ SameCrews [c] s t ∧
        SameMem s t) ∧
  (∀ c ctx ch rest (s : State), (s.crew c).rdtWant = (ctx, ch) :: rest → s.rdtBusy c = false →
    Does (exec (.urgentRequest c true false) s) fun t =>
      (t.crew c).urgRdt = some (rdtSlot ctx ch (s.rdtTiming c ch)) ∧ (t.crew c).rdtWant = rest ∧
        (t.crew c).slot = (s.crew c).slot ∧
      SameRegs [] s t ∧ SamePhases [] s t ∧ SameCrews [c] s t ∧ SameMem s t) ∧
  (∀ c b ctx ch rest s, (s.crew c).rdtWant = (ctx, ch) :: rest → s.rdtBusy c = true →
    Does (exec (.urgentRequest c true b) s) fun t =>
      t.rdtAns = s.rdtAns ++ [(ctx, 0x80000000)] ∧ (t.crew c).rdtWant = rest ∧ (t.crew c).slot = (s.crew c).slot ∧
      SameRegs [] s t ∧ SamePhases [] s t ∧ SameCrews [c] s t ∧ SameMem s t) ∧
  (∀ m c data s, s.Takes m .CREW_H_REF c data → Does (exec (.refSel m c data) s) fun t =>
    (if data % 4 = 3 then t.get CREW_H_REF.REF_SEL c = s.get CREW_H_REF.REF_SEL c % 4 ∧
        t.get CREW_H_STAT.REF_SETTLED c = s.get CREW_H_STAT.REF_SETTLED c
      else t.get CREW_H_REF.REF_SEL c = data % 4 ∧ t.get CREW_H_STAT.REF_SETTLED c = 0) ∧
    SameRegs [CREW_H_REF.REF_SEL.key c, CREW_H_STAT.REF_SETTLED.key c] s t ∧ SamePhases [] s t ∧ SameCrews [] s t ∧
      SameMem s t) ∧
  (∀ c s, Does (exec (.refSettled c) s) fun t => t.get CREW_H_STAT.REF_SETTLED c = 1 ∧
    SameRegs [CREW_H_STAT.REF_SETTLED.key c] s t ∧ SamePhases [] s t ∧ SameCrews [] s t ∧ SameMem s t) ∧
  (∀ c s, (s.crew c).ow = none → Does (exec (.localOvervoltage c true) s) fun t =>
    (t.crew c).ovInhibit = true ∧ t.flag CREW_OW_STAT.SUSPECT c = true ∧ t.get CREW_OW_STAT.CONFIRM_RUN c = 1 ∧
    (t.crew c).ow = some ⟨false, 0, none, false, false⟩ ∧ (t.crew c).faultWant = (s.crew c).faultWant ++ [14] ∧
    SameRegs [CREW_OW_STAT.SUSPECT.key c, CREW_OW_STAT.CONFIRM_RUN.key c] s t ∧ SamePhases [] s t ∧ SameCrews [c] s t ∧
    SameMem s t) ∧
  (∀ c s, Does (exec (.localOvervoltage c false) s) fun t =>
    t.crew c = { s.crew c with ovInhibit := false } ∧
    t.flag CREW_OW_STAT.SUSPECT c = ((s.crew c).susp0 || (s.crew c).susp1) ∧
    SameRegs [CREW_OW_STAT.SUSPECT.key c] s t ∧ SamePhases [] s t ∧ SameCrews [c] s t ∧ SameMem s t) ∧
  (∀ m c data s, s.Takes m .CREW_OW_CTL c data → CREW_OW_CTL.CONFIRM.ofWord data = 1 → CREW_OW_CTL.RETRY.ofWord data = 0 →
    (s.crew c).ow = none → Does (exec (.confirm (some m) c data) s) fun t =>
      t.get CREW_OW_STAT.CONFIRM_RUN c = 1 ∧ (t.crew c).ow = some ⟨false, 0, none, false, false⟩ ∧
      (t.crew c).faultWant = (s.crew c).faultWant ++ [14] ∧
      SameRegs [CREW_OW_CTL.BG_EN.key c, CREW_OW_STAT.CONFIRM_RUN.key c] s t ∧ SamePhases [] s t ∧ SameCrews [c] s t ∧
        SameMem s t) ∧
  (∀ m c data s, s.Takes m .CREW_OW_CTL c data → CREW_OW_CTL.RETRY.ofWord data = 1 → (s.crew c).ow = none →
    Does (exec (.retry m c data) s) fun t =>
      t.get CREW_OW_STAT.CONFIRM_RUN c = 1 ∧ (t.crew c).ow = some ⟨true, 0, none, false, false⟩ ∧
      (t.crew c).faultWant = (s.crew c).faultWant ++ [14] ∧
      SameRegs [CREW_OW_CTL.BG_EN.key c, CREW_OW_STAT.CONFIRM_RUN.key c] s t ∧ SamePhases [] s t ∧ SameCrews [c] s t ∧
        SameMem s t) ∧
  (∀ m c data o s, s.Takes m .CREW_OW_CTL c data → CREW_OW_CTL.RETRY.ofWord data = 1 → (s.crew c).ow = some o →
    Does (exec (.retry m c data) s) fun t =>
      (t.crew c).ow = some { o with retry := true } ∧ (t.crew c).faultWant = (s.crew c).faultWant ∧
      SameRegs [CREW_OW_CTL.BG_EN.key c] s t ∧ SamePhases [] s t ∧ SameCrews [c] s t ∧ SameMem s t) ∧
  (∀ c data s, (s.crew c).seqCal = true → (s.crew c).calOw = 0 → (s.crew c).ow = none →
    Does (exec (.confirm none c data) s) fun t =>
      (t.crew c).calOw = 1 ∧ (t.crew c).ow = some ⟨false, 0, none, false, false⟩ ∧ t.get CREW_OW_STAT.CONFIRM_RUN c = 1 ∧
      (∀ k, k < 8 → (t.phase (8 * c + k)).st ∈ [.idle, .fused, .struck]) ∧
      SamePhases (crewPhases c) s t ∧ SameCrews [c] s t ∧ SameMem s t) ∧
  (∀ c o s, (s.crew c).ow = some o → o.first.isSome = true → o.pulled = false → Does (exec (.pullEnd c) s) fun t =>
    t.crew c = { s.crew c with ow := some { o with pulled := true }, faultWant := (s.crew c).faultWant ++ [14 + o.line] } ∧
    SameRegs [] s t ∧ SamePhases [] s t ∧ SameCrews [c] s t ∧ SameMem s t) ∧
  (∀ c s, (s.crew c).senseReq = some true → Does (exec (.senseSwitch c) s) fun t =>
    t.get CREW_AB_STAT.SENSE c = 1 ∧ t.get CREW_SP_STAT.OPEN_OFS c = 1 ∧ (t.crew c).senseReq = none ∧
    (t.crew c).oldTags = s.keepTags c ∧
    SameRegs [CREW_AB_STAT.SENSE.key c, CREW_SP_STAT.OPEN_OFS.key c, CREW_SP_STAT.SLEWING.key c] s t ∧ SamePhases [] s t ∧
    SameCrews [c] s t ∧ SameMem s t) ∧
  (∀ c s, (s.crew c).senseReq = some false → Does (exec (.senseSwitch c) s) fun t =>
    t.get CREW_AB_STAT.SENSE c = 0 ∧ t.get CREW_SP_STAT.OPEN_OFS c = 0 ∧ t.get CREW_OW_STAT.OPEN_POS c = 0 ∧
    t.get CREW_OW_STAT.OPEN_NEG c = 0 ∧ (t.crew c).senseReq = none ∧
    SameRegs ([CREW_AB_STAT.SENSE.key c, CREW_SP_STAT.OPEN_OFS.key c, CREW_SP_STAT.SLEWING.key c, CREW_OW_STAT.OPEN_POS.key c,
      CREW_OW_STAT.OPEN_NEG.key c] ++ dropKeys) s t ∧ SamePhases [] s t ∧ SameCrews [c] s t ∧ SameMem s t)

/-- LawLimits. With the limits of the coefficient set in order and the integrator inside ±I_LIM, one update of the main
law leaves the integrator inside ±I_LIM and its output between OUT_MIN and OUT_MAX; after an update whose output was
clipped, an update that is no transfer update steps the integrator no further in that direction. I_LIM, OUT_MAX and
OUT_MIN are those of the slot. -/
def Obligations.LawLimits : Prop :=
  (∀ (k : Coef) (l : Law) e ff transfer, 0 ≤ k.iLim → k.outMin ≤ k.outMax → -(k.iLim * 2 ^ 32) ≤ l.iacc →
    l.iacc ≤ k.iLim * 2 ^ 32 →
    (-(k.iLim * 2 ^ 32) ≤ (lawStep k l e ff transfer).1.iacc ∧ (lawStep k l e ff transfer).1.iacc ≤ k.iLim * 2 ^ 32) ∧
    (k.outMin ≤ (lawStep k l e ff transfer).2 ∧ (lawStep k l e ff transfer).2 ≤ k.outMax) ∧
    (transfer = false → l.clip = 1 → (lawStep k l e ff transfer).1.iacc ≤ l.iacc) ∧
    (transfer = false → l.clip = -1 → l.iacc ≤ (lawStep k l e ff transfer).1.iacc)) ∧
  (∀ (s : State) c r, (s.coef c r).iLim = s.slotW c r 12 % 2 ^ 16 ∧
    (s.coef c r).outMax = sgn 16 (s.slotW c r 13 / 2 ^ 16) ∧ (s.coef c r).outMin = sgn 16 (s.slotW c r 13))

/-- DatapathUpdates. In interleaved mode an update starts on a landed pair when none runs: A's sample is taken, B's stays;
for a regulating crew whose region stays, whose filter, forcing and laws ask for no change, the main output is the law
on the pair's sum. A completion writes that output, takes B's sample unless it is late, and counts its time; the end
of a miss window restarts its count. A delivered LLS writes the load-line slope, which acts from the next tick on, and
a delivered GSEL writes FORCE and FORCE_REGION, at every leaf crew with a valid calibration that is not being
calibrated; no other register, no other crew, no phase and no byte changes. -/
def Obligations.DatapathUpdates : Prop :=
  (∀ c s, s.flag CREW_AB_STAT.MODE_ACT c = false → (s.crew c).busy = false → s.flag CREW_AB.NEW (abI c false) = true →
    s.flag CREW_AB.NEW (abI c true) = true → Does (exec (.datapathUpdate c) s) fun t =>
      (t.crew c).busy = true ∧ (t.crew c).bLate = false ∧ t.get CREW_AB.NEW (abI c false) = 0 ∧
      t.flag CREW_AB.NEW (abI c true) = true ∧ SameMem s t) ∧
  (∀ c s, s.flag CREW_AB_STAT.MODE_ACT c = false → (s.crew c).busy = false → s.flag CREW_AB.NEW (abI c false) = true →
    s.flag CREW_AB.NEW (abI c true) = true → (s.crew c).reg = true → (s.crew c).firstPair = false →
      (s.crew c).transfer = false →
    (s.crew c).resumeNow = false → (s.crew c).fbDue = false → s.flag CREW_DP_STAT.LAW c = false →
    s.get CREW_DP_GS.FORCE_REGION c < 16 → Does (exec (.datapathUpdate c) s) fun t =>
      (t.get CREW_DP_STAT.REGION c = s.get CREW_DP_STAT.REGION c →
        (t.crew c).uNext = (lawStep (t.coef c (t.get CREW_DP_STAT.REGION c)) (s.crew c).law
          (t.errorOf c (s.getI CREW_AB.SAMPLE (abI c false) + s.getI CREW_AB.SAMPLE (abI c true)))
          ((s.crew c).sdir * s.rateOf c) false).2) ∧
      SameRegs [CREW_AB.NEW.key (abI c false), CREW_DP_IFILT.I_F.key c, CREW_DP_STAT.CB.key c, CREW_DP_STAT.PB.key c,
        CREW_DP_STAT.AUTO_REGION.key c, CREW_DP_STAT.REGION.key c] s t ∧ SamePhases [] s t ∧ SameCrews [c] s t ∧ SameMem s t) ∧
  (∀ c t8 s, (s.crew c).busy = true → Does (exec (.updateCompletion c t8) s) fun t =>
    (t.crew c).busy = false ∧
    t.get CREW_DP_OUT.U c = (if (s.crew c).reg then unsg 16 (s.crew c).uNext else s.get CREW_DP_OUT.U c) ∧
    t.flag CREW_AB.NEW (abI c true) = ((s.crew c).bLate && s.flag CREW_AB.NEW (abI c true)) ∧
    t.get CREW_DP_TIME.TLAST c = min 255 t8 ∧
    t.get CREW_DP_TIME.SLOW_CNT c = (if s.get CREW_DP_CTL.WARN_TH c < t8 then
      CREW_DP_TIME.SLOW_CNT.count (s.get CREW_DP_TIME.SLOW_CNT c) else s.get CREW_DP_TIME.SLOW_CNT c) ∧
    SamePhases [] s t ∧ SameCrews [c] s t ∧ SameMem s t) ∧
  (∀ c s, Does (exec (.missWindow c) s) fun t => t.get CREW_DP_MISS_WIN.WIN c = 0 ∧
    SameRegs [CREW_DP_MISS_WIN.WIN.key c] s t ∧ SamePhases [] s t ∧ SameCrews [] s t ∧ SameMem s t) ∧
  (∀ op rest v s, s.flight = op :: rest → op.kind = .lls v →
    (∀ c ∈ op.crews, (s.crew c).calRun = false ∧ s.flag TB_CAL.VALID c = true) → Does (exec .llsDelivery s) fun t =>
      t.flight = rest ∧ (∀ c ∈ op.crews, t.get CREW_DP_LLS.LLS c = v % 2 ^ 10 ∧ t.llsOf c = s.llsOf c) ∧
      SameRegs (op.crews.map CREW_DP_LLS.LLS.key) s t ∧ SamePhases [] s t ∧ SameCrews op.crews s t ∧ SameMem s t) ∧
  (∀ op rest f r s, s.flight = op :: rest → op.kind = .gsel f r →
    (∀ c ∈ op.crews, (s.crew c).calRun = false ∧ s.flag TB_CAL.VALID c = true) → Does (exec .gselDelivery s) fun t =>
      t.flight = rest ∧ (∀ c ∈ op.crews, t.get CREW_DP_GS.FORCE c = f % 2 ∧ t.get CREW_DP_GS.FORCE_REGION c = r % 16) ∧
      SameRegs (op.crews.map CREW_DP_GS.FORCE.key ++ op.crews.map CREW_DP_GS.FORCE_REGION.key) s t ∧ SamePhases [] s t ∧
      SameCrews [] s t ∧ SameMem s t)

/-- CommitAndResume. A commit written to a running crew pends with its mask added and copies nothing. A pending copy
between updates copies the shadow words of every region of the mask that passes the check into its active slot, marks
every region that fails it, leaves every other active word, and ends the commit; held shadow writes then apply, so that
each shadow word has the last value held for it, and every other what it had. A commit written to a crew that is off or
stood down does all this at once, with what pended. RESUME
is refused while the fallback law does not run, or while fewer than 1,024 prompt completions lie behind it, and else
accepted. -/
def Obligations.CommitAndResume : Prop :=
  (∀ m c data s, s.Takes m .CREW_DP_COMMIT c data → s.crewDown c = false → Does (exec (.commit m c data) s) fun t =>
    t.get CREW_DP_STAT.COMMIT_PEND c = 1 ∧ (t.crew c).commit = (s.crew c).commit ||| data % 2 ^ 16 ∧
    SameRegs [CREW_DP_STAT.COMMIT_PEND.key c] s t ∧ SamePhases [] s t ∧ SameCrews [c] s t ∧ SameMem s t) ∧
  (∀ c s, s.flag CREW_DP_STAT.COMMIT_PEND c = true → (s.crew c).busy = false → Does (exec (.commitCopy c) s) fun t =>
    t.get CREW_DP_STAT.COMMIT_PEND c = 0 ∧ (t.crew c).commit = 0 ∧ (t.crew c).heldSlots = [] ∧
    (∀ r w, r < 16 → w < 16 → t.get SLOT_ACTIVE.W (256 * c + 16 * r + w) =
      if bitAt (s.crew c).commit r && s.slotOk c r then s.get SLOT_SHADOW.W (256 * c + 16 * r + w) % 2 ^ 32
      else s.get SLOT_ACTIVE.W (256 * c + 16 * r + w)) ∧
    (∀ r, r < 16 → bitAt (t.get CREW_DP_COMMIT_ERR.ERR c) r =
      (bitAt (s.get CREW_DP_COMMIT_ERR.ERR c) r || (bitAt (s.crew c).commit r && !s.slotOk c r))) ∧
    (∀ i, t.get SLOT_SHADOW.W i = match (s.crew c).heldSlots.reverse.find? (fun e => e.1 == i) with
      | some e => e.2 % 2 ^ 32
      | none => s.get SLOT_SHADOW.W i) ∧
    SamePhases [] s t ∧ SameCrews [c] s t ∧ SameMem s t) ∧
  (∀ m c data s, s.Takes m .CREW_DP_COMMIT c data → s.crewDown c = true → Does (exec (.commit m c data) s) fun t =>
    t.get CREW_DP_STAT.COMMIT_PEND c = 0 ∧ (t.crew c).commit = 0 ∧ (t.crew c).heldSlots = [] ∧
    (∀ r w, r < 16 → w < 16 → t.get SLOT_ACTIVE.W (256 * c + 16 * r + w) =
      if bitAt ((s.crew c).commit ||| data % 2 ^ 16) r && s.slotOk c r then
        s.get SLOT_SHADOW.W (256 * c + 16 * r + w) % 2 ^ 32
      else s.get SLOT_ACTIVE.W (256 * c + 16 * r + w)) ∧
    (∀ r, r < 16 → bitAt (t.get CREW_DP_COMMIT_ERR.ERR c) r =
      (bitAt (s.get CREW_DP_COMMIT_ERR.ERR c) r || (bitAt ((s.crew c).commit ||| data % 2 ^ 16) r && !s.slotOk c r))) ∧
    (∀ i, t.get SLOT_SHADOW.W i = match (s.crew c).heldSlots.reverse.find? (fun e => e.1 == i) with
      | some e => e.2 % 2 ^ 32
      | none => s.get SLOT_SHADOW.W i) ∧
    SamePhases [] s t ∧ SameCrews [c] s t ∧ SameMem s t ∧ t.resp = ⟨false, 0⟩) ∧
  (∀ m c data s, s.Takes m .CREW_DP_CTL c data → CREW_DP_CTL.RESUME.ofWord data = 1 → Does (exec (.resume m c data) s) fun t =>
    t.get CREW_DP_STAT.RESUME_STAT c = (if s.flag CREW_DP_STAT.LAW c = false then 3 else if (s.crew c).goodRun < 1024
      then 2 else 1) ∧
    (t.crew c).resumeNow = ((s.crew c).resumeNow || (s.flag CREW_DP_STAT.LAW c && decide (1024 ≤ (s.crew c).goodRun))) ∧
    SameRegs [CREW_DP_STAT.RESUME_STAT.key c, CREW_DP_CTL.IFILT_K.key c, CREW_DP_CTL.WARN_TH.key c] s t ∧ SamePhases [] s t ∧
    SameCrews [c] s t ∧ SameMem s t)

/-- SlewAndSetpoint. A delivered setpoint command takes effect at every leaf crew that is not in calibration: its code
clamped to the crew's window, its slew to the permitted range, one more accepted, one more superseded where a command
was open, REF as it was. In every tick after, a regulating crew on the command's slew moves REF towards T by 2 × SLEW
and not past it. -/
def Obligations.SlewAndSetpoint : Prop :=
  (∀ op rest code slew quiet s, s.flight = op :: rest → op.kind = .setp code slew quiet → op.crews.Nodup →
    (∀ c ∈ op.crews, (s.crew c).calRun = false) → Does (exec .setpointCommand s) fun t =>
      t.flight = rest ∧ SamePhases [] s t ∧ SameCrews op.crews s t ∧ SameMem s t ∧
      ∀ c ∈ op.crews, t.get CREW_SP_STAT.TARGET c = clampN code (s.winLo c) (s.winHi c) % 2 ^ 12 ∧
        t.get CREW_SP_STAT.SLEW c = clampN slew 4 s.slewMax % 2 ^ 12 ∧
        t.get CREW_SP_SEQ.ACCEPTED c = (s.get CREW_SP_SEQ.ACCEPTED c + 1) % 2 ^ 8 ∧
        t.get CREW_SP_SUP_CNT.SUPERSEDED c = (if (s.crew c).cmdOpen then
          CREW_SP_SUP_CNT.SUPERSEDED.count (s.get CREW_SP_SUP_CNT.SUPERSEDED c) else s.get CREW_SP_SUP_CNT.SUPERSEDED c) ∧
        t.get CREW_SP_REF.REF c = s.get CREW_SP_REF.REF c ∧ (t.crew c).cmdOp = some op.id) ∧
  (∀ c s, (s.crew c).reg = true → (s.plane (planeOf c)).ramp = .none → (s.crew c).softStart = false →
    s.flag CREW_GB_STAT.RAISED c = false → s.target c < 2 ^ 32 → s.get CREW_SP_REF.REF c < 2 ^ 32 →
    Does (exec (.refStep c) s) fun t =>
      t.get CREW_SP_REF.REF c = (if s.get CREW_SP_REF.REF c < s.target c then
        min (s.get CREW_SP_REF.REF c + 2 * s.get CREW_SP_STAT.SLEW c) (s.target c)
        else max (s.get CREW_SP_REF.REF c - 2 * s.get CREW_SP_STAT.SLEW c) (s.target c)) ∧
      t.target c = s.target c ∧
      SameRegs [CREW_SP_REF.REF.key c, CREW_SP_STAT.DIR.key c, CREW_SP_STAT.SLEWING.key c, CREW_SP_SEQ.DONE_SEQ.key c] s t ∧
      SamePhases [] s t ∧ SameCrews [c] s t ∧ SameMem s t)

/-- SharingFloorsAndMonitors. At a pass the trims of a plane's sharing crews are computed and wait for their delivery:
where two or more share, each trim moves by one LSB against a current that lies more than DB off the crew's share by
active phases, the mean of the new trims comes off each, cut towards zero, and every result is held within ±TRIM_MAX,
at whose ends AT_LIM shows; of a plane in which fewer share, and of any other crew, nothing waits anew. Stand-down
requests are judged: a pass leaves every trim in force as it was and no request of a crew unjudged. When the trims are
taken, every crew with a trim waiting has it in force, no trim waits, and nothing else changes. The
recomputed floor of a plane is, at every one of its crews, the largest margin floor of the regulating ones rounded up
to a code, under the guardband each crew has a right to; no crew's target lies below the floor unless the window ends
below it; no other plane's floor, no phase and no memory changes. A write of 1 to REARM sets the crew's VMIN to
0xFFFF, or its VMAX to 0, and a write of DIE_REARM the die-wide VMIN to 0xFFFF; every other register field, but the
write's own stored fields, every crew, phase and byte stays. -/
def Obligations.SharingFloorsAndMonitors : Prop :=
  (∀ s, Does (exec .sharingPass s) fun t =>
    (∀ c, t.get CREW_DP_TRIM.TRIM c = s.get CREW_DP_TRIM.TRIM c) ∧ (∀ c, c < 192 → (t.crew c).standReq = none) ∧
    (∀ c k, c < 192 → (s.crew c).standReq = some k → s.cst c ≠ 3 → t.get CREW_PWR_STAT.STAND_RES c = 4)) ∧
  (∀ p cs total n new mean z s, p < 32 → cs = (planeCrews p).filter s.shares → total = sumI (cs.map s.iF) →
    n = sumN (cs.map s.activeCount) →
    (new = fun c => clampI (s.getI CREW_DP_TRIM.TRIM c +
      (if ((250 * s.get CREW_SH_CTL.DB c * n : Nat) : Int) < s.iF c * n - total * s.activeCount c then -1
        else if s.iF c * n - total * s.activeCount c < -((250 * s.get CREW_SH_CTL.DB c * n : Nat) : Int) then 1 else 0))
      (-(s.get CREW_SH_CTL.TRIM_MAX c : Int)) (s.get CREW_SH_CTL.TRIM_MAX c)) →
    mean = (sumI (cs.map new)).tdiv cs.length →
    (z = fun c => clampI (new c - mean) (-(s.get CREW_SH_CTL.TRIM_MAX c : Int)) (s.get CREW_SH_CTL.TRIM_MAX c)) →
    Does (exec .sharingPass s) fun t =>
      (2 ≤ cs.length → ∀ c ∈ cs, (t.crew c).trimNext = some (z c) ∧
        t.get CREW_SH_CTL.AT_LIM c = if (z c).natAbs = s.get CREW_SH_CTL.TRIM_MAX c then 1 else 0) ∧
      (∀ c ∈ planeCrews p, (c ∉ cs ∨ cs.length < 2) → (t.crew c).trimNext = (s.crew c).trimNext ∧
        t.get CREW_SH_CTL.AT_LIM c = s.get CREW_SH_CTL.AT_LIM c)) ∧
  (∀ s, Does (exec .trimTake s) fun t =>
    (∀ c, c < 192 → (t.crew c).trimNext = none ∧ t.get CREW_DP_TRIM.TRIM c =
      (match (s.crew c).trimNext with | some z => unsg 12 z | none => s.get CREW_DP_TRIM.TRIM c)) ∧
    SameRegs (allCrews.map CREW_DP_TRIM.TRIM.key) s t ∧ SamePhases [] s t ∧ SameCrews allCrews s t ∧ SameMem s t) ∧
  (∀ p s, p < 32 → Does (exec (.planeFloor p) s) fun t =>
    (∀ c ∈ planeCrews p, t.get CREW_GB_STAT.GB c = s.guardband c % 2 ^ 7 ∧
      t.get CREW_GB_STAT.FLOOR c = s.planeFloor p ∧
      codeUv (min (t.get CREW_GB_STAT.FLOOR c) (t.winHi c)) ≤ t.target c) ∧
    (∀ c, c ∉ planeCrews p → t.get CREW_GB_STAT.FLOOR c = s.get CREW_GB_STAT.FLOOR c) ∧
    SamePhases [] s t ∧ SameCrews (planeCrews p) s t ∧ SameMem s t) ∧
  (∀ m c data s, s.Takes m .CREW_VMIN c data → CREW_VMIN.REARM.ofWord data = 1 → Does (exec (.vminRearm m c data) s) fun t =>
    t.get CREW_VMIN.VMIN c = 0xFFFF ∧ SameRegs [CREW_VMIN.VMIN.key c] s t ∧ SamePhases [] s t ∧ SameCrews [] s t ∧
      SameMem s t) ∧
  (∀ m c data s, s.Takes m .CREW_VMAX c data → CREW_VMAX.REARM.ofWord data = 1 → Does (exec (.vmaxRearm m c data) s) fun t =>
    t.get CREW_VMAX.VMAX c = 0 ∧ SameRegs [CREW_VMAX.VMAX.key c] s t ∧ SamePhases [] s t ∧ SameCrews [] s t ∧ SameMem s t) ∧
  (∀ m data s, s.Takes m .CAP_MON_AGE_CTL 0 data → CAP_MON_AGE_CTL.DIE_REARM.ofWord data = 1 →
    Does (exec (.dieRearm m data) s) fun t =>
      t.get CAP_MON_DIE_VMIN.VMIN 0 = 0xFFFF ∧ t.get CAP_MON_AGE_CTL.VALID 0 = CAP_MON_AGE_CTL.VALID.ofWord data ∧
      SameRegs [CAP_MON_DIE_VMIN.VMIN.key 0, CAP_MON_AGE_CTL.VALID.key 0] s t ∧ SamePhases [] s t ∧ SameCrews [] s t ∧
        SameMem s t)

/-- TransientAids. Where the plane that the crew senses falls below the droop level, an armed droop detector of a crew
that is ON counts the droop, disarms, shows it, and fires a reservoir that is enabled and ready; at or above the level
nothing happens but that a regulating crew shows no droop. It re-arms where the plane is more than 4 mV above the level,
and until then only shows where the plane lies; a recharged reservoir is ready. The
overshoot clamp of a regulating crew switches on and counts where the plane lies above the target by more than OV_TH,
at most four times in a window; it switches off below the target plus half of OV_TH or after 200 ns, but for a stop's
clamp; a new window lets it fire again. -/
def Obligations.TransientAids : Prop :=
  (∀ c remote loc s, s.aidsOn c = true → s.flag CREW_TR_CTL.DROOP_EN c = true → (s.crew c).droopArmed = true →
    s.sensed c remote loc < s.regTarget c - ((80000 + 20000 * s.get CREW_TR_CTL.DROOP_TH c : Nat) : Int) →
    Does (exec (.droop c remote loc) s) fun t =>
      t.get CREW_TR_STAT.DROOP c = 1 ∧ (t.crew c).droopArmed = false ∧ (t.crew c).droops = (s.crew c).droops + 1 ∧
      t.get CREW_TR_CNT.DROOPS c = CREW_TR_CNT.DROOPS.count (s.get CREW_TR_CNT.DROOPS c) ∧
      (if s.flag CREW_TR_CTL.RES_EN c && s.flag CREW_TR_STAT.RES_READY c then t.get CREW_TR_STAT.RES_READY c = 0 ∧
          t.get CREW_TR_CNT.DUMPS c = CREW_TR_CNT.DUMPS.count (s.get CREW_TR_CNT.DUMPS c)
        else t.get CREW_TR_STAT.RES_READY c = s.get CREW_TR_STAT.RES_READY c ∧
          t.get CREW_TR_CNT.DUMPS c = s.get CREW_TR_CNT.DUMPS c) ∧
      SameRegs [CREW_TR_STAT.DROOP.key c, CREW_TR_STAT.RES_READY.key c, CREW_TR_CNT.DROOPS.key c, CREW_TR_CNT.DUMPS.key c] s t ∧
      SamePhases [] s t ∧ SameCrews [c] s t ∧ SameMem s t) ∧
  (∀ c remote loc s, s.droopLevel c ≤ s.sensed c remote loc → Does (exec (.droop c remote loc) s) fun t =>
    t.get CREW_TR_STAT.DROOP c = (if (s.crew c).reg then 0 else s.get CREW_TR_STAT.DROOP c) ∧
    SameRegs [CREW_TR_STAT.DROOP.key c] s t ∧ SamePhases [] s t ∧ SameCrews [] s t ∧ SameMem s t) ∧
  (∀ c remote loc s, s.sensed c remote loc ≤ s.droopLevel c + 40000 → Does (exec (.droopRearm c remote loc) s) fun t =>
    t.get CREW_TR_STAT.DROOP c = (if (s.crew c).reg then if s.sensed c remote loc < s.droopLevel c then 1 else 0
      else s.get CREW_TR_STAT.DROOP c) ∧
    SameRegs [CREW_TR_STAT.DROOP.key c] s t ∧ SamePhases [] s t ∧ SameCrews [] s t ∧ SameMem s t) ∧
  (∀ c remote loc s, s.droopLevel c + 40000 < s.sensed c remote loc →
    Does (exec (.droopRearm c remote loc) s) fun t =>
    t.get CREW_TR_STAT.DROOP c = (if (s.crew c).reg then 0 else s.get CREW_TR_STAT.DROOP c) ∧
    t.crew c = { s.crew c with droopArmed := true } ∧ SameRegs [CREW_TR_STAT.DROOP.key c] s t ∧ SamePhases [] s t ∧
    SameCrews [c] s t ∧ SameMem s t) ∧
  (∀ c s, Does (exec (.reservoirReady c) s) fun t => t.get CREW_TR_STAT.RES_READY c = 1 ∧
    SameRegs [CREW_TR_STAT.RES_READY.key c] s t ∧ SamePhases [] s t ∧ SameCrews [] s t ∧ SameMem s t) ∧
  (∀ c remote loc s, (s.crew c).reg = true → (s.crew c).stopClamp = false → s.flag CREW_TR_CTL.CLAMP_EN c = true →
    s.flag CREW_TR_STAT.CLAMP_ON c = false → (s.crew c).clampWin < 4 →
    s.regTarget c + ((80000 + 20000 * s.get CREW_TR_CTL.OV_TH c : Nat) : Int) < s.sensed c remote loc →
    Does (exec (.overshootClamp c remote loc) s) fun t =>
      t.get CREW_TR_STAT.CLAMP_ON c = 1 ∧ t.get CREW_TR_CNT.CLAMPS c = CREW_TR_CNT.CLAMPS.count (s.get CREW_TR_CNT.CLAMPS c) ∧
      (t.crew c).clampWin = (s.crew c).clampWin + 1 ∧ (t.crew c).clampAt = s.now ∧
      SameRegs ([CREW_TR_STAT.CLAMP_ON.key c, CREW_TR_CNT.CLAMPS.key c] ++ dropKeys) s t ∧ SamePhases [] s t ∧
      SameCrews [c] s t ∧ SameMem s t) ∧
  (∀ c remote loc (s : State), (4 ≤ (s.crew c).clampWin ∨ s.sensed c remote loc ≤ s.regTarget c + (s.ovTh c : Int)) →
    exec (.overshootClamp c remote loc) s = .next s) ∧
  (∀ c remote loc s, s.regTarget c + ((s.ovTh c / 2 : Nat) : Int) ≤ s.sensed c remote loc → s.now < (s.crew c).clampAt + 100 →
    exec (.clampOff c remote loc) s = .next s) ∧
  (∀ c remote loc s, (s.crew c).stopClamp = false →
    (s.sensed c remote loc < s.regTarget c + ((s.ovTh c / 2 : Nat) : Int) ∨ (s.crew c).clampAt + 100 ≤ s.now) →
    Does (exec (.clampOff c remote loc) s) fun t => t.get CREW_TR_STAT.CLAMP_ON c = 0 ∧
    SameRegs [CREW_TR_STAT.CLAMP_ON.key c] s t ∧ SamePhases [] s t ∧ SameCrews [] s t ∧ SameMem s t) ∧
  (∀ c s, Does (exec (.clampWindow c) s) fun t => t.crew c = { s.crew c with clampWin := 0, satRec := false } ∧
    SameRegs [] s t ∧ SamePhases [] s t ∧ SameCrews [c] s t ∧ SameMem s t)

/-- ArmsAndCovers. A delivered ARM replaces the armed stamp of a crew that is up; it is discarded, counted and recorded
where the crew is down or starting, and one whose stamp the crew's own count has reached leaves none armed and is
counted as a skip. In its tick the armed stamp fires a reservoir that is enabled and ready and else skips, counted with
the event "armed firing skipped"; either way it is no longer armed. A delivered cover replaces the cover of each leaf
crew, and one that has expired leaves the crew without a cover (assumption log 52's choice); a cover ends at its
expiry. STAND posts its request, and a monitor's slack is shown. -/
def Obligations.ArmsAndCovers : Prop :=
  (∀ op rest st b s, s.flight = op :: rest → op.kind = .arm st b → op.crews.Nodup →
    (∀ c ∈ op.crews, (s.crew c).calRun = false ∧ s.flag TB_CAL.VALID c = true) → Does (exec .armDelivery s) fun t =>
      t.flight = rest ∧
      (∀ c ∈ op.crews, s.crewDown c = false → s.cst c ≠ 2 → s.crewReached c st = false →
        t.get CREW_TR_STAT.ARM_PEND c = 1 ∧ (t.crew c).arm = some ⟨st, b, 0, false, s.tickStart + 4⟩ ∧
        t.get CREW_TR_CNT.ARM_SKIPS c = s.get CREW_TR_CNT.ARM_SKIPS c) ∧
      (∀ c ∈ op.crews, s.crewDown c = false → s.cst c ≠ 2 → s.crewReached c st = true →
        t.get CREW_TR_STAT.ARM_PEND c = 0 ∧ (t.crew c).arm = none ∧
        t.get CREW_TR_CNT.ARM_SKIPS c = CREW_TR_CNT.ARM_SKIPS.count (s.get CREW_TR_CNT.ARM_SKIPS c)) ∧
      (∀ c ∈ op.crews, (s.crewDown c = true ∨ s.cst c = 2) →
        t.get CREW_TR_STAT.ARM_PEND c = s.get CREW_TR_STAT.ARM_PEND c ∧ (t.crew c).arm = (s.crew c).arm ∧
        t.get CREW_TR_CNT.ARM_SKIPS c = CREW_TR_CNT.ARM_SKIPS.count (s.get CREW_TR_CNT.ARM_SKIPS c)) ∧
      SameRegs (op.crews.map CREW_TR_STAT.ARM_PEND.key ++ op.crews.map CREW_TR_CNT.ARM_SKIPS.key ++ dropKeys) s t ∧
      SamePhases [] s t ∧ SameCrews op.crews s t ∧ SameMem s t) ∧
  (∀ c a s, (s.crew c).arm = some a → s.aidsOn c = true → s.flag CREW_TR_CTL.RES_EN c = true →
    s.flag CREW_TR_STAT.RES_READY c = true → Does (exec (.armedFiring c) s) fun t =>
      (t.crew c).arm = none ∧ t.get CREW_TR_STAT.ARM_PEND c = 0 ∧ t.get CREW_TR_STAT.RES_READY c = 0 ∧
      t.get CREW_TR_CNT.DUMPS c = CREW_TR_CNT.DUMPS.count (s.get CREW_TR_CNT.DUMPS c) ∧
      SameRegs [CREW_TR_STAT.ARM_PEND.key c, CREW_TR_STAT.RES_READY.key c, CREW_TR_CNT.DUMPS.key c] s t ∧ SamePhases [] s t ∧
      SameCrews [c] s t ∧ SameMem s t) ∧
  (∀ c a s, (s.crew c).arm = some a → (s.aidsOn c = false ∨ s.flag CREW_TR_CTL.RES_EN c = false ∨
    s.flag CREW_TR_STAT.RES_READY c = false) → s.room → Does (exec (.armedFiring c) s) fun t =>
      (t.crew c).arm = none ∧ t.get CREW_TR_STAT.ARM_PEND c = 0 ∧
      t.get CREW_TR_CNT.ARM_SKIPS c = CREW_TR_CNT.ARM_SKIPS.count (s.get CREW_TR_CNT.ARM_SKIPS c) ∧
      t.intake = s.intake ++ [s.eventOf 0x0502 1 (crewUnit c)] ∧
      SameRegs [CREW_TR_STAT.ARM_PEND.key c, CREW_TR_CNT.ARM_SKIPS.key c] s t ∧ SamePhases [] s t ∧
      SameCrews [c] s t ∧ SameMem s t) ∧
  (∀ op rest e m s, s.flight = op :: rest → op.kind = .cover e m →
    (∀ c ∈ op.crews, (s.crew c).calRun = false ∧ s.flag TB_CAL.VALID c = true) →
    (∀ x c, e = some x → c ∈ op.crews → s.crewReached c x = false) → (∀ n, m = some n → s.now < n) → Does (exec .coverDelivery s) fun t =>
      t.flight = rest ∧ (∀ c ∈ op.crews, t.get CREW_GB_STAT.COVERED c = 1 ∧
        t.crew c = { s.crew c with cover := some ⟨e.map (fun x => ⟨x, true, 0, false, s.tickStart + 4⟩), m⟩ }) ∧
      SameRegs (op.crews.map CREW_GB_STAT.COVERED.key) s t ∧ SamePhases [] s t ∧ SameCrews op.crews s t ∧ SameMem s t) ∧
  (∀ op rest e m s, s.flight = op :: rest → op.kind = .cover e m →
    (∀ c ∈ op.crews, (s.crew c).calRun = false ∧ s.flag TB_CAL.VALID c = true) →
    ((∃ n, m = some n ∧ n ≤ s.now) ∨ ∃ x, e = some x ∧ ∀ c ∈ op.crews, s.crewReached c x = true) →
    Does (exec .coverDelivery s) fun t =>
      t.flight = rest ∧ (∀ c ∈ op.crews, t.get CREW_GB_STAT.COVERED c = 0 ∧ t.crew c = { s.crew c with cover := none }) ∧
      SameRegs (op.crews.map CREW_GB_STAT.COVERED.key) s t ∧ SamePhases [] s t ∧ SameCrews op.crews s t ∧ SameMem s t) ∧
  (∀ c s, Does (exec (.coverExpiry c) s) fun t => t.get CREW_GB_STAT.COVERED c = 0 ∧
    t.crew c = { s.crew c with cover := none } ∧
    SameRegs [CREW_GB_STAT.COVERED.key c] s t ∧ SamePhases [] s t ∧ SameCrews [c] s t ∧ SameMem s t) ∧
  (∀ op rest k s, s.flight = op :: rest → op.kind = .stand k → k < 2 →
    (∀ c ∈ op.crews, (s.crew c).calRun = false ∧ s.flag TB_CAL.VALID c = true) → Does (exec .standDelivery s) fun t =>
      t.flight = rest ∧ (∀ c ∈ op.crews, t.crew c = { s.crew c with standReq := some k }) ∧ SameRegs [] s t ∧
        SamePhases [] s t ∧
      SameCrews op.crews s t ∧ SameMem s t) ∧
  (∀ op rest s, s.flight = op :: rest → op.kind = .stand 2 → op.crews.Nodup →
    (∀ c ∈ op.crews, (s.crew c).calRun = false ∧ s.flag TB_CAL.VALID c = true ∧ s.cst c = 5 ∧ (s.crew c).standKind = 0 ∧
      s.flag CREW_PWR_STAT.FORCED c = false ∧ (s.plane (planeOf c)).powered = true ∧ s.ramping c = false) →
    Does (exec .standDelivery s) fun t =>
      t.flight = rest ∧ (∀ c ∈ op.crews, t.cst c = 7 ∧ (t.crew c).firstPair = true ∧ (t.crew c).modeReq = some 0) ∧
      SamePhases [] s t ∧ SameCrews op.crews s t ∧ SameMem s t) ∧
  (∀ mon slack s, Does (exec (.ageSlack mon slack) s) fun t =>
    t.get CAP_MON_AGE_SLACK.SLACK mon = unsg CAP_MON_AGE_SLACK.SLACK.width slack ∧
    SameRegs [CAP_MON_AGE_SLACK.SLACK.key mon] s t ∧ SamePhases [] s t ∧ SameCrews [] s t ∧ SameMem s t)

/-- StandDowns. A write of STAND posts the request of its kind; REJOIN brings a PARKed crew of a powered plane back to
REJOINING on interleaved mode, one in its delivery calibration only when that ends, and one whose calibration is not
valid not at all. A shedding crew whose current is gone, or that has shed for 50 µs, parks its phases and
goes to its stand-down: PARK leaves it DOWN, CALIBRATE puts it in simultaneous mode with both inputs on ZERO; before
that it goes on shedding. The end of a calibration, once its open-wire test is over, writes its offsets, wrapped to
their field (assumption log 128's choice), and its record, and rejoins the crew, or lets a STARTING one go on to its
first pair. A plane whose capacity has changed while powered sends the notice of its new capacity where the notice
queue has room. -/
def Obligations.StandDowns : Prop :=
  (∀ m c data s, s.Takes m .CREW_PWR_CTL c data → CREW_PWR_CTL.STAND.ofWord data = 1 → CREW_PWR_CTL.REJOIN.ofWord data = 0 →
    CREW_PWR_CTL.UNLOCK.ofWord data = 0 → Does (exec (.standWrite m c data) s) fun t =>
      (t.crew c).standReq = some (CREW_PWR_CTL.STAND_KIND.ofWord data) ∧
        t.get CREW_PWR_CTL.STAND_KIND c = CREW_PWR_CTL.STAND_KIND.ofWord data ∧
      t.cst c = s.cst c ∧
      SameRegs [CREW_PWR_CTL.STAND_KIND.key c, CREW_PWR_CTL.SS_SLEW.key c, CREW_PWR_CTL.IDLE.key c] s t ∧ SamePhases [] s t ∧
      SameCrews [c] s t ∧ SameMem s t) ∧
  (∀ m c data s, s.Takes m .CREW_PWR_CTL c data → CREW_PWR_CTL.STAND.ofWord data = 0 → CREW_PWR_CTL.REJOIN.ofWord data = 1 →
    CREW_PWR_CTL.UNLOCK.ofWord data = 0 → s.cst c = 5 → (s.crew c).standKind = 0 → s.flag CREW_PWR_STAT.FORCED c = false →
    (s.plane (planeOf c)).powered = true → s.ramping c = false → (s.crew c).calRun = false →
    s.flag TB_CAL.VALID c = true → Does (exec (.rejoin m c data) s) fun t =>
      t.cst c = 7 ∧ t.get CREW_AB_CTL.MODE c = 0 ∧ t.get CREW_H_CTL.MODE c = 0 ∧ (t.crew c).modeReq = some 0 ∧
      (t.crew c).firstPair = true ∧ SamePhases [] s t ∧ SameCrews [c] s t ∧ SameMem s t) ∧
  (∀ m c data s, s.Takes m .CREW_PWR_CTL c data → CREW_PWR_CTL.STAND.ofWord data = 0 → CREW_PWR_CTL.REJOIN.ofWord data = 1 →
    CREW_PWR_CTL.UNLOCK.ofWord data = 0 → s.cst c = 5 → (s.crew c).standKind = 0 → s.flag CREW_PWR_STAT.FORCED c = false →
    (s.plane (planeOf c)).powered = true → s.ramping c = false →
    ((s.crew c).calRun = true ∨ s.flag TB_CAL.VALID c = false) → Does (exec (.rejoin m c data) s) fun t =>
      t.cst c = 5 ∧ (t.crew c).rejoinDue = ((s.crew c).calRun || (s.crew c).rejoinDue) ∧ (t.crew c).reg = (s.crew c).reg ∧
      (t.crew c).modeReq = (s.crew c).modeReq ∧ (t.crew c).firstPair = (s.crew c).firstPair ∧
      SameRegs [CREW_PWR_CTL.STAND_KIND.key c, CREW_PWR_CTL.SS_SLEW.key c, CREW_PWR_CTL.IDLE.key c] s t ∧ SamePhases [] s t ∧
      SameCrews [c] s t ∧ SameMem s t) ∧
  (∀ c s, s.shedOver c = false → s.orderly = false → Does (exec (.sheddingEnd c) s) fun t =>
    SamePhases [] s t ∧ SameCrews [] s t ∧ SameMem s t ∧ t.cst c = s.cst c) ∧
  (∀ c s, s.cst c = 4 → s.shedOver c = true → s.ramping c = false → s.orderly = false →
    s.flag CREW_PWR_STAT.FORCED c = false → (s.crew c).standKind = 0 → Does (exec (.sheddingEnd c) s) fun t =>
    t.cst c = 5 ∧ (t.crew c).reg = false ∧
    (∀ k, k < 8 → (s.phase (8 * c + k)).st ≠ .fused → (s.phase (8 * c + k)).st ≠ .struck → (t.phase (8 * c + k)).st = .idle) ∧
    (((planeCrews (planeOf c)).any fun d => d != c && s.alive d) = true → SamePhases (crewPhases c) s t) ∧ SameMem s t) ∧
  (∀ c s, s.cst c = 4 → s.shedOver c = true → s.ramping c = false → s.orderly = false →
    s.flag CREW_PWR_STAT.FORCED c = false → (s.crew c).standKind = 1 → Does (exec (.sheddingEnd c) s) fun t =>
    t.cst c = 6 ∧ (t.crew c).reg = false ∧ t.get CREW_AB_CTL.MODE c = 1 ∧ t.get CREW_AB_CTL.A_SEL c = 3 ∧
    t.get CREW_AB_CTL.B_SEL c = 3 ∧ (t.crew c).seqCal = true ∧ (t.crew c).calOw = 0 ∧ (t.crew c).modeReq = some 1 ∧
    (((planeCrews (planeOf c)).any fun d => d != c && s.alive d) = true → SamePhases (crewPhases c) s t ∧ SameCrews [c] s t) ∧
    SameMem s t) ∧
  (∀ c a b ind s, ((s.crew c).seqCal = false ∨ (s.crew c).calOw ≠ 2) → exec (.crewCalibrationEnd c a b ind) s = .next s) ∧
  (∀ c a b ind s, (s.crew c).seqCal = true → (s.crew c).calOw = 2 → s.cst c = 2 →
    Does (exec (.crewCalibrationEnd c a b ind) s) fun t =>
      t.get CREW_AB_TRIM.A_OFS c = unsg CREW_AB_TRIM.A_OFS.width a ∧
        t.get CREW_AB_TRIM.B_OFS c = unsg CREW_AB_TRIM.B_OFS.width b ∧
      (t.crew c).calRecord = some (a, b, ind) ∧ t.cst c = 2 ∧ (t.crew c).seqCal = false ∧ (t.crew c).firstPair = true ∧
      (t.crew c).modeReq = some 0 ∧ SamePhases [] s t ∧ SameCrews [c] s t ∧ SameMem s t) ∧
  (∀ c a b ind s, (s.crew c).seqCal = true → (s.crew c).calOw = 2 → s.cst c = 6 → s.flag CREW_PWR_STAT.FORCED c = false →
    Does (exec (.crewCalibrationEnd c a b ind) s) fun t =>
      t.get CREW_AB_TRIM.A_OFS c = unsg CREW_AB_TRIM.A_OFS.width a ∧
        t.get CREW_AB_TRIM.B_OFS c = unsg CREW_AB_TRIM.B_OFS.width b ∧
      (t.crew c).calRecord = some (a, b, ind) ∧ t.cst c = 7 ∧ (t.crew c).seqCal = false ∧ (t.crew c).firstPair = true ∧
      SamePhases (crewPhases c) s t ∧ SameCrews [c] s t ∧ SameMem s t) ∧
  (∀ p s, (s.plane p).powered = true → s.capacity p ≠ (s.plane p).capSent → s.planeDemand p ≤ 1000 * s.capacity p →
    Does (exec (.derate p) s) fun t =>
      t.notices = (if 64 ≤ s.notices.length then s.notices
        else s.notices ++ [⟨1, 0, 0, p, s.stampNow, s.capacity p⟩]) ∧ (t.plane p).capSent = s.capacity p ∧
      (t.plane p).ceiling = none ∧ SamePhases [] s t ∧ SameCrews [] s t ∧ SameMem s t)

/-- PowerOnAndOff. PWRON of a plane that is OFF, neither stopped nor held off and in order, is evaluated: where the draw
is admitted every crew with five usable phases is STARTING, and where it is not the plane is QUEUED. A pending retry
evaluates again with one more try, and starts its plane or queues it; the first queued plane is admitted once the draw
allows it and else stays queued. A soft start whose abort condition has held, with a plane below half of REF, stops its
plane and waits for a retry, or locks the plane at the fourth abort; a plane at half of REF or above, and one that is
shut down or ramps down, goes on. UNLOCK returns a locked plane to OFF. PWROFF of a queued plane takes it out of the
queue, and of a regulating one starts the ramp down. A crew in its delivery calibration holds either operation, and one
whose last calibration is not valid discards it; that a power operation acts on the plane's other crews then is the
model's choice (assumption log 83). -/
def Obligations.PowerOnAndOff : Prop :=
  (∀ op rest p s, s.flight = op :: rest → op.kind = .pwron → op.unit = 0x6C0 + p → p < 32 → s.opsStopped = false →
    s.get ID_FW_STAT.MODE 0 ≠ 2 → (s.fc2.any fun e => (scopeOf e.2.ev).contains p) = false → s.planeOff p = true →
      s.outOfOrder p = false → (s.plane p).heldOff = false → (∀ c ∈ planeCrews p, s.hearsPower c = true) →
    Does (exec .pwronDelivery s) fun t =>
      (∀ c ∈ planeCrews p, t.cst c = (if (s.admits p 0).isSome then (if s.usable c < 5 then 5 else 2) else 1)) ∧
      t.powerQ = (if (s.admits p 0).isSome then s.powerQ else s.powerQ ++ [p]) ∧
      (t.plane p).powered = ((s.admits p 0).isSome || (s.plane p).powered) ∧ SameMem s t) ∧
  (∀ p rest s, s.powerQ = p :: rest → p ∉ rest → (∀ c ∈ planeCrews p, s.hearsPower c = true) →
    Does (exec .queueReevaluation s) fun t =>
    (if (s.admits p 0).isSome then p ∉ t.powerQ ∧ (∀ c ∈ planeCrews p, t.cst c = (if s.usable c < 5 then 5 else 2)) ∧
        (t.plane p).powered = true
      else p ∈ t.powerQ ∧ ∀ c ∈ planeCrews p, t.cst c = s.cst c) ∧ SameMem s t) ∧
  (∀ c remote loc d k u s, (s.crew c).softStart = true → 1000000 < s.get CREW_SP_REF.REF c →
    2 * s.sensed c remote loc < (s.get CREW_SP_REF.REF c : Int) → (s.plane (planeOf c)).shutIssued = false → s.ramping c = false →
    d ∈ planeCrews (planeOf c) → k < 8 → (s.phase (8 * d + k)).tripAt = some u → s.now ≤ u + 5000 →
    Does (exec (.softStartAbort c remote loc) s) fun t =>
      (∀ e ∈ planeCrews (planeOf c), t.cst e = (if 3 ≤ (s.plane (planeOf c)).tries then 9 else 8) ∧ (t.crew e).reg = false ∧
        t.get CREW_SP_REF.REF e = 0) ∧
      (t.plane (planeOf c)).retry = decide ((s.plane (planeOf c)).tries < 3) ∧ SameMem s t) ∧
  (∀ c remote loc s, ((s.get CREW_SP_REF.REF c : Int) ≤ 2 * s.sensed c remote loc ∨
    (s.plane (planeOf c)).shutIssued = true ∨ s.ramping c = true) → exec (.softStartAbort c remote loc) s = .next s) ∧
  (∀ p s, (s.plane p).retry = true → (s.admits p 0).isSome = true → (∀ c ∈ planeCrews p, s.hearsPower c = true) →
    Does (exec (.powerOnRetry p) s) fun t =>
    (t.plane p).tries = (s.plane p).tries + 1 ∧ (t.plane p).retry = false ∧
    (∀ c ∈ planeCrews p, t.cst c = (if s.usable c < 5 then 5 else 2) ∧
      t.get CREW_PWR_STAT.TRIES c = ((s.plane p).tries + 1) % 4) ∧ SameMem s t) ∧
  (∀ p s, (s.plane p).retry = true → s.admits p 0 = none → (∀ c ∈ planeCrews p, s.hearsPower c = true) →
    Does (exec (.powerOnRetry p) s) fun t =>
    (t.plane p).tries = (s.plane p).tries + 1 ∧ (t.plane p).retry = false ∧ t.powerQ = s.powerQ ++ [p] ∧
    (∀ c ∈ planeCrews p, t.cst c = 1 ∧ t.get CREW_PWR_STAT.TRIES c = ((s.plane p).tries + 1) % 4) ∧
    SamePhases [] s t ∧ SameMem s t) ∧
  (∀ m c data s, s.Takes m .CREW_PWR_CTL c data → CREW_PWR_CTL.STAND.ofWord data = 0 → CREW_PWR_CTL.REJOIN.ofWord data = 0 →
    CREW_PWR_CTL.UNLOCK.ofWord data = 1 → s.cst c = 9 → Does (exec (.unlock m c data) s) fun t =>
      (∀ d ∈ planeCrews (planeOf c), t.cst d = 0 ∧ t.get CREW_PWR_STAT.TRIES d = 0) ∧ (t.plane (planeOf c)).tries = 0 ∧
      (t.plane (planeOf c)).powered = false ∧ SamePhases [] s t ∧ SameCrews [] s t ∧ SameMem s t) ∧
  (∀ op rest p s, s.flight = op :: rest → op.kind = .pwroff → op.unit = 0x6C0 + p → p < 32 →
    (∀ c ∈ planeCrews p, s.cst c = 1 ∧ s.hearsPower c = true) → Does (exec .pwroffDelivery s) fun t =>
      (∀ c ∈ planeCrews p, t.cst c = 0) ∧ p ∉ t.powerQ ∧ (t.plane p).powered = false ∧ SamePhases [] s t ∧ SameMem s t) ∧
  (∀ op rest p s, s.flight = op :: rest → op.kind = .pwroff → op.unit = 0x6C0 + p → p < 32 → (s.plane p).powered = true →
    (s.plane p).ramp = .none → (∀ c ∈ planeCrews p, s.cst c = 3 ∧ (s.crew c).reg = true) →
    Does (exec .pwroffDelivery s) fun t =>
      (t.plane p).ramp = .pwroff ∧ (∀ c ∈ planeCrews p, t.cst c = 3 ∧ (t.crew c).reg = true) ∧ SamePhases [] s t ∧
        SameMem s t) ∧
  (∀ op rest p c s, s.flight = op :: rest → op.kind = .pwron → op.unit = 0x6C0 + p → p < 32 → c ∈ planeCrews p →
    s.hearsPower c = false → Does (exec .pwronDelivery s) fun t =>
      t.flight = rest ∧ t.cst c = s.cst c ∧ (t.crew c).heldOps = (if (s.crew c).calRun then
        (s.crew c).heldOps ++ [⟨op, op.kind.held (s.tickStart + 4)⟩] else (s.crew c).heldOps) ∧ SameMem s t) ∧
  (∀ op rest p c s, s.flight = op :: rest → op.kind = .pwroff → op.unit = 0x6C0 + p → p < 32 → c ∈ planeCrews p →
    s.hearsPower c = false → Does (exec .pwroffDelivery s) fun t =>
      t.flight = rest ∧ t.cst c = s.cst c ∧ (t.crew c).heldOps = (if (s.crew c).calRun then
        (s.crew c).heldOps ++ [⟨op, op.kind.held (s.tickStart + 4)⟩] else (s.crew c).heldOps) ∧ SameMem s t)

/-- MarksRecorderAndCopies. A strobe, when none waits, is issued for the next mark number with the PERIOD in force,
numbered where SYNC + 1 divides the number, and takes the histogram clears that pend. The mark whose strobe waits
begins at the present instant with its length and number: the mark before joins the past lengths, the clears act with
the mark's number (at a numbered strobe every crew's is the mark's, at another a strayed crew's is its own), and a further clear of a crew listed twice still pends, each region shows the
stretches of the mark before, and their counts start anew. A mark's clear of a crew's histograms leaves every bin of
both at 0. A read of REC_WIN7 answers with word 7 of the record that the window shows, and with AUTO set moves CUR to
the next number, which is never 0; without AUTO it changes nothing. The oldest open snapshot completes with its
records, those of missing crews read as of a crew that is off, and TB_SNAP shows its mark. A request that finds no
copy running starts one. A copy whose words the region registers permit and whose banks are online is written from its
pointer on, byte for byte, to no other byte, and ends without error. -/
def Obligations.MarksRecorderAndCopies : Prop :=
  (∀ s, s.strobe = none → Does (exec .markStrobe s) fun t =>
    t.strobe = some ((s.markNo + 1) % 2 ^ 32, s.get TB_CTL.PERIOD 0,
      decide ((s.markNo + 1) % 2 ^ 32 % (s.get TB_CTL.SYNC 0 + 1) = 0)) ∧
    t.histDue = allCrews.filter (fun c => s.flag CREW_HIST_CTL.CLR_PEND c) ∧ t.markStart = s.markStart ∧
    SameRegs [] s t ∧ SamePhases [] s t ∧ SameCrews [] s t ∧ SameMem s t) ∧
  (∀ slips m len nb s, s.strobe = some (m, len, nb) → Does (exec (.markBegin slips) s) fun t =>
    t.markNo = m % 2 ^ 32 ∧ t.markStart = s.now ∧ t.markLen = len ∧ t.strobe = none ∧
    t.pastLens = s.markLen :: s.pastLens ∧ t.histDue = [] ∧ t.strDroops = [] ∧ t.strAligns = [] ∧
    (∀ c ∈ s.histDue, t.get CREW_HIST_CTL.CLR_PEND c = (if 1 < s.histDue.count c then 1 else 0) ∧
      (c < 192 → t.get CREW_HIST_MARK.MARK c =
        (if nb then m else ((crewCount slips s c).crew c).strayed.getD m) % 2 ^ 32)) ∧
    (∀ r, r < 24 → t.get MSH_STR_MARK.DROOP r = tget 0 s.strDroops r % 2 ^ MSH_STR_MARK.DROOP.width ∧
      t.get MSH_STR_MARK.ALIGN r = tget 0 s.strAligns r % 2 ^ MSH_STR_MARK.ALIGN.width) ∧ SamePhases [] s t ∧ SameMem s t) ∧
  (∀ slips m len nb c s, s.strobe = some (m, len, nb) → c ∈ s.histDue →
    (∀ b, b < 64 → flook s.fuse (CREW_HIST_V.COUNT.key (64 * c + b)) = none ∧
      flook s.fuse (CREW_HIST_T.COUNT.key (64 * c + b)) = none) →
    Does (exec (.markBegin slips) s) fun t => ∀ b, b < 64 →
      t.get CREW_HIST_V.COUNT (64 * c + b) = 0 ∧ t.get CREW_HIST_T.COUNT (64 * c + b) = 0) ∧
  (∀ m s, s.Reads m .REC_WIN 7 → Does (exec (.recWin7Read m 4) s) fun t =>
    t.resp = ⟨false, s.regWord .REC_WIN 7⟩ ∧
    t.get REC_CUR.SEQ 0 = (if s.flag REC_CTL.AUTO 0 then nextSeq (s.get REC_CUR.SEQ 0) else s.get REC_CUR.SEQ 0) ∧
    SameRegs (if s.flag REC_CTL.AUTO 0 then [REC_CUR.SEQ.key 0] else []) s t ∧ SamePhases [] s t ∧ SameCrews [] s t ∧
      SameMem s t) ∧
  (∀ missing m len recs rest s, s.snaps = (m, len, recs) :: rest → Does (exec (.snapshotComplete missing) s) fun t =>
    t.snaps = rest ∧ t.get TB_SNAP.MARK 0 = m % 2 ^ 32 ∧
    (∀ c, c < 192 → t.snap c = if missing.contains c then {} else recs.getD c {}) ∧
    SameRegs (TB_SNAP.MARK.key 0 :: dropKeys) s t ∧ SamePhases [] s t ∧ SameMem s t) ∧
  (∀ m data s, s.Takes m .TB_SNAP_CTL 0 data → TB_SNAP_CTL.REQ.ofWord data = 1 → Does (exec (.snapshotReq m data) s) fun t =>
    t.get TB_SNAP_CTL.PTR 0 = TB_SNAP_CTL.PTR.ofWord data ∧
    (s.flag TB_SNAP_CTL.BUSY 0 = false → t.get TB_SNAP_CTL.BUSY 0 = 1) ∧
    SameRegs [TB_SNAP_CTL.PTR.key 0, TB_SNAP_CTL.BUSY.key 0, TB_SNAP_CTL.ERR.key 0] s t ∧ SamePhases [] s t ∧
    SameCrews [] s t ∧ SameMem s t) ∧
  (∀ m len recs s, s.Inv → s.snapData = some (m, len, recs) → recs.length = 192 →
    s.offline (0x400000 + 8 * s.get TB_SNAP_CTL.PTR 0) = false →
      s.offline (0x400000 + 8 * s.get TB_SNAP_CTL.PTR 0 + 3087) = false →
    (∀ k, k < 386 → inCM (0x400000 + 8 * s.get TB_SNAP_CTL.PTR 0 + 8 * k) = true ∧
      s.permitted 3 (0x400000 + 8 * s.get TB_SNAP_CTL.PTR 0 + 8 * k) 8 false true = true) →
    Does (exec .snapshotCopy s) fun t =>
      t.snapData = none ∧ t.get TB_SNAP_CTL.BUSY 0 = 0 ∧
      (∀ k, k < 3088 → mget 0 t.mem (0x400000 + 8 * s.get TB_SNAP_CTL.PTR 0 + k) = (snapBytes m len recs).getD k 0) ∧
      (∀ a, a < 0x400000 + 8 * s.get TB_SNAP_CTL.PTR 0 ∨ 0x400000 + 8 * s.get TB_SNAP_CTL.PTR 0 + 3088 ≤ a →
        mget 0 t.mem a = mget 0 s.mem a) ∧
      SameRegs [TB_SNAP_CTL.BUSY.key 0] s t ∧ SamePhases [] s t ∧ SameCrews [] s t)

/-- CalibrationRequests. HIST_CLR asks for the clear of every crew's histograms and CLEAR for one crew's. A calibration of
all crews is accepted only where none runs, every crew is OFF and ONE is not set, and one of a crew only where it is
OFF or DOWN; a request that is not accepted sets CAL_ERR, leaves CREW and starts none. A crew's calibration with eight
round trips that lie close together and a delivery of at most 56 sub-ticks ends valid with HOLD 64 − D; any other ends
failed with HOLD 0. The crew is no longer being calibrated and holds no operation; one that was to rejoin meanwhile
rejoins then, where its calibration is valid. -/
def Obligations.CalibrationRequests : Prop :=
  (∀ m data s, s.Takes m .TB_CTL 0 data → TB_CTL.HIST_CLR.ofWord data = 1 → Does (exec (.histClr m data) s) fun t =>
    (∀ c, c < 192 → t.get CREW_HIST_CTL.CLR_PEND c = 1) ∧ SamePhases [] s t ∧ SameCrews [] s t ∧ SameMem s t ∧
    SameRegs (allCrews.map CREW_HIST_CTL.CLR_PEND.key ++ [TB_CTL.PERIOD.key 0, TB_CTL.SYNC.key 0, TB_STAT.CFG_ERR.key 0]) s t) ∧
  (∀ m c data s, s.Takes m .CREW_HIST_CTL c data → CREW_HIST_CTL.CLEAR.ofWord data = 1 →
    Does (exec (.histClear m c data) s) fun t =>
    t.get CREW_HIST_CTL.CLR_PEND c = 1 ∧ t.get CREW_HIST_CTL.V_EN c = CREW_HIST_CTL.V_EN.ofWord data ∧
    t.get CREW_HIST_CTL.T_EN c = CREW_HIST_CTL.T_EN.ofWord data ∧
    SameRegs [CREW_HIST_CTL.CLR_PEND.key c, CREW_HIST_CTL.V_EN.key c, CREW_HIST_CTL.T_EN.key c] s t ∧ SamePhases [] s t ∧
    SameCrews [] s t ∧ SameMem s t) ∧
  (∀ m data s, s.Takes m .TB_CAL_CTL 0 data → TB_CAL_CTL.ALL.ofWord data = 1 → Does (exec (.calAll m data) s) fun t =>
    (if s.flag TB_STAT.CAL_BUSY 0 = false ∧ TB_CAL_CTL.ONE.ofWord data = 0 ∧ allCrews.all (fun d => s.cst d == 0) = true then
      t.get TB_STAT.CAL_BUSY 0 = 1 ∧ t.calQ = allCrews ∧ (t.crew 0).calRun = true ∧
        t.get TB_STAT.CAL_ERR 0 = s.get TB_STAT.CAL_ERR 0
      else t.get TB_STAT.CAL_ERR 0 = 1 ∧ t.get TB_CAL_CTL.CREW 0 = s.get TB_CAL_CTL.CREW 0 ∧ t.calQ = s.calQ ∧
        SameCrews [] s t) ∧
    SameRegs [TB_CAL_CTL.CREW.key 0, TB_STAT.CAL_BUSY.key 0, TB_STAT.CAL_ERR.key 0] s t ∧ SamePhases [] s t ∧ SameMem s t) ∧
  (∀ m data s, s.Takes m .TB_CAL_CTL 0 data → TB_CAL_CTL.ALL.ofWord data = 0 → TB_CAL_CTL.ONE.ofWord data = 1 →
    Does (exec (.calOne m data) s) fun t =>
      (if s.flag TB_STAT.CAL_BUSY 0 = false ∧ TB_CAL_CTL.CREW.ofWord data ≤ 191 ∧
        s.cst (TB_CAL_CTL.CREW.ofWord data) ∈ [0, 5] then
        t.get TB_STAT.CAL_BUSY 0 = 1 ∧ t.calQ = [TB_CAL_CTL.CREW.ofWord data] ∧
          (t.crew (TB_CAL_CTL.CREW.ofWord data)).calRun = true
        else t.get TB_STAT.CAL_ERR 0 = 1 ∧ t.get TB_CAL_CTL.CREW 0 = s.get TB_CAL_CTL.CREW 0 ∧ t.calQ = s.calQ ∧
          SameCrews [] s t) ∧
      SameRegs [TB_CAL_CTL.CREW.key 0, TB_STAT.CAL_BUSY.key 0, TB_STAT.CAL_ERR.key 0] s t ∧ SamePhases [] s t ∧ SameMem s t) ∧
  (∀ c rtts ph s, (s.crew c).calRun = true → (s.crew c).heldOps = [] → rtts.length = 8 →
    ceilDiv (ceilDiv (sumN rtts) 8) 2 ≤ 56 → maxN rtts - (minN rtts).getD 0 ≤ 4 → maxN rtts ≤ 255 →
    Does (exec (.deliveryCalibrationEnd c rtts ph) s) fun t =>
      t.get TB_CAL.VALID c = 1 ∧ t.get TB_CAL.FAIL c = 0 ∧ t.get TB_CAL.HOLD c = 64 - ceilDiv (ceilDiv (sumN rtts) 8) 2 ∧
      t.get TB_CAL.RTT c = ceilDiv (sumN rtts) 8 ∧ t.get TB_CAL.PHASE c = ph % 4 ∧ t.calQ = s.calQ.filter (· != c) ∧
      (t.crew c).calRun = false ∧ SamePhases [] s t ∧ SameMem s t) ∧
  (∀ c rtts ph s, (s.crew c).calRun = true → (s.crew c).heldOps = [] →
    (rtts.length ≠ 8 ∨ 56 < ceilDiv (ceilDiv (sumN rtts) 8) 2 ∨ 4 < maxN rtts - (minN rtts).getD 0 ∨ 255 < maxN rtts) →
    Does (exec (.deliveryCalibrationEnd c rtts ph) s) fun t =>
      t.get TB_CAL.VALID c = 0 ∧ t.get TB_CAL.FAIL c = 1 ∧ t.get TB_CAL.HOLD c = 0 ∧ (t.crew c).calRun = false ∧
      SamePhases [] s t ∧ SameMem s t) ∧
  (∀ c rtts ph s, (s.crew c).calRun = true → (s.crew c).heldOps = [] → (s.crew c).rejoinDue = true → s.cst c = 5 →
    s.flag CREW_PWR_STAT.FORCED c = false → (s.plane (planeOf c)).powered = true → s.ramping c = false →
    rtts.length = 8 → ceilDiv (ceilDiv (sumN rtts) 8) 2 ≤ 56 → maxN rtts - (minN rtts).getD 0 ≤ 4 → maxN rtts ≤ 255 →
    Does (exec (.deliveryCalibrationEnd c rtts ph) s) fun t =>
      t.cst c = 7 ∧ (t.crew c).rejoinDue = false ∧ (t.crew c).modeReq = some 0 ∧ SamePhases [] s t ∧ SameMem s t)

/-- CaptureStreams. ARM = 1 of a stream that does not run starts it anew, with slots from 128 ns on and the mark of its last
gap event kept, or where its settings are refused sets CFG_ERR and leaves it IDLE; ARM = 0 of one that runs closes its bitstream; FIRE triggers a running
SOFT stream; the trigger takes effect at the next slot and a TRIGGERED-mode stream counts on; a block of 64 samples is
coded behind the bits so far, and fewer before a gap that is over as SHORT with the gap's count; a full page goes to
the buffer, payload and header: its number; the place of its first code, the source and the crew; that code's mark; its
tick and half, the trigger, the coding and K. The header shows the first code that starts in the page (assumption log
50's choice; where none starts, a free value). Where the region registers refuse the page the stream is in ERROR with
the event "capture stopped", and none of the page is written (assumption logs 14 and 19). -/
def Obligations.CaptureStreams : Prop :=
  (∀ m st data s, s.Takes m .CAP_MON_SCTL st data → CAP_MON_SCTL.ARM.ofWord data = 1 → s.streaming st = false →
    (storeFields .CAP_MON_SCTL st (data % 2 ^ 32) s).armRefused st = false → Does (exec (.captureArm m st data) s) fun t =>
      t.get CAP_MON_SSTAT.STATE st = 1 ∧ t.get CAP_MON_SSTAT.NEXT st = 0 ∧ t.get CAP_MON_SSEQ.PAGE_SEQ st = 0 ∧
      t.get CAP_MON_SCTL.ARM st = 1 ∧ t.get CAP_MON_SCTL.CREW st = CAP_MON_SCTL.CREW.ofWord data ∧
        t.stream st = { from_ := s.now + 64, gapMark := (s.stream st).gapMark } ∧
      SamePhases [] s t ∧ SameCrews [] s t ∧ SameMem s t) ∧
  (∀ m st data s, s.Takes m .CAP_MON_SCTL st data → CAP_MON_SCTL.ARM.ofWord data = 1 → s.streaming st = false →
    (storeFields .CAP_MON_SCTL st (data % 2 ^ 32) s).armRefused st = true → Does (exec (.captureArm m st data) s) fun t =>
      t.get CAP_MON_SSTAT.CFG_ERR st = 1 ∧ t.get CAP_MON_SSTAT.STATE st = 0 ∧ t.streams = s.streams ∧
      SameRegs [CAP_MON_SSTAT.CFG_ERR.key st, CAP_MON_SSTAT.STATE.key st] s t ∧
      SamePhases [] s t ∧ SameCrews [] s t ∧ SameMem s t) ∧
  (∀ m st data s, s.Takes m .CAP_MON_SCTL st data → CAP_MON_SCTL.ARM.ofWord data = 0 → s.streaming st = true →
    Does (exec (.captureStop m st data) s) fun t =>
      t.get CAP_MON_SCTL.ARM st = 0 ∧ t.stream st = { s.stream st with closing := true } ∧
      SameRegs [CAP_MON_SCTL.ARM.key st] s t ∧ SamePhases [] s t ∧ SameCrews [] s t ∧ SameMem s t) ∧
  (∀ m st data s, s.Takes m .CAP_MON_STRIG st data → CAP_MON_STRIG.FIRE.ofWord data = 1 → s.get CAP_MON_SSTAT.STATE st = 1 →
    s.get CAP_MON_STRIG.TSRC st = 0 → Does (exec (.captureFire m st data) s) fun t =>
      t.stream st = { s.stream st with trigReq := true } ∧ SameRegs [] s t ∧ SamePhases [] s t ∧ SameCrews [] s t ∧
        SameMem s t) ∧
  (∀ st s, s.get CAP_MON_SSTAT.STATE st = 1 → (s.stream st).trigged = false → (s.stream st).trigReq = true →
    Does (exec (.captureTrigger st) s) fun t =>
      t.stream st = { s.stream st with trigReq := false, trigged := true, trigNext := true } ∧
      t.get CAP_MON_SSTAT.STATE st = (if s.get CAP_MON_SCTL.MODE st = 2 then 2 else 1) ∧
      SameRegs [CAP_MON_SSTAT.STATE.key st] s t ∧ SamePhases [] s t ∧ SameCrews [] s t ∧ SameMem s t) ∧
  (∀ st xs rest s, s.streaming st = true → (s.stream st).ended = false → (s.stream st).closing = false →
    frontSamples 64 (s.stream st).slots = (xs, rest) → xs.length = 64 → Does (exec (.captureBlock st) s) fun t =>
      (t.stream st).bits = (s.stream st).bits ++ dataBlock (srcWidth (s.get CAP_MON_SCTL.SRC st))
        (if s.flag CAP_MON_SCTL.CODING st then s.get CAP_MON_SCTL.K st + 1 else 0) (xs.map (·.1)) ∧
      (t.stream st).slots = rest ∧ (t.stream st).ended = false ∧
      SameRegs [CAP_MON_SSTAT.TRIG_PAGE.key st] s t ∧ SamePhases [] s t ∧ SameCrews [] s t ∧ SameMem s t) ∧
  (∀ st x xs n g e l s, s.streaming st = true → (s.stream st).ended = false → (s.stream st).closing = false →
    frontSamples 64 (s.stream st).slots = (x :: xs, .missed n g :: e :: l) → xs.length < 63 →
    Does (exec (.captureBlock st) s) fun t =>
      (t.stream st).bits = (s.stream st).bits ++ (bitsOf 4 15 ++ bitsOf 4 2 ++ bitsOf 6 (xs.length + 1)) ++
        dataBlock (srcWidth (s.get CAP_MON_SCTL.SRC st))
          (if s.flag CAP_MON_SCTL.CODING st then s.get CAP_MON_SCTL.K st + 1 else 0) ((x :: xs).map (·.1)) ++ gapMarker n ∧
      (t.stream st).slots = e :: l ∧ SameRegs [CAP_MON_SSTAT.TRIG_PAGE.key st] s t ∧ SamePhases [] s t ∧
        SameCrews [] s t ∧ SameMem s t) ∧
  (∀ st s, s.Inv → s.streaming st = true → 8064 ≤ (s.stream st).bits.length →
    s.offline (0x400000 + 1024 * (s.get CAP_MON_SBUF.BASE st + s.get CAP_MON_SSTAT.NEXT st)) = false →
    s.permitted 3 (0x400000 + 1024 * (s.get CAP_MON_SBUF.BASE st + s.get CAP_MON_SSTAT.NEXT st) + 16) 8 false true = true →
    Does (exec (.capturePage st) s) fun t =>
      (∀ k, k < 1008 → mget 0 t.mem (0x400000 + 1024 * (s.get CAP_MON_SBUF.BASE st + s.get CAP_MON_SSTAT.NEXT st) + 16 + k) =
        (payload (s.stream st).bits).getD k 0) ∧
      (∀ a, a < 0x400000 + 1024 * (s.get CAP_MON_SBUF.BASE st + s.get CAP_MON_SSTAT.NEXT st) ∨
        0x400000 + 1024 * (s.get CAP_MON_SBUF.BASE st + s.get CAP_MON_SSTAT.NEXT st) + 1024 ≤ a →
        mget 0 t.mem a = mget 0 s.mem a) ∧
      (t.stream st).bits = (s.stream st).bits.drop 8064 ∧ (t.stream st).paged = (s.stream st).paged + 8064 ∧
      SamePhases [] s t ∧ SameCrews [] s t) ∧
  (∀ st a o m h s, s.Inv → s.streaming st = true → 8064 ≤ (s.stream st).bits.length →
    a = 0x400000 + 1024 * (s.get CAP_MON_SBUF.BASE st + s.get CAP_MON_SSTAT.NEXT st) → s.offline a = false →
    s.permitted 3 (a + 16) 8 false true = true →
    (s.stream st).starts.find? (fun x => decide (x.1 < (s.stream st).paged + 8064)) = some (o, some (m, h)) →
    Does (exec (.capturePage st) s) fun t =>
      t.rd 4 a = (s.stream st).paged / 8064 % 2 ^ 32 ∧
      t.rd 4 (a + 4) = ((o - (s.stream st).paged) * 2 ^ 16 + s.get CAP_MON_SCTL.SRC st * 2 ^ 8 + s.get CAP_MON_SCTL.CREW st) %
        2 ^ 32 ∧
      t.rd 4 (a + 8) = m.mark % 2 ^ 32 ∧
      t.rd 4 (a + 12) = ((m.tick % 256 * 2 + h.toNat) * 2 ^ 23 +
        (if (s.stream st).trigSeq = some ((s.stream st).paged / 8064) then 2 ^ 22 else 0) +
        s.get CAP_MON_SCTL.CODING st * 2 ^ 21 + s.get CAP_MON_SCTL.K st * 2 ^ 19) % 2 ^ 32) ∧
  (∀ st s, s.streaming st = true → 8064 ≤ (s.stream st).bits.length →
    s.offline (0x400000 + 1024 * (s.get CAP_MON_SBUF.BASE st + s.get CAP_MON_SSTAT.NEXT st)) = false →
    s.permitted 3 (0x400000 + 1024 * (s.get CAP_MON_SBUF.BASE st + s.get CAP_MON_SSTAT.NEXT st) + 16) 8 false true = false →
    s.room → Does (exec (.capturePage st) s) fun t =>
      t.get CAP_MON_SSTAT.STATE st = 4 ∧ t.streams = s.streams ∧
      t.intake = s.intake ++ [s.eventOf 0x0B04 0 0 st
        (0x400000 + 1024 * (s.get CAP_MON_SBUF.BASE st + s.get CAP_MON_SSTAT.NEXT st) + 16)] ∧
      SameRegs [CAP_MON_SSTAT.STATE.key st] s t ∧ SamePhases [] s t ∧ SameCrews [] s t ∧ SameMem s t)

/-- ArithmeticResults. An arithmetic instruction that acts writes its register with the result that the table "Arithmetic
operations" gives, wrapped to 32 bits or for MULQ saturated; its context goes on, and nothing else changes: no other
register, no predicate, no other context, crew, phase, memory byte or register field but a lane's issue counter. -/
def Obligations.ArithmeticResults : Prop :=
  (∀ n s, s.Issues n 0x10 → Does (exec (.movi n) s) (WritesReg n (s.word n).rd (s.word n).imm s)) ∧
  (∀ n s, s.Issues n 0x11 → Does (exec (.mov n) s) (WritesReg n (s.word n).rd (s.vreg n (s.word n).rs) s)) ∧
  (∀ n s, s.Issues n 0x12 → Does (exec (.add n) s)
    (WritesReg n (s.word n).rd (s.vreg n (s.word n).rs + (s.word n).b (s.ctx n)) s)) ∧
  (∀ n s, s.Issues n 0x13 → Does (exec (.sub n) s)
    (WritesReg n (s.word n).rd (unsg 32 ((s.vreg n (s.word n).rs : Int) - (s.word n).b (s.ctx n))) s)) ∧
  (∀ n s, s.Issues n 0x14 → Does (exec (.mulq n) s) (WritesReg n (s.word n).rd
    (unsg 32 (sat32 (asr (sgn 32 (s.vreg n (s.word n).rs) * (s.word n).bMul (s.ctx n)) (bits (s.word n).imm 4 0)))) s)) ∧
  (∀ n s, s.Issues n 0x15 → Does (exec (.shr n) s)
    (WritesReg n (s.word n).rd (s.vreg n (s.word n).rs / 2 ^ ((s.word n).b (s.ctx n) % 32)) s)) ∧
  (∀ n s, s.Issues n 0x16 → Does (exec (.shl n) s)
    (WritesReg n (s.word n).rd (s.vreg n (s.word n).rs * 2 ^ ((s.word n).b (s.ctx n) % 32)) s)) ∧
  (∀ n s, s.Issues n 0x17 → Does (exec (.and n) s)
    (WritesReg n (s.word n).rd (Nat.land (s.vreg n (s.word n).rs) ((s.word n).b (s.ctx n))) s)) ∧
  (∀ n s, s.Issues n 0x18 → Does (exec (.or n) s)
    (WritesReg n (s.word n).rd (Nat.lor (s.vreg n (s.word n).rs) ((s.word n).b (s.ctx n))) s)) ∧
  (∀ n s, s.Issues n 0x1A → Does (exec (.min n) s) fun t => ∃ v, WritesReg n (s.word n).rd v s t ∧
    sgn 32 v = min (sgn 32 (s.vreg n (s.word n).rs)) (sgn 32 ((s.word n).b (s.ctx n)))) ∧
  (∀ n s, s.Issues n 0x1B → Does (exec (.max n) s) fun t => ∃ v, WritesReg n (s.word n).rd v s t ∧
    sgn 32 v = max (sgn 32 (s.vreg n (s.word n).rs)) (sgn 32 ((s.word n).b (s.ctx n)))) ∧
  (∀ n s, s.Issues n 0x1C → Does (exec (.clamp n) s) (WritesReg n (s.word n).rd
    (unsg 32 (min (max (sgn 32 (s.vreg n (s.word n).rs)) ((s.word n).clampLo (s.ctx n))) ((s.word n).clampHi (s.ctx n)))) s))

/-- CompareConditions. CMP writes the predicate of RD[1:0] with the condition that UNIT[3:1] selects from the table "CMP
conditions": EQ, NE, LT, GE, LTU, GEU, and SER_LT by the sign of the wrapped difference, the order of R194 for marks;
the context goes on, and no register and no other predicate changes. -/
def Obligations.CompareConditions : Prop :=
  (∀ n s, s.Issues n 0x19 → Does (exec (.cmp n) s) fun t => GoesOn n s t ∧ IssueFrame n [] s t ∧
    (∀ k, k < 16 → t.vreg n k = s.vreg n k) ∧ (∀ k, k < 4 → k ≠ (s.word n).rd % 4 → (t.ctx n).p k = (s.ctx n).p k) ∧
    (∀ code a b p, code = bits (s.word n).unit 3 1 → a = s.vreg n (s.word n).rs → b = (s.word n).b (s.ctx n) →
      p = (t.ctx n).p ((s.word n).rd % 4) →
      (code = 0 → p = decide (a = b)) ∧ (code = 1 → p = decide (a ≠ b)) ∧ (code = 2 → p = decide (sgn 32 a < sgn 32 b)) ∧
      (code = 3 → p = decide (sgn 32 b ≤ sgn 32 a)) ∧ (code = 4 → p = decide (a < b)) ∧ (code = 5 → p = decide (b ≤ a)) ∧
      (code = 6 → p = decide (sgn 32 (unsg 32 ((a : Int) - b)) < 0)) ∧
      (code = 6 → a < 2 ^ 32 → b < 2 ^ 32 → (a + 2 ^ 32 - b) % 2 ^ 32 ≠ 2 ^ 31 → p = markLater b a) ∧
      (code = 7 → p = false)))

/-- HaltYieldNop. HALT takes a lane to HALTED and signals the supervisor contexts; a supervisor context it puts into a
wait without end, with no event. YIELD restarts a lane's watchdog and does nothing in a supervisor context. NOP does
nothing. Each takes one issue. An instruction whose predicate is false takes its issue opportunity, goes on, and does
nothing else. -/
def Obligations.HaltYieldNop : Prop :=
  (∀ n s, s.Issues n 0x01 → n < 8 → Does (exec (.halt n) s) fun t =>
    t.lst n = 5 ∧ GoesOn n s t ∧ (t.ctx n).regs = (s.ctx n).regs ∧ (t.ctx n).preds = (s.ctx n).preds ∧
    (∀ k, 8 ≤ k → k < 12 → bitAt (t.get LANE_SIG.SIG k) 8 = true) ∧ t.intake = s.intake ∧
    IssueFrame n (LANE_STAT.STATE.key n :: [8, 9, 10, 11].map LANE_SIG.SIG.key) s t) ∧
  (∀ n s, s.Issues n 0x01 → 8 ≤ n → Does (exec (.halt n) s) fun t => WaitsFor n .endless 0 0 s t ∧ t.intake = s.intake ∧
    exec (.waitEnd n) t = .next t) ∧
  (∀ n s, s.Issues n 0x02 → Does (exec (.yield n) s) fun t => WritesNone n s t ∧
    t.lanes = (if n < 8 then tset s.lanes n { s.lane n with wdogAt := s.now } else s.lanes)) ∧
  (∀ n s, s.Issues n 0x00 → Does (exec (.nop n) s) fun t => WritesNone n s t ∧ t.lanes = s.lanes ∧ t.intake = s.intake ∧
    t.flight = s.flight) ∧
  (∀ i n op s, issueOf i = some (n, op) → s.canIssue n = true → s.fetch n = (s, true) → (s.word n).op = op →
    (n < 8 → op < 0x60) → (s.word n).predBad = false → (s.word n).acts (s.ctx n).preds = false →
    Does (exec i s) fun t => WritesNone n s t ∧ t.intake = s.intake ∧ t.flight = s.flight)

/-- BranchesAndCalls. BR goes to its target, BRC where its predicate agrees with NEG; CALL keeps its own index, which is
as good as pc + 1 since RET goes on behind it (an end of a loop there closes it); a RET with an empty stack halts a
lane and faults a supervisor context, as does a supervisor target past the store, which is read from the whole operand
(assumption log 26's reading). LOOP with a count opens a loop and goes on behind itself, with count 0 goes on behind its
end, and faults a supervisor context whose end is not above it, or which has four loops open. That the stack holds the
index of the CALL, from which RET falls through, is the model's choice (assumption log 27). -/
def Obligations.BranchesAndCalls : Prop :=
  (∀ n s, s.Issues n 0x03 → (s.word n).imm < 2 ^ 15 → Does (exec (.br n) s) fun t =>
    t.pc n = (s.word n).imm ∧ t.ctx n = s.ctx n ∧ IssueFrame n [] s t) ∧
  (∀ n s, s.Issues n 0x03 → 8 ≤ n → 2 ^ 15 ≤ (s.word n).imm → Does (exec (.br n) s) (SupFaults n 5 s)) ∧
  (∀ n s, s.Issues n 0x04 → (s.word n).imm < 2 ^ 15 → (s.ctx n).p ((s.word n).rd % 4) ≠ bitAt (s.word n).rd 3 →
    Does (exec (.brc n) s) fun t => t.pc n = (s.word n).imm ∧ t.ctx n = s.ctx n ∧ IssueFrame n [] s t) ∧
  (∀ n s, s.Issues n 0x04 → (s.ctx n).p ((s.word n).rd % 4) = bitAt (s.word n).rd 3 → Does (exec (.brc n) s) (WritesNone n s)) ∧
  (∀ n s, s.Issues n 0x04 → 8 ≤ n → 2 ^ 15 ≤ (s.word n).imm → (s.ctx n).p ((s.word n).rd % 4) ≠ bitAt (s.word n).rd 3 →
    Does (exec (.brc n) s) (SupFaults n 5 s)) ∧
  (∀ n s, s.Issues n 0x05 → 8 ≤ n → (s.ctx n).ret.length < 8 → 2 ^ 15 ≤ (s.word n).imm →
    Does (exec (.call n) s) (SupFaults n 5 s)) ∧
  (∀ n s, s.Issues n 0x05 → (s.word n).imm < 2 ^ 15 → (s.ctx n).ret.length < 8 → Does (exec (.call n) s) fun t =>
    t.pc n = (s.word n).imm ∧ t.ctx n = { s.ctx n with ret := s.pc n :: (s.ctx n).ret } ∧ IssueFrame n [] s t) ∧
  (∀ n s, s.Issues n 0x05 → 8 ≤ n → 8 ≤ (s.ctx n).ret.length → Does (exec (.call n) s) (SupFaults n 2 s)) ∧
  (∀ n i rest s, s.Issues n 0x06 → (s.ctx n).ret = i :: rest → i < 2 ^ 15 → Does (exec (.ret n) s) fun t =>
    t.pc n = (fallLoops i (s.ctx n).loops).1 % 2 ^ 15 ∧
    t.ctx n = { s.ctx n with
      ret := rest
      loops := (fallLoops i (s.ctx n).loops).2 } ∧ IssueFrame n [] s t) ∧
  (∀ n s, s.Issues n 0x06 → 8 ≤ n → (s.ctx n).ret = [] → Does (exec (.ret n) s) (SupFaults n 2 s)) ∧
  (∀ n s, s.Issues n 0x06 → n < 8 → (s.ctx n).ret = [] → Does (exec (.ret n) s) fun t => t.lst n = 5 ∧ GoesOn n s t) ∧
  (∀ n s, s.Issues n 0x07 → s.pc n < bits (s.word n).imm 14 0 → bits (s.word n).imm 31 16 = 0 → Does (exec (.loop n) s) fun t =>
    t.pc n = (bits (s.word n).imm 14 0 + 1) % 2 ^ 15 ∧ t.ctx n = s.ctx n ∧ IssueFrame n [] s t) ∧
  (∀ n s, s.Issues n 0x07 → s.pc n < bits (s.word n).imm 14 0 → bits (s.word n).imm 31 16 ≠ 0 → (s.ctx n).loops.length < 4 →
    Does (exec (.loop n) s) fun t => t.pc n = s.pc n + 1 ∧
      t.ctx n = { s.ctx n with loops := (bits (s.word n).imm 14 0, bits (s.word n).imm 31 16 - 1, s.pc n + 1) ::
        (s.ctx n).loops } ∧
      IssueFrame n [] s t) ∧
  (∀ n s, s.Issues n 0x07 → 8 ≤ n → s.pc n < bits (s.word n).imm 14 0 → bits (s.word n).imm 31 16 ≠ 0 →
    4 ≤ (s.ctx n).loops.length → Does (exec (.loop n) s) (SupFaults n 3 s)) ∧
  (∀ n s, s.Issues n 0x07 → 8 ≤ n → bits (s.word n).imm 14 0 ≤ s.pc n → Does (exec (.loop n) s) (SupFaults n 4 s))

/-- WaitsMarksAndBarriers. A wait whose condition holds as it issues is met at once with its outcome; any other makes its
context wait: WAITT for the tick of its stamp, an absent stamp counting as TIMEOUT, WAITM for its mark, WAITS for the
last setpoint command of the context to its unit, WAITA for its window's arrivals to reach the target, WAITE for a bit
of its mask, which it then clears. MARKQ writes the present mark and the ticks since it to a pair. A BARL whose mask
names only itself and lanes joined to the same number is met at once, as are all joined lanes whose masks its joining
completes; any other makes its lane wait. In a supervisor context it is refused: nothing is joined and its outcome is
TIMEOUT. -/
def Obligations.WaitsMarksAndBarriers : Prop :=
  (∀ n s, s.Issues n 0x30 → Does (exec (.waitt n) s) (match s.selected n (s.word n) with
    | none => WritesReg n (s.word n).rd 1 s
    | some st => if s.reached st then WritesReg n (s.word n).rd 0 s else WaitsFor n (.tick st) (s.word n).rd 0 s)) ∧
  (∀ n s, s.Issues n 0x31 → Does (exec (.waitm n) s)
    (let m := ((if bitAt (s.word n).unit 0 then s.markNo else s.vreg n (s.word n).rs) + (s.word n).imm) % 2 ^ 32
     if markLater m s.markNo then WaitsFor n (.mark m) (s.word n).rd 0 s else WritesReg n (s.word n).rd 0 s)) ∧
  (∀ n s, s.Issues n 0x32 → Does (exec (.waits n) s) (match s.trackOf n (s.word n).unit with
    | none => WritesReg n (s.word n).rd 0 s
    | some k => if k.superseded then WritesReg n (s.word n).rd 2 s
      else if k.waiting = [] then WritesReg n (s.word n).rd 0 s
      else WaitsFor n (.setp (s.word n).unit) (s.word n).rd (s.word n).imm s)) ∧
  (∀ n s, s.Issues n 0x33 → Does (exec (.waita n) s)
    (if sgn 32 (unsg 32 ((s.get FCW_ARRIVALS.ARRIVALS ((s.word n).unit % 64) : Int) - s.vreg n (s.word n).rs)) < 0 then
      WaitsFor n (.arrive ((s.word n).unit % 64) (s.vreg n (s.word n).rs)) (s.word n).rd (s.word n).imm s
    else WritesReg n (s.word n).rd 0 s)) ∧
  (∀ n s, s.Issues n 0x37 → Nat.land (s.get LANE_SIG.SIG n) (bits (s.word n).imm 31 20) = 0 → Does (exec (.waite n) s)
    (WaitsFor n (.sig (bits (s.word n).imm 31 20)) (s.word n).rd (bits (s.word n).imm 19 0) s)) ∧
  (∀ n s, s.Issues n 0x37 → Nat.land (s.get LANE_SIG.SIG n) (bits (s.word n).imm 31 20) ≠ 0 → Does (exec (.waite n) s) fun t =>
    GoesOn n s t ∧ t.vreg n (s.word n).rd = 0 ∧ IssueFrame n [LANE_SIG.SIG.key n] s t ∧
    Nat.land (t.get LANE_SIG.SIG n) (bits (s.word n).imm 31 20) = 0 ∧ t.lst n = s.lst n) ∧
  (∀ n s, s.Issues n 0x36 → Does (exec (.markq n) s) fun t =>
    GoesOn n s t ∧ IssueFrame n [] s t ∧ t.vreg n (pairOf (s.word n).rd) = s.markNo % 2 ^ 32 ∧
    t.vreg n (pairOf (s.word n).rd + 1) = s.ticks % 2 ^ 32 ∧
    (∀ k, k < 16 → k ≠ pairOf (s.word n).rd → k ≠ pairOf (s.word n).rd + 1 → t.vreg n k = s.vreg n k)) ∧
  (∀ n s, (s.ctx n).wait = none → exec (.waitEnd n) s = .next s) ∧
  (∀ n m r at_ tm s, s.lst n = 4 → r < 16 → (s.ctx n).wait = some ⟨.mark m, r, at_, tm⟩ → markLater m s.markNo = false →
    Does (exec (.waitEnd n) s) fun t => GoesOn n s t ∧ t.vreg n r = 0 ∧ t.lst n = 3 ∧
      SameRegs [LANE_STAT.STATE.key n, LANE_STAT.PC.key n] s t ∧ SameCtxs [n] s t ∧ SamePhases [] s t ∧ SameCrews [] s t ∧
      SameMem s t) ∧
  (∀ n w (g : Nat) r at_ tm s, s.lst n = 4 → r < 16 → (s.ctx n).wait = some ⟨.arrive w g, r, at_, tm⟩ →
    sgn 32 (unsg 32 ((s.get FCW_ARRIVALS.ARRIVALS w : Int) - g)) < 0 → tm ≠ 0 → at_ + 4 * tm ≤ s.now →
    Does (exec (.waitEnd n) s) fun t => GoesOn n s t ∧ t.vreg n r = 1 ∧ t.lst n = 3 ∧
      SameRegs [LANE_STAT.STATE.key n, LANE_STAT.PC.key n] s t ∧ SameCtxs [n] s t ∧ SamePhases [] s t ∧ SameCrews [] s t ∧
      SameMem s t) ∧
  (∀ n s, s.Issues n 0x34 → n < 8 →
    (∀ k, k < 8 → bitAt (bits (s.word n).imm 31 24) k = true → k ≠ n → k ∈ s.joined (bits (s.word n).imm 23 20)) →
    Does (exec (.barl n) s) fun t => (t.ctx n).wait = none ∧ t.lst n = 3 ∧ t.vreg n (s.word n).rd = 0 ∧
      (∀ k mask r at_ tm, k < 8 → k ≠ n → s.lst k = 4 →
        (s.ctx k).wait = some ⟨.barl mask (bits (s.word n).imm 23 20), r, at_, tm⟩ →
        (∀ j, j < 8 → bitAt mask j = true → j ≠ n → j ∈ s.joined (bits (s.word n).imm 23 20)) →
        r < 16 → (t.ctx k).wait = none ∧ t.vreg k r = 0) ∧
      SamePhases [] s t ∧ SameCrews [] s t ∧ SameMem s t) ∧
  (∀ n k s, s.Issues n 0x34 → n < 8 → k < 8 → bitAt (bits (s.word n).imm 31 24) k = true → k ≠ n →
    k ∉ s.joined (bits (s.word n).imm 23 20) → Does (exec (.barl n) s) fun t =>
      (t.ctx n).wait = some ⟨.barl (bits (s.word n).imm 31 24) (bits (s.word n).imm 23 20), (s.word n).rd, s.now,
        bits (s.word n).imm 19 0⟩ ∧ t.lst n = 4 ∧ t.pc n = s.pc n ∧ SamePhases [] s t ∧ SameCrews [] s t ∧ SameMem s t) ∧
  (∀ n s, s.Issues n 0x34 → 8 ≤ n → s.room → Does (exec (.barl n) s) fun t => WritesReg n (s.word n).rd 1 s t ∧
    t.intake = s.intake ++ [s.eventOf 0x0701 4 n ((s.pc n + 2 ^ 16 * (s.word n).unit) % 2 ^ 32)])

/-- UnitOperations. A unit operation that its context may deliver joins the delivery path with its unit, its leaf crews,
its context and the index it stands at, and the context goes on with nothing else changed: SETV, SETVR, LLS, GSEL,
STAND, PWRON and PWROFF with their fields, RAMP with the slew that reaches the code in time. GO puts the operation
that the operation registers hold into the management port's queue and sets BUSY, or answers with an error and the
RESULT that says why not: 6 while BUSY. The queued operation issues to its unit's leaf crews, counts in ISSUED, and
BUSY clears unless a PMBus setpoint takes its place; in the cycle in which it was queued, or in one whose two slots are
taken, it issues in the next cycle (assumption log 133's choice of how a command meets its cycle). -/
def Obligations.UnitOperations : Prop :=
  (∀ n s, s.Issues n 0x20 → s.mayDeliver n 0x20 (s.word n).unit → Does (exec (.setv n) s) (Delivers n (s.word n).unit
    (.setp (bits (s.word n).imm 31 20) (bits (s.word n).imm 19 8) (bitAt (s.word n).imm 0)) s)) ∧
  (∀ n s, s.Issues n 0x21 → s.mayDeliver n 0x21 (s.word n).unit →
    (n < 8 → s.inRange n (s.word n).unit (s.vreg n (s.word n).rs) (s.vreg n (bits (s.word n).imm 31 28)) = true) →
    Does (exec (.setvr n) s) (Delivers n (s.word n).unit (.setp (s.vreg n (s.word n).rs % 4096)
      (s.vreg n (bits (s.word n).imm 31 28) % 4096) (bitAt (s.word n).imm 0)) s)) ∧
  (∀ n s, s.Issues n 0x21 → n < 8 →
    s.inRange n (s.word n).unit (s.vreg n (s.word n).rs) (s.vreg n (bits (s.word n).imm 31 28)) = false →
    Does (exec (.setvr n) s) fun t => LaneFaults n 2 s t ∧ t.flight = s.flight) ∧
  (∀ n s, s.Issues n 0x22 → s.mayDeliver n 0x22 (s.word n).unit → bits (s.word n).imm 19 0 ≠ 0 → Does (exec (.ramp n) s)
    (Delivers n (s.word n).unit (.setp (bits (s.word n).imm 31 20)
      (min (max (ceilDiv (2500 * maxN ((s.leafCrews (s.word n).unit).map fun c =>
        ((bits (s.word n).imm 31 20 : Int) - (s.snap c).target).natAbs)) (bits (s.word n).imm 19 0)) 4) s.slewMax) false) s)) ∧
  (∀ n s, s.Issues n 0x23 → s.mayDeliver n 0x23 (s.word n).unit → Does (exec (.lls n) s)
    (Delivers n (s.word n).unit (.lls (bits (s.word n).imm 9 0)) s)) ∧
  (∀ n s, s.Issues n 0x24 → s.mayDeliver n 0x24 (s.word n).unit → Does (exec (.gsel n) s)
    (Delivers n (s.word n).unit (.gsel (bits (s.word n).imm 4 4) (bits (s.word n).imm 3 0)) s)) ∧
  (∀ n s, s.Issues n 0x26 → s.mayDeliver n 0x26 (s.word n).unit → bits (s.word n).imm 1 0 ≠ 3 → Does (exec (.stand n) s)
    (Delivers n (s.word n).unit (.stand (bits (s.word n).imm 1 0)) s)) ∧
  (∀ n s, s.Issues n 0x27 → s.mayDeliver n 0x27 (s.word n).unit → Does (exec (.pwron n) s)
    (Delivers n (s.word n).unit .pwron s)) ∧
  (∀ n s, s.Issues n 0x28 → s.mayDeliver n 0x28 (s.word n).unit → Does (exec (.pwroff n) s)
    (Delivers n (s.word n).unit .pwroff s)) ∧
  (∀ n s, s.Issues n 0x20 → 8 ≤ n → s.unitOk 0x20 (s.word n).unit = false → s.room → Does (exec (.setv n) s) fun t =>
    WritesNone n s t ∧ t.flight = s.flight ∧
    t.intake = s.intake ++ [s.eventOf 0x0701 4 n ((s.pc n + 2 ^ 16 * (s.word n).unit) % 2 ^ 32)]) ∧
  (∀ m data s, s.Takes m .ID_UOP_CTL 0 data → data % 2 = 1 → s.uopResult s.uopWord = 1 → Does (exec (.uopGo m data) s) fun t =>
    t.get ID_UOP_STAT.RESULT 0 = 1 ∧ t.get ID_UOP_STAT.BUSY 0 = 1 ∧
    t.uop = some ⟨0, s.uopWord.kindOf, s.get ID_UOP_HI.UNIT 0, [], 15, 0⟩ ∧ t.resp = ⟨false, 0⟩ ∧
    SameRegs [ID_UOP_STAT.RESULT.key 0, ID_UOP_STAT.BUSY.key 0] s t ∧ SamePhases [] s t ∧ SameCrews [] s t ∧ SameMem s t) ∧
  (∀ m data s, s.Takes m .ID_UOP_CTL 0 data → data % 2 = 1 → s.uopResult s.uopWord ≠ 1 → Does (exec (.uopGo m data) s) fun t =>
    t.get ID_UOP_STAT.RESULT 0 = s.uopResult s.uopWord ∧ (s.flag ID_UOP_STAT.BUSY 0 = true → t.get ID_UOP_STAT.RESULT 0 = 6) ∧
    t.uop = s.uop ∧ t.resp = ⟨true, 0⟩ ∧
    SameRegs [ID_UOP_STAT.RESULT.key 0, ID_ERR_CNT.COUNT.key 0, ID_ERR_CNT.CAUSE.key 0, ID_ERR_ADDR.ADDR.key 0] s t ∧
    SamePhases [] s t ∧ SameCrews [] s t ∧ SameMem s t) ∧
  (∀ op s, s.uop = some op → (∀ code ticks, op.kind ≠ .ramp code ticks) → s.uopTurn = false →
    Does (exec .uopIssue s) fun t => t.now = s.now + 1 ∧
      t.flight = s.flight ++ [⟨s.opNext, op.kind, op.unit, s.leafCrews op.unit, 15, 0⟩] ∧ t.uop = s.uopWait.head? ∧
      t.uopWait = s.uopWait.tail ∧ t.get ID_UOP_STAT.ISSUED 0 = ID_UOP_STAT.ISSUED.count (s.get ID_UOP_STAT.ISSUED 0) ∧
      SameMem s t) ∧
  (∀ op s, s.uop = some op → (∀ code ticks, op.kind ≠ .ramp code ticks) → s.uopTurn = true → Does (exec .uopIssue s) fun t =>
    t.now = s.now ∧ t.flight = s.flight ++ [⟨s.opNext, op.kind, op.unit, s.leafCrews op.unit, 15, 0⟩] ∧ t.opNext = s.opNext + 1 ∧
    t.uop = s.uopWait.head? ∧ t.uopWait = s.uopWait.tail ∧
    (s.uopWait = [] → t.get ID_UOP_STAT.BUSY 0 = 0) ∧ (s.uopWait ≠ [] → t.get ID_UOP_STAT.BUSY 0 = s.get ID_UOP_STAT.BUSY 0) ∧
    t.get ID_UOP_STAT.ISSUED 0 = ID_UOP_STAT.ISSUED.count (s.get ID_UOP_STAT.ISSUED 0) ∧
    SameRegs [ID_UOP_STAT.BUSY.key 0, ID_UOP_STAT.ISSUED.key 0] s t ∧ SamePhases [] s t ∧ SameCrews [] s t ∧ SameMem s t) ∧
  (∀ s, s.uop = none → exec .uopIssue s = .next s)

/-- WindowsArmsAndHeats. ARM and HEAT act on the stamp that their selector names, FCST on the END stamp of its window and
on COVER_MAX; an absent stamp leaves the instruction undone with the event "stamp absent". HEAT sets the stamp at
which a GATED field's sequence starts, a later one in place of one still due (assumption log 140's choice), and does
nothing in AUTO mode. WOPEN of an enabled window begins an opening: it
is OPEN with no arrivals, no stamps and sums of 0, its unread slots are released. WCLOSE of an enabled window closes
it. Either leaves a disabled window as it is, and a supervisor context may use neither on a window of a lane that is
not idle: it is refused with the event "supervisor operation refused". -/
def Obligations.WindowsArmsAndHeats : Prop :=
  (∀ n st s, s.Issues n 0x25 → s.mayDeliver n 0x25 (s.word n).unit → s.selected n (s.word n) = some st → Does (exec (.arm n) s)
    (Delivers n (s.word n).unit (.arm st ((s.word n).ssrc == 0)) s)) ∧
  (∀ n s, s.Issues n 0x25 → s.selected n (s.word n) = none → s.room → Does (exec (.arm n) s) fun t =>
    WritesNone n s t ∧ t.flight = s.flight ∧
    t.intake = s.intake ++ [s.eventOf 0x0702 4 n ((s.pc n + 2 ^ 16 * (s.word n).swin) % 2 ^ 32)]) ∧
  (∀ n st s, s.Issues n 0x42 → s.mayDeliver n 0x42 (s.word n).unit → s.winStamp (bits (s.word n).imm 29 24) 2 = some st →
    Does (exec (.fcst n) s) (Delivers n (s.word n).unit (.cover (some st)
      (if bits (s.word n).imm 15 0 = 0 then none else some (s.now + 500 * bits (s.word n).imm 15 0))) s)) ∧
  (∀ n s, s.Issues n 0x42 → s.mayDeliver n 0x42 (s.word n).unit → s.winStamp (bits (s.word n).imm 29 24) 2 = none →
    bits (s.word n).imm 15 0 ≠ 0 → Does (exec (.fcst n) s)
      (Delivers n (s.word n).unit (.cover none (some (s.now + 500 * bits (s.word n).imm 15 0))) s)) ∧
  (∀ n s, s.Issues n 0x42 → s.winStamp (bits (s.word n).imm 29 24) 2 = none → bits (s.word n).imm 15 0 = 0 → s.room →
    Does (exec (.fcst n) s) fun t => WritesNone n s t ∧ t.flight = s.flight ∧
      t.intake = s.intake ++ [s.eventOf 0x0702 4 n ((s.pc n + 2 ^ 16 * bits (s.word n).imm 29 24) % 2 ^ 32)]) ∧
  (∀ n f st s, s.Issues n 0x43 → (s.word n).unit = 0x6E0 + f → f < 8 → s.selected n (s.word n) = some st →
    Does (exec (.heat n) s) fun t => WritesNone n s t ∧
      (t.mar f).seq = (if s.get MSH_CTL.MODE f = 0 then (s.mar f).seq else match (s.mar f).seq with
        | .running h => .running h
        | _ => .due st) ∧ (t.mar f).queue = (s.mar f).queue ∧ (∀ g, g ≠ f → t.mar g = s.mar g)) ∧
  (∀ n w s, s.Issues n 0x40 → w = (s.word n).unit % 64 → (n < 8 ∨ s.supWindow w = true) → s.get FCW_STAT.STATE w ≠ 0 →
    Does (exec (.wopen n) s) fun t =>
      t.get FCW_STAT.STATE w = 2 ∧ t.get FCW_ARRIVALS.ARRIVALS w = 0 ∧ t.get FCW_STAT.STAMPS_VALID w = 0 ∧
      t.get FCW_STAT.END_OPEN w = 0 ∧ (∀ e, e < 16 → t.get FCW_SUM.SUM (16 * w + e) = 0) ∧ w ∉ t.fcArr ∧ w ∉ t.fcEnd ∧
      t.fcRet = s.fcRet ++ (tget [] s.fcUnread w).map (fun r => { r with status := 0 }) ∧ tget [] t.fcUnread w = [] ∧
      (∀ v, v ≠ w → t.get FCW_STAT.STATE v = s.get FCW_STAT.STATE v) ∧
      GoesOn n s t ∧ (∀ k, k < 16 → t.vreg n k = s.vreg n k) ∧ SamePhases [] s t ∧ SameCrews [] s t ∧ SameMem s t) ∧
  (∀ n w s, s.Issues n 0x40 → w = (s.word n).unit % 64 → (n < 8 ∨ s.supWindow w = true) → s.get FCW_STAT.STATE w = 0 →
    Does (exec (.wopen n) s) (WritesNone n s)) ∧
  (∀ n w s, s.Issues n 0x41 → w = (s.word n).unit % 64 → (n < 8 ∨ s.supWindow w = true) → s.get FCW_STAT.STATE w ≠ 0 →
    Does (exec (.wclose n) s) fun t => t.get FCW_STAT.STATE w = 1 ∧ GoesOn n s t ∧ (∀ k, k < 16 → t.vreg n k = s.vreg n k) ∧
      IssueFrame n [FCW_STAT.STATE.key w] s t) ∧
  (∀ n w s, s.Issues n 0x41 → w = (s.word n).unit % 64 → (n < 8 ∨ s.supWindow w = true) → s.get FCW_STAT.STATE w = 0 →
    Does (exec (.wclose n) s) (WritesNone n s)) ∧
  (∀ n w s, s.Issues n 0x40 → w = (s.word n).unit % 64 → 8 ≤ n → s.supWindow w = false → s.room →
    Does (exec (.wopen n) s) fun t => t.fcRet = s.fcRet ∧ t.fcUnread = s.fcUnread ∧
    WritesNone n s t ∧ t.intake = s.intake ++ [s.eventOf 0x0701 4 n ((s.pc n + 2 ^ 16 * w) % 2 ^ 32)]) ∧
  (∀ n w s, s.Issues n 0x41 → w = (s.word n).unit % 64 → 8 ≤ n → s.supWindow w = false → s.room →
    Does (exec (.wclose n) s) fun t =>
    WritesNone n s t ∧ t.intake = s.intake ++ [s.eventOf 0x0701 4 n ((s.pc n + 2 ^ 16 * w) % 2 ^ 32)])

/-- TelemetryReads. A snapshot RDT of a crew writes the value that its selector names in the last complete snapshot; an
urgent one stalls its context and puts its channel to the crew, and the answer ends the stall. CAPQ writes what its
selector names. EVT records its event with the code, the index and the register, up to 16 in a mark, and then counts. -/
def Obligations.TelemetryReads : Prop :=
  (∀ n c s, s.Issues n 0x29 → bitAt (s.word n).imm 31 = false → (s.word n).unit = 0x600 + c → c < 192 →
    Does (exec (.rdt n) s) (WritesReg n (s.word n).rd (match bits (s.word n).imm 3 0 with
      | 0 => if (s.snap c).state ∈ [0, 1, 5, 6, 8, 9] then 0 else (s.snap c).current
      | 1 => if (s.snap c).noData then 0 else (roundOpen ((125 * (s.snap c).volt : Nat) : Int) 2).toNat
      | 2 => if (s.snap c).noData then 0 else (roundOpen ((125 * (s.snap c).volt : Nat) : Int) 2).toNat
      | 3 => unsg 32 (s.snap c).temp
      | 4 => if (s.snap c).faultAny then (s.snap c).fault else 2 ^ 31
      | 5 => (s.snap c).phases
      | 6 => s.get DESC_W3.CONT_RATING (0x600 + c)
      | _ => 0) s)) ∧
  (∀ n c s, s.Issues n 0x29 → bitAt (s.word n).imm 31 = true → (s.word n).unit = 0x600 + c → c < 192 →
    bits (s.word n).imm 4 0 < 18 → Does (exec (.rdt n) s) fun t =>
      (t.ctx n).wait = some ⟨.rdt, (s.word n).rd, s.now, 0⟩ ∧ t.pc n = s.pc n ∧ (t.ctx n).regs = (s.ctx n).regs ∧
      t.crew c = { s.crew c with rdtWant := (s.crew c).rdtWant ++ [(n, bits (s.word n).imm 4 0)] } ∧
      SameRegs [LANE_ISSUE_CNT.ISSUED.key n] s t ∧ SameCtxs [n] s t ∧ SamePhases [] s t ∧ SameCrews [c] s t ∧ SameMem s t) ∧
  (∀ n v rest r at_ tm s, s.rdtAns = (n, v) :: rest → (s.ctx n).wait = some ⟨.rdt, r, at_, tm⟩ → r < 16 →
    (s.ctx n).stopPend = false → Does (exec .rdtResult s) fun t =>
      t.rdtAns = rest ∧ GoesOn n s t ∧ t.vreg n r = v % 2 ^ 32 ∧ (∀ k, k < 16 → k ≠ r → t.vreg n k = s.vreg n k) ∧
      SameRegs [LANE_STAT.PC.key n] s t ∧ SameCtxs [n] s t ∧ SamePhases [] s t ∧ SameCrews [] s t ∧ SameMem s t) ∧
  (∀ n s, s.Issues n 0x44 → (n < 8 ∨ bits (s.word n).imm 3 0 ≠ 4) → Does (exec (.capq n) s) (WritesReg n (s.word n).rd
    (match bits (s.word n).imm 3 0 with
      | 0 => s.get CAP_VALS.VALUE 1
      | 1 => unsg 32 ((s.get CAP_LIM.LIMIT 0 : Int) - s.get CAP_VALS.VALUE 1)
      | 2 => unsg 32 ((s.get CAP_LIM.LIMIT 1 : Int) - s.get CAP_VALS.VALUE 2)
      | 3 => unsg 32 ((s.get CAP_LIM.LIMIT 2 : Int) - s.get CAP_VALS.VALUE 3)
      | k => s.capq k (s.word n).unit) s)) ∧
  (∀ n s, s.Issues n 0x50 → (s.ctx n).evts < 16 → s.room → Does (exec (.evt n) s) fun t =>
    t.intake = s.intake ++ [⟨0x0703, 4, n, s.stampNow, s.pc n + 2 ^ 16 * bits (s.word n).imm 15 0, s.vreg n (s.word n).rs,
      min (s.ctx n).dropped 255, false⟩] ∧ (t.ctx n).evts = (s.ctx n).evts + 1 ∧ (t.ctx n).dropped = 0 ∧ WritesNone n s t) ∧
  (∀ n s, s.Issues n 0x50 → 16 ≤ (s.ctx n).evts → Does (exec (.evt n) s) fun t =>
    t.intake = s.intake ∧ (t.ctx n).dropped = (s.ctx n).dropped + 1 ∧ WritesNone n s t)

/-- SupervisorAccesses. LD, ST, AADD and SWAP stall their context for an access at v(RS) + IMM32 of four bytes or of
eight. An access of coordinator memory that the region registers permit, to a bank that is online and a word without
error, completes: LD writes what it reads to the register or pair, ST stores exactly its bytes, AADD and SWAP do both
as one; a load of a register returns its word. What a load reads is the memory, or where a store to the same 64-bit word
still waits in the cycle, what that store leaves there (R415; which stores those are is assumption log 127's choice). A
failed load or atomic writes 0, to a pair whole (assumption log 18's choice), and raises "supervisor access fault". -/
def Obligations.SupervisorAccesses : Prop :=
  (∀ n s, 8 ≤ n → s.Issues n 0x60 → Does (exec (.ld n) s) (StallsForAccess n 0 s)) ∧
  (∀ n s, 8 ≤ n → s.Issues n 0x61 → Does (exec (.st n) s) (StallsForAccess n 1 s)) ∧
  (∀ n s, 8 ≤ n → s.Issues n 0x62 → Does (exec (.aadd n) s) (StallsForAccess n 2 s)) ∧
  (∀ n s, 8 ≤ n → s.Issues n 0x63 → Does (exec (.swap n) s) (StallsForAccess n 3 s)) ∧
  (∀ n a wide d r at_ tm s, 8 ≤ n → (s.ctx n).wait = some ⟨.access 0 a wide d, r, at_, tm⟩ → r + 1 < 16 → inCM a = true →
    formOk a (if wide then 8 else 4) = true → s.permitted 0 a (if wide then 8 else 4) true false = true → s.offline a = false →
    s.goodAt a → Does (exec (.accessComplete n 0) s) fun t => GoesOn n s t ∧
      t.vreg n r = s.readThrough (if wide then 8 else 4) a % 2 ^ 32 ∧
      (wide = true → t.vreg n (r + 1) = s.readThrough 8 a / 2 ^ 32) ∧
      (∀ k, k < 16 → k ≠ r → (wide = true → k ≠ r + 1) → t.vreg n k = s.vreg n k) ∧
      SameRegs [LANE_STAT.PC.key n] s t ∧ SameCtxs [n] s t ∧ SamePhases [] s t ∧ SameCrews [] s t ∧ SameMem s t) ∧
  (∀ n a wide d r at_ tm s, s.Inv → 8 ≤ n → (s.ctx n).wait = some ⟨.access 1 a wide d, r, at_, tm⟩ → inCM a = true →
    formOk a (if wide then 8 else 4) = true → s.permitted 0 a (if wide then 8 else 4) false true = true → s.offline a = false →
    s.goodAt a → Does (exec (.accessComplete n 0) s) fun t => GoesOn n s t ∧
      (∀ k, k < (if wide then 8 else 4) → mget 0 t.mem (a + k) = BitVec.ofNat 8 (d / 256 ^ k)) ∧
      (∀ b, b < a ∨ a + (if wide then 8 else 4) ≤ b → mget 0 t.mem b = mget 0 s.mem b) ∧
      (t.ctx n).regs = (s.ctx n).regs ∧ SameRegs [LANE_STAT.PC.key n] s t ∧ SameCtxs [n] s t ∧ SamePhases [] s t ∧
      SameCrews [] s t) ∧
  (∀ n kind a d r at_ tm s, s.Inv → 8 ≤ n → kind = 2 ∨ kind = 3 → (s.ctx n).wait = some ⟨.access kind a false d, r, at_, tm⟩ →
    r < 16 → inCM a = true → formOk a 4 = true → s.permitted 0 a 4 true true = true → s.offline a = false →
    s.goodAt a → Does (exec (.accessComplete n 0) s) fun t => GoesOn n s t ∧ t.vreg n r = s.rd 4 a ∧
      t.rd 4 a = (if kind = 3 then d else s.rd 4 a + d) % 2 ^ 32 ∧
      (∀ b, b < a ∨ a + 4 ≤ b → mget 0 t.mem b = mget 0 s.mem b) ∧ (∀ k, k < 16 → k ≠ r → t.vreg n k = s.vreg n k) ∧
      SameRegs [LANE_STAT.PC.key n] s t ∧ SameCtxs [n] s t ∧ SamePhases [] s t ∧ SameCrews [] s t) ∧
  (∀ nb a (s : State), (s.cyc.on = false ∨ s.pending = []) → s.readThrough nb a = s.rd nb a) ∧
  (∀ m a v ecc l (s : State), s.cyc.on = true → s.pending = .registerWrite m a 8 v ecc :: l → s.closed m = false →
    inCM a = true → a % 8 = 0 → s.permitted (masterCode m) a 8 false true = true → s.offline a = false →
    s.readThrough 8 a = v % 2 ^ 64) ∧
  (∀ n q i d r at_ tm ecc s, 8 ≤ n → (s.ctx n).wait = some ⟨.access 0 (q.addr i) false d, r, at_, tm⟩ → r < 16 →
    s.Reads (.sup (n - 8)) q i → inMem (q.addr i) = false → Does (exec (.accessComplete n ecc) s) fun t => GoesOn n s t ∧
      t.vreg n r = s.regWord q i % 2 ^ 32) ∧
  (∀ n kind a wide d r at_ tm ecc s, 8 ≤ n → (s.ctx n).wait = some ⟨.access kind a wide d, r, at_, tm⟩ → r + 1 < 16 → kind ≠ 1 →
    formOk a (if wide then 8 else 4) = false → s.room → Does (exec (.accessComplete n ecc) s) fun t => GoesOn n s t ∧
      t.vreg n r = 0 ∧ (wide = true → t.vreg n (r + 1) = 0) ∧
      t.intake = s.intake ++ [s.eventOf 0x0705 4 n (s.pc n % 2 ^ 32) (a % 2 ^ 32)] ∧ SameMem s t)

/-- SupervisorControl. GRANT sets a lane's grant from seven registers where the lane is IDLE and nothing in it belongs to
another lane, and else changes none; its result says which. LOADP of an image that may be read starts the loader for
an idle lane, and else reports its reason. SIGNAL sets bits of a context's LANE_SIG. -/
def Obligations.SupervisorControl : Prop :=
  (∀ n s, 8 ≤ n → s.Issues n 0x64 → Does (exec (.grant n) s) fun t =>
    let l := bits (s.word n).unit 2 0
    let ws := (List.range 6).map fun k => s.vreg n ((s.word n).rs + k)
    let x := s.vreg n ((s.word n).rs + 6)
    let r := s.grantResult l ws x
    GoesOn n s t ∧ t.vreg n (s.word n).rd = r ∧ (∀ k, k < 16 → k ≠ (s.word n).rd → t.vreg n k = s.vreg n k) ∧
    (r = 0 → (∀ k, k < 6 → t.get LANE_GRANT.CREWS (6 * l + k) = s.vreg n ((s.word n).rs + k) % 2 ^ 32) ∧
      t.get LANE_GRANTX.FIELDS l = bits x 7 0 ∧ t.get LANE_GRANTX.REGATTA l = bits x 8 8) ∧
    (r ≠ 0 → IssueFrame n [] s t) ∧ (s.lst l ≠ 0 → r = 1) ∧
    IssueFrame n ((List.range 6).map (fun k => LANE_GRANT.CREWS.key (6 * l + k)) ++
      [LANE_GRANTX.FIELDS.key l, LANE_GRANTX.REGATTA.key l]) s t) ∧
  (∀ n l a s, 8 ≤ n → s.Issues n 0x65 → l = bits (s.word n).unit 2 0 → a = s.vreg n (s.word n).rs → s.loadBar l = 0 →
    a % 8 = 0 →
    s.get ID_MEM_STAT.BANKS 0 = 0 → s.clean → s.loaderMay a 64 = true →
    s.loaderMay a (min (max 64 (s.rd 4 (a + 0x20))) 0x100000) = true → Does (exec (.loadp n) s) fun t =>
      t.lst l = 1 ∧ t.load = some ⟨l, bits (s.word n).imm 14 0,
        mgetList 0 s.mem a (min (max 64 (s.rd 4 (a + 0x20))) 0x100000), true⟩ ∧ GoesOn n s t ∧
      IssueFrame n [LANE_STAT.STATE.key l] s t) ∧
  (∀ n l s, 8 ≤ n → s.Issues n 0x65 → l = bits (s.word n).unit 2 0 → s.loadBar l ≠ 0 → Does (exec (.loadp n) s) fun t =>
    t.get LANE_LOAD_STAT.REASON l = s.loadBar l ∧ (∀ k, 8 ≤ k → k < 12 → bitAt (t.get LANE_SIG.SIG k) 9 = true) ∧
    t.load = s.load ∧ t.lst l = s.lst l ∧ GoesOn n s t ∧
    IssueFrame n ([LANE_LOAD_STAT.REASON.key l, LANE_LOAD_STAT.IS_UNIT.key l, LANE_LOAD_STAT.INDEX.key l] ++
      [8, 9, 10, 11].map LANE_SIG.SIG.key) s t) ∧
  (∀ n c s, 8 ≤ n → s.Issues n 0x66 → c = bits (s.word n).unit 3 0 → c < 12 → Does (exec (.signal n) s) fun t =>
    t.get LANE_SIG.SIG c = Nat.lor (s.get LANE_SIG.SIG c) (bits (s.word n).imm 7 0) % 2 ^ 12 ∧ GoesOn n s t ∧
    (∀ k, k < 16 → t.vreg n k = s.vreg n k) ∧ IssueFrame n [LANE_SIG.SIG.key c] s t)

/-- LaneControl. START of a lane that is LOADED or HALTED, with nothing barring starts, runs it from its ENTRY with its
state initialised and its argument in v0; STOP of a running lane halts it; UNLOAD of one that is LOADED, HALTED or
FAULTED frees its program and takes its references back. A lane stopped in a wait goes on behind it (assumption log 30's
choice), and one in the stall of an urgent RDT stops at its end. A watchdog that has run out faults its lane at the
instruction it would issue next, which in a stall is the one behind it. An action that the lane's state does not allow
(START, STOP, UNLOAD), and a write with several action bits, sets CTL_REFUSED and does nothing else. -/
def Obligations.LaneControl : Prop :=
  (∀ m n data s, s.Takes m .LANE_CTL n data → data % 8 = 1 → s.lst n = 2 ∨ s.lst n = 5 → s.startBarred = false →
    (s.lane n).entry < 2 ^ 15 → Does (exec (.start m n data) s) fun t =>
      t.lst n = 3 ∧ t.pc n = (s.lane n).entry ∧ t.get LANE_STAT.FAULT n = 0 ∧ t.vreg n 0 = s.get LANE_ARG.ARG n ∧
      (∀ k, 0 < k → k < 16 → t.vreg n k = 0) ∧ (t.ctx n).preds = 0 ∧ (t.ctx n).ret = [] ∧ (t.ctx n).loops = [] ∧
      (t.ctx n).wait = none ∧ t.lane n = { s.lane n with wdogAt := s.now, stopAt := none } ∧ (∀ k ∈ t.tracks, k.issuer ≠ n) ∧
      SameRegs [LANE_STAT.STATE.key n, LANE_STAT.PC.key n, LANE_STAT.FAULT.key n] s t ∧ SameCtxs [n] s t ∧ SamePhases [] s t ∧
      SameCrews [] s t ∧ SameMem s t) ∧
  (∀ m n data s, s.Takes m .LANE_CTL n data → data % 8 = 1 → (s.lst n ∉ [2, 5] ∨ s.startBarred = true) →
    Does (exec (.start m n data) s) fun t => t.get LANE_STAT.CTL_REFUSED n = 1 ∧ t.ctxs = s.ctxs ∧
      SameRegs [LANE_STAT.CTL_REFUSED.key n] s t ∧ SamePhases [] s t ∧ SameCrews [] s t ∧ SameMem s t) ∧
  (∀ m n data s, s.Takes m .LANE_CTL n data → data % 8 = 2 → s.lst n = 3 → (s.ctx n).wait = none →
    Does (exec (.stop m n data) s) fun t => t.lst n = 5 ∧ t.pc n = s.pc n ∧ (t.ctx n).regs = (s.ctx n).regs ∧
      (∀ k, 8 ≤ k → k < 12 → bitAt (t.get LANE_SIG.SIG k) 8 = true) ∧
      SameRegs (LANE_STAT.STATE.key n :: [8, 9, 10, 11].map LANE_SIG.SIG.key) s t ∧ SameCtxs [n] s t ∧ SamePhases [] s t ∧
      SameCrews [] s t ∧ SameMem s t) ∧
  (∀ m n data w s, s.Takes m .LANE_CTL n data → data % 8 = 2 → s.lst n = 4 → (s.ctx n).wait = some w → w.cond ≠ .rdt →
    Does (exec (.stop m n data) s) fun t => t.lst n = 5 ∧ GoesOn n s t ∧ (t.ctx n).regs = (s.ctx n).regs ∧
      SamePhases [] s t ∧ SameCrews [] s t ∧ SameMem s t) ∧
  (∀ m n data s, s.Takes m .LANE_CTL n data → data % 8 = 2 → s.lst n ∉ [3, 4] →
    Does (exec (.stop m n data) s) fun t => t.get LANE_STAT.CTL_REFUSED n = 1 ∧ t.ctxs = s.ctxs ∧ t.lanes = s.lanes ∧
      SameRegs [LANE_STAT.CTL_REFUSED.key n] s t ∧ SamePhases [] s t ∧ SameCrews [] s t ∧ SameMem s t) ∧
  (∀ m n data s, s.Takes m .LANE_CTL n data → data % 8 = 4 → s.lst n ∉ [2, 5, 6] →
    Does (exec (.unload m n data) s) fun t => t.get LANE_STAT.CTL_REFUSED n = 1 ∧ t.ctxs = s.ctxs ∧ t.lanes = s.lanes ∧
      SameRegs [LANE_STAT.CTL_REFUSED.key n] s t ∧ SamePhases [] s t ∧ SameCrews [] s t ∧ SameMem s t) ∧
  (∀ m n data s, s.Takes m .LANE_CTL n data → data % 8 ∈ [3, 5, 6, 7] → ∀ c ∈ [Instr.start m n data, .stop m n data, .unload m n data],
    Does (exec c s) fun t => t.get LANE_STAT.CTL_REFUSED n = 1 ∧ t.ctxs = s.ctxs ∧ t.lanes = s.lanes ∧
      SameRegs [LANE_STAT.CTL_REFUSED.key n] s t ∧ SamePhases [] s t ∧ SameCrews [] s t ∧ SameMem s t) ∧
  (∀ m n data w s, s.Takes m .LANE_CTL n data → data % 8 = 2 → s.lst n = 3 → (s.ctx n).wait = some w → w.cond = .rdt →
    Does (exec (.stop m n data) s) fun t => t.ctx n = { s.ctx n with stopPend := true } ∧ t.lst n = 3 ∧
      SameRegs [] s t ∧ SameCtxs [n] s t ∧ SamePhases [] s t ∧ SameCrews [] s t ∧ SameMem s t) ∧
  (∀ m n data s, s.Takes m .LANE_CTL n data → data % 8 = 4 → s.lst n ∈ [2, 5, 6] → (s.lane n).refs.Nodup →
    thas s.models n = false → Does (exec (.unload m n data) s) fun t =>
      t.lst n = 0 ∧ t.lane n = {} ∧ t.get LANE_IMAGE.BASE n = 0 ∧ t.get LANE_IMAGE.COUNT n = 0 ∧ t.get LANE_JOB.JOB_ID n = 0 ∧
      (∀ u ∈ (s.lane n).refs, t.get DESC_W7.PROG_REFS u = (s.get DESC_W7.PROG_REFS u - 1) % 2 ^ 8) ∧
      SameRegs ([LANE_STAT.STATE.key n, LANE_STAT.FAULT.key n, LANE_IMAGE.BASE.key n, LANE_IMAGE.COUNT.key n,
        LANE_JOB.JOB_ID.key n] ++
        (s.lane n).refs.map DESC_W7.PROG_REFS.key) s t ∧ SameCtxs [] s t ∧ SamePhases [] s t ∧ SameCrews [] s t ∧ SameMem s t) ∧
  (∀ n s, n < 8 → (s.lane n).wdog ≠ 0 → s.lst n = 3 ∨ s.lst n = 4 → (s.lane n).wdogAt + 500 * (s.lane n).wdog ≤ s.now →
    (∀ w, (s.ctx n).wait = some w → w.cond ≠ .rdt ∧ ∀ k a b d, w.cond ≠ .access k a b d) →
    Does (exec (.watchdog n) s) (LaneFaults n 1 s)) ∧
  (∀ n w s, n < 8 → (s.lane n).wdog ≠ 0 → s.lst n = 3 → (s.lane n).wdogAt + 500 * (s.lane n).wdog ≤ s.now →
    (s.ctx n).wait = some w → w.cond = .rdt → Does (exec (.watchdog n) s) fun t =>
      t.lst n = 6 ∧ t.get LANE_STAT.FAULT n = 1 ∧ t.pc n = (fallLoops (s.pc n) (s.ctx n).loops).1 % 2 ^ 15 ∧
      SameCtxs [n] s t ∧ SamePhases [] s t ∧ SameCrews [] s t ∧ SameMem s t) ∧
  (∀ n s, (s.lane n).wdog = 0 → exec (.watchdog n) s = .next s)

/-- LoaderOutcome. A load whose image passes every check writes its code at BASE in the job half of the program store and
nowhere else, leaves its lane LOADED at the image's ENTRY with its declarations, and raises the reference of each unit
it names; one whose header or CRC is bad leaves the lane IDLE with the reason, and the store as it was. -/
def Obligations.LoaderOutcome : Prop :=
  (∀ x s, s.load = some x → headerBad x.img = true → Does (exec .loadComplete s) fun t =>
    t.load = none ∧ t.lst x.lane = 0 ∧ t.get LANE_LOAD_STAT.REASON x.lane = 5 ∧ t.lanes = s.lanes ∧
    (∀ k, 8 ≤ k → k < 12 → bitAt (t.get LANE_SIG.SIG k) 9 = true) ∧
    SameRegs ([LANE_STAT.STATE.key x.lane, LANE_LOAD_STAT.REASON.key x.lane, LANE_LOAD_STAT.IS_UNIT.key x.lane,
      LANE_LOAD_STAT.INDEX.key x.lane] ++ [8, 9, 10, 11].map LANE_SIG.SIG.key) s t ∧ SameCtxs [] s t ∧ SamePhases [] s t ∧
    SameCrews [] s t ∧ SameMem s t) ∧
  (∀ x s, s.load = some x → headerBad x.img = false → x.srcOk = true → s.noRoom x.lane x.base (hword x.img 2) = false →
    crc32 ((x.img.drop 0x40).take (hword x.img 8 - 0x40)) ≠ hword x.img 9 → Does (exec .loadComplete s) fun t =>
      t.load = none ∧ t.lst x.lane = 0 ∧ t.get LANE_LOAD_STAT.REASON x.lane = 6 ∧ t.lanes = s.lanes ∧ SamePhases [] s t ∧
      SameCrews [] s t ∧ SameMem s t) ∧
  (∀ x ws decls s u, s.Inv → s.load = some x → headerBad x.img = false → x.srcOk = true →
    s.noRoom x.lane x.base (hword x.img 2) = false → crc32 ((x.img.drop 0x40).take (hword x.img 8 - 0x40)) = hword x.img 9 →
    x.img.length = hword x.img 8 →
    u = State.wrBytes { s with load := none } (0x840000 + 8 * x.base) ((x.img.drop (codeAt x.img)).take (8 * hword x.img 2)) →
    ws = (List.range (hword x.img 2)).map (fun k => PWord.ofNat (cval x.img (codeAt x.img + 8 * k) 8)) →
    decls = (unitTable x.img).map declOf → u.tableCode x.lane (unitTable x.img) 0 [] = none →
    u.codeCode x.lane decls ws ws 0 = none → flowCode ws (hword x.img 5) = none → hword x.img 6 = 0 →
    Does (exec .loadComplete s) fun t =>
      t.load = none ∧ t.lst x.lane = 2 ∧ t.get LANE_LOAD_STAT.REASON x.lane = 0 ∧ t.pc x.lane = hword x.img 4 % 2 ^ 15 ∧
      (t.lane x.lane).entry = hword x.img 4 ∧ (t.lane x.lane).wdog = hword x.img 5 ∧ (t.lane x.lane).decls = decls ∧
      t.get LANE_IMAGE.BASE x.lane = x.base % 2 ^ LANE_IMAGE.BASE.width ∧
      t.get LANE_IMAGE.COUNT x.lane = hword x.img 2 % 2 ^ LANE_IMAGE.COUNT.width ∧
      (∀ d ∈ decls, t.get DESC_W7.PROG_REFS d.unit = (s.get DESC_W7.PROG_REFS d.unit + 1) % 2 ^ 8) ∧
      (∀ k, k < 8 * hword x.img 2 → mget 0 t.mem (0x840000 + 8 * x.base + k) = x.img.getD (codeAt x.img + k) 0) ∧
      (∀ a, a < 0x840000 + 8 * x.base ∨ 0x840000 + 8 * x.base + 8 * hword x.img 2 ≤ a → mget 0 t.mem a = mget 0 s.mem a) ∧
      SameCtxs [] s t ∧ SamePhases [] s t ∧ SameCrews [] s t)

/-- DescriptorWrites. A write to word 0, 1 or 2 of an unassigned user group stores its fields and counts in GEN where it
changes them; VALID = 1 makes the entry pending for validation; VALID = 0 to a valid group starts its removal and counts in GEN (assumption log 82's choice), or with
references open answers BUSY. Any other write to a descriptor (of a fixed unit, of an entry that is pending, of a
valid group, or of a later word) changes nothing and raises "descriptor write refused". -/
def Obligations.DescriptorWrites : Prop :=
  (∀ m u data s, s.Takes m .DESC_W1 u data → 0x700 ≤ u → u < 0x800 → s.unitBusy u = false → s.flag DESC_W0.VALID u = false →
    Does (exec (.descriptorWrite m u 1 data) s) fun t =>
      t.get DESC_W1.LIST u = bits data 31 31 ∧ t.get DESC_W1.STRIDE u = bits data 27 24 ∧
        t.get DESC_W1.COUNT u = bits data 23 12 ∧
      t.get DESC_W1.FIRST u = bits data 11 0 ∧
      t.get DESC_W6.GEN u = (if bits data 31 31 = s.get DESC_W1.LIST u ∧ bits data 27 24 = s.get DESC_W1.STRIDE u ∧
          bits data 23 12 = s.get DESC_W1.COUNT u ∧ bits data 11 0 = s.get DESC_W1.FIRST u then s.get DESC_W6.GEN u
        else (s.get DESC_W6.GEN u + 1) % 2 ^ 16) ∧
      SameRegs [DESC_W1.LIST.key u, DESC_W1.STRIDE.key u, DESC_W1.COUNT.key u, DESC_W1.FIRST.key u, DESC_W6.GEN.key u] s t ∧
      SamePhases [] s t ∧ SameCrews [] s t ∧ SameMem s t) ∧
  (∀ m u data s, s.Takes m .DESC_W0 u data → 0x700 ≤ u → u < 0x800 → s.unitBusy u = false → s.flag DESC_W0.VALID u = false →
    bitAt data 27 = false → Does (exec (.descriptorWrite m u 0 data) s) fun t => t.get DESC_W0.KIND u = bits data 31 28 ∧
      t.get DESC_W6.GEN u = (if bits data 31 28 = s.get DESC_W0.KIND u then s.get DESC_W6.GEN u
        else (s.get DESC_W6.GEN u + 1) % 2 ^ 16) ∧
      SameRegs [DESC_W0.KIND.key u, DESC_W6.GEN.key u] s t ∧ SamePhases [] s t ∧ SameCrews [] s t ∧ SameMem s t) ∧
  (∀ m u data s, s.Takes m .DESC_W2 u data → 0x700 ≤ u → u < 0x800 → s.unitBusy u = false → s.flag DESC_W0.VALID u = false →
    Does (exec (.descriptorWrite m u 2 data) s) fun t => t.get DESC_W2.LIST_PTR u = bits data 21 3 ∧
      t.get DESC_W6.GEN u = (if bits data 21 3 = s.get DESC_W2.LIST_PTR u then s.get DESC_W6.GEN u
        else (s.get DESC_W6.GEN u + 1) % 2 ^ 16) ∧
      SameRegs [DESC_W2.LIST_PTR.key u, DESC_W6.GEN.key u] s t ∧ SamePhases [] s t ∧ SameCrews [] s t ∧ SameMem s t) ∧
  (∀ m r w u data s, (r, w) ∈ [(Reg.DESC_W0, 0), (.DESC_W1, 1), (.DESC_W2, 2), (.DESC_W3, 3), (.DESC_W4, 4), (.DESC_W5, 5),
      (.DESC_W6, 6), (.DESC_W7, 7)] → s.Takes m r u data → s.room →
    (u < 0x700 ∨ s.unitBusy u = true ∨ (s.flag DESC_W0.VALID u = false ∧ 3 ≤ w) ∨
      (s.flag DESC_W0.VALID u = true ∧ (w ≠ 0 ∨ bitAt data 27 = true))) → Does (exec (.descriptorWrite m u w data) s) fun t =>
    t.intake = s.intake ++ [s.eventOf 0x0101 1 u] ∧ SameRegs [] s t ∧ SamePhases [] s t ∧ SameMem s t) ∧
  (∀ m u data s, s.Takes m .DESC_W0 u data → 0x700 ≤ u → u < 0x800 → s.unitBusy u = false → s.flag DESC_W0.VALID u = false →
    bitAt data 27 = true → Does (exec (.validation m u data) s) fun t =>
      t.get DESC_W0.VALID u = 1 ∧ t.get DESC_W0.KIND u = bits data 31 28 ∧ t.get DESC_W6.STATUS u = 1 ∧ t.unitBusy u = true ∧
      t.unitPend = s.unitPend ++ [(u, false)] ∧ t.get DESC_W6.GEN u = (s.get DESC_W6.GEN u + 1) % 2 ^ 16 ∧
      SameRegs [DESC_W0.VALID.key u, DESC_W0.KIND.key u, DESC_W6.STATUS.key u, DESC_W6.GEN.key u] s t ∧ SamePhases [] s t ∧
      SameCrews [] s t ∧ SameMem s t) ∧
  (∀ m u data s, s.Takes m .DESC_W0 u data → 0x700 ≤ u → u < 0x800 → s.unitBusy u = false → s.flag DESC_W0.VALID u = true →
    bitAt data 27 = false → Does (exec (.removal m u data) s) fun t =>
      (if s.get DESC_W7.GROUP_REFS u = 0 ∧ s.get DESC_W7.PROG_REFS u = 0 then
        t.get DESC_W6.STATUS u = 1 ∧ t.unitPend = s.unitPend ++ [(u, true)]
      else t.get DESC_W6.STATUS u = 0x17 ∧ t.unitPend = s.unitPend) ∧
      t.get DESC_W6.GEN u = (s.get DESC_W6.GEN u + 1) % 2 ^ 16 ∧
      SameRegs [DESC_W6.STATUS.key u, DESC_W6.GEN.key u] s t ∧ SamePhases [] s t ∧ SameCrews [] s t ∧ SameMem s t)

/-- GroupsCapabilityAndGrants. A pending group whose members are given by FIRST and STRIDE and pass every check comes into
force: its members are kept and gain a reference, its STATUS is 0, and its rating and phase count are those of its
leaf phases; one that fails a check is invalid again, with the code of the first failing check. A removal ends with
the entry as it is after reset but for GEN, and each member loses a reference. Once a phase has been fused, struck or
restored, its entry and its crew's show it: rating, peak and phase count of the usable phases, and one more change in
GEN; entries not over it stay. Once a grant has changed, an entry that it affects shows whether all its leaf crews
belong to one lane, and which. -/
def Obligations.GroupsCapabilityAndGrants : Prop :=
  (∀ u l s, u < 0x800 → s.unitPend.contains (u, false) = true → s.get DESC_W0.KIND u = 6 → s.get DESC_W1.LIST u = 0 →
    s.get DESC_W1.STRIDE u ≠ 0 → 0 < s.get DESC_W1.COUNT u → s.get DESC_W1.COUNT u ≤ 256 →
    l = (List.range (s.get DESC_W1.COUNT u)).map (fun k => s.get DESC_W1.FIRST u + k * s.get DESC_W1.STRIDE u) →
    s.groupCode l = 0 → u ∉ l → Does (exec (.validationComplete u) s) fun t =>
      t.get DESC_W3.CONT_RATING u = 28 * ((t.leafPhases u).filter s.phaseUsable).length % 2 ^ DESC_W3.CONT_RATING.width ∧
      t.get DESC_W3.PEAK_RATING u = 40 * ((t.leafPhases u).filter s.phaseUsable).length % 2 ^ DESC_W3.PEAK_RATING.width ∧
      t.get DESC_W5.ACTIVE_PHASES u = ((t.leafPhases u).filter s.phaseUsable).length % 2 ^ DESC_W5.ACTIVE_PHASES.width ∧
      ((∀ v ∈ l, v < 0x700) → t.leafPhases u = l.flatMap s.leafPhases) ∧
      t.groupMembers = tset s.groupMembers u l ∧ t.get DESC_W6.STATUS u = 0 ∧ t.unitPend.contains (u, false) = false ∧
      t.get DESC_W5.REGION u = 3 ∧ t.get DESC_W7.DEPTH u = (1 + maxN (l.map (fun v => s.get DESC_W7.DEPTH v))) % 2 ^ 4 ∧
      (∀ v ∈ l, t.get DESC_W7.GROUP_REFS v = (s.get DESC_W7.GROUP_REFS v + 1) % 2 ^ 9) ∧
      t.get DESC_W6.GEN u = (s.get DESC_W6.GEN u + 1) % 2 ^ 16 ∧ SamePhases [] s t ∧ SameCrews [] s t ∧ SameMem s t) ∧
  (∀ u l s, s.unitPend.contains (u, false) = true → s.get DESC_W0.KIND u = 6 → s.get DESC_W1.LIST u = 0 →
    s.get DESC_W1.STRIDE u ≠ 0 → 0 < s.get DESC_W1.COUNT u → s.get DESC_W1.COUNT u ≤ 256 →
    l = (List.range (s.get DESC_W1.COUNT u)).map (fun k => s.get DESC_W1.FIRST u + k * s.get DESC_W1.STRIDE u) →
    s.groupCode l ≠ 0 → Does (exec (.validationComplete u) s) fun t =>
      t.get DESC_W0.VALID u = 0 ∧ t.get DESC_W6.STATUS u = s.groupCode l ∧ t.groupMembers = s.groupMembers ∧
      SameRegs [DESC_W0.VALID.key u, DESC_W6.STATUS.key u, DESC_W6.GEN.key u] s t ∧ SamePhases [] s t ∧ SameCrews [] s t ∧
      SameMem s t) ∧
  (∀ u s, s.unitPend.contains (u, false) = true → s.get DESC_W0.KIND u ≠ 6 → Does (exec (.validationComplete u) s) fun t =>
    t.get DESC_W0.VALID u = 0 ∧ t.get DESC_W6.STATUS u = 0x16 ∧
    SameRegs [DESC_W0.VALID.key u, DESC_W6.STATUS.key u, DESC_W6.GEN.key u] s t ∧ SamePhases [] s t ∧ SameCrews [] s t ∧
      SameMem s t) ∧
  (∀ u s, s.unitPend.contains (u, true) = true → (tget [] s.groupMembers u).Nodup → u ∉ tget [] s.groupMembers u →
    Does (exec (.removalComplete u) s) fun t =>
      (∀ f ∈ descFields, f.key u ≠ DESC_W6.GEN.key u → t.get f u = f.reset u % 2 ^ f.width) ∧
      t.get DESC_W6.GEN u = (s.get DESC_W6.GEN u + 1) % 2 ^ 16 ∧ thas t.groupMembers u = false ∧
      t.unitPend.contains (u, true) = false ∧
      (∀ v ∈ tget [] s.groupMembers u, t.get DESC_W7.GROUP_REFS v = (s.get DESC_W7.GROUP_REFS v - 1) % 2 ^ 9) ∧
      SameRegs (descFields.map (·.key u) ++ (tget [] s.groupMembers u).map DESC_W7.GROUP_REFS.key) s t ∧ SamePhases [] s t ∧
      SameCrews [] s t ∧ SameMem s t) ∧
  (∀ ph s, ph < 1536 → s.flag DESC_W0.VALID ph = true → s.flag DESC_W0.VALID (0x600 + ph / 8) = true →
    ¬ (s.flag DESC_W5.STRUCK ph = ((s.phase ph).st == .struck) ∧ s.flag DESC_W5.FUSED ph = ((s.phase ph).st == .fused)) →
    Does (exec (.capabilityRecompute ph) s) fun t =>
      t.flag DESC_W5.STRUCK ph = ((s.phase ph).st == .struck) ∧ t.flag DESC_W5.FUSED ph = ((s.phase ph).st == .fused) ∧
      t.get DESC_W3.CONT_RATING ph = (if s.phaseUsable ph then 28 else 0) ∧
      t.get DESC_W3.PEAK_RATING ph = (if s.phaseUsable ph then 40 else 0) ∧
      t.get DESC_W3.CONT_RATING (0x600 + ph / 8) = 28 * s.usable (ph / 8) ∧
      t.get DESC_W3.PEAK_RATING (0x600 + ph / 8) = 40 * s.usable (ph / 8) ∧
      t.get DESC_W5.ACTIVE_PHASES (0x600 + ph / 8) = s.usable (ph / 8) ∧
      t.get DESC_W6.GEN ph = (s.get DESC_W6.GEN ph + 1) % 2 ^ 16 ∧
      t.get DESC_W6.GEN (0x600 + ph / 8) = (s.get DESC_W6.GEN (0x600 + ph / 8) + 1) % 2 ^ 16 ∧
      (∀ u, ph ∉ s.leafPhases u → ∀ f, t.get f u = s.get f u) ∧ SamePhases [] s t ∧ SameCrews [] s t ∧ SameMem s t) ∧
  (∀ ph s, ph < 1536 → s.flag DESC_W5.STRUCK ph = ((s.phase ph).st == .struck) →
    s.flag DESC_W5.FUSED ph = ((s.phase ph).st == .fused) → exec (.capabilityRecompute ph) s = .next s) ∧
  (∀ lane u s, u < 0x800 → s.flag DESC_W0.VALID u = true → s.grantStale u = true →
    (s.grantOf u = some lane ∨ (s.flag DESC_W6.GRANTED u = true ∧ s.get DESC_W6.LANE u = lane)) →
    Does (exec (.grantUpdate lane) s) fun t =>
      t.get DESC_W6.GRANTED u = (s.grantOf u).isSome.toNat ∧ t.get DESC_W6.LANE u = (s.grantOf u).getD 0 ∧
      t.get DESC_W6.GEN u = (s.get DESC_W6.GEN u + 1) % 2 ^ 16 ∧
      SameRegs (s.units.flatMap fun v => [DESC_W6.GRANTED.key v, DESC_W6.LANE.key v, DESC_W6.GEN.key v]) s t ∧
      SamePhases [] s t ∧ SameCrews [] s t ∧ SameMem s t)

/-- ForecastPortsAndWindows. A tile's write to a window that is not IDLE takes a credit, or without one waits at its port;
to an IDLE window it is accepted without one. An accepted record joins its port's queue with its arrival and its
region's clock, behind those of earlier cycles and, of the same cycle, those of lower tiles. A lower tile takes the
credit that a higher one has taken in the same cycle, whose write then waits. A returning credit lowers the window's
OUT and hands the status to the tile. FCW_ARRIVALS counts the records taken. A write to FCW_CFG that R185 or R222
refuses sets CFG_ERR and changes nothing else; an accepted one stores its fields, and EN decides between IDLE and
CLOSED, and a changed KEEP or CREDITS puts both pointers at 0 (assumption log 106's choice). A write of RD to FCW_PTR of
a KEEP window releases the slots up to it and returns their credits; one beyond the unread slots or the ring, and one to
a window without KEEP, changes nothing. -/
def Obligations.ForecastPortsAndWindows : Prop :=
  (∀ tile w words width s, tile < 9216 → w < 64 → width ∈ [8, 16, 32, 48, 64] → s.fcHeld.any (fun r => r.tile == tile) = false →
    s.get FCW_STAT.STATE w ≠ 0 → s.hasCredit (tilePort tile) w = true →
      Does (exec (.forecastWrite tile w words width) s) fun t =>
      (∃ r : FRec, tget [] t.fcPort (tilePort tile) = insBy FRec.sooner r (tget [] s.fcPort (tilePort tile)) ∧
        ((∀ e ∈ tget [] s.fcPort (tilePort tile), e.cyc < s.now) →
          tget [] t.fcPort (tilePort tile) = tget [] s.fcPort (tilePort tile) ++ [r]) ∧
        r.tile = tile ∧ r.win = w ∧ r.cyc = s.now ∧ r.shown = s.now ∧
        r.port = tilePort tile ∧ r.words = words.take 12 ∧ r.width = width ∧ r.arr = s.stampNow ∧ r.credit = true ∧
        r.rate = s.get MSH_REG_CFG.RATE (tileRegion r.first) ∧ r.period = s.get MSH_REG_CFG.PERIOD (tileRegion r.first)) ∧
      (∀ p, p ≠ tilePort tile → tget [] t.fcPort p = tget [] s.fcPort p) ∧
      t.outOf (tilePort tile) w = s.outOf (tilePort tile) w + 1 ∧
      t.get FCW_STAT.OUT w = FCW_STAT.OUT.count (s.get FCW_STAT.OUT w) ∧ t.fcHeld = s.fcHeld ∧
      SameRegs [FCW_STAT.OUT.key w] s t ∧ SamePhases [] s t ∧ SameCrews [] s t ∧ SameMem s t) ∧
  (∀ tile w words width s, tile < 9216 → w < 64 → width ∈ [8, 16, 32, 48, 64] → s.fcHeld.any (fun r => r.tile == tile) = false →
    s.get FCW_STAT.STATE w = 0 → Does (exec (.forecastWrite tile w words width) s) fun t =>
      (∃ r : FRec, tget [] t.fcPort (tilePort tile) = insBy FRec.sooner r (tget [] s.fcPort (tilePort tile)) ∧
        ((∀ e ∈ tget [] s.fcPort (tilePort tile), e.cyc < s.now) →
          tget [] t.fcPort (tilePort tile) = tget [] s.fcPort (tilePort tile) ++ [r]) ∧
        r.tile = tile ∧ r.win = w ∧ r.cyc = s.now ∧ r.shown = s.now ∧ r.credit = false) ∧ t.fcOut = s.fcOut ∧
          t.fcHeld = s.fcHeld ∧ SameRegs [] s t ∧ SamePhases [] s t ∧ SameCrews [] s t ∧
      SameMem s t) ∧
  (∀ tile w words width s, tile < 9216 → w < 64 → width ∈ [8, 16, 32, 48, 64] → s.fcHeld.any (fun r => r.tile == tile) = false →
    s.get FCW_STAT.STATE w ≠ 0 → s.hasCredit (tilePort tile) w = false →
    (∀ e ∈ tget [] s.fcPort (tilePort tile), e.win = w → e.credit = true → e.cyc = s.now → e.shown = s.now → e.tile ≤ tile) →
    Does (exec (.forecastWrite tile w words width) s) fun t =>
      (∃ r : FRec, t.fcHeld = insBy FRec.sooner r s.fcHeld ∧ r.tile = tile ∧ r.win = w ∧ r.shown = s.now ∧ r.cyc = 0) ∧
      t.fcPort = s.fcPort ∧ t.fcOut = s.fcOut ∧
      SameRegs [] s t ∧ SamePhases [] s t ∧ SameCrews [] s t ∧ SameMem s t) ∧
  (∀ tile w words width q e s, tile < 9216 → w < 64 → width ∈ [8, 16, 32, 48, 64] →
    s.fcHeld.any (fun r => r.tile == tile) = false → s.get FCW_STAT.STATE w ≠ 0 → s.hasCredit (tilePort tile) w = false →
    tget [] s.fcPort (tilePort tile) = q ++ [e] → e ∉ q → e.win = w → e.credit = true → e.cyc = s.now → e.shown = s.now →
    tile < e.tile → Does (exec (.forecastWrite tile w words width) s) fun t =>
      (∃ r : FRec, tget [] t.fcPort (tilePort tile) = insBy FRec.sooner r q ∧ r.tile = tile ∧ r.win = w ∧ r.credit = true ∧
        r.arr = s.stampNow) ∧
      t.fcHeld = insBy FRec.sooner { e with cyc := 0 } s.fcHeld ∧ t.fcOut = s.fcOut ∧
      SameRegs [] s t ∧ SamePhases [] s t ∧ SameCrews [] s t ∧ SameMem s t) ∧
  (∀ r rest s, s.fcRet = r :: rest → s.fcHeld = [] → r.credit = true → Does (exec .creditReturn s) fun t =>
    t.fcRet = rest ∧ t.fcReply = some r ∧ t.outOf r.port r.win = s.outOf r.port r.win - 1 ∧
    t.get FCW_STAT.OUT r.win = (s.get FCW_STAT.OUT r.win - 1) % 2 ^ FCW_STAT.OUT.width ∧
    SameRegs [FCW_STAT.OUT.key r.win] s t ∧ SamePhases [] s t ∧ SameCrews [] s t ∧ SameMem s t) ∧
  (∀ w rest s, s.fcArr = w :: rest → Does (exec .arrival s) fun t =>
    t.fcArr = rest ∧ t.get FCW_ARRIVALS.ARRIVALS w = (s.get FCW_ARRIVALS.ARRIVALS w + 1) % 2 ^ FCW_ARRIVALS.ARRIVALS.width ∧
    SameRegs [FCW_ARRIVALS.ARRIVALS.key w] s t ∧ SamePhases [] s t ∧ SameCrews [] s t ∧ SameMem s t) ∧
  (∀ m w data s, s.Takes m .FCW_CFG w data → s.cfgRefused w (data % 2 ^ 32) = true →
    Does (exec (.fcwCfgWrite m w data) s) fun t =>
    t.get FCW_STAT.CFG_ERR w = 1 ∧ SameRegs [FCW_STAT.CFG_ERR.key w] s t ∧ SamePhases [] s t ∧ SameCrews [] s t ∧ SameMem s t) ∧
  (∀ m w data s, s.Takes m .FCW_CFG w data → s.cfgRefused w (data % 2 ^ 32) = false → s.fcHeld = [] →
    Does (exec (.fcwCfgWrite m w data) s) fun t =>
      t.get FCW_CFG.EN w = FCW_CFG.EN.ofWord data ∧ t.get FCW_CFG.KEEP w = FCW_CFG.KEEP.ofWord data ∧
      t.get FCW_CFG.CREDITS w = FCW_CFG.CREDITS.ofWord data ∧ t.get FCW_CFG.MIN_LEAD w = FCW_CFG.MIN_LEAD.ofWord data ∧
      t.get FCW_CFG.SUPER w = FCW_CFG.SUPER.ofWord data ∧ t.get FCW_CFG.OWNER w = FCW_CFG.OWNER.ofWord data ∧
      (FCW_CFG.EN.ofWord data = 0 → t.get FCW_STAT.STATE w = 0) ∧
      (FCW_CFG.EN.ofWord data = 1 → s.get FCW_CFG.EN w = 0 → t.get FCW_STAT.STATE w = 1) ∧
      (FCW_CFG.KEEP.ofWord data ≠ s.get FCW_CFG.KEEP w ∨ FCW_CFG.CREDITS.ofWord data ≠ s.get FCW_CFG.CREDITS w →
        t.get FCW_PTR.WR w = 0 ∧ t.get FCW_PTR.RD w = 0) ∧
      SamePhases [] s t ∧ SameCrews [] s t ∧ SameMem s t) ∧
  (∀ w (s : State), s.get FCW_STAT.STATE w = 2 → ∀ v, s.cfgRefused w v = true) ∧
  (∀ m w data rd n d s, s.Takes m .FCW_PTR w data → rd = FCW_PTR.RD.ofWord data → n = 128 * (s.get FCW_CFG.CREDITS w + 1) →
    d = (rd + n - s.get FCW_PTR.RD w) % n → s.flag FCW_CFG.KEEP w = true → rd < n → d ≤ (tget [] s.fcUnread w).length →
    Does (exec (.ringRelease m w data) s) fun t =>
      t.get FCW_PTR.RD w = rd ∧ t.fcRet = s.fcRet ++ (tget [] s.fcUnread w).take d ∧
      tget [] t.fcUnread w = (tget [] s.fcUnread w).drop d ∧ SameRegs [FCW_PTR.RD.key w] s t ∧ SamePhases [] s t ∧
      SameCrews [] s t ∧ SameMem s t) ∧
  (∀ m w data rd n s, s.Takes m .FCW_PTR w data → rd = FCW_PTR.RD.ofWord data → n = 128 * (s.get FCW_CFG.CREDITS w + 1) →
    (n ≤ rd ∨ (tget [] s.fcUnread w).length < (rd + n - s.get FCW_PTR.RD w) % n) →
    Does (exec (.ringRelease m w data) s) fun t => t.fcRet = s.fcRet ∧ t.fcUnread = s.fcUnread ∧
      SameRegs [] s t ∧ SamePhases [] s t ∧ SameCrews [] s t ∧ SameMem s t) ∧
  (∀ m w data s, s.Takes m .FCW_PTR w data → s.flag FCW_CFG.KEEP w = false → Does (exec (.ringRelease m w data) s) fun t =>
    t.fcRet = s.fcRet ∧ t.fcUnread = s.fcUnread ∧ SameRegs [] s t ∧ SamePhases [] s t ∧ SameCrews [] s t ∧ SameMem s t)

/-- ForecastIntake. The intake takes the oldest record of the next port that offers one, which a port does from the cycle
after it accepted the record; with none offered it does nothing. One for an IDLE or CLOSED window, or malformed, is discarded,
counted and returned with its status. An accepted one counts among the arrivals, and as SHORT where its lead is below
MIN_LEAD; a STEP adds its steps to the sums; without KEEP its credit returns at once, and with KEEP it is written to
its ring slot of 64 bytes. -/
def Obligations.ForecastIntake : Prop :=
  (∀ f s, s.cyc.on = true → (∀ k, k < 16 → ∀ r rest, tget [] s.fcPort (16 * f + k) = r :: rest → s.now ≤ r.cyc) →
    exec (.intake f) s = .next s) ∧
  (∀ f k (s : State), s.fcNext f = some k → k < 16 ∧ ∃ r rest, tget [] s.fcPort (16 * f + k) = r :: rest ∧
    (s.cyc.on = true → r.cyc < s.now)) ∧
  (∀ f k r rest st s, s.fcNext f = some k → tget [] s.fcPort (16 * f + k) = r :: rest →
    (s.get FCW_STAT.STATE r.win = 0 ∧ st = 3) ∨ (s.get FCW_STAT.STATE r.win = 1 ∧ st = 2) ∨
      (s.get FCW_STAT.STATE r.win = 2 ∧ r.malformed = true ∧ st = 4) → Does (exec (.intake f) s) fun t =>
    tget [] t.fcPort (16 * f + k) = rest ∧ tget 15 t.fcLast f = k ∧
    t.fcRet = s.fcRet ++ [⟨r.port, r.tile, r.win, st, r.credit⟩] ∧ t.fcArr = s.fcArr ∧
    t.get FCW_STAT.DISCARDS r.win = FCW_STAT.DISCARDS.count (s.get FCW_STAT.DISCARDS r.win) ∧
    SameRegs [FCW_STAT.DISCARDS.key r.win] s t ∧ SamePhases [] s t ∧ SameCrews [] s t ∧ SameMem s t) ∧
  (∀ f k r rest s, s.fcNext f = some k → tget [] s.fcPort (16 * f + k) = r :: rest → s.get FCW_STAT.STATE r.win = 2 →
    r.malformed = false → s.get FCW_CFG.KEEP r.win = 0 → Does (exec (.intake f) s) fun t =>
    let short : Bool := decide (cyclesToTicks (r.word 1) r.period r.rate < s.get FCW_CFG.MIN_LEAD r.win)
    tget [] t.fcPort (16 * f + k) = rest ∧ t.fcRet = s.fcRet ++ [⟨r.port, r.tile, r.win, short.toNat, r.credit⟩] ∧
    t.fcArr = s.fcArr ++ [r.win] ∧ t.get FCW_STAT.SHORTS r.win =
      (if short then FCW_STAT.SHORTS.count (s.get FCW_STAT.SHORTS r.win) else s.get FCW_STAT.SHORTS r.win) ∧
    (r.kind = 2 → SameRegs [FCW_STAT.SHORTS.key r.win] s t) ∧
    (r.kind = 1 → t.get FCW_STAT.STAMPS_VALID r.win = 1 ∧
      t.getI FCW_SUM.SUM (16 * r.win + 2 * (r.first / 1152)) = sat32 (s.getI FCW_SUM.SUM (16 * r.win + 2 * (r.first / 1152)) +
        sgn 16 (bits (r.word 3) 15 0) * (r.span + 1 : Nat)) ∧
      t.getI FCW_SUM.SUM (16 * r.win + 2 * (r.first / 1152) + 1) =
        sat32 (s.getI FCW_SUM.SUM (16 * r.win + 2 * (r.first / 1152) + 1) + sgn 16 (bits (r.word 3) 31 16) * (r.span
          + 1 : Nat)) ∧
      (r.word 2 = 0 → t.get FCW_STAT.END_OPEN r.win = 1)) ∧
    SamePhases [] s t ∧ SameCrews [] s t ∧ SameMem s t) ∧
  (∀ f k r rest s, s.Inv → s.fcNext f = some k → tget [] s.fcPort (16 * f + k) = r :: rest → s.get FCW_STAT.STATE r.win = 2 →
    r.malformed = false → s.get FCW_CFG.KEEP r.win = 1 → Does (exec (.intake f) s) fun t =>
    let short : Bool := decide (cyclesToTicks (r.word 1) r.period r.rate < s.get FCW_CFG.MIN_LEAD r.win)
    let a := 0x290000 + 64 * ((s.get FCW_RING.BASE r.win + s.get FCW_PTR.WR r.win) % 4096)
    t.fcRet = s.fcRet ∧ t.fcArr = s.fcArr ++ [r.win] ∧
    tget [] t.fcUnread r.win = tget [] s.fcUnread r.win ++ [⟨r.port, r.tile, r.win, short.toNat, r.credit⟩] ∧
    t.get FCW_PTR.WR r.win = (s.get FCW_PTR.WR r.win + 1) % (128 * (s.get FCW_CFG.CREDITS r.win + 1)) % 2 ^ 10 ∧
    (∀ b, b < 64 → mget 0 t.mem (a + b) = ((r.stored short.toNat
      (s.addTicks r.arr (cyclesToTicks (r.word 1) r.period r.rate))).flatMap (leBytes 4)).getD b 0) ∧
    (∀ b, b < a ∨ a + 64 ≤ b → mget 0 t.mem b = mget 0 s.mem b) ∧ SamePhases [] s t ∧ SameCrews [] s t)

/-- HeatsAndStretches. A start request joins its field's queue, behind those that arrived in earlier cycles, or is counted
as a duplicate where its tile has one pending, and handed back; in AUTO mode it starts a sequence. A heat of a running
sequence takes the oldest requests that have arrived while the steps taken are below the budget, sends their grants
and counts; with no such request left the sequence ends. The grants reach their tiles. A stalled GATED field starts a
half-budget sequence with its event. A requested stretch of a region counts and takes the request, as a droop stretch
alone where a realignment is due too, and every forecast-bound armed stamp and cover end of its crews that is still to
come by the crew's own count is postponed by half the region's period, up to 256 ns in all, from the end of its delivery
tick on; a stretch that would pass the 256 ns postpones the stamp not at all (assumption log 139's choices). While a
crossing calibration holds, nothing stretches. A realignment
sets the region's target as far ahead as its largest lead. -/
def Obligations.HeatsAndStretches : Prop :=
  (∀ tile cls s, tile < 9216 → (s.mar (tileField tile)).queue.any (fun e => e.tile == tile) = true →
    Does (exec (.startRequest tile cls) s) fun t =>
      t.mar (tileField tile) = { s.mar (tileField tile) with dup := some tile } ∧
      (∀ f, f ≠ tileField tile → t.mar f = s.mar f) ∧
      t.get MSH_REQ_CNT.DUPS (tileField tile) = MSH_REQ_CNT.DUPS.count (s.get MSH_REQ_CNT.DUPS (tileField tile)) ∧
      SameRegs [MSH_REQ_CNT.DUPS.key (tileField tile)] s t ∧ SamePhases [] s t ∧ SameCrews [] s t ∧ SameMem s t) ∧
  (∀ tile cls s, tile < 9216 → (s.mar (tileField tile)).queue.any (fun e => e.tile == tile) = false →
    s.vlgOn (tileField tile) = true → s.heatsHeld = false → Does (exec (.startRequest tile cls) s) fun t =>
      (t.mar (tileField tile)).queue = joinQueue s.now ⟨tile, cls % 8, s.now, s.now⟩ (s.mar (tileField tile)).queue ∧
      ((∀ e ∈ (s.mar (tileField tile)).queue, e.at_ < s.now) →
        (t.mar (tileField tile)).queue = (s.mar (tileField tile)).queue ++ [⟨tile, cls % 8, s.now, s.now⟩]) ∧
      ((t.mar (tileField tile)).queue.map fun e => (e.tile, e.cls)).Perm
        ((tile, cls % 8) :: (s.mar (tileField tile)).queue.map fun e => (e.tile, e.cls)) ∧
      (t.mar (tileField tile)).seq = (if s.get MSH_CTL.MODE (tileField tile) = 0 ∧ s.seqIdle (tileField tile) = true then
        .running false else (s.mar (tileField tile)).seq) ∧
      (∀ f, f ≠ tileField tile → t.mar f = s.mar f) ∧ SameRegs [] s t ∧ SamePhases [] s t ∧ SameCrews [] s t ∧ SameMem s t) ∧
  (∀ f half n s, s.heatsHeld = false → s.vlgOn f = true → (s.mar f).seq = .running half → (s.mar f).arrived s.now ≠ [] →
    n = heatTake ((if half then 5 else 10) * min (s.get MSH_CTL.BUDGET f) (s.get CAP_HEAT.BUDGET f)) ((s.mar
      f).arrived s.now) 0 →
    n ≠ 0 → Does (exec (.heatOpen f) s) fun t =>
      (t.mar f).queue = ((s.mar f).arrived s.now).drop n ++ (s.mar f).coming s.now ∧ (t.mar f).seq = .running half ∧
      (t.mar f).lastHeat = some s.now ∧
      (t.mar f).grants = (s.mar f).grants ++ [(((s.mar f).arrived s.now).take n).map (·.tile)] ∧
      t.get MSH_HEAT_CNT.HEATS f = MSH_HEAT_CNT.HEATS.count (s.get MSH_HEAT_CNT.HEATS f) ∧
      (∀ g, g ≠ f → t.mar g = s.mar g) ∧ SameRegs [MSH_HEAT_CNT.HEATS.key f] s t ∧ SamePhases [] s t ∧ SameCrews [] s t ∧
      SameMem s t) ∧
  (∀ f half s, s.heatsHeld = false → s.vlgOn f = true → (s.mar f).seq = .running half → (s.mar f).arrived s.now = [] →
    Does (exec (.heatOpen f) s) fun t => (t.mar f).seq = .none ∧ (t.mar f).queue = (s.mar f).queue ∧
      (t.mar f).grants = (s.mar f).grants ∧ SameRegs [] s t ∧
      SamePhases [] s t ∧ SameCrews [] s t ∧ SameMem s t) ∧
  (∀ lim q, (((q.take (heatTake lim q 0)).dropLast.map (fun e => 2 * e.cls)).sum < lim ∨ heatTake lim q 0 = 0) ∧
    (heatTake lim q 0 < q.length → lim ≤ ((q.take (heatTake lim q 0)).map (fun e => 2 * e.cls)).sum)) ∧
  (∀ f g rest s, (s.mar f).grants = g :: rest → Does (exec (.heatGrant f) s) fun t =>
    t.mar f = { s.mar f with
      grants := rest
      granted := g } ∧ (∀ h, h ≠ f → t.mar h = s.mar h) ∧ SameRegs [] s t ∧ SamePhases [] s t ∧ SameCrews [] s t ∧
        SameMem s t) ∧
  (∀ f s, s.get MSH_CTL.MODE f ≠ 0 → (s.mar f).arrived s.now ≠ [] → (s.mar f).seq = .none → s.vlgOn f = true →
    s.heatsHeld = false →
    s.room → Does (exec (.startStalled f) s) fun t =>
      (t.mar f).seq = .running true ∧ (t.mar f).queue = (s.mar f).queue ∧
      t.get MSH_REQ_CNT.STALLS f = MSH_REQ_CNT.STALLS.count (s.get MSH_REQ_CNT.STALLS f) ∧
      t.intake = s.intake ++ [s.eventOf 0x0606 1 (0x6E0 + f)] ∧ SameRegs [MSH_REQ_CNT.STALLS.key f] s t ∧ SamePhases [] s t ∧
      SameCrews [] s t ∧ SameMem s t) ∧
  (∀ r s, r < 24 → s.strReq.contains r = true → s.xcalHold = false → Does (exec (.stretch r) s) fun t =>
    t.get MSH_STR_CNT.STRETCHES r = (s.get MSH_STR_CNT.STRETCHES r + 1) % 2 ^ 32 ∧ t.strReq.contains r = false ∧
    tget 0 t.strDroops r = tget 0 s.strDroops r + 1 ∧ t.strAligns = s.strAligns ∧
    (∀ c ∈ regionCrews r, ∀ h, (s.crew c).arm = some h → h.bound = true → h.from_ ≤ s.now →
      s.crewReached c h.instant = false → h.post + s.halfPeriod r ≤ 256000 →
        (t.crew c).arm = some { h with post := h.post + s.halfPeriod r }) ∧
    (∀ c ∈ regionCrews r, ∀ v h, (s.crew c).cover = some v → v.endSt = some h → h.bound = true → h.from_ ≤ s.now →
      s.crewReached c h.instant = false → h.post + s.halfPeriod r ≤ 256000 →
        (t.crew c).cover = some { v with endSt := some { h with post := h.post + s.halfPeriod r } }) ∧
    (∀ c ∈ regionCrews r, ∀ v h, (s.crew c).cover = some v → v.endSt = some h → (h.bound = false ∨ s.now < h.from_ ∨
      256000 < h.post + s.halfPeriod r) → (t.crew c).cover.map (fun x => x.endSt.map (·.post)) = some (some h.post)) ∧
    (∀ c ∈ regionCrews r, ∀ h, (s.crew c).arm = some h → (h.bound = false ∨ s.now < h.from_ ∨
      256000 < h.post + s.halfPeriod r) →
      (t.crew c).arm.map (·.post) = some h.post) ∧
    SameRegs (MSH_STR_CNT.STRETCHES.key r :: dropKeys) s t ∧ SamePhases [] s t ∧ SameCrews (regionCrews r) s t ∧ SameMem s t) ∧
  (∀ r s, s.xcalHold = true → exec (.stretch r) s = .next s) ∧
  (∀ r d s, r < 24 → s.alignLead r = some d → s.flag MSH_ALIGN_CTL.ALIGN_EN 0 = true → s.xcalHold = false →
    thas s.strTarget r = false → Does (exec (.realignment r) s) fun t =>
      tget 0 t.strTarget r = unsg 32 ((s.get MSH_STR_CNT.STRETCHES r : Int) + max d 0) ∧
      SameRegs [] s t ∧ SamePhases [] s t ∧ SameCrews [] s t ∧ SameMem s t)

/-- EstimatorAndCapping. An update takes the counts that are delivered, each 16 bits; it makes the selected model the
active one, and after a change restarts the calibration and convergence of every VLG and VMA crew, whose estimate is
held until the next pass. With a model active it counts every tile of the model that has no counts, and the raw
estimate of a VLG crew is the sum over its 64 tiles of output 0, which is nothing for an excluded tile. A write of SRC
selects a model that is held, or none where it names an absent one, and leaves SRC for a reserved code; FW_LOAD asks
for the check of the container at EST_FW_ADDR. The check reports the code of the first failing check; a container that
passes becomes the firmware model, and one that fails leaves every model as it was. A pass turns each crew's energy of
the interval into its measure and clears it, keeps the die power among the last 1,000 and shows it, counts a 1 ms mean
above its limit, leaves every heat budget at 10 A or more, moves no region's capping request by more than one step nor
below RATE_MIN, and is in estimate mode exactly where a model is active and every regulating VLG and VMA crew has
converged; the limit and RATE_MIN count as the cycle of the pass found them. -/
def Obligations.EstimatorAndCapping : Prop :=
  (∀ counts s, Does (exec (.estimatorUpdate counts) s) fun t =>
    t.estActive = s.get EST_CTL.SRC 0 ∧ t.estNew = false ∧ t.models = s.models ∧
    (s.get EST_CTL.SRC 0 ≠ s.estActive ∨ s.estNew = true →
      t.flag EST_STAT.RUN 0 = decide (s.get EST_CTL.SRC 0 ≠ 0) ∧
      ∀ c, c < 192 → c % 24 < 22 → t.get EST_CREW_STAT.UNCONV c = 1 ∧ t.get EST_CREW_STAT.DIV c = 0 ∧
        t.get EST_CREW_STAT.CONV_CNT c = 0 ∧ t.get EST_CREW_STAT.ERR_WIN c = 0 ∧
        tget {} t.estCal c = { est := (tget {} s.estCal c).est } ∧
        t.get EST_CREW_CAL.GAIN c = 16384 ∧ t.getI EST_CREW_CAL.OFFSET c = 0) ∧
    (s.flag EST_DUMP.EN 0 = false → SameMem s t) ∧ SamePhases [] s t ∧ SameCrews [] s t ∧
    SameRegs ([EST_STAT.RUN.key 0, EST_STAT.PERIOD.key 0, EST_MACS.MACS.key 0, EST_MISS_CNT.MISSES.key 0, EST_DUMP.EN.key 0] ++
      allCrews.flatMap fun c => [EST_CREW_STAT.UNCONV.key c, EST_CREW_STAT.DIV.key c, EST_CREW_STAT.ERR_WIN.key c,
        EST_CREW_STAT.CONV_CNT.key c, EST_CREW_CAL.GAIN.key c, EST_CREW_CAL.OFFSET.key c, EST_CREW_EST.MW.key c]) s t) ∧
  (∀ counts b s, s.get EST_CTL.SRC 0 ≠ 0 → b = tget [] s.models (s.get EST_CTL.SRC 0 - 1) → (counts.map (·.1)).Nodup →
    Does (exec (.estimatorUpdate counts) s) fun t =>
      (∀ e ∈ counts, e.1 < 9216 → tget [] t.estCounts e.1 = (e.2.take 8).map (· % 65536)) ∧
      (∀ k, (∀ e ∈ counts, e.1 ≠ k) → tget [] t.estCounts k = tget [] s.estCounts k) ∧
      t.get EST_MISS_CNT.MISSES 0 = min (s.get EST_MISS_CNT.MISSES 0 +
        ((List.range 9216).filter fun k => tileClass b k != 15 && !(counts.any fun e => e.1 == k)).length) (2 ^ 32 - 1) ∧
      ∀ c, c < 192 → c % 24 < 18 → tget 0 t.estRaw c = ((sumN ((List.range 64).map fun k =>
        if tileClass b (1152 * (c / 24) + 64 * (c % 24) + k) = 15 then 0
        else (tileOut b (tileClass b (1152 * (c / 24) + 64 * (c % 24) + k))
          (tget [] t.estCounts (1152 * (c / 24) + 64 * (c % 24) + k))).getD 0 0) : Nat) : Rat)) ∧
  (∀ m data v s, s.Takes m .EST_CTL 0 data → v = EST_CTL.SRC.ofWord data → Does (exec (.estSrc m data) s) fun t =>
    t.get EST_CTL.SRC 0 = (if 10 ≤ v then s.get EST_CTL.SRC 0 else if thas s.models (v - 1) = true ∧ v ≠ 0 then v else 0) ∧
    (EST_CTL.FW_LOAD.ofWord data = 0 → t.estCheck = s.estCheck) ∧ t.models = s.models ∧
    SameRegs [EST_CTL.SRC.key 0] s t ∧ SamePhases [] s t ∧ SameCrews [] s t ∧ SameMem s t) ∧
  (∀ m data s, s.Takes m .EST_CTL 0 data → EST_CTL.FW_LOAD.ofWord data = 1 → Does (exec (.fwLoad m data) s) fun t =>
    t.estCheck = some (s.get EST_FW_ADDR.ADDR 0) ∧ t.models = s.models ∧
    SameRegs [EST_CTL.SRC.key 0] s t ∧ SamePhases [] s t ∧ SameCrews [] s t ∧ SameMem s t) ∧
  (∀ a n b s, s.estCheck = some a → s.get ID_MEM_STAT.BANKS 0 = 0 → s.clean → a % 8 = 0 → 0x400000 ≤ a →
    n = 32 + s.rd 4 (a + 28) → a + n ≤ 0x800000 → s.permits 5 a n true false = true → s.permits 5 a 32 true false = true →
    b = mgetList 0 s.mem a n → Does (exec .modelCheckComplete s) fun t =>
      t.estCheck = none ∧ t.get EST_STAT.LOAD_REASON 0 = modelCode b none ∧
      (modelCode b none = 0 → t.models = tset s.models 8 b ∧ t.get EST_MODELS.FW 0 = 1) ∧
      (modelCode b none ≠ 0 → t.models = s.models) ∧
      SameRegs [EST_STAT.LOAD_REASON.key 0, EST_MODELS.FW.key 0, EST_MODELS.LANES.key 0] s t ∧ SamePhases [] s t ∧
      SameCrews [] s t ∧ SameMem s t) ∧
  (∀ a s, s.estCheck = some a → (a % 8 ≠ 0 ∨ a < 0x400000 ∨ 0x800000 < a + 32) → Does (exec .modelCheckComplete s) fun t =>
    t.estCheck = none ∧ t.get EST_STAT.LOAD_REASON 0 = 1 ∧ t.models = s.models ∧
    SameRegs [EST_STAT.LOAD_REASON.key 0] s t ∧ SamePhases [] s t ∧ SameCrews [] s t ∧ SameMem s t) ∧
  (∀ s, s.Inv → Does (exec .sharingPass s) fun t =>
    (∀ c, c < 192 → t.get EST_CREW_MEAS.MW c = (roundOpen (s.crew c).energy 20000000).toNat % 2 ^ 32 ∧ (t.crew c).energy = 0) ∧
    t.capHist = (t.dieMw :: s.capHist).take 1000 ∧ t.get CAP_VALS.VALUE 0 = t.dieMw / 1000 % 2 ^ 32 ∧
    t.get CAP_OVR_CNT.M1 0 = (if 100000 * s.was CAP_LIM.LIMIT 0 < sumN (t.capHist.take 100) then
      CAP_OVR_CNT.M1.count (s.get CAP_OVR_CNT.M1 0) else s.get CAP_OVR_CNT.M1 0) ∧
    (∀ f, f < 8 → 10 ≤ t.get CAP_HEAT.BUDGET f) ∧
    (∀ r, r < 24 → t.get CAP_RATE_REG.CAP r ≤ s.get CAP_RATE_REG.CAP r + 1 ∧
      (s.get CAP_RATE_REG.CAP r ≤ 16 → s.get CAP_RATE_REG.CAP r ≤ t.get CAP_RATE_REG.CAP r + 1) ∧
      (s.was CAP_CTL.RATE_MIN 0 ≤ 16 → s.was CAP_CTL.RATE_MIN 0 ≤ s.get CAP_RATE_REG.CAP r →
        s.was CAP_CTL.RATE_MIN 0 ≤ t.get CAP_RATE_REG.CAP r)) ∧
    t.flag CAP_STAT.MODE 0 = (t.estActive != 0 && t.notConv == 0) ∧ SamePhases [] s t ∧ SameMem s t)

/-- SensorReadings. A sensor's first sample only waits; a crew sensor's is its crew's temperature. A later one confirms its predecessor: below −55 °C or above 175 °C
the sensor is broken and no stop starts; at T_CRIT or above in range, the critical stop starts at once with SAFE and
its event, and the own slowdown is 255; at T_THROTTLE or above, a region not in throttle enters it, in native mode
with its grace time. The third spike within 100 ms breaks the sensor. Two failed bias checks running break a sensor as
STUCK (at 25 °C a check passes from 14.3 to 21.3 mV), and a crew sensor breaks as STALE. A retest of a broken sensor
starts anew and of a sound one changes nothing; it passes at a passed bias check with 16 confirmed samples. A
substitution is in force only where its sensor is broken, its substitute is neither broken nor substituted, and they
lie within 2 mm; the sensor then reads its substitute plus OFS, and a refusal gives its reason, judged in the order 4, 3,
2, with SUB of 960 or above as 3 (assumption log 78's choice). -/
def Obligations.SensorReadings : Prop :=
  (∀ k reading v s, k < 960 → (192 ≤ k → -32768 ≤ reading ∧ reading < 32768) →
    v = (if k < 192 then (s.crew k).temp else reading) → (s.sensor k).cur = none → Does (exec (.sensorSample k reading) s) fun t =>
      t.sensor k = { s.sensor k with cur := some (v, s.now) } ∧ (∀ j, j ≠ k → t.sensor j = s.sensor j) ∧
      SlowRegs [] s t ∧ SamePhases [] s t ∧ SameCrews [] s t ∧ SameMem s t) ∧
  (∀ k reading v w u s, k < 960 → (192 ≤ k → -32768 ≤ reading ∧ reading < 32768) →
    v = (if k < 192 then (s.crew k).temp else reading) → (s.sensor k).cur = some (w, u) →
    isSpike (s.sensor k).pred w v = false → s.flag THM_SENS.BROKEN k = false → (w < -220 ∨ 700 < w) →
    Does (exec (.sensorSample k reading) s) fun t =>
      t.get THM_SENS.BROKEN k = 1 ∧ t.get THM_SENS.CAUSE k = (if w < -220 then 1 else 2) ∧ t.stop = s.stop ∧
      SamePhases [] s t ∧ SameCrews [] s t ∧ SameMem s t) ∧
  (∀ k reading v w u s, k < 960 → (192 ≤ k → -32768 ≤ reading ∧ reading < 32768) →
    v = (if k < 192 then (s.crew k).temp else reading) → (s.sensor k).cur = some (w, u) →
    isSpike (s.sensor k).pred w v = false → s.flag THM_SENS.BROKEN k = false → -220 ≤ w → w ≤ 700 →
    s.getI THM_THRESH1.T_CRIT 0 ≤ w → (s.sensor k).crit = false → s.stop ≠ .critical →
    (s.flag FLT_STAT.SAFE 0 = false ∨ s.stopDone = false) → Does (exec (.sensorSample k reading) s) fun t =>
      t.stop = .critical ∧ t.get FLT_STAT.SAFE 0 = 1 ∧ t.get RGT_SLOW.S_OWN 0 = 255 ∧ t.get THM_STAT.STOPPING 0 = 1 ∧
        t.get THM_STAT.STOP_KIND 0 = 1 ∧ t.get ID_PWR_STAT.HOST_RESET 0 = 1 ∧
      t.stopIssued = true ∧ (∃ e ∈ t.intake, e.code = 0x0908 ∧ e.kind = 2 ∧ e.src = k) ∧
      SamePhases [] s t ∧ SameCrews [] s t ∧ SameMem s t) ∧
  (∀ k reading v w u s, k < 960 → (192 ≤ k → -32768 ≤ reading ∧ reading < 32768) →
    v = (if k < 192 then (s.crew k).temp else reading) → (s.sensor k).cur = some (w, u) →
    isSpike (s.sensor k).pred w v = false → s.flag THM_SENS.BROKEN k = false → -220 ≤ w → w ≤ 700 →
    s.getI THM_THRESH0.T_THROTTLE 0 ≤ w → s.throttled (sensorRegion k) = false → s.flag THM_CTL.MODE 0 = false →
    s.notices.length < 64 → Does (exec (.sensorSample k reading) s) fun t =>
      t.throttled (sensorRegion k) = true ∧ t.get THM_REG.GRACE (sensorRegion k) = 1 ∧
      (∃ n ∈ t.notices, n.kind = 2 ∧ n.cause = 1 ∧ n.scope = 0 ∧ n.index = sensorRegion k) ∧
      SamePhases [] s t ∧ SameCrews [] s t ∧ SameMem s t) ∧
  (∀ k reading v w u s, k < 960 → (192 ≤ k → -32768 ≤ reading ∧ reading < 32768) →
    v = (if k < 192 then (s.crew k).temp else reading) → (s.sensor k).cur = some (w, u) →
    isSpike (s.sensor k).pred w v = true → s.flag THM_SENS.BROKEN k = false →
    2 ≤ ((s.sensor k).spikes.filter fun v => decide (u ≤ v + 50000000)).length →
    Does (exec (.sensorSample k reading) s) fun t =>
      t.get THM_SENS.BROKEN k = 1 ∧ t.get THM_SENS.CAUSE k = 4 ∧ t.stop = s.stop ∧
      SamePhases [] s t ∧ SameCrews [] s t ∧ SameMem s t) ∧
  (∀ k dv v u rest s, (s.sensor k).conf = (v, u) :: rest → biasOk dv v = false → (s.sensor k).biasFails = 0 →
    Does (exec (.biasCheck k dv) s) fun t =>
    t.sensor k = { s.sensor k with biasFails := 1 } ∧ SameRegs [] s t ∧ SamePhases [] s t ∧ SameCrews [] s t ∧ SameMem s t) ∧
  (∀ k dv s, (s.sensor k).conf = [] → exec (.biasCheck k dv) s = .next s) ∧
  (biasOk 14300000 100 = true ∧ biasOk 21300000 100 = true ∧ biasOk 14200000 100 = false ∧ biasOk 21400000 100 = false) ∧
  (∀ k dv v u rest s, k < 960 → (s.sensor k).conf = (v, u) :: rest → biasOk dv v = false → 1 ≤ (s.sensor k).biasFails →
    s.flag THM_SENS.BROKEN k = false → s.room → Does (exec (.biasCheck k dv) s) fun t =>
      t.get THM_SENS.BROKEN k = 1 ∧ t.get THM_SENS.CAUSE k = 3 ∧ s.eventOf 0x0903 2 k 3 ∈ t.intake ∧ t.stop = s.stop ∧
      SamePhases [] s t ∧ SameCrews [] s t ∧ SameMem s t) ∧
  (∀ k n b dv v u rest s, k < 960 → s.flag THM_SENS.BROKEN k = true → (s.sensor k).retest = some (n, b) → 16 ≤ n →
    (s.sensor k).conf = (v, u) :: rest → biasOk dv v = true → Does (exec (.biasCheck k dv) s) fun t =>
      t.get THM_SENS.BROKEN k = 0 ∧ t.get THM_SENS.CAUSE k = 0 ∧ t.flag THM_SENS.SUBST k = false ∧ (t.sensor k).retest = none ∧
      SamePhases [] s t ∧ SameCrews [] s t ∧ SameMem s t) ∧
  (∀ k s, k < 192 → s.flag THM_SENS.BROKEN k = false → s.room → Does (exec (.stale k) s) fun t =>
    t.get THM_SENS.BROKEN k = 1 ∧ t.get THM_SENS.CAUSE k = 5 ∧ t.get CREW_GATE_SEL.BAND k = 5 ∧
      s.eventOf 0x0903 2 k 5 ∈ t.intake ∧
    t.stop = s.stop ∧ SamePhases [] s t ∧ SameCrews [] s t ∧ SameMem s t) ∧
  (∀ m k data s, s.Takes m .THM_SENS k data → THM_SENS.RETEST.ofWord data = 1 → Does (exec (.retest m k data) s) fun t =>
    t.sensor k = (if s.flag THM_SENS.BROKEN k = true then { s.sensor k with
      retest := some (0, false)
      spikes := []
      biasFails := 0 } else s.sensor k) ∧ (∀ j, j ≠ k → t.sensor j = s.sensor j) ∧
    SameRegs [] s t ∧ SamePhases [] s t ∧ SameCrews [] s t ∧ SameMem s t) ∧
  (∀ m k data sub ok s, s.Takes m .THM_SUBST k data → bitAt data 31 = true → sub = bits data 9 0 →
    ok = (s.flag THM_SENS.BROKEN k && decide (sub < 960) && !s.flag THM_SENS.BROKEN sub && !s.flag THM_SENS.SUBST sub &&
      decide (((s.get THM_POS.X k : Int) - s.get THM_POS.X sub) * ((s.get THM_POS.X k : Int) - s.get THM_POS.X sub) +
        ((s.get THM_POS.Y k : Int) - s.get THM_POS.Y sub) * ((s.get THM_POS.Y k : Int) - s.get THM_POS.Y sub) ≤ 200 * 200)) →
    Does (exec (.substitution m k data) s) fun t =>
      t.flag THM_SENS.SUBST k = ok ∧ t.flag THM_SUBST.EN k = ok ∧ t.get THM_SUBST.SUB k = sub ∧
      t.get THM_SUBST.OFS k = bits data 27 20 ∧ (t.get THM_SUBST.RESULT k = 1 ↔ ok = true) ∧
      (s.flag THM_SENS.BROKEN k = false → t.get THM_SUBST.RESULT k = 4) ∧
      (ok = true → ∀ v u rest, (s.sensor sub).conf = (v, u) :: rest → t.effective k = some (v + sgn 8 (bits data 27 20))) ∧
      SamePhases [] s t ∧ SameCrews [] s t ∧ SameMem s t)

/-- ThrottleCourse. At the end of its grace time a region still in throttle enforces with its first step down and puts its
planes under thermal ceiling. A step of enforcement lowers the request by 1/16 above RATE_MIN unless T_r falls;
without throttle it rises by 1/16 up to 16. In DRC-1 mode the request is computed from T_r. A ceiling drops by a tenth
of its start, at most five times. A region leaves throttle with its notice, where the queue of 64 has room (assumption
log 57's choice), and its event, and not while a cause holds.
Each of them brings up the own slowdown. -/
def Obligations.ThrottleCourse : Prop :=
  (∀ r s, r < 24 → s.throttled r = true → s.flag THM_REG.GRACE r = true → (s.regionHot r || s.regionSlow r) = true →
    s.get THM_CTL.RATE_MIN 0 < s.get CAP_RATE_REG.THM r → s.get CAP_RATE_REG.THM r ≤ 16 → s.room →
    Does (exec (.graceEnd r) s) fun t =>
      t.get THM_REG.ENFORCE r = 1 ∧ t.get THM_REG.GRACE r = 0 ∧ t.get CAP_RATE_REG.THM r = s.get CAP_RATE_REG.THM r - 1 ∧
      t.intake = s.intake ++ [s.eventOf 0x0906 3 r] ∧
      (∀ p ∈ regionPlanes r, (s.plane p).thmStart = none → (t.plane p).thmStart = some ((9 * s.planeMw p : Nat) / 10 : Rat)) ∧
      SlowRegs ([THM_REG.ENFORCE.key r, THM_REG.GRACE.key r, CAP_RATE_REG.THM.key r, MSH_REG_CFG.RATE.key r] ++
        (regionPlanes r).flatMap fun p => [THM_PLANE.START.key p, THM_PLANE.CEIL.key p]) s t ∧
      SamePhases [] s t ∧ SameCrews [] s t ∧ SameMem s t) ∧
  (∀ r s, (s.throttled r = false ∨ s.flag THM_REG.GRACE r = false) → exec (.graceEnd r) s = .next (slowPass s)) ∧
  (∀ r s, s.flag THM_CTL.MODE 0 = false → s.throttled r = true → s.flag THM_REG.ENFORCE r = true →
    (s.regionHot r || s.regionSlow r) = true → s.get CAP_RATE_REG.THM r ≤ 16 →
    Does (exec (.enforcementStep r) s) fun t =>
      t.get CAP_RATE_REG.THM r = (if (match s.tRegion r, (s.regn r).lastT with
            | some v, some w => decide (v < w)
            | _, _ => false) = true ∨ s.get CAP_RATE_REG.THM r ≤ s.get THM_CTL.RATE_MIN 0 then s.get CAP_RATE_REG.THM r
          else s.get CAP_RATE_REG.THM r - 1) ∧
      (t.regn r).lastT = s.tRegion r ∧
      SlowRegs ([CAP_RATE_REG.THM.key r, MSH_REG_CFG.RATE.key r] ++
        (regionPlanes r).flatMap fun p => [THM_PLANE.START.key p, THM_PLANE.CEIL.key p]) s t ∧
      SamePhases [] s t ∧ SameCrews [] s t ∧ SameMem s t) ∧
  (∀ r s, s.flag THM_CTL.MODE 0 = false → s.throttled r = false → Does (exec (.enforcementStep r) s) fun t =>
    t.get CAP_RATE_REG.THM r = min 16 (s.get CAP_RATE_REG.THM r + 1) ∧
    SlowRegs [CAP_RATE_REG.THM.key r, MSH_REG_CFG.RATE.key r] s t ∧ SamePhases [] s t ∧ SameCrews [] s t ∧ SameMem s t) ∧
  (∀ r v (s : State), s.flag THM_CTL.MODE 0 = true → s.tRegion r = some v → s.flag THM_REG.HELD r = false →
    s.get THM_CTL.RATE_MIN 0 ≤ 16 → Does (exec (.enforcementStep r) s) fun t =>
      t.get CAP_RATE_REG.THM r = (if s.getI THM_THRESH0.T_THROTTLE 0 < v then max (s.get THM_CTL.RATE_MIN 0)
        ((1600 - 2 * s.get THM_DRC1.K 0 * (v - s.getI THM_THRESH0.T_THROTTLE 0)) / 100).toNat else 16) ∧
      SlowRegs [CAP_RATE_REG.THM.key r, MSH_REG_CFG.RATE.key r] s t ∧ SamePhases [] s t ∧ SameCrews [] s t ∧ SameMem s t) ∧
  (∀ p r x s, (s.plane p).thmStart = some x → r ∈ planeRegions p → s.flag THM_REG.ENFORCE r = true →
    s.get CAP_RATE_REG.THM r = s.get THM_CTL.RATE_MIN 0 → (s.regn r).falling = false →
    Does (exec (.thermalCeilingStep p) s) fun t =>
      (t.plane p).thmDrops = min 5 ((s.plane p).thmDrops + 1) ∧ (t.plane p).thmStart = some x ∧
      t.thmCeil p = some (x * ((10 - min 5 ((s.plane p).thmDrops + 1) : Nat) : Rat) / 10) ∧
      (∀ q, q ≠ p → t.plane q = s.plane q) ∧ SameRegs [THM_PLANE.START.key p, THM_PLANE.CEIL.key p] s t ∧
      SamePhases [] s t ∧ SameCrews [] s t ∧ SameMem s t) ∧
  (∀ r v s, r < 24 → s.throttled r = true → s.regionCause r = false → s.tRegion r = some v →
    v < s.getI THM_THRESH0.T_THROTTLE 0 - 8 → s.room → Does (exec (.throttleEnd r) s) fun t =>
      t.throttled r = false ∧ (∀ q, q < 24 → q ≠ r → t.throttled q = s.throttled q) ∧ t.get THM_REG.ENFORCE r = 0 ∧
      t.get THM_REG.GRACE r = 0 ∧
      t.notices = (if 64 ≤ s.notices.length then s.notices else s.notices ++ [⟨3, 1, 0, r, s.stampNow, 0⟩]) ∧
      t.intake = s.intake ++ [s.eventOf 0x0902 3 r] ∧
      (s.flag THM_CTL.MODE 0 = false → t.get CAP_RATE_REG.THM r = min 16 (s.get CAP_RATE_REG.THM r + 1)) ∧
      SlowRegs ([THM_STAT.THROTTLE.key 0, THM_REG.ENFORCE.key r, THM_REG.GRACE.key r, CAP_RATE_REG.THM.key r,
        MSH_REG_CFG.RATE.key r] ++ (regionPlanes r).flatMap fun p => [THM_PLANE.START.key p, THM_PLANE.CEIL.key p]) s t ∧
      SamePhases [] s t ∧ SameCrews [] s t ∧ SameMem s t) ∧
  (∀ r s, (s.throttled r = false ∨ s.regionCause r = true) → exec (.throttleEnd r) s = .next (slowPass s))

/-- StopsOfTheBlock. The debounced fall of COOLANT_OK raises "coolant lost", sets SAFE and starts the controlled stop,
unless a stop runs, with its notices as far as the queue of 64 has room (assumption log 57's choice). A controlled stop
asserts host reset and ramps every plane of the first domain, VMI, but those that a fault shutdown takes there. The
stop broadcast ends the regulation of every crew and the conduction of every phase that is not FUSED or STRUCK, and
every plane discharges through its clamps, an OFF or LOCKED one too. A discharged plane is OFF; the last one of a
critical stop completes it, which clears FS_EN (assumption log 54's choice). -/
def Obligations.StopsOfTheBlock : Prop :=
  (∀ high s, Does (exec (.coolantOkPinChange high) s) fun t => t.coolantPin = high ∧ t.stop = s.stop ∧ SameRegs [] s t ∧
    SamePhases [] s t ∧ SameCrews [] s t ∧ SameMem s t) ∧
  (∀ s, s.flag THM_STAT.COOLANT 0 = false → s.coolantPin = true → (s.flag FLT_STAT.SAFE 0 = false ∨ s.stopDone = false) →
    Does (exec .coolantDebounce s) fun t =>
    t.get THM_STAT.COOLANT 0 = 1 ∧ t.stop = s.stop ∧ t.intake = s.intake ∧ SlowRegs [THM_STAT.COOLANT.key 0] s t ∧
    SamePhases [] s t ∧ SameCrews [] s t ∧ SameMem s t) ∧
  (∀ s, s.flag THM_STAT.COOLANT 0 = true → s.coolantPin = false → (s.flag FLT_STAT.SAFE 0 = false ∨ s.stopDone = false) →
    Does (exec .coolantDebounce s) fun t =>
    t.get THM_STAT.COOLANT 0 = 0 ∧ t.get FLT_STAT.SAFE 0 = 1 ∧ t.intake = s.intake ++ [s.eventOf 0x090A 0 0] ∧
    (s.stop = .none → t.stop = .controlled ∧ t.stopDomain = none ∧ t.get THM_STAT.STOPPING 0 = 1 ∧
      t.get THM_STAT.STOP_KIND 0 = 2 ∧
      t.notices = s.notices ++ ((List.range 24).map fun r => ⟨2, 3, 0, r, s.stampNow, 0⟩).take (64 - s.notices.length)) ∧
    (s.stop ≠ .none → t.stop = s.stop ∧ t.notices = s.notices) ∧
    SlowRegs ([THM_STAT.COOLANT.key 0, THM_STAT.STOPPING.key 0, THM_STAT.STOP_KIND.key 0, FLT_STAT.SAFE.key 0] ++
      allCrews.map CREW_PWR_STAT.STATE.key) s t ∧ SamePhases [] s t ∧ SameCrews [] s t ∧ SameMem s t) ∧
  (∀ s, s.stop = .controlled → s.stopDomain = none → Does (exec .domainShutdown s) fun t =>
      t.hostReset = true ∧ t.get ID_PWR_STAT.HOST_RESET 0 = 1 ∧ t.get ID_PWR_CTL.HOST_RUN 0 = 0 ∧ t.stopDomain = some 3 ∧
      (∀ f, f < 8 → (t.plane (4 * f + 3)).ramp =
        if (s.plane (4 * f + 3)).ramp = .fault ∨ (s.plane (4 * f + 3)).discharging = true then (s.plane (4 * f + 3)).ramp
        else .domain) ∧
      (∀ f d, d < 3 → (t.plane (4 * f + d)).ramp = (s.plane (4 * f + d)).ramp) ∧ SameMem s t) ∧
  (∀ s, s.stop ≠ .controlled → exec .domainShutdown s = .next s) ∧
  (∀ s, s.stopIssued = true → Does (exec .stopAtCrews s) fun t =>
    t.stopIssued = false ∧ t.stop = s.stop ∧
    (∀ c, c < 192 → (t.crew c).reg = false ∧ (t.crew c).aidsOff = true ∧ (t.crew c).standReq = none) ∧
    (∀ ph, ph < 1536 → (t.phase ph).st = (if (s.phase ph).st ∈ [.fused, .struck, .idle] then (s.phase ph).st else .stopping)) ∧
    (∀ p, p < 32 → (t.plane p).discharging = true ∧ (t.plane p).ramp = .none ∧
      ∀ c ∈ planeCrews p, t.get CREW_TR_STAT.CLAMP_ON c = 1 ∧ (t.crew c).stopClamp = true) ∧ SameMem s t) ∧
  (∀ p s, p < 32 → (s.plane p).discharging = true → s.orderly = false → Does (exec (.planeDischarged p) s) fun t =>
    (∀ c ∈ planeCrews p, t.cst c = (if s.cst c = 9 then 9 else 0) ∧ t.get CREW_TR_STAT.CLAMP_ON c = 0 ∧
      (s.cst c ≠ 9 → (t.crew c).reg = false ∧ t.get CREW_SP_REF.REF c = 0)) ∧
    (t.plane p).discharging = false ∧ (t.plane p).powered = false ∧ SameMem s t ∧
    (s.stop = .critical → s.stopIssued = false → (∀ q, q < 32 → q ≠ p → (s.plane q).discharging = false) →
      t.stop = .none ∧ t.stopDone = true ∧ t.get THM_STAT.STOPPING 0 = 0 ∧ t.get ID_PWR_CTL.FS_EN 0 = 0)) ∧
  (∀ p s, (s.plane p).discharging = false → exec (.planeDischarged p) s = .next s)

/-- ShutdownLog. The longest waiting record is programmed to the next ring slot, erased before, and to the next slot of
the first area while it has one; NEXT_SLOT and NEXT_SEQ advance and every other flash byte stays. A record that fails
is not retried, and "log write failed" is raised where the collector has started. The sector ahead is erased while no
stop runs and VSB is healthy. -/
def Obligations.ShutdownLog : Prop :=
  (∀ r rest s, s.Inv → s.logQ = r :: rest → r.words.length = 13 →
    (∀ k, k < 64 → mget 0xFF#8 s.flash (ringOfs (s.get THM_LOG_STAT.NEXT_SLOT 0) + k) = 0xFF#8) →
    (s.get THM_LOG_STAT.FIRST_USED 0 < 8 →
      ∀ k, k < 64 → mget 0xFF#8 s.flash (firstOfs (s.get THM_LOG_STAT.FIRST_USED 0) + k) = 0xFF#8) →
    Does (exec (.logRecord true) s) fun t =>
      t.logQ = rest ∧ t.get THM_LOG_STAT.NEXT_SLOT 0 = (s.get THM_LOG_STAT.NEXT_SLOT 0 + 1) % 64 ∧
      t.get THM_LOG_SEQ.NEXT_SEQ 0 = (s.get THM_LOG_SEQ.NEXT_SEQ 0 + 1) % 2 ^ 32 ∧
      t.get THM_LOG_STAT.FIRST_USED 0 = s.get THM_LOG_STAT.FIRST_USED 0 + (decide (s.get THM_LOG_STAT.FIRST_USED 0 < 8)).toNat ∧
      (∀ k, k < 64 → mget 0xFF#8 t.flash (ringOfs (s.get THM_LOG_STAT.NEXT_SLOT 0) + k) =
        (r.bytes (s.get THM_LOG_SEQ.NEXT_SEQ 0) (decide (s.get THM_LOG_STAT.FIRST_USED 0 < 8))).getD k 0) ∧
      (s.get THM_LOG_STAT.FIRST_USED 0 < 8 → ∀ k, k < 64 →
        mget 0xFF#8 t.flash (firstOfs (s.get THM_LOG_STAT.FIRST_USED 0) + k) =
        (r.bytes (s.get THM_LOG_SEQ.NEXT_SEQ 0) true).getD k 0) ∧
      (∀ a, (a < ringOfs (s.get THM_LOG_STAT.NEXT_SLOT 0) ∨ ringOfs (s.get THM_LOG_STAT.NEXT_SLOT 0) + 64 ≤ a) →
        (a < firstOfs (s.get THM_LOG_STAT.FIRST_USED 0) ∨ firstOfs (s.get THM_LOG_STAT.FIRST_USED 0) + 64 ≤ a) →
        mget 0xFF#8 t.flash a = mget 0xFF#8 s.flash a) ∧
      t.mem = s.mem ∧ SamePhases [] s t ∧ SameCrews [] s t ∧
      SameRegs [THM_LOG_STAT.NEXT_SLOT.key 0, THM_LOG_SEQ.NEXT_SEQ.key 0, THM_LOG_STAT.FIRST_USED.key 0,
        THM_LOG_STAT.PENDING.key 0, THM_LOG_STAT.BUSY.key 0] s t) ∧
  (∀ r rest s, s.logQ = r :: rest → s.room → Does (exec (.logRecord false) s) fun t =>
    t.logQ = rest ∧ t.get THM_LOG_STAT.FAIL 0 = 1 ∧ t.mem = s.mem ∧
    t.intake = (if s.get ID_BOOT_STAT.STEP 0 = 0 then s.intake else s.intake ++ [s.eventOf 0x0907 0 0]) ∧
    SamePhases [] s t ∧ SameCrews [] s t) ∧
  (∀ k s, s.Inv → s.logErase = some k → s.stop = .none → s.vsbLow = false → Does (exec .ringSectorErase s) fun t =>
    t.logErase = none ∧ (∀ a, ringOfs (8 * k) ≤ a → a < ringOfs (8 * k) + 0x1000 → mget 0xFF#8 t.flash a = 0xFF#8) ∧
    (∀ a, a < ringOfs (8 * k) ∨ ringOfs (8 * k) + 0x1000 ≤ a → mget 0xFF#8 t.flash a = mget 0xFF#8 s.flash a) ∧
    t.mem = s.mem ∧ SameRegs [] s t ∧ SamePhases [] s t ∧ SameCrews [] s t) ∧
  (∀ s, (s.stop ≠ .none ∨ s.vsbLow = true) → exec .ringSectorErase s = .next s)

/-- RegattaMessages. A bad message is dropped and counted whatever EN is, and without EN a good one changes nothing
(assumption log 86's choice). A child's REPORT is kept
and makes it present; a GRANT restores contact and gives G from the minimum, want, spare and band of the last own
report; a child's NOTICE is kept; a NOTICE_ALL shows the largest slowdown and its index and signals it, or where it is
0 or the member's own lifts the follow ceilings. While EN is 0, or PERIOD passes have not gone by, no report period
ends. Its end starts the counts anew, shows P_MAX and the slack's band, and sends the report of one member with its
minimum; the third after the one in which the last GRANT came loses contact. At the end of its period the root of a
group of one level divides its pool by the sums of the reports that it has kept, its own among them, sends a GRANT with
the fills to each other child, and takes the same GRANT itself. The division goes by rising band, so that without
FLAGS[0] the grants of the members whose reports the root has sum to at most the pool. -/
def Obligations.RegattaMessages : Prop :=
  (∀ m i (s : State), i ∈ [Instr.report m, .regattaGrant m, .join m, .done m, .notice m, .noticeAll m] →
    s.flag RGT_CTL.EN 0 = false →
    s.msgGood m = true → exec i s = .next s) ∧
  (∀ m i (s : State), i ∈ [Instr.report m, .regattaGrant m, .join m, .done m, .notice m, .noticeAll m] →
    s.msgGood m = false → Does (exec i s) fun t =>
      t.get RGT_CNT.BAD_MSG 0 = RGT_CNT.BAD_MSG.count (s.get RGT_CNT.BAD_MSG 0) ∧ t.rgtLevels = s.rgtLevels ∧
        t.rgtOut = s.rgtOut ∧
      SameRegs [RGT_CNT.BAD_MSG.key 0] s t ∧ SamePhases [] s t ∧ SameCrews [] s t ∧ SameMem s t) ∧
  (∀ m lvl src (s : State), s.flag RGT_CTL.EN 0 = true → s.msgGood m = true → bits (mw m 0) 31 28 = 1 →
    lvl = bits (mw m 0) 27 24 + 1 →
    src = bits (mw m 1) 27 16 → s.isKid lvl src = true → Does (exec (.report m) s) fun t =>
      tget {} (t.ump lvl).kids src = { tget {} (s.ump lvl).kids src with
        report := reportOf m
        age := 0
        absent := false } ∧
      (∀ j, j ≠ src → tget {} (t.ump lvl).kids j = tget {} (s.ump lvl).kids j) ∧ SamePhases [] s t ∧ SameCrews [] s t ∧
        SameMem s t) ∧
  (∀ m r b (s : State), s.flag RGT_CTL.EN 0 = true → s.msgGood m = true → bits (mw m 0) 31 28 = 2 →
    s.rgtOwn = some (r, b) → b < 8 →
    Does (exec (.regattaGrant m) s) fun t =>
      t.get RGT_STAT.CONTACT 0 = 1 ∧ t.rgtQuiet = 0 ∧ t.flag RGT_STAT.POOL_SHORT 0 = bitAt (mw m 0) 16 ∧
      t.get RGT_GRANT.G 0 = (r.pmin + sumN r.want * (mw m (3 + b / 2) / 2 ^ (16 * (b % 2)) % 2 ^ 16) / 65535 +
        r.spare * (mw m 7 / 2 ^ 16) / 65535) % 2 ^ 32 ∧ (s.rgtServed = 0 → t.rgtOut = s.rgtOut) ∧
      SameRegs [RGT_STAT.CONTACT.key 0, RGT_STAT.POOL_SHORT.key 0, RGT_GRANT.G.key 0] s t ∧ SamePhases [] s t ∧
      SameCrews [] s t ∧ SameMem s t) ∧
  (∀ m lvl src (s : State), s.flag RGT_CTL.EN 0 = true → s.msgGood m = true → bits (mw m 0) 31 28 = 5 →
    lvl = bits (mw m 0) 27 24 + 1 →
    src = bits (mw m 1) 27 16 → s.isKid lvl src = true → Does (exec (.notice m) s) fun t =>
      tget {} (t.ump lvl).kids src = { tget {} (s.ump lvl).kids src with
        slow := mw m 3 % 2 ^ 8
        slowIdx := bits (mw m 3) 27 16 } ∧
      (∀ j, j ≠ src → tget {} (t.ump lvl).kids j = tget {} (s.ump lvl).kids j) ∧ SamePhases [] s t ∧ SameCrews [] s t ∧
        SameMem s t) ∧
  (∀ m slow idx (s : State), s.flag RGT_CTL.EN 0 = true → s.msgGood m = true → bits (mw m 0) 31 28 = 6 → slow = mw m 3 % 2 ^ 8 →
    idx = bits (mw m 3) 27 16 → Does (exec (.noticeAll m) s) fun t =>
      t.get RGT_SLOW.S_MAX 0 = slow ∧ t.get RGT_SLOW.S_IDX 0 = idx ∧
      (∀ f, f < 8 → (t.plane (4 * f)).followB = (if slow = 0 ∨ idx = s.rgtIdx then none
        else some ((s.plane (4 * f)).followB.getD (s.planeMw (4 * f) : Rat)))) ∧
      (slow ≠ 0 → idx ≠ s.rgtIdx → ∀ k, k < 12 → (8 ≤ k ∨ s.flag LANE_GRANTX.REGATTA k = true) →
        bitAt (t.get LANE_SIG.SIG k) 11 = true) ∧
      SameRegs ([RGT_SLOW.S_MAX.key 0, RGT_SLOW.S_IDX.key 0, RGT_STAT.FOLLOWING.key 0] ++ (List.range 12).map
        LANE_SIG.SIG.key) s t ∧
      SamePhases [] s t ∧ SameCrews [] s t ∧ SameMem s t) ∧
  (∀ s, (s.flag RGT_CTL.EN 0 = false ∨ s.rgtPasses < s.get RGT_CTL.PERIOD 0) → exec .reportPeriod s = .next s) ∧
  (∀ slack b pmin s, s.flag RGT_CTL.EN 0 = true → s.get RGT_CTL.PERIOD 0 ≤ s.rgtPasses → s.rgtL ≠ 0 → s.rgtParent 0 ≠ s.rgtIdx →
    s.rgtServed = 0 →
    slack = (if s.flag RGT_CTL.SLACK_SRC 0 then s.rgtWait.orElse (fun _ => s.rgtMeas) else s.rgtSlack) → b = slackBand slack →
    pmin = sumN ((List.range 4).map fun d => s.get CAP_CLASS.FLOOR d) → s.room → Does (exec .reportPeriod s) fun t =>
      t.rgtPasses = 0 ∧ t.rgtPower = 0 ∧ t.get RGT_SLACK.BAND 0 = b ∧ t.flag RGT_SLACK.NONE 0 = slack.isNone ∧
      t.get RGT_LIMIT.PMAX_EFF 0 = s.rgtPmax % 2 ^ 16 ∧ t.rgtQuiet = s.rgtQuiet + 1 ∧
      (∃ w, t.rgtOut = s.rgtOut ++ [w] ∧ w.length = 16 ∧ w.getD 1 0 = s.rgtIdx * 2 ^ 16 + s.rgtParent 0 ∧ w.getD 3 0 = 2 ^ 16 ∧
        w.getD 5 0 = pmin % 2 ^ 32 ∧ ∀ k, k < 8 → k ≠ b → w.getD (7 + k) 0 = 0) ∧
      (s.flag RGT_STAT.CONTACT 0 = true → s.rgtQuiet < 3 → t.flag RGT_STAT.CONTACT 0 = true ∧ t.intake = s.intake) ∧
      (s.flag RGT_STAT.CONTACT 0 = true → 3 ≤ s.rgtQuiet → t.get RGT_STAT.CONTACT 0 = 0 ∧ t.get RGT_STAT.CEILED 0 = 0 ∧
        t.intake = s.intake ++ [s.eventOf 0x0A04 6 s.rgtIdx]) ∧
      SameRegs [RGT_SLACK.NONE.key 0, RGT_SLACK.BAND.key 0, RGT_SLACK.SLACK.key 0, RGT_LIMIT.PMAX_EFF.key 0,
        RGT_STAT.CONTACT.key 0, RGT_STAT.CEILED.key 0, RGT_STAT.FOLLOWING.key 0, RGT_STAT.ABSENT.key 0] s t ∧
      SamePhases [] s t ∧ SameCrews [] s t ∧ SameMem s t) ∧
  (∀ s, s.flag RGT_CTL.EN 0 = true → s.get RGT_CTL.PERIOD 0 ≤ s.rgtPasses → s.rgtL = 1 → s.rgtIdx = 0 →
    (∀ e ∈ (s.ump 1).kids, e.2.absent = false ∧ e.2.age ≤ 2) → Does (exec .reportPeriod s) fun t =>
      ∃ r b fs sf short, divide (s.get RGT_POOL.POOL 0) (nodeSum (t.ump 1)) = (fs, sf, short) ∧
        (tget {} (t.ump 1).kids 0).report = r ∧
        (∀ j, j ≠ 0 → (tget {} (t.ump 1).kids j).report = (tget {} (s.ump 1).kids j).report) ∧
        t.rgtOut = s.rgtOut ++ ((s.rgtKids 1).filter (· != 0)).map (fun i => rgtWords
          ([2 * 2 ^ 28 + 2 ^ 24 + short.toNat * 2 ^ 16 + s.get RGT_GROUP.GROUP_ID 0, i, s.rgtPeriod % 2 ^ 32] ++
            grantBody fs sf (s.get RGT_POOL.POOL 0))) ∧
        t.get RGT_STAT.CONTACT 0 = 1 ∧ t.rgtQuiet = 0 ∧ t.flag RGT_STAT.POOL_SHORT 0 = short ∧ t.rgtOwn = some (r, b) ∧
        t.get RGT_GRANT.G 0 = (r.pmin + sumN r.want * fs.getD b 0 / 65535 + r.spare * sf / 65535) % 2 ^ 32 ∧
        t.rgtPasses = 0 ∧ SamePhases [] s t ∧ SameCrews [] s t ∧ SameMem s t) ∧
  (∀ pool (ms : List (Nat × Nat × Nat × Nat)) (r : Report) fs sf, (∀ m ∈ ms, m.2.2.1 < 8) → r.pmin = (ms.map (·.1)).sum →
    r.want = (List.range 8).map (fun b => ((ms.filter fun m => m.2.2.1 == b).map (·.2.1)).sum) →
    r.spare = (ms.map (·.2.2.2)).sum → divide pool r = (fs, sf, false) →
    (ms.map fun m => m.1 + m.2.1 * fs.getD m.2.2.1 0 / 65535 + m.2.2.2 * sf / 65535).sum ≤ pool)

/-- RegattaBarriers. BARX of a lane whose package is in no group times out at once with its event; else it joins: its lane
waits, and the JOIN leaves for the member above. SLACK keeps the slack that the next report carries. A child's JOIN
opens an entry at its node, or with eight entries open is dropped and counted; at the root the last one of the
children that have not been absent since the entry was opened meets every lane that waits. DONE meets the lanes that
wait for its number and measures their wait. -/
def Obligations.RegattaBarriers : Prop :=
  (∀ n s, s.Issues n 0x35 → n < 8 → s.flag RGT_CTL.EN 0 = false → s.room → Does (exec (.barx n) s) fun t =>
    WritesReg n (s.word n).rd 1 s t ∧ t.intake = s.intake ++ [s.eventOf 0x0A03 4 n] ∧ t.rgtOut = s.rgtOut) ∧
  (∀ n num s, s.Issues n 0x35 → n < 8 → s.flag RGT_CTL.EN 0 = true → s.rgtL ≠ 0 → s.rgtParent 0 ≠ s.rgtIdx →
    num = bits (s.word n).imm 31 20 → Does (exec (.barx n) s) fun t =>
      WaitsFor n (.barx num) (s.word n).rd (bits (s.word n).imm 19 0) s t ∧
      ∃ w, t.rgtOut = s.rgtOut ++ [w] ∧ w.length = 16 ∧ w.getD 0 0 = 3 * 2 ^ 28 + s.get RGT_GROUP.GROUP_ID 0 ∧
        w.getD 1 0 = s.rgtIdx * 2 ^ 16 + s.rgtParent 0 ∧ w.getD 3 0 = num) ∧
  (∀ n s, s.Issues n 0x35 → 8 ≤ n → s.room → Does (exec (.barx n) s) fun t => WritesReg n (s.word n).rd 1 s t ∧
    t.intake = s.intake ++ [s.eventOf 0x0701 4 n ((s.pc n + 2 ^ 16 * (s.word n).unit) % 2 ^ 32)]) ∧
  (∀ n s, s.Issues n 0x45 → n < 8 → Does (exec (.slack n) s) fun t =>
    WritesNone n s t ∧ t.rgtSlack = some (s.vreg n (s.word n).rs)) ∧
  (∀ m lvl src num (s : State), s.flag RGT_CTL.EN 0 = true → s.msgGood m = true → bits (mw m 0) 31 28 = 3 →
    lvl = bits (mw m 0) 27 24 + 1 → src = bits (mw m 1) 27 16 → s.isKid lvl src = true → num = mw m 3 % 2 ^ 12 →
    (s.ump lvl).bars.find? (fun b => b.num == num) = none → (s.ump lvl).bars.length < 8 →
      barFull (s.ump lvl) ⟨num, [src], []⟩ = false →
    Does (exec (.join m) s) fun t =>
      (t.ump lvl).bars = (s.ump lvl).bars ++ [⟨num, [src], []⟩] ∧ (t.ump lvl).kids = (s.ump lvl).kids ∧ t.rgtOut = s.rgtOut ∧
      SameRegs [] s t ∧ SamePhases [] s t ∧ SameCrews [] s t ∧ SameMem s t) ∧
  (∀ m lvl src num (s : State), s.flag RGT_CTL.EN 0 = true → s.msgGood m = true → bits (mw m 0) 31 28 = 3 →
    lvl = bits (mw m 0) 27 24 + 1 → src = bits (mw m 1) 27 16 → s.isKid lvl src = true → num = mw m 3 % 2 ^ 12 →
    (s.ump lvl).bars.find? (fun b => b.num == num) = none → 8 ≤ (s.ump lvl).bars.length → s.room →
    Does (exec (.join m) s) fun t =>
      t.get RGT_CNT.BAR_FULL 0 = RGT_CNT.BAR_FULL.count (s.get RGT_CNT.BAR_FULL 0) ∧
      t.intake = s.intake ++ [s.eventOf 0x0A02 6 s.rgtIdx] ∧ t.rgtLevels = s.rgtLevels ∧ t.rgtOut = s.rgtOut ∧
      SameRegs [RGT_CNT.BAR_FULL.key 0] s t ∧ SamePhases [] s t ∧ SameCrews [] s t ∧ SameMem s t) ∧
  (∀ m lvl src num js gone (s : State), s.flag RGT_CTL.EN 0 = true → s.msgGood m = true → bits (mw m 0) 31 28 = 3 →
    lvl = bits (mw m 0) 27 24 + 1 → src = bits (mw m 1) 27 16 → s.isKid lvl src = true → num = mw m 3 % 2 ^ 12 → lvl = s.rgtL →
    (s.ump lvl).bars.find? (fun b => b.num == num) = some ⟨num, js, gone⟩ → js.contains src = false →
    (∀ e ∈ (s.ump lvl).kids, e.2.absent = true ∨ e.1 ∈ js ∨ e.1 = src ∨ e.1 ∈ gone) → Does (exec (.join m) s) fun t =>
      (t.ump lvl).bars = (s.ump lvl).bars.filter (fun b => b.num != num) ∧
      (∀ n r at_ tm, n < 8 → s.lst n = 4 → (s.ctx n).wait = some ⟨.barx num, r, at_, tm⟩ → r < 16 →
        (t.ctx n).wait = none ∧ t.vreg n r = 0 ∧ t.lst n = 3) ∧ SamePhases [] s t ∧ SameCrews [] s t ∧ SameMem s t) ∧
  (∀ m num (s : State), s.flag RGT_CTL.EN 0 = true → s.msgGood m = true → bits (mw m 0) 31 28 = 4 → num = mw m 3 % 2 ^ 12 →
    Does (exec (.done m) s) fun t =>
      (∀ n r at_ tm, n < 8 → s.lst n = 4 → (s.ctx n).wait = some ⟨.barx num, r, at_, tm⟩ → r < 16 →
        (t.ctx n).wait = none ∧ t.vreg n r = 0 ∧ t.lst n = 3 ∧
        (s.barxLanes num = [n] → t.get RGT_BAR_WAIT.WAIT 0 = min (2 * (s.now - at_)) (2 ^ 32 - 1))) ∧
      SameCtxs (s.barxLanes num) s t ∧
      SameRegs (RGT_BAR_WAIT.WAIT.key 0 :: (s.barxLanes num).flatMap fun n => [LANE_STAT.STATE.key n, LANE_STAT.PC.key n]) s t ∧
      SamePhases [] s t ∧ SameCrews [] s t ∧ SameMem s t)

/-- FaultCollector. The collector takes FC2 and FC3 events before all others. An FC0 event is counted and recorded and has
no other effect but that the own slowdown is brought up. An FC1 event also takes its place in the history queue, and
outside the safe state asks for an alert where ALERT_FC1 says so. An FC2 event outside the safe state takes the lowest
free entry, asks for an alert and issues the shutdown of the planes of its scope; a repeated one is counted at its entry,
and one that finds no entry raises "fault table full", and either still issues the shutdown. An FC3 event outside it, or that sets the
latch, latches, enters the safe state, logs, stops every lane and starts the critical stop. An issued fault shutdown
ramps its plane down with no stand-down pending, and a stand-down granted in the same cycle withdrawn. -/
def Obligations.FaultCollector : Prop :=
  (∀ s, (s.fltInit = false ∨ s.intake = []) → exec .classification s = .next (slowPass s)) ∧
  (∀ (s : State) (l : List Event), (∃ x ∈ l, 2 ≤ classNo x.code) → ∃ y, l[s.nextEvent l]? = some y ∧ 2 ≤ classNo y.code) ∧
  (∀ e n s, s.fltInit = true → s.orderly = false → s.intake[s.nextEvent s.intake]? = some e → classNo e.code = 1 →
    s.cyc.freed = [] → n = s.get FLT_HIST_HEAD.NEXT_SEQ 0 → Does (exec .classification s) fun t =>
      t.intake = s.intake.eraseIdx (s.nextEvent s.intake) ∧ t.get FLT_CNT.FC1 0 = FLT_CNT.FC1.count (s.get FLT_CNT.FC1 0) ∧
      t.fltHist = tset s.fltHist (n % 16) ⟨n, e, false, s.flag FLT_STAT.SAFE 0, false, 0⟩ ∧
      t.get FLT_HIST_HEAD.NEXT_SEQ 0 = nextSeq n ∧
      t.ring = (⟨s.get REC_HEAD.NEXT_SEQ 0, e, s.flag FLT_STAT.SAFE 0, false, n⟩ :: s.ring).take 4096 ∧
      t.get REC_HEAD.NEXT_SEQ 0 = nextSeq (s.get REC_HEAD.NEXT_SEQ 0) ∧ t.fc2 = s.fc2 ∧ t.fltFirst = s.fltFirst ∧
      t.get FLT_STAT.ALERT_PEND 0 = (if s.flag FLT_STAT.SAFE 0 = false ∧ s.flag FLT_CTL.ALERT_FC1 0 = true then 1
        else s.get FLT_STAT.ALERT_PEND 0) ∧
      SlowRegs [FLT_CNT.FC1.key 0, FLT_HIST_HEAD.NEXT_SEQ.key 0, REC_HEAD.NEXT_SEQ.key 0, REC_CTL.FIRST_USED.key 0,
        FLT_STAT.ALERT_PEND.key 0] s t ∧ SamePhases [] s t ∧ SameCrews [] s t ∧ SameMem s t) ∧
  (∀ e k x s, s.fltInit = true → s.orderly = false → s.intake[s.nextEvent s.intake]? = some e → classNo e.code = 2 →
    e.code ≠ 0x0D06 → e.code ≠ 0x0E05 → s.flag FLT_STAT.SAFE 0 = false → s.cyc.freed = [] → s.fc2Find e = some (k, x) →
    s.cleared.find? (fun r => r.isPair e && r.armed) = none → Does (exec .classification s) fun t =>
      t.fc2 = tset s.fc2 k { x with
        repeats := min 255 (x.repeats + 1)
        live := x.live || !e.injected } ∧
      t.get FLT_CNT.FC2 0 = FLT_CNT.FC2.count (s.get FLT_CNT.FC2 0) ∧ t.get FLT_STAT.ALERT_PEND 0 = 1 ∧
      t.get FLT_HIST_HEAD.NEXT_SEQ 0 = nextSeq (s.get FLT_HIST_HEAD.NEXT_SEQ 0) ∧
      (∀ p ∈ scopeOf e, (∀ c ∈ planeCrews p, s.cst c = 3) → (s.plane p).ramp ≠ .fault → (s.plane p).discharging = false →
        (t.plane p).shutIssued = true) ∧ SamePhases [] s t ∧ SameMem s t) ∧
  (∀ e s, s.fltInit = true → s.orderly = false → s.intake[s.nextEvent s.intake]? = some e → classNo e.code = 2 →
    e.code ≠ 0x0D06 → e.code ≠ 0x0E05 → s.flag FLT_STAT.SAFE 0 = false → s.cyc.freed = [] → s.fc2Find e = none →
    s.fc2Free = none → s.cleared.find? (fun r => r.isPair e && r.armed) = none → Does (exec .classification s) fun t =>
      t.fc2 = s.fc2 ∧ s.eventOf 0x0003 0 0 (e.code % 2 ^ 32) (e.src % 2 ^ 32) ∈ t.intake ∧
      t.get FLT_STAT.ALERT_PEND 0 = 1 ∧ t.get FLT_HIST_HEAD.NEXT_SEQ 0 = nextSeq (s.get FLT_HIST_HEAD.NEXT_SEQ 0) ∧
      (∀ p ∈ scopeOf e, (∀ c ∈ planeCrews p, s.cst c = 3) → (s.plane p).ramp ≠ .fault → (s.plane p).discharging = false →
        (t.plane p).shutIssued = true) ∧ SamePhases [] s t ∧ SameMem s t) ∧
  (∀ e s, s.fltInit = true → s.orderly = false → s.intake[s.nextEvent s.intake]? = some e → classNo e.code = 0 →
    s.cyc.freed = [] → Does (exec .classification s) fun t =>
      t.intake = s.intake.eraseIdx (s.nextEvent s.intake) ∧ t.get FLT_CNT.FC0 0 = FLT_CNT.FC0.count (s.get FLT_CNT.FC0 0) ∧
      t.ring = (⟨s.get REC_HEAD.NEXT_SEQ 0, e, s.flag FLT_STAT.SAFE 0, false, 0⟩ :: s.ring).take 4096 ∧
      t.get REC_HEAD.NEXT_SEQ 0 = nextSeq (s.get REC_HEAD.NEXT_SEQ 0) ∧ t.fltHist = s.fltHist ∧ t.fc2 = s.fc2 ∧
      SlowRegs [FLT_CNT.FC0.key 0, REC_HEAD.NEXT_SEQ.key 0, REC_CTL.FIRST_USED.key 0] s t ∧ SamePhases [] s t ∧
      SameCrews [] s t ∧ SameMem s t) ∧
  (∀ e k s, s.fltInit = true → s.orderly = false → s.intake[s.nextEvent s.intake]? = some e → classNo e.code = 2 →
    e.code ≠ 0x0D06 → e.code ≠ 0x0E05 → s.flag FLT_STAT.SAFE 0 = false → s.cyc.freed = [] → s.fc2Find e = none →
    s.fc2Free = some k →
    s.cleared.find? (fun r => r.isPair e && r.armed) = none → Does (exec .classification s) fun t =>
      (∃ x, t.fc2 = tset s.fc2 k x ∧ x.ev = e ∧ x.seq = s.get FLT_HIST_HEAD.NEXT_SEQ 0 ∧ x.live = !e.injected) ∧
      t.get FLT_STAT.ALERT_PEND 0 = 1 ∧ t.flag FLT_STAT.SAFE 0 = false ∧
      t.get FLT_HIST_HEAD.NEXT_SEQ 0 = nextSeq (s.get FLT_HIST_HEAD.NEXT_SEQ 0) ∧
      (∀ p ∈ scopeOf e, (∀ c ∈ planeCrews p, s.cst c = 3) → (s.plane p).ramp ≠ .fault → (s.plane p).discharging = false →
        (t.plane p).shutIssued = true) ∧ SamePhases [] s t ∧ SameMem s t) ∧
  (∀ e s, s.fltInit = true → s.orderly = false → s.intake[s.nextEvent s.intake]? = some e → classNo e.code = 3 →
    (s.flag FLT_STAT.SAFE 0 = false ∨ s.flag FLT_STAT.FC3 0 = false) → s.logQ.length < 4 →
      Does (exec .classification s) fun t =>
      t.get FLT_STAT.FC3 0 = 1 ∧ t.get FLT_STAT.SAFE 0 = 1 ∧ t.get FLT_STAT.ALERT_PEND 0 = 1 ∧
      t.logQ.length = s.logQ.length + 1 ∧ (∀ n, n < 8 → s.lst n = 3 → (s.ctx n).wait = none → t.lst n = 5) ∧
      (e.code ∉ [0x0908, 0x0909, 0x090A] ∨ (e.injected = true ∧ e.code ≠ 0x090A) → s.stop ≠ .critical →
        t.stop = .critical ∧ t.stopIssued = true ∧
        t.get ID_PWR_STAT.HOST_RESET 0 = 1) ∧ SamePhases [] s t ∧ SameMem s t) ∧
  (∀ p s, (s.plane p).shutIssued = true → s.planeDown p = false → Does (exec (.faultShutdown p) s) fun t =>
    (t.plane p).ramp = .fault ∧ (t.plane p).shutIssued = false ∧
    (∀ c ∈ planeCrews p, (t.crew c).standReq = none ∧ (t.crew c).reg = (s.crew c).reg ∧
      t.cst c = if (s.crew c).standAt = some s.now ∧ s.cst c = 4 then 3 else s.cst c) ∧
    (∀ q, q ≠ p → t.plane q = s.plane q) ∧ SameCrews (planeCrews p) s t ∧ SameMem s t) ∧
  (∀ p s, (s.plane p).shutIssued = false → exec (.faultShutdown p) s = .next s)

/-- ClearsAndInjection. FLT_CLEAR frees an entry whose condition is gone with its event, whose details are the model's
choice (assumption log 75), for the cycles that follow, and leaves one that is LIVE; ALL frees every one that is not LIVE. Writing 1 to ALERT_PEND clears it unless the cycle
itself has set it. A self-fault latches FC3 with its cause, takes both fault pins low and starts the critical stop; a
pin readback counts only with PIN_CHECK; a second self-fault keeps the first cause (log 75's choice). An injection raises its event marked as injected, unless the lock is in force
or its code is of no class. -/
def Obligations.ClearsAndInjection : Prop :=
  (∀ m data k x s, s.Takes m .FLT_CLEAR 0 data → FLT_CLEAR.ALL.ofWord data = 0 → k = FLT_CLEAR.INDEX.ofWord data →
    s.fc2.find? (fun y => y.1 == k) = some (k, x) → s.entryLive x = false → s.room → Does (exec (.fc2Clear m data) s) fun t =>
      t.fc2 = tdel s.fc2 k ∧ (s.cyc.on = true → t.fc2Free ≠ some k) ∧ t.get FLT_CLEAR_STAT.RESULT 0 = 1 ∧ t.get FLT_CLEAR_STAT.CLEARED 0 = 1 ∧
      t.intake = s.intake ++ [s.eventOf 0x0001 0 0 (x.ev.code % 2 ^ 32) (x.ev.src % 2 ^ 32)] ∧
      SameRegs [FLT_CLEAR_STAT.RESULT.key 0, FLT_CLEAR_STAT.CLEARED.key 0, FLT_STAT.FIRST_VALID.key 0] s t ∧
      SamePhases [] s t ∧ SameCrews [] s t ∧ SameMem s t) ∧
  (∀ m data k x s, s.Takes m .FLT_CLEAR 0 data → FLT_CLEAR.ALL.ofWord data = 0 → k = FLT_CLEAR.INDEX.ofWord data →
    s.fc2.find? (fun y => y.1 == k) = some (k, x) → s.entryLive x = true → Does (exec (.fc2Clear m data) s) fun t =>
      t.fc2 = s.fc2 ∧ t.get FLT_CLEAR_STAT.RESULT 0 = 2 ∧ t.get FLT_CLEAR_STAT.CLEARED 0 = 0 ∧ t.intake = s.intake ∧
      SameRegs [FLT_CLEAR_STAT.RESULT.key 0, FLT_CLEAR_STAT.CLEARED.key 0] s t ∧ SamePhases [] s t ∧ SameCrews [] s t ∧
      SameMem s t) ∧
  (∀ m data s, s.Takes m .FLT_CLEAR 0 data → FLT_CLEAR.ALL.ofWord data = 1 → Does (exec (.fc2ClearAll m data) s) fun t =>
    (∀ k x, k < 32 → s.fc2.find? (fun y => y.1 == k) = some (k, x) → thas t.fc2 k = s.entryLive x) ∧
    (∀ k, thas s.fc2 k = false → thas t.fc2 k = false) ∧
    SameRegs ([FLT_CLEAR_STAT.RESULT.key 0, FLT_CLEAR_STAT.CLEARED.key 0, FLT_STAT.FIRST_VALID.key 0] ++ dropKeys) s t ∧
    SamePhases [] s t ∧ SameCrews [] s t ∧ SameMem s t) ∧
  (∀ m data s, s.Takes m .FLT_STAT 0 data → FLT_STAT.ALERT_PEND.ofWord data = 1 → Does (exec (.alertClear m data) s) fun t =>
    (s.get FLT_STAT.ALERT_PEND 0 < 2 → s.was FLT_STAT.ALERT_PEND 0 < 2 →
      t.get FLT_STAT.ALERT_PEND 0 = s.get FLT_STAT.ALERT_PEND 0 - s.was FLT_STAT.ALERT_PEND 0) ∧
    SameRegs [FLT_STAT.ALERT_PEND.key 0] s t ∧ SamePhases [] s t ∧ SameCrews [] s t ∧ SameMem s t) ∧
  (∀ parity s, (parity = true ∨ s.flag FLT_CTL.PIN_CHECK 0 = true) →
    (s.flag FLT_STAT.SAFE 0 = false ∨ s.stopDone = false) → Does (exec (.selfFault parity) s) fun t =>
    t.get FLT_STAT.FC3 0 = 1 ∧ t.get FLT_STAT.SAFE 0 = 1 ∧ t.flag FLT_STAT.SELF 0 = true ∧ t.faultPins = (false, false) ∧
    (s.flag FLT_STAT.SELF 0 = false → t.get FLT_STAT.SELF_CAUSE 0 = if parity then 1 else 2) ∧
    (s.flag FLT_STAT.SELF 0 = true → t.get FLT_STAT.SELF_CAUSE 0 = s.get FLT_STAT.SELF_CAUSE 0) ∧ t.stop = .critical ∧
    t.hostReset = true ∧ t.ctxs = s.ctxs ∧ SamePhases [] s t ∧ SameCrews [] s t ∧ SameMem s t) ∧
  (∀ s, s.flag FLT_CTL.PIN_CHECK 0 = false → exec (.selfFault false) s = .next (slowPass s)) ∧
  (∀ m data c s, s.Takes m .FLT_INJECT1 0 data → data % 2 = 1 → s.locked = false → classOf (s.get FLT_INJECT0.CODE 0) = some c →
    c < 4 → s.room → Does (exec (.injection m data) s) fun t =>
      t.intake = s.intake ++ [⟨s.get FLT_INJECT0.CODE 0, s.get FLT_INJECT0.SRC_KIND 0, s.get FLT_INJECT0.SOURCE 0,
        s.stampNow, 0, 0, 0,
        true⟩] ∧ SameRegs [FLT_INJECT1.INJ_ERR.key 0] s t ∧ SamePhases [] s t ∧ SameMem s t) ∧
  (∀ m data s, s.Takes m .FLT_INJECT1 0 data → data % 2 = 1 → s.locked = false →
    (classOf (s.get FLT_INJECT0.CODE 0) = none ∨ classOf (s.get FLT_INJECT0.CODE 0) = some 4) →
    Does (exec (.injection m data) s) fun t =>
      t.intake = s.intake ∧ t.get FLT_INJECT1.INJ_ERR 0 = 1 ∧ SameRegs [FLT_INJECT1.INJ_ERR.key 0] s t ∧ SamePhases [] s t ∧
      SameCrews [] s t ∧ SameMem s t) ∧
  (∀ m data s, s.Takes m .FLT_INJECT1 0 data → s.locked = true → Does (exec (.injection m data) s) fun t =>
    t.intake = s.intake ∧ SameRegs [FLT_INJECT1.INJ_ERR.key 0] s t ∧ SamePhases [] s t ∧ SameCrews [] s t ∧ SameMem s t)

/-- MemoryTests. A scrub reads the next word of its bank's walk: one that is good changes only the walk, an uncorrectable
one is counted and raised and stays; without SCRUB or on a bank that is not online nothing happens. An accepted march
takes its bank offline; a refused one gives its reason: 6 while one runs, else 5 for a bank code that cannot be tested,
else 4 for a bank of the job half while a lane loads, runs or waits, else 5 for one that would preserve a FAILED bank
(an order that is assumption log 92's choice). A march that passes puts the bank online, and one that fails
makes it FAILED; a destructive one leaves zeros in its bank and every other byte as it was. A bad safety table raises
FC3. -/
def Obligations.MemoryTests : Prop :=
  (∀ bank ecc s, (12 ≤ bank ∨ s.get ID_MEM_CTL.SCRUB 0 = 0 ∨ s.bankSt bank ≠ 0) → exec (.scrub bank ecc) s = .next s) ∧
  (∀ bank k s, bank < 12 → s.get ID_MEM_CTL.SCRUB 0 ≠ 0 → s.bankSt bank = 0 → k = tget 0 s.scrubAt bank → k < bankWords bank →
    s.goodAt (bankLo bank + 8 * k) → Does (exec (.scrub bank 0) s) fun t =>
      tget 0 t.scrubAt bank = (k + 1) % bankWords bank ∧ SameRegs [] s t ∧ SamePhases [] s t ∧ SameCrews [] s t ∧ SameMem s t) ∧
  (∀ bank k s, bank < 12 → s.get ID_MEM_CTL.SCRUB 0 ≠ 0 → s.bankSt bank = 0 → k = tget 0 s.scrubAt bank → k < bankWords bank →
    s.room → Does (exec (.scrub bank 2) s) fun t =>
      t.get ID_ECC_CNT.UNCORR 0 = ID_ECC_CNT.UNCORR.count (s.get ID_ECC_CNT.UNCORR 0) ∧
      t.get ID_ECC_ADDR.ADDR 0 = bankLo bank + 8 * k ∧ t.intake = s.intake ++ [s.eventOf 0x0C02 0 0 (bankLo bank + 8 * k)] ∧
      bankLo bank + 8 * k ∈ t.eccBad ∧ tget 0 t.scrubAt bank = (k + 1) % bankWords bank ∧
      SameRegs [ID_ECC_CNT.UNCORR.key 0, ID_ECC_ADDR.ADDR.key 0] s t ∧ SamePhases [] s t ∧ SameCrews [] s t ∧ SameMem s t) ∧
  (∀ m data bank s, s.Takes m .ID_MARCH_CTL 0 data → ID_MARCH_CTL.GO.ofWord data = 1 → bank = ID_MARCH_CTL.BANK.ofWord data →
    s.march = none → bank < 8 → (ID_MARCH_CTL.PRESERVE.ofWord data = 1 → s.bankSt bank ≠ 2) → Does (exec (.marchGo m data) s) fun t =>
      t.march = some (bank, ID_MARCH_CTL.PRESERVE.ofWord data == 1) ∧ t.get ID_MARCH_STAT.RESULT 0 = 1 ∧
      t.get ID_MARCH_STAT.BANK 0 = bank ∧ t.get ID_MARCH_STAT.ELAPSED 0 = 0 ∧ t.bankSt bank = 1 ∧
      (∀ k, k < 12 → k ≠ bank → t.bankSt k = s.bankSt k) ∧
      SameRegs [ID_MARCH_CTL.BANK.key 0, ID_MARCH_CTL.PRESERVE.key 0, ID_MARCH_STAT.RESULT.key 0, ID_MARCH_STAT.BANK.key 0,
        ID_MARCH_STAT.ELAPSED.key 0, ID_MEM_STAT.BANKS.key 0] s t ∧ SamePhases [] s t ∧ SameCrews [] s t ∧ SameMem s t) ∧
  (∀ m data bank s, s.Takes m .ID_MARCH_CTL 0 data → ID_MARCH_CTL.GO.ofWord data = 1 → bank = ID_MARCH_CTL.BANK.ofWord data →
    (s.march.isSome = true ∨ bank ∈ [8, 9, 12, 13, 14, 15]) → Does (exec (.marchGo m data) s) fun t =>
      t.march = s.march ∧ t.get ID_MARCH_STAT.RESULT 0 = (if s.march.isSome then 6 else 5) ∧
      SameRegs [ID_MARCH_STAT.RESULT.key 0] s t ∧ SamePhases [] s t ∧ SameCrews [] s t ∧ SameMem s t) ∧
  (∀ m data bank s, s.Takes m .ID_MARCH_CTL 0 data → ID_MARCH_CTL.GO.ofWord data = 1 → bank = ID_MARCH_CTL.BANK.ofWord data →
    s.march = none → bank = 10 ∨ bank = 11 → (∀ l, l < 8 → s.lst l ∉ [1, 3, 4]) →
    (ID_MARCH_CTL.PRESERVE.ofWord data = 1 → s.bankSt bank ≠ 2) → Does (exec (.marchGo m data) s) fun t =>
      t.march = some (bank, ID_MARCH_CTL.PRESERVE.ofWord data == 1) ∧ t.bankSt bank = 1 ∧
      (ID_MARCH_CTL.PRESERVE.ofWord data = 0 → ∀ l, l < 8 → s.lst l ∈ [2, 5, 6] → s.laneIn l bank = true →
        t.lst l = 0 ∧ t.get LANE_LOAD_STAT.REASON l = 3) ∧ SamePhases [] s t ∧ SameCrews [] s t ∧ SameMem s t) ∧
  (∀ m data bank r s, s.Takes m .ID_MARCH_CTL 0 data → ID_MARCH_CTL.GO.ofWord data = 1 → bank = ID_MARCH_CTL.BANK.ofWord data →
    s.march = none → bank ∈ [0, 1, 2, 3, 4, 5, 6, 7, 10, 11] →
    (r = 4 ∧ 10 ≤ bank ∧ (∃ l, l < 8 ∧ s.lst l ∈ [1, 3, 4])) ∨ (r = 5 ∧ ID_MARCH_CTL.PRESERVE.ofWord data = 1 ∧
      s.bankSt bank = 2 ∧ (10 ≤ bank → ∀ l, l < 8 → s.lst l ∉ [1, 3, 4])) → Does (exec (.marchGo m data) s) fun t =>
      t.march = none ∧ t.get ID_MARCH_STAT.RESULT 0 = r ∧ SameRegs [ID_MARCH_STAT.RESULT.key 0] s t ∧ SamePhases [] s t ∧
      SameCrews [] s t ∧ SameMem s t) ∧
  (∀ bank preserve us s, s.Inv → s.march = some (bank, preserve) → bank < 12 → Does (exec (.marchComplete none us) s) fun t =>
    t.march = none ∧ t.bankSt bank = 0 ∧ t.get ID_MARCH_STAT.RESULT 0 = 2 ∧
    t.get ID_MARCH_STAT.ELAPSED 0 = min us (2 ^ 20 - 1) ∧ (preserve = true → t.mem = s.mem) ∧
    (preserve = false → (∀ a, bankLo bank ≤ a → a < bankHi bank → mget 0 t.mem a = 0) ∧
      ∀ a, a < bankLo bank ∨ bankHi bank ≤ a → mget 0 t.mem a = mget 0 s.mem a) ∧
    SameRegs [ID_MARCH_STAT.RESULT.key 0, ID_MARCH_STAT.ELAPSED.key 0, ID_MEM_STAT.BANKS.key 0] s t ∧ SamePhases [] s t ∧
    SameCrews [] s t) ∧
  (∀ bank preserve x us s, s.march = some (bank, preserve) → bank < 12 → Does (exec (.marchComplete (some x) us) s) fun t =>
    t.march = none ∧ t.bankSt bank = 2 ∧ t.get ID_MARCH_STAT.RESULT 0 = 3 ∧ t.get ID_MARCH_FAIL.WORD 0 = x.word % 2 ^ 16 ∧
    t.get ID_MARCH_FAIL.BIT 0 = x.bit % 2 ^ 7 ∧ t.intake = s.intake ++ [s.eventOf 0x0C03 0 0 bank] ∧ SamePhases [] s t ∧
    SameCrews [] s t) ∧
  (∀ s, crc32 s.safetyBytes = s.get ID_SAFE_CRC.CRC 0 → exec .safetyCrcCheck s = .next s) ∧
  (∀ s, crc32 s.safetyBytes ≠ s.get ID_SAFE_CRC.CRC 0 → Does (exec .safetyCrcCheck s) fun t =>
    t.intake = s.intake ++ [s.eventOf 0x0C05 0 0] ∧ SameRegs [] s t ∧ SamePhases [] s t ∧ SameCrews [] s t ∧ SameMem s t)

/-- MailboxesAndRecovery. POST, TAKE, DONE and RELEASE move a slot from free to posted to taken to done and back, each by
its side of the slot: slots 0 to 11 run from the host to the firmware and slots 12 to 15 the other way; a POST counts
in SEQ, and one of the host signals its context. An action that the slot does not allow sets REFUSED and moves
nothing. In recovery a boot command that names no memory, or an image that fails a check, is refused with its code (that
of an address outside coordinator memory is assumption log 94's choice), and a report or unknown command is answered; a
boot from recovery ends at STEP 7 (log 62's choice). -/
def Obligations.MailboxesAndRecovery : Prop :=
  (∀ m slot data s, s.Takes m .ID_MBX_CTL slot data → data % 16 = 1 → s.get ID_MBX_CTL.STATE slot = 0 →
    (isHost m = decide (slot < 12)) → Does (exec (.post m slot data) s) fun t =>
      t.get ID_MBX_CTL.STATE slot = 1 ∧ t.get ID_MBX_CTL.SEQ slot = (s.get ID_MBX_CTL.SEQ slot + 1) % 2 ^ 8 ∧
      (slot < 12 → s.get ID_MBX_CFG.SIG 0 < 8 →
        bitAt (t.get LANE_SIG.SIG (8 + s.get ID_MBX_CFG.CTX 0)) (s.get ID_MBX_CFG.SIG 0) = true) ∧
      SameRegs [ID_MBX_CTL.STATE.key slot, ID_MBX_CTL.SEQ.key slot, ID_MBX_CTL.REFUSED.key slot,
        LANE_SIG.SIG.key (8 + s.get ID_MBX_CFG.CTX 0)] s t ∧ SamePhases [] s t ∧ SameCrews [] s t ∧ SameMem s t) ∧
  (∀ m slot data s, s.Takes m .ID_MBX_CTL slot data → isHost m = false → slot < 12 → data % 16 = 2 →
    s.get ID_MBX_CTL.STATE slot = 1 → Does (exec (.take m slot data) s) (MbxMoves slot 2 s)) ∧
  (∀ m slot data s, s.Takes m .ID_MBX_CTL slot data → isHost m = false → slot < 12 → data % 16 = 4 →
    s.get ID_MBX_CTL.STATE slot = 2 → Does (exec (.mailboxDone m slot data) s) (MbxMoves slot 3 s)) ∧
  (∀ m slot data s, s.Takes m .ID_MBX_CTL slot data → isHost m = true → data % 16 = 8 →
    s.get ID_MBX_CTL.STATE slot = (if slot < 12 then 3 else 1) → Does (exec (.release m slot data) s) (MbxMoves slot 0 s)) ∧
  (∀ m slot data i a s, s.Takes m .ID_MBX_CTL slot data →
    i ∈ [Instr.post m slot data, .take m slot data, .mailboxDone m slot data, .release m slot data] → a < 4 →
      data % 16 = 2 ^ a →
    mbxTo (isHost m) slot a (s.get ID_MBX_CTL.STATE slot) = none → Does (exec i s) fun t =>
      t.get ID_MBX_CTL.REFUSED slot = 1 ∧ SameRegs [ID_MBX_CTL.REFUSED.key slot] s t ∧ SamePhases [] s t ∧ SameCrews [] s t ∧
      SameMem s t) ∧
  (∀ s, s.get ID_FW_STAT.MODE 0 = 2 → s.get ID_MBX_CTL.STATE 0 = 1 → s.mbx0 1 % 2 ^ 16 = 0x0100 →
    (s.mbx0 2 < 0x400000 ∨ 0x800000 < s.mbx0 2 + s.mbx0 3) → Does (exec .recoverBoot s) fun t =>
      t.get ID_FW_STAT.REASON_REC 0 = 2 ∧ t.get ID_MBX_CTL.STATE 0 = 3 ∧ t.mbx0 1 = 0x0100 + 2 ^ 16 * 2 ∧
      t.get ID_FW_STAT.MODE 0 = 2 ∧
      SameRegs [ID_FW_STAT.REASON_REC.key 0, ID_MBX_CTL.STATE.key 0, ID_MBX_DATA.DATA.key 0] s t ∧ SamePhases [] s t ∧
      SameCrews [] s t ∧ SameMem s t) ∧
  (∀ a n s, s.get ID_FW_STAT.MODE 0 = 2 → s.get ID_MBX_CTL.STATE 0 = 1 → s.mbx0 1 % 2 ^ 16 = 0x0100 → a = s.mbx0 2 →
    n = s.mbx0 3 →
    0x400000 ≤ a → a + n ≤ 0x800000 → s.get ID_MEM_STAT.BANKS 0 = 0 → s.clean →
      s.fwCheck (fun x => mget 0 s.mem (a + x)) n = 0 →
    Does (exec .recoverBoot s) fun t =>
      t.get ID_FW_STAT.REASON_REC 0 = 0 ∧ t.get ID_MBX_CTL.STATE 0 = 3 ∧ t.get ID_FW_STAT.MODE 0 = 1 ∧
        t.get ID_BOOT_STAT.STEP 0 = 7 ∧
      SamePhases [] s t ∧ SameCrews [] s t) ∧
  (∀ a n code s, s.get ID_FW_STAT.MODE 0 = 2 → s.get ID_MBX_CTL.STATE 0 = 1 → s.mbx0 1 % 2 ^ 16 = 0x0100 → a = s.mbx0 2 →
    n = s.mbx0 3 → 0x400000 ≤ a → a + n ≤ 0x800000 → code = s.fwCheck (fun x => mget 0 s.mem (a + x)) n → code ≠ 0 →
    Does (exec .recoverBoot s) fun t =>
      t.get ID_FW_STAT.REASON_REC 0 = code ∧ t.get ID_MBX_CTL.STATE 0 = 3 ∧ t.mbx0 1 = 0x0100 + 2 ^ 16 * code ∧
      t.get ID_FW_STAT.MODE 0 = 2 ∧ t.ctxs = s.ctxs ∧ (code ∈ [1, 2] → SameMem s t) ∧ SamePhases [] s t ∧ SameCrews [] s t) ∧
  (∀ s, s.get ID_FW_STAT.MODE 0 = 2 → s.get ID_MBX_CTL.STATE 0 = 1 → s.mbx0 1 % 2 ^ 16 ≠ 0x0100 → s.mbx0 1 % 2 ^ 16 ≠ 0x0101 →
    Does (exec .recoveryReport s) fun t =>
      t.get ID_MBX_CTL.STATE 0 = 3 ∧ t.mbx0 1 = s.mbx0 1 % 2 ^ 16 + 2 ^ 16 * 0xFF ∧
      SameRegs [ID_MBX_CTL.STATE.key 0, ID_MBX_DATA.DATA.key 0] s t ∧ SamePhases [] s t ∧ SameCrews [] s t ∧ SameMem s t) ∧
  (∀ s, s.get ID_FW_STAT.MODE 0 = 2 → s.get ID_MBX_CTL.STATE 0 = 1 → s.mbx0 1 % 2 ^ 16 = 0x0101 →
    Does (exec .recoveryReport s) fun t =>
      t.get ID_MBX_CTL.STATE 0 = 3 ∧ t.mbx0 1 = 0x0101 ∧ t.mbx0 2 = s.word32 .ID_FW_STAT 0 % 2 ^ 32 ∧
      SameRegs [ID_MBX_CTL.STATE.key 0, ID_MBX_DATA.DATA.key 0, ID_MBX_DATA.DATA.key 1] s t ∧ SamePhases [] s t ∧
      SameCrews [] s t ∧ SameMem s t) ∧
  (∀ i s, i ∈ [Instr.recoverBoot, .recoveryReport] → s.get ID_MBX_CTL.STATE 0 ≠ 1 → exec i s = .next s)

/-- StartUp. A power-on from VAON invalid runs the steps to release or, where no slot passes, to recovery: memory cleared,
the collector initialised, the FC3 latch and the flash kept, fused phases FUSED, a crew with fewer than five usable
ones forced down, every crew's delivery calibrated, and on release the record of mark 0 latched; a latch that is set
leads into the safe state. Loss of VAON leaves the flash, the FC3 latch, the pins' levels, the waiting log records and
where they go (that those outlast it is assumption log 72's choice), and every other register at its reset value; the latch clears only without VAON. VSB lost with VAON
valid is an FC3 event. -/
def Obligations.StartUp : Prop :=
  (∀ fuses key inp s, s.get ID_BOOT_STAT.STEP 0 ≠ 0 → exec (.powerOn fuses key inp) s = .next s) ∧
  (∀ fuses key inp s, s.get ID_BOOT_STAT.STEP 0 = 0 → Does (exec (.powerOn fuses key inp) s) fun t =>
    (t.get ID_BOOT_STAT.STEP 0 = 7 ∧ t.get ID_FW_STAT.MODE 0 = 1 ∨ t.get ID_BOOT_STAT.STEP 0 = 8 ∧
      t.get ID_FW_STAT.MODE 0 = 2) ∧
    t.get ID_MEM_STAT.CLEARED 0 = 1 ∧ t.fltInit = true ∧ t.flash = s.flash ∧ t.calQ = [] ∧
    (∀ c rtts, c < 192 → rtts = (inp.cal.getD c ([], 0)).1 → rtts.length = 8 → ceilDiv (ceilDiv (sumN rtts) 8) 2 ≤ 56 →
      maxN rtts - (minN rtts).getD 0 ≤ 4 → maxN rtts ≤ 255 →
      t.get TB_CAL.VALID c = 1 ∧ t.get TB_CAL.HOLD c = 64 - ceilDiv (ceilDiv (sumN rtts) 8) 2) ∧
    (∀ c, c < 192 → (inp.cal.getD c ([], 0)).1.length ≠ 8 → t.get TB_CAL.VALID c = 0 ∧ t.get TB_CAL.FAIL c = 1) ∧
    (t.get ID_BOOT_STAT.STEP 0 = 7 → ∃ len recs, t.snaps = [(0, len, recs)]) ∧
    (∀ c, c < 192 → t.usable c < 5 → t.get CREW_PWR_STAT.FORCED c = 1) ∧
    (∀ ph, ph < 1536 → bitAt (t.get CREW_PH_STATE.FUSED (ph / 8)) (ph % 8) = true → (t.phase ph).st = .fused) ∧
    (s.flag FLT_STAT.FC3 0 = true → t.get FLT_STAT.FC3 0 = 1 ∧ t.get FLT_STAT.SAFE 0 = 1 ∧ t.get ID_BOOT_STAT.LATCH 0 = 1)) ∧
  (∀ fuses key inp s, s.get ID_BOOT_STAT.STEP 0 = 0 → inp.flashUp = false → Does (exec (.powerOn fuses key inp) s) fun t =>
    t.get ID_BOOT_STAT.STEP 0 = 8 ∧ t.get ID_FW_STAT.MODE 0 = 2 ∧ t.get ID_FW_STAT.REASON_A 0 = 1 ∧
    t.get ID_FW_STAT.REASON_B 0 = 1) ∧
  (∀ s, Does (exec .vaonLoss s) fun t =>
    t.flash = s.flash ∧ t.mem = [] ∧ t.flag FLT_STAT.FC3 0 = s.flag FLT_STAT.FC3 0 ∧
    (∀ f i, f.key i ∉ FLT_STAT.FC3.key 0 :: logKeys → t.get f i = f.reset i) ∧ t.logQ = s.logQ ∧ t.crews = [] ∧
      t.phases = [] ∧ t.ctxs = [] ∧ t.intake = [] ∧
    t.flight = [] ∧ t.coolantPin = s.coolantPin ∧ t.pwrEnPin = s.pwrEnPin ∧ t.trstPin = s.trstPin) ∧
  (∀ s, s.get ID_BOOT_STAT.STEP 0 = 0 → Does (exec .fc3LatchClear s) fun t => t.get FLT_STAT.FC3 0 = 0 ∧
    SameRegs [FLT_STAT.FC3.key 0] s t ∧ SamePhases [] s t ∧ SameCrews [] s t ∧ SameMem s t) ∧
  (∀ s, s.get ID_BOOT_STAT.STEP 0 ≠ 0 → exec .fc3LatchClear s = .next s) ∧
  (∀ s, s.get ID_BOOT_STAT.STEP 0 ≠ 0 → Does (exec .standbySupplyLost s) fun t =>
    t.intake = s.intake ++ [s.eventOf 0x0D07 0 0] ∧ t.vsbLow = true ∧ SameRegs [] s t ∧ SamePhases [] s t ∧
      SameCrews [] s t ∧ SameMem s t)

/-- SuppliesAndHost. FS_EN is accepted with PWR_EN, running firmware, a clear latch and no shutdown, and enables and trims
the dies; it is cleared with every plane down, and stops them; else FS_REFUSED. VIB_GOOD needs every die ready and
every VIB in range, and does nothing with a die not ready or a VIB out of range; without it the start fails. HOST_RUN releases host reset with every plane ON or held off, else
RUN_REFUSED. XCAL_REQ runs every region at 16; DONE zeroes the stretch counts; FAIL and a timeout assert host reset, FAIL
also in the cycle of a DONE, which then counts for nothing. A debounced fall of PWR_EN raises its event, also while a
shutdown runs (assumption log 97's choice), and starts a shutdown. -/
def Obligations.SuppliesAndHost : Prop :=
  (∀ m data s, s.Takes m .ID_PWR_CTL 0 data → bitAt data 31 = true → bitAt data 30 = s.flag ID_PWR_CTL.HOST_RUN 0 →
    bitAt data 29 = false → s.flag ID_PWR_CTL.FS_EN 0 = false → Does (exec (.fsEn m data) s) fun t =>
      (if s.flag ID_PWR_STAT.PWR_EN 0 = true ∧ s.get ID_FW_STAT.MODE 0 = 1 ∧ s.flag FLT_STAT.FC3 0 = false ∧
        s.orderly = false then
        t.get ID_PWR_CTL.FS_EN 0 = 1 ∧ t.get ID_PWR_STAT.FS_ON 0 = 1 ∧ t.get ID_PWR_STAT.VIB_GOOD 0 = 0 ∧
        (∀ d ∈ s.dies, 1 ∈ tget [] t.stgCmd d ∧ 2 ∈ tget [] t.stgCmd d ∧ t.get STG_DIE_STAT.LOST d = 0 ∧
          t.get STG_DIE_STAT.FAULT d = 0)
      else t.get ID_PWR_STAT.FS_REFUSED 0 = 1 ∧ t.stgCmd = s.stgCmd ∧
        SameRegs [ID_PWR_CTL.SD_WAIT.key 0, ID_PWR_STAT.FS_REFUSED.key 0] s t) ∧
      SamePhases [] s t ∧ SameCrews [] s t ∧ SameMem s t) ∧
  (∀ m data s, s.Takes m .ID_PWR_CTL 0 data → bitAt data 31 = false → bitAt data 30 = s.flag ID_PWR_CTL.HOST_RUN 0 →
    bitAt data 29 = false → s.flag ID_PWR_CTL.FS_EN 0 = true → Does (exec (.fsEn m data) s) fun t =>
      (if s.allDown = true then t.get ID_PWR_CTL.FS_EN 0 = 0 ∧ t.get ID_PWR_STAT.FS_ON 0 = 0 ∧
        (∀ d ∈ s.dies, tget [] t.stgCmd d = [0])
      else t.get ID_PWR_STAT.FS_REFUSED 0 = 1 ∧ t.stgCmd = s.stgCmd ∧
        SameRegs [ID_PWR_CTL.SD_WAIT.key 0, ID_PWR_STAT.FS_REFUSED.key 0] s t) ∧
      SamePhases [] s t ∧ SameCrews [] s t ∧ SameMem s t) ∧
  (∀ s, s.flag ID_PWR_CTL.FS_EN 0 = true → (∀ d ∈ s.dies, s.flag STG_DIE_STAT.READY d = true) →
    (∀ c, c < 192 → 22000000 ≤ s.vibOf c ∧ s.vibOf c ≤ 26000000) → Does (exec .vibGood s) fun t =>
      t.get ID_PWR_STAT.VIB_GOOD 0 = 1 ∧ t.vibWas = true ∧ SameRegs [ID_PWR_STAT.VIB_GOOD.key 0] s t ∧ SamePhases [] s t ∧
      SameCrews [] s t ∧ SameMem s t) ∧
  (∀ d s, d ∈ s.dies → s.flag STG_DIE_STAT.READY d = false → exec .vibGood s = .next s) ∧
  (∀ c (s : State), c < 192 → (s.vibOf c < 22000000 ∨ 26000000 < s.vibOf c) → exec .vibGood s = .next s) ∧
  (∀ s, s.flag ID_PWR_CTL.FS_EN 0 = true → s.vibWas = false → s.room → Does (exec .vibStartFailed s) fun t =>
    t.get ID_PWR_CTL.FS_EN 0 = 0 ∧ t.intake = s.intake ++ [s.eventOf 0x0D04 0 0] ∧ (∀ d ∈ s.dies, tget [] t.stgCmd d = [0]) ∧
    SameRegs [ID_PWR_CTL.FS_EN.key 0, ID_PWR_STAT.FS_ON.key 0, ID_PWR_STAT.VIB_GOOD.key 0] s t ∧ SamePhases [] s t ∧
    SameCrews [] s t ∧ SameMem s t) ∧
  (∀ m data s, s.Takes m .ID_PWR_CTL 0 data → bitAt data 31 = s.flag ID_PWR_CTL.FS_EN 0 → bitAt data 30 = true →
    bitAt data 29 = false → s.flag ID_PWR_CTL.HOST_RUN 0 = false → Does (exec (.hostRun m data) s) fun t =>
      (if s.flag FLT_STAT.FC3 0 = false ∧ s.orderly = false ∧ s.stop = .none ∧
          ((List.range 32).all fun p => s.planeOn p || (s.plane p).heldOff) = true then
        t.get ID_PWR_CTL.HOST_RUN 0 = 1 ∧ t.get ID_PWR_STAT.HOST_RESET 0 = 0 ∧ t.hostReset = false ∧ t.xcalDue = true
      else t.get ID_PWR_STAT.RUN_REFUSED 0 = 1 ∧ t.hostReset = s.hostReset ∧
        t.get ID_PWR_CTL.HOST_RUN 0 = s.get ID_PWR_CTL.HOST_RUN 0) ∧
      SameRegs [ID_PWR_CTL.SD_WAIT.key 0, ID_PWR_CTL.HOST_RUN.key 0, ID_PWR_STAT.HOST_RESET.key 0,
        ID_PWR_STAT.RUN_REFUSED.key 0] s t ∧
      SamePhases [] s t ∧ SameCrews [] s t ∧ SameMem s t) ∧
  (∀ m data s, s.Takes m .ID_PWR_CTL 0 data → bitAt data 31 = s.flag ID_PWR_CTL.FS_EN 0 → bitAt data 30 = false →
    bitAt data 29 = false → s.flag ID_PWR_CTL.HOST_RUN 0 = true → Does (exec (.hostRun m data) s) fun t =>
      t.get ID_PWR_CTL.HOST_RUN 0 = 0 ∧ t.get ID_PWR_STAT.HOST_RESET 0 = 1 ∧ t.hostReset = true ∧ t.xcalDue = false ∧
      t.xcalHold = false ∧ (s.get ID_PWR_STAT.XCAL 0 = 1 → t.get ID_PWR_STAT.XCAL 0 = 0) ∧ SamePhases [] s t ∧
        SameCrews [] s t ∧ SameMem s t) ∧
  (∀ s, s.xcalDue = true → Does (exec .xcalReq s) fun t =>
    t.get ID_PWR_STAT.XCAL 0 = 1 ∧ t.xcalHold = true ∧ t.xcalDue = false ∧ (∀ r, r < 24 → t.get MSH_REG_CFG.RATE r = 16) ∧
    t.strReq = [] ∧ t.strTarget = [] ∧
      SameRegs (ID_PWR_STAT.XCAL.key 0 :: (List.range 24).map MSH_REG_CFG.RATE.key) s t ∧ SamePhases [] s t ∧
    SameCrews [] s t ∧ SameMem s t) ∧
  (∀ s, s.get ID_PWR_STAT.XCAL 0 = 1 → Does (exec .xcalDone s) fun t =>
    t.get ID_PWR_STAT.XCAL 0 = 2 ∧ t.xcalHold = false ∧ (∀ r, r < 24 → t.get MSH_STR_CNT.STRETCHES r = 0) ∧
    t.hostReset = s.hostReset ∧
    SameRegs (ID_PWR_STAT.XCAL.key 0 :: (List.range 24).map MSH_REG_CFG.RATE.key ++ (List.range 24).map
      MSH_STR_CNT.STRETCHES.key) s t ∧
    SamePhases [] s t ∧ SameCrews [] s t ∧ SameMem s t) ∧
  (∀ s, s.get ID_PWR_STAT.XCAL 0 = 1 → s.room → Does (exec .xcalFail s) (XcalFails s)) ∧
  (∀ s, s.get ID_PWR_STAT.XCAL 0 = 1 → s.room → Does (exec .xcalTimeout s) (XcalFails s)) ∧
  (∀ l s, s.get ID_PWR_STAT.XCAL 0 = 2 → s.cyc.xcal = some l → s.room →
    Does (exec .xcalFail s) fun t =>
      t.get ID_PWR_STAT.XCAL 0 = 3 ∧ t.hostReset = true ∧ t.get ID_PWR_STAT.HOST_RESET 0 = 1 ∧
      t.get ID_PWR_CTL.HOST_RUN 0 = 0 ∧ (∀ r, r < 24 → t.get MSH_STR_CNT.STRETCHES r = l.getD r 0 % 2 ^ 32) ∧
      t.intake = s.intake ++ [s.eventOf 0x0D05 0 0] ∧ SamePhases [] s t ∧ SameCrews [] s t ∧ SameMem s t) ∧
  (∀ i s, i ∈ [Instr.xcalDone, .xcalTimeout] → s.get ID_PWR_STAT.XCAL 0 ≠ 1 → exec i s = .next s) ∧
  (∀ s, s.get ID_PWR_STAT.XCAL 0 ≠ 1 → (s.get ID_PWR_STAT.XCAL 0 ≠ 2 ∨ s.cyc.xcal = none) → exec .xcalFail s = .next s) ∧
  (∀ high s, Does (exec (.pwrEnPinChange high) s) fun t => t.pwrEnPin = high ∧ SameRegs [] s t ∧ SamePhases [] s t ∧
    SameCrews [] s t ∧ SameMem s t) ∧
  (∀ s, s.get ID_BOOT_STAT.STEP 0 ≠ 0 → s.flag ID_PWR_STAT.PWR_EN 0 = true → s.pwrEnPin = false →
    (s.flag FLT_STAT.SAFE 0 = false ∨ s.stopDone = false) → s.flag ID_PWR_CTL.FS_EN 0 = true → s.room →
      Does (exec .pwrEnDebounce s) fun t =>
      t.get ID_PWR_STAT.PWR_EN 0 = 0 ∧ s.eventOf 0x0D03 0 0 ∈ t.intake ∧ t.orderly = true ∧
      (s.orderly = false → t.get ID_PWR_STAT.SD 0 = 1) ∧ SamePhases [] s t ∧ SameCrews [] s t ∧ SameMem s t) ∧
  (∀ s, s.get ID_BOOT_STAT.STEP 0 ≠ 0 → s.flag ID_PWR_STAT.PWR_EN 0 = false → s.pwrEnPin = true →
    (s.flag FLT_STAT.SAFE 0 = false ∨ s.stopDone = false) →
    Does (exec .pwrEnDebounce s) fun t => t.get ID_PWR_STAT.PWR_EN 0 = 1 ∧ t.intake = s.intake ∧
      SameRegs [ID_PWR_STAT.PWR_EN.key 0] s t ∧ SamePhases [] s t ∧ SameCrews [] s t ∧ SameMem s t)

/-- ResetsAndShutdown. A write to ID_RST_CTL with another key or kind, before release or with a FULL pending only sets
REFUSED. An ENGINE reset empties every lane and its grants, counts, and keeps memory, crews and phases. A FULL request
with a plane not OFF starts the orderly shutdown and pends; with every plane OFF it starts the block again, and its own
event, with nothing else waiting, is recorded at the step COLLECTOR. SHUTDOWN holds lanes, drops every queued power-on,
and throttles every region once, as far as the queue of 64 notices has room (assumption log 57's choice); SD_WAIT later
host reset is asserted and the first domain is taken, or with no plane left the shutdown ends, and a FULL request that
pends acts, with the stop of the FS dies still on its way (log 61's choice). COUNT and REQUESTER change as a request is
accepted (log 98's choice). -/
def Obligations.ResetsAndShutdown : Prop :=
  (∀ m data i s, s.Takes m .ID_RST_CTL 0 data → (∃ boot, i = Instr.full m data boot) ∨ i = .engine m data →
    (bits data 31 24 ≠ 0x5A ∨ bits data 1 0 ∉ [1, 2] ∨ s.get ID_BOOT_STAT.STEP 0 < 7 ∨ s.flag ID_RST_STAT.FULL_PEND 0 = true) →
    Does (exec i s) fun t => t.get ID_RST_STAT.REFUSED 0 = 1 ∧ t.intake = s.intake ∧ t.ctxs = s.ctxs ∧
      SameRegs [ID_RST_STAT.REFUSED.key 0] s t ∧ SamePhases [] s t ∧ SameCrews [] s t ∧ SameMem s t) ∧
  (∀ m data s, s.Takes m .ID_RST_CTL 0 data → bits data 31 24 = 0x5A → bits data 1 0 = 2 → 7 ≤ s.get ID_BOOT_STAT.STEP 0 →
    s.flag ID_RST_STAT.FULL_PEND 0 = false → Does (exec (.engine m data) s) fun t =>
      (∀ l, l < 8 → t.lst l = 0 ∧ (∀ k, k < 6 → t.get LANE_GRANT.CREWS (6 * l + k) = 0) ∧ t.get LANE_GRANTX.FIELDS l = 0) ∧
      t.get ID_BOOT_STAT.KIND 0 = 2 ∧ t.get ID_RST_STAT.COUNT 0 = ID_RST_STAT.COUNT.count (s.get ID_RST_STAT.COUNT 0) ∧
      t.get ID_RST_STAT.REQUESTER 0 = (if isHost m then 2 else 1) ∧
      (∀ k, k < 4 → bitAt (s.get ID_BOOT_STAT.START_MASK 0) k = true →
        t.lst (8 + k) = 3 ∧ t.pc (8 + k) = s.get ID_BOOT_ENTRY.ENTRY k % 2 ^ 15 ∧ (t.ctx (8 + k)).wait = none) ∧
      t.flight = s.flight ∧ SamePhases [] s t ∧ SameCrews [] s t ∧ SameMem s t) ∧
  (∀ m data boot s, s.Takes m .ID_RST_CTL 0 data → bits data 31 24 = 0x5A → bits data 1 0 = 1 → 7 ≤ s.get ID_BOOT_STAT.STEP 0 →
    s.flag ID_RST_STAT.FULL_PEND 0 = false → (s.flag FLT_STAT.SAFE 0 = false ∨ s.stopDone = false) → (∃ p, p < 32 ∧
      s.planeOff p = false) → s.orderly = false →
    Does (exec (.full m data boot) s) fun t =>
      t.get ID_RST_STAT.FULL_PEND 0 = 1 ∧ t.bootIn = some boot ∧ t.orderly = true ∧ t.get ID_PWR_STAT.SD 0 = 1 ∧
      t.get ID_RST_STAT.COUNT 0 = ID_RST_STAT.COUNT.count (s.get ID_RST_STAT.COUNT 0) ∧
      SamePhases [] s t ∧ SameCrews [] s t ∧ SameMem s t) ∧
  (∀ m data boot s, s.Takes m .ID_RST_CTL 0 data → bits data 31 24 = 0x5A → bits data 1 0 = 1 → 7 ≤ s.get ID_BOOT_STAT.STEP 0 →
    s.flag ID_RST_STAT.FULL_PEND 0 = false → (∀ p, p < 32 → s.planeOff p = true) → Does (exec (.full m data boot) s) fun t =>
      t.get ID_BOOT_STAT.STEP 0 ∈ [7, 8] ∧ t.get ID_BOOT_STAT.KIND 0 = 1 ∧ t.get ID_RST_STAT.FULL_PEND 0 = 0 ∧
      t.get ID_RST_STAT.COUNT 0 = ID_RST_STAT.COUNT.count (s.get ID_RST_STAT.COUNT 0) ∧
      ((∀ e ∈ s.fuse, e.1.reg ≠ .CREW_PH_STATE) → s.intake = [] → t.fc2 = s.fc2 ∧
        t.ring = (⟨s.get REC_HEAD.NEXT_SEQ 0, s.eventOf 0x0D01 0 0 (1 + 2 ^ 16 * (if isHost m then 2 else 1)),
          s.flag FLT_STAT.FC3 0 || s.flag FLT_STAT.SAFE 0, false, 0⟩ :: s.ring).take 4096) ∧
      t.pmbLatch = s.pmbLatch ∧ t.pmbCml = s.pmbCml ∧
      t.flag FLT_STAT.FC3 0 = s.flag FLT_STAT.FC3 0 ∧ t.flash = s.flash ∧ t.flight = [] ∧
      (∀ e, e ∈ t.stgCmd ↔ e ∈ s.stgCmd ∧ e.2 = [0])) ∧
  (∀ m data s, s.Takes m .ID_PWR_CTL 0 data → bitAt data 31 = s.flag ID_PWR_CTL.FS_EN 0 →
    bitAt data 30 = s.flag ID_PWR_CTL.HOST_RUN 0 →
    bitAt data 29 = true → s.orderly = false → Does (exec (.shutdown m data) s) fun t =>
      t.orderly = true ∧ t.get ID_PWR_STAT.SD 0 = 1 ∧
        t.powerQ = s.powerQ.filter (fun p => decide (32 ≤ p)) ∧
      (∀ n, n < 8 → s.lst n = 3 → (s.ctx n).wait = none → t.lst n = 5) ∧
      t.notices = s.notices ++ ((List.range 24).map (fun r => ⟨2, 4, 0, r, s.stampNow, 0⟩)).take (64 - s.notices.length) ∧
      SamePhases [] s t ∧ SameCrews [] s t ∧ SameMem s t) ∧
  (∀ m data s, s.Takes m .ID_PWR_CTL 0 data → bitAt data 31 = s.flag ID_PWR_CTL.FS_EN 0 →
    bitAt data 30 = s.flag ID_PWR_CTL.HOST_RUN 0 →
    s.orderly = true → Does (exec (.shutdown m data) s) fun t => t.notices = s.notices ∧ t.powerQ = s.powerQ ∧
      SameRegs [ID_PWR_CTL.SD_WAIT.key 0] s t ∧ SamePhases [] s t ∧ SameCrews [] s t ∧ SameMem s t) ∧
  (∀ s, s.orderly = true → s.get ID_PWR_STAT.SD 0 = 1 → s.stop = .none →
    (∃ f p, f < 8 ∧ p = 4 * f + 3 ∧ ((s.plane p).ramp ≠ .none ∨ (s.plane p).shutIssued = true ∨ (s.plane p).discharging = true ∨
      ((s.plane p).powered = true ∧ (∃ c ∈ planeCrews p, (s.crew c).reg = true ∧ s.alive c = true) ∧
        ∀ c ∈ planeCrews p, s.cst c ≠ 1 ∧ s.cst c ≠ 8))) → Does (exec .sdWait s) fun t =>
    t.hostReset = true ∧ t.get ID_PWR_STAT.HOST_RESET 0 = 1 ∧ t.get ID_PWR_STAT.SD 0 = 2 ∧ t.get ID_PWR_STAT.SD_DOMAIN 0 = 3 ∧
    t.orderly = true ∧ SameMem s t) ∧
  (∀ s, s.orderly = true → s.get ID_PWR_STAT.SD 0 = 1 → s.stop = .none → (∀ d, d < 4 → s.sdPlanes d = []) → s.bootIn = none →
    Does (exec .sdWait s) fun t =>
      t.get ID_PWR_STAT.SD 0 = 3 ∧ t.orderly = false ∧ t.get ID_PWR_CTL.FS_EN 0 = 0 ∧ SamePhases [] s t ∧ SameCrews [] s t ∧
      SameMem s t) ∧
  (∀ boot s, s.orderly = true → s.get ID_PWR_STAT.SD 0 = 1 → s.stop = .none → (∀ d, d < 4 → s.sdPlanes d = []) →
    s.bootIn = some boot → Does (exec .sdWait s) fun t =>
      t.get ID_BOOT_STAT.STEP 0 ∈ [7, 8] ∧ t.get ID_BOOT_STAT.KIND 0 = 1 ∧ t.get ID_RST_STAT.FULL_PEND 0 = 0 ∧
      (∀ d ∈ s.dies, (d, [0]) ∈ t.stgCmd) ∧ t.flash = s.flash) ∧
  (∀ s, (s.orderly = false ∨ s.get ID_PWR_STAT.SD 0 ≠ 1) → exec .sdWait s = .next s)

/-- PmbusCommands. A PMBus read answers the value of the plane that PAGE selects, and while PAGE is 0xFF ones in every
byte with CML bit 6, and a PEC behind it. A write with a wrong PEC sets CML bit 5 and does nothing else. Under the
write-protect fuse every write but PAGE and CLEAR_FAULTS is refused with CML bit 7 and an FC0 event; without it
VOUT_COMMAND delivers the rounded setpoint. The alert response is the target's address while the alert pends, which it
does not release; CLEAR_FAULTS releases it, unless the cycle itself has set it. LINEAR11 takes the smallest exponent that fits.
Choices of the model: the bit for a refused PAGE and the place of the PEC (assumption log 100), its polynomial (132), the
summary bits (101) and the readings taken (102). -/
def Obligations.PmbusCommands : Prop :=
  (∀ v pec s, Does (exec (.page true v pec) s) (PmbAnswers 0x00 [s.page] s)) ∧
  (∀ pec s, Does (exec (.writeProtect true pec) s) (PmbAnswers 0x10 [if s.flag ID_FUSE.PMB_WP 0 then 0x80 else 0] s)) ∧
  (∀ pec s, Does (exec (.capability true pec) s) (PmbAnswers 0x19 [0xD0] s)) ∧
  (∀ pec s, Does (exec (.voutMode true pec) s) (PmbAnswers 0x20 [0x14] s)) ∧
  (∀ v pec s, Does (exec (.voutCommand true v pec) s)
    (PmbAnswers 0x21 (wordBytes (ulinear16 (codeUv (maxN ((s.snaps' s.page).map (·.target)))))) s)) ∧
  (∀ pec s, Does (exec (.statusByte true pec) s) (PmbAnswers 0x78 [s.statusSummary s.page % 256] s)) ∧
  (∀ pec s, Does (exec (.statusWord true pec) s) (PmbAnswers 0x79 (wordBytes (s.statusSummary s.page)) s)) ∧
  (∀ pec s, Does (exec (.statusVout true pec) s) (PmbAnswers 0x7A [(s.status s.page).1] s)) ∧
  (∀ pec s, Does (exec (.statusIout true pec) s) (PmbAnswers 0x7B [(s.status s.page).2.1] s)) ∧
  (∀ pec s, Does (exec (.statusTemperature true pec) s) (PmbAnswers 0x7D [(s.status s.page).2.2] s)) ∧
  (∀ pec s, Does (exec (.statusCml true pec) s) (PmbAnswers 0x7E [s.pmbCml] s)) ∧
  (∀ pec s, Does (exec (.readVin true pec) s) (PmbAnswers 0x88 (wordBytes (linear11 (s.meanVib s.page))) s)) ∧
  (∀ pec s, Does (exec (.readVout true pec) s) (PmbAnswers 0x8B
    (wordBytes (ulinear16 (625 * leastN (((s.snaps' s.page).filter (fun r => !r.noData)).map (·.volt))))) s)) ∧
  (∀ pec s, Does (exec (.readIout true pec) s)
    (PmbAnswers 0x8C (wordBytes (linear11 ((sumN ((s.snaps' s.page).map (·.current)) : Rat) / 1000))) s)) ∧
  (∀ pec s, Does (exec (.readTemperature1 true pec) s)
    (PmbAnswers 0x8D (wordBytes (linear11 (((maxI ((s.snaps' s.page).map (·.temp))).getD 0 : Int) / (4 : Rat)))) s)) ∧
  (∀ pec s, Does (exec (.readPout true pec) s) (PmbAnswers 0x96 (wordBytes (linear11 ((s.planeMw s.page : Rat) / 1000))) s)) ∧
  (∀ pec s, Does (exec (.pmbusRevision true pec) s) (PmbAnswers 0x98 [0x33] s)) ∧
  (∀ pec s, Does (exec (.mfrId true pec) s) (PmbAnswers 0x99 [6, 0x41, 0x45, 0x4C, 0x4C, 0x49, 0x53] s)) ∧
  (∀ pec s, Does (exec (.mfrModel true pec) s) (PmbAnswers 0x9A [5, 0x44, 0x52, 0x43, 0x2D, 0x32] s)) ∧
  (∀ q : Rat, -33554432 ≤ q → q ≤ 33521664 → ∃ k : Nat, k < 24 ∧
    linear11 q = unsg 5 ((k : Int) - 8) * 2 ^ 11 + unsg 11 (nearest (q * 256 / ((2 ^ k : Nat) : Rat))) ∧
    -1024 ≤ nearest (q * 256 / ((2 ^ k : Nat) : Rat)) ∧ nearest (q * 256 / ((2 ^ k : Nat) : Rat)) ≤ 1023 ∧
    ∀ j : Nat, j < k → ¬(-1024 ≤ nearest (q * 256 / ((2 ^ j : Nat) : Rat)) ∧
      nearest (q * 256 / ((2 ^ j : Nat) : Rat)) ≤ 1023)) ∧
  (∀ code n pec s, Does (exec (.unsupportedCommand code true n pec) s) fun t =>
    (∃ pb, t.smbOut = List.replicate n 0xFF ++ [pb]) ∧ t.pmbCml.testBit 7 = true ∧ SameRegs [] s t ∧ SamePhases [] s t ∧
      SameCrews [] s t ∧ SameMem s t) ∧
  (∀ i v code n s, i ∈ [Instr.page false v false, .clearFaults false, .voutCommand false v false,
      .unsupportedCommand code false n false, .writeProtect false false, .capability false false, .voutMode false false,
      .statusByte false false, .statusWord false false, .statusVout false false, .statusIout false false,
      .statusTemperature false false, .statusCml false false, .readVin false false, .readVout false false, .readIout
        false false,
      .readTemperature1 false false, .readPout false false, .pmbusRevision false false, .mfrId false false,
      .mfrModel false false] → Does (exec i s) fun t =>
    t.smbOut = [] ∧ t.pmbCml = Nat.lor s.pmbCml 0x20 ∧ t.pmbLatch = s.pmbLatch ∧ t.uop = s.uop ∧ t.uopWait = s.uopWait ∧
    t.intake = s.intake ∧ SameRegs [] s t ∧ SamePhases [] s t ∧ SameCrews [] s t ∧ SameMem s t) ∧
  (∀ v s, Does (exec (.page false v true) s) fun t =>
    (if v < 0x20 ∨ v = 0xFF then t.get ID_PMB_CFG.PAGE 0 = v ∧ t.pmbCml = s.pmbCml
     else t.get ID_PMB_CFG.PAGE 0 = s.get ID_PMB_CFG.PAGE 0 ∧ t.pmbCml = Nat.lor s.pmbCml 0x40) ∧
    SameRegs [ID_PMB_CFG.PAGE.key 0] s t ∧ SamePhases [] s t ∧ SameCrews [] s t ∧ SameMem s t) ∧
  (∀ s, Does (exec (.clearFaults true) s) fun t =>
    (s.get FLT_STAT.ALERT_PEND 0 < 2 → s.was FLT_STAT.ALERT_PEND 0 < 2 →
      t.get FLT_STAT.ALERT_PEND 0 = s.get FLT_STAT.ALERT_PEND 0 - s.was FLT_STAT.ALERT_PEND 0) ∧ t.pmbCml = 0 ∧
    (∀ p, t.status p = (Nat.land (s.status p).1 (s.statusLive p).1, Nat.land (s.status p).2.1 (s.statusLive p).2.1,
      Nat.land (s.status p).2.2 (s.statusLive p).2.2)) ∧
    t.fc2 = s.fc2 ∧ SameRegs [FLT_STAT.ALERT_PEND.key 0] s t ∧ SamePhases [] s t ∧ SameCrews [] s t ∧ SameMem s t) ∧
  (∀ i v code n s, i ∈ [Instr.voutCommand false v true, .unsupportedCommand code false n true, .writeProtect false true,
      .capability false true, .voutMode false true, .statusByte false true, .statusWord false true, .statusVout false true,
      .statusIout false true, .statusTemperature false true, .statusCml false true, .readVin false true, .readVout false true,
      .readIout false true, .readTemperature1 false true, .readPout false true, .pmbusRevision false true, .mfrId false true,
      .mfrModel false true] →
    s.flag ID_FUSE.PMB_WP 0 = true → s.room → Does (exec i s) fun t =>
      t.pmbCml = Nat.lor s.pmbCml 0x80 ∧ t.get ID_PMB_CFG.REFUSED 0 = ID_PMB_CFG.REFUSED.count (s.get ID_PMB_CFG.REFUSED 0) ∧
      t.intake = s.intake ++ [s.eventOf 0x0E01 0 0] ∧ t.uop = s.uop ∧ t.uopWait = s.uopWait ∧
      SameRegs [ID_PMB_CFG.REFUSED.key 0] s t ∧ SamePhases [] s t ∧ SameCrews [] s t ∧ SameMem s t) ∧
  (∀ v s, s.flag ID_FUSE.PMB_WP 0 = false → s.opsStopped = false → s.page ≠ 0xFF → s.uop = none →
    Does (exec (.voutCommand false v true) s) fun t =>
      t.uop = some ⟨0, .setpKeep (clampI (nearest (((v : Rat) / 4096 - 3 / 10) * 2000)) 0 4095).toNat, planeUnit
        s.page, [], 15, 0⟩ ∧
      t.get ID_UOP_STAT.BUSY 0 = 1 ∧ t.pmbCml = s.pmbCml ∧ t.intake = s.intake ∧
      SameRegs [ID_UOP_STAT.BUSY.key 0] s t ∧ SamePhases [] s t ∧ SameCrews [] s t ∧ SameMem s t) ∧
  (∀ v s u, s.flag ID_FUSE.PMB_WP 0 = false → s.opsStopped = false → s.page = 0xFF → s.uop = some u →
    Does (exec (.voutCommand false v true) s) fun t => t.uop = s.uop ∧
      t.uopWait.map (·.unit) = s.uopWait.map (·.unit) ++ (List.range 32).map planeUnit ∧
      SameRegs [] s t ∧ SamePhases [] s t ∧ SameCrews [] s t ∧ SameMem s t) ∧
  (∀ s, Does (exec .alertResponse s) fun t =>
    t.smbOut = (if s.flag FLT_STAT.ALERT_PEND 0 then
        [2 * s.get ID_PMB_CFG.ADDR 0, crc8 [0x19, 2 * s.get ID_PMB_CFG.ADDR 0]] else []) ∧ t.pmbCml = s.pmbCml ∧
    SameRegs [] s t ∧ SamePhases [] s t ∧ SameCrews [] s t ∧ SameMem s t)

/-- FlashOperations. A write of GO with no operation running starts READ, PROGRAM or an erase with ADDR, MEM and LEN, or
ends it at once: BAD_REQUEST for a misaligned or oversized one, PROTECTED for one that would change the shutdown log,
REGION where the flash DMA may not move the data; while one runs it only sets ERR 8. Its end moves the data: READ
copies flash to memory, PROGRAM memory to erased flash, an erase leaves ones; a transfer that any offline bank holds
part of waits; a failure raises "flash error" with its code and address. The order of GO's checks, and BAD_REQUEST for
memory outside coordinator memory, are assumption log 99's choice. -/
def Obligations.FlashOperations : Prop :=
  (∀ m data s, s.Takes m .ID_FLASH_CTL 0 data → bitAt data 31 = true → bits data 30 28 = 0 → s.flashOp = none →
    Does (exec (.read m data) s) (FlashGoes 0 s)) ∧
  (∀ m data s, s.Takes m .ID_FLASH_CTL 0 data → bitAt data 31 = true → bits data 30 28 = 1 → s.flashOp = none →
    Does (exec (.program m data) s) (FlashGoes 1 s)) ∧
  (∀ m data s, s.Takes m .ID_FLASH_CTL 0 data → bitAt data 31 = true → bits data 30 28 = 2 → s.flashOp = none →
    Does (exec (.erase4Kib m data) s) (FlashGoes 2 s)) ∧
  (∀ m data s, s.Takes m .ID_FLASH_CTL 0 data → bitAt data 31 = true → bits data 30 28 = 3 → s.flashOp = none →
    Does (exec (.erase64Kib m data) s) (FlashGoes 3 s)) ∧
  (∀ i m data s, i ∈ [Instr.read m data, .program m data, .erase4Kib m data, .erase64Kib m data] →
    s.Takes m .ID_FLASH_CTL 0 data → bitAt data 31 = true → s.flashOp ≠ none → Does (exec i s) fun t =>
      t.get ID_FLASH_STAT.ERR 0 = 8 ∧ t.flashOp = s.flashOp ∧
      SameRegs [ID_FLASH_CTL.OP.key 0, ID_FLASH_STAT.ERR.key 0] s t ∧ SamePhases [] s t ∧ SameCrews [] s t ∧ SameMem s t) ∧
  (∀ a m n s, s.flashOp = some (0, a, m, n) → (∀ x, m ≤ x → x < m + n → s.offline x = false) → 0 < n →
    s.permits 4 m n false true = true → Does (exec (.flashOperationEnd 0) s) fun t =>
      (∀ k, k < n → mget 0 t.mem (m + k) = mget 0xFF#8 s.flash (a + k)) ∧
      (∀ x, ¬(m ≤ x ∧ x < m + n) → mget 0 t.mem x = mget 0 s.mem x) ∧ t.flash = s.flash ∧
      t.get ID_FLASH_STAT.BUSY 0 = 0 ∧ t.get ID_FLASH_STAT.ERR 0 = 0 ∧ t.flashOp = none ∧ t.intake = s.intake ∧
      SameRegs [ID_FLASH_STAT.BUSY.key 0, ID_FLASH_STAT.ERR.key 0] s t ∧ SamePhases [] s t ∧ SameCrews [] s t) ∧
  (∀ a m n s, s.flashOp = some (1, a, m, n) → (∀ x, m ≤ x → x < m + n → s.offline x = false) → 0 < n → m % 8 = 0 → n % 8 = 0 →
    s.clean → s.permits 4 m n true false = true → Does (exec (.flashOperationEnd 0) s) fun t =>
      (∀ k, k < n → mget 0xFF#8 s.flash (a + k) = 0xFF#8 → mget 0xFF#8 t.flash (a + k) = mget 0 s.mem (m + k)) ∧
      (∀ x, ¬(a ≤ x ∧ x < a + n) → mget 0xFF#8 t.flash x = mget 0xFF#8 s.flash x) ∧ t.mem = s.mem ∧
      t.get ID_FLASH_STAT.BUSY 0 = 0 ∧ t.get ID_FLASH_STAT.ERR 0 = 0 ∧ t.flashOp = none ∧ t.intake = s.intake ∧
      SameRegs [ID_FLASH_STAT.BUSY.key 0, ID_FLASH_STAT.ERR.key 0] s t ∧ SamePhases [] s t ∧ SameCrews [] s t) ∧
  (∀ op size a m n s, (op, size) ∈ [(2, 4096), (3, 65536)] → s.flashOp = some (op, a, m, n) →
    Does (exec (.flashOperationEnd 0) s) fun t =>
      (∀ x, a ≤ x → x < a + size → mget 0xFF#8 t.flash x = 0xFF#8) ∧
      (∀ x, ¬(a ≤ x ∧ x < a + size) → mget 0xFF#8 t.flash x = mget 0xFF#8 s.flash x) ∧ t.mem = s.mem ∧
      t.get ID_FLASH_STAT.BUSY 0 = 0 ∧ t.get ID_FLASH_STAT.ERR 0 = 0 ∧ t.flashOp = none ∧ t.intake = s.intake ∧
      SameRegs [ID_FLASH_STAT.BUSY.key 0, ID_FLASH_STAT.ERR.key 0] s t ∧ SamePhases [] s t ∧ SameCrews [] s t) ∧
  (∀ err op a m n s, s.flashOp = some (op, a, m, n) → (err = 1 ∨ err = 4 ∧ 2 ≤ op) → 2 ≤ op → s.room →
    Does (exec (.flashOperationEnd err) s) fun t =>
      t.get ID_FLASH_STAT.BUSY 0 = 0 ∧ t.get ID_FLASH_STAT.ERR 0 = err ∧ t.flashOp = none ∧
      t.intake = s.intake ++ [s.eventOf 0x0E02 0 0 err (a % 2 ^ 32)] ∧
      SameRegs [ID_FLASH_STAT.BUSY.key 0, ID_FLASH_STAT.ERR.key 0] s t ∧ SamePhases [] s t ∧ SameCrews [] s t ∧ t.mem = s.mem) ∧
  (∀ op a m n err s, s.flashOp = some (op, a, m, n) → op ≤ 1 →
    (∃ x, m ≤ x ∧ x < m + n ∧ s.offline x = true) → exec (.flashOperationEnd err) s = .next s) ∧
  (∀ err s, s.flashOp = none → exec (.flashOperationEnd err) s = .next s)

/-- TestPort. TRST# low holds the port in Test-Logic-Reset with IDCODE in force, where it takes no instruction. IDCODE
captures the part number 0xD2C2 and a final 1; SAMPLE/PRELOAD captures the pins. With every plane OFF EXTEST captures the
pins and drives them from the boundary register, CLAMP drives them from it, and HIGHZ drives none; with a plane not OFF
the three act as BYPASS and the pins keep the block's levels (which pins these are, and that a port instruction is one
capture, is assumption log 103's choice). DBG is a management-port access, or BYPASS under the lock or without
its fuse. No other instruction changes anything but the port. -/
def Obligations.TestPort : Prop :=
  (∀ high s, Does (exec (.trst high) s) fun t => t.trstPin = high ∧ (high = false → t.tapInstr = 0xFE) ∧
    (high = true → t.tapInstr = s.tapInstr ∧ t.tapScan = s.tapScan) ∧ SameRegs [] s t ∧ SamePhases [] s t ∧ SameCrews [] s t ∧
    SameMem s t) ∧
  (∀ i scan pins wr a data ecc s, i ∈ [Instr.extest scan, .samplePreload pins scan, .jtagClamp, .highz, .dbg wr a
    data ecc, .idcode,
      .bypass] → s.trstPin = false → exec i s = .next s) ∧
  (∀ scan s, s.trstPin = true → Does (exec (.extest scan) s) fun t =>
    TapTakes 0x00 s t ∧ t.tapScan = (if s.anyPlaneUp then s.tapScan else scan) ∧
    t.tapOut = (if s.anyPlaneUp then 0 else State.boundary { s with tapInstr := 0x00 }) ∧
    t.pins = (if s.anyPlaneUp then s.corePins
      else (List.range 11).map fun k => PinLevel.level (Config.boundaryDrive scan k))) ∧
  (∀ pins scan s, s.trstPin = true → Does (exec (.samplePreload pins scan) s) fun t =>
    TapTakes 0x01 s t ∧ t.tapOut = pins ∧ t.tapScan = scan) ∧
  (∀ s, s.trstPin = true → Does (exec .jtagClamp s) fun t => TapTakes 0x02 s t ∧ t.tapScan = s.tapScan ∧
    t.pins = (if s.anyPlaneUp then s.corePins
      else (List.range 11).map fun k => PinLevel.level (Config.boundaryDrive s.tapScan k))) ∧
  (∀ s, s.trstPin = true → Does (exec .highz s) fun t => TapTakes 0x03 s t ∧
    t.pins = (if s.anyPlaneUp then s.corePins else List.replicate 11 .z)) ∧
  (∀ s, s.trstPin = true → Does (exec .idcode s) fun t =>
    TapTakes 0xFE s t ∧ t.tapOut % 2 = 1 ∧ t.tapOut / 2 ^ 12 % 2 ^ 16 = 0xD2C2 ∧ t.tapOut < 2 ^ 32) ∧
  (∀ s, s.trstPin = true → Does (exec .bypass s) (TapTakes 0xFF s)) ∧
  (∀ wr a data ecc s, s.trstPin = true → (s.locked = true ∨ s.flag ID_FUSE.JTAG_DBG 0 = false) →
    Does (exec (.dbg wr a data ecc) s) fun t => t.tapInstr = 0x40 ∧ t.resp = s.resp ∧ SameRegs [] s t ∧ SamePhases [] s t ∧
      SameCrews [] s t ∧ SameMem s t) ∧
  (∀ r i v ecc s, s.trstPin = true → s.locked = false → s.flag ID_FUSE.JTAG_DBG 0 = true → s.Reads .jtag r i → r ≠ .CREW_AB →
    r ≠ .REC_WIN → r.has [.RC] = false → Does (exec (.dbg false (r.addr i) v ecc) s) fun t =>
      t.tapInstr = 0x40 ∧ t.tapOut = s.regWord r i ∧ t.resp = ⟨false, s.regWord r i⟩ ∧ SameRegs [] s t ∧ SamePhases [] s t ∧
      SameCrews [] s t ∧ SameMem s t) ∧
  (∀ w ecc c s, s.trstPin = true → s.locked = false → s.flag ID_FUSE.JTAG_DBG 0 = true → s.Takes .jtag .CREW_OVL_CTL c w →
    Does (exec (.dbg true (Reg.CREW_OVL_CTL.addr c) w ecc) s) fun t =>
      t.tapInstr = 0x40 ∧ t.get CREW_OVL_CTL.FOLD_LEVEL c = w % 8 ∧ t.resp = ⟨false, 0⟩ ∧
      SameRegs [CREW_OVL_CTL.FOLD_LEVEL.key c] s t ∧ SamePhases [] s t ∧ SameCrews [] s t ∧ SameMem s t)

/-- StageLink. The commands of a die leave in the order STOP, ENABLE, TRIM, at the latest as the next coordinator cycle
begins, and POLL behind them; the die answers each. A valid answer to a poll shows the die's figures; a fault is an FC1
event once, and so is a low 48 V input (0x0D06, once per die: assumption log 104's choice). A bad or missing answer to any
frame is counted, and the third in a row makes the die lost, which leaves its READY as it was (log 104's choice); a valid
answer ends the row. VIB_SET holds at most 40 and trims the dies while FS_EN is set, when DIE_MASK does not change. A mean
of the crews' VIB readings below 2.20 V after VIB_GOOD, crews at 0 V among them, clears it with an FC2 event. Notices leave
in the order in which they were raised, at most one in a cycle. The lines to the host die show each region's band, stretch
request and RATE. -/
def Obligations.StageLink : Prop :=
  (∀ s, Does (exec .poll s) fun t =>
    (∀ d ∈ s.dies, tget [] t.stgOut d = s.dieFrames d ++ [3] ∧ tget [] t.stgWait d = tget [] s.stgWait d ++ s.dieFrames d ++ [3] ∧
      tget [] t.stgCmd d = []) ∧
    SameRegs [] s t ∧ SamePhases [] s t ∧ SameCrews [] s t ∧ SameMem s t) ∧
  (∀ s, s.pending = [] → Does (step s) fun t => t.stgCmd = [] ∧
    ∀ d, thas s.stgCmd d = true → tget [] t.stgOut d = s.dieFrames d ∧
      tget [] t.stgWait d = tget [] s.stgWait d ++ s.dieFrames d) ∧
  (∀ d l ready fault fcode vin iout temp (s : State), tget [] s.stgWait d = 3 :: l → d < 16 → 400 ≤ vin → s.room →
    Does (exec (.fsAnswer d true ready fault fcode vin iout temp) s) fun t =>
      t.flag STG_DIE_STAT.READY d = ready ∧ t.get STG_DIE_STAT.FCODE d = fcode % 256 ∧ t.get STG_DIE_STAT.T d = unsg 16 temp ∧
      t.get STG_DIE_MEAS.VIN d = vin % 65536 ∧ t.get STG_DIE_MEAS.IOUT d = iout % 65536 ∧
      tget 0 t.stgMiss d = 0 ∧ tget [] t.stgWait d = l ∧ t.get STG_DIE_STAT.LOST d = s.get STG_DIE_STAT.LOST d ∧
      t.flag STG_DIE_STAT.FAULT d = (fault || s.flag STG_DIE_STAT.FAULT d) ∧
      t.intake = s.intake ++ (if fault = true ∧ s.flag STG_DIE_STAT.FAULT d = false then
        [s.eventOf 0x0E04 0 0 d] else []) ∧
      t.get STG_STAT.READY 0 = maskOf ((List.range 16).filter fun k => t.flag STG_DIE_STAT.READY k) ∧
      t.get STG_SUM.CAP_A 0 =
        (s.dies.filter fun k => t.dieUp k).length * 120000 / (220 + s.get STG_CTL.VIB_SET 0) % 65536 ∧
      SameRegs [STG_DIE_STAT.READY.key d, STG_DIE_STAT.FCODE.key d, STG_DIE_STAT.T.key d, STG_DIE_MEAS.VIN.key d,
        STG_DIE_MEAS.IOUT.key d, STG_DIE_STAT.FAULT.key d, STG_STAT.READY.key 0, STG_STAT.UNAVAIL.key 0, STG_SUM.CAP_A.key 0,
        STG_SUM.DRAW_A.key 0] s t ∧ SamePhases [] s t ∧ SameCrews [] s t ∧ SameMem s t) ∧
  (∀ d k l ready fault fcode vin iout temp (s : State), tget [] s.stgWait d = k :: l → k ≠ 3 →
    Does (exec (.fsAnswer d true ready fault fcode vin iout temp) s) fun t =>
      tget 0 t.stgMiss d = 0 ∧ tget [] t.stgWait d = l ∧ t.intake = s.intake ∧ SameRegs [] s t ∧ SamePhases [] s t ∧
      SameCrews [] s t ∧ SameMem s t) ∧
  (∀ d l ready fcode vin iout temp (s : State), tget [] s.stgWait d = 3 :: l → vin < 400 → d ∉ s.stgLow →
    Does (exec (.fsAnswer d true ready false fcode vin iout temp) s) fun t =>
      t.intake = s.intake ++ [s.eventOf 0x0D06 0 0] ∧ d ∈ t.stgLow) ∧
  (∀ d s, tget [] s.stgWait d ≠ [] → d < 16 → s.room →
    Does (exec (.frameTimeout d) s) (DieMisses STG_ERR.TIMEOUTS STG_ERR.CRC_ERR d s)) ∧
  (∀ d ready fault fcode vin iout temp s, tget [] s.stgWait d ≠ [] → d < 16 → s.room →
    Does (exec (.fsAnswer d false ready fault fcode vin iout temp) s) (DieMisses STG_ERR.CRC_ERR STG_ERR.TIMEOUTS d s)) ∧
  (∀ i d crcOk ready fault fcode vin iout temp (s : State), i = Instr.frameTimeout d ∨
    i = .fsAnswer d crcOk ready fault fcode vin iout temp → tget [] s.stgWait d = [] → exec i s = .next s) ∧
  (∀ m data s, s.Takes m .STG_CTL 0 data → Does (exec (.vibSet m data) s) fun t =>
    t.get STG_CTL.VIB_SET 0 = min 40 (data % 64) ∧
    (if s.flag ID_PWR_CTL.FS_EN 0 = true then t.get STG_CTL.DIE_MASK 0 = s.get STG_CTL.DIE_MASK 0 ∧
        ∀ d ∈ s.dies, 2 ∈ tget [] t.stgCmd d
     else t.get STG_CTL.DIE_MASK 0 = bits data 31 16 ∧ t.stgCmd = s.stgCmd) ∧
    SameRegs [STG_CTL.VIB_SET.key 0, STG_CTL.DIE_MASK.key 0, STG_STAT.READY.key 0, STG_STAT.UNAVAIL.key 0, STG_SUM.CAP_A.key 0,
      STG_SUM.DRAW_A.key 0] s t ∧ SamePhases [] s t ∧ SameCrews [] s t ∧ SameMem s t) ∧
  (∀ s, s.flag ID_PWR_CTL.FS_EN 0 = true → s.vibWas = true → s.flag ID_PWR_STAT.VIB_GOOD 0 = true →
    (∀ c, c < 192 → thas (s.crew c).hHeld 9 = true → s.vibOf c < 22000000) →
    (∃ c, c < 192 ∧ thas (s.crew c).hHeld 9 = true) → Does (exec .vibLost s) fun t =>
      t.get ID_PWR_STAT.VIB_GOOD 0 = 0 ∧ t.intake = s.intake ++ [s.eventOf 0x0E05 0 0] ∧
      SameRegs [ID_PWR_STAT.VIB_GOOD.key 0] s t ∧ SamePhases [] s t ∧ SameCrews [] s t ∧ SameMem s t) ∧
  (∀ (s : State), s.vibWas = false ∨ (∀ c, c < 192 → thas (s.crew c).hHeld 9 = true → 22000000 ≤ s.vibOf c) →
    exec .vibLost s = .next s) ∧
  (∀ n l (s : State), s.notices = n :: l → s.cyc.noticed = false → Does (exec .noticeSend s) fun t =>
    t.noticeOut = some n ∧ t.notices = l ∧ t.now = s.now ∧ t.cyc.noticed = s.cyc.on ∧ SameRegs [] s t ∧
    SamePhases [] s t ∧ SameCrews [] s t ∧ SameMem s t) ∧
  (∀ n l (s : State), s.notices = n :: l → s.cyc.on = true → s.cyc.noticed = true → Does (exec .noticeSend s) fun t =>
    t.noticeOut = some n ∧ t.notices = l ∧ t.now = s.now + 1 ∧ t.cyc.noticed = true ∧ SamePhases [] s t ∧
    SameMem s t) ∧
  (∀ (s : State), s.notices = [] → exec .noticeSend s = .next s) ∧
  (∀ n : Notice, n.kind < 16 → n.cause < 16 → n.scope < 2 → n.index < 32 → ∃ w, n.words.head? = some w ∧ w < 2 ^ 32 ∧
    bits w 31 28 = n.kind ∧ bits w 27 24 = n.cause ∧ bits w 20 20 = n.scope ∧ bits w 4 0 = n.index) ∧
  (∀ (s : State) r, s.Inv → r < 24 → bits s.bandLines (3 * r + 2) (3 * r) = s.get THM_REG.BAND r ∧ s.bandLines < 2 ^ 72 ∧
    (bitAt s.stretchLines r = true ↔ r ∈ s.strReq ∨ s.aligning r = true) ∧ s.rateLine r = s.get MSH_REG_CFG.RATE r)

/-- RegisterAccesses. A taken 32-bit write, here of nine registers that hold RW fields, stores those fields and no others; a read returns the word and clears
RC fields of what it returns, what the cycle itself has added being kept for the next read. An unnamed address inside
a per-instance block reads 0 and ignores writes. A failed access changes nothing: for the management port it answers
an error with data 0 and is counted with its cause and address, for a supervisor context it is an event. Before
release the port answers an error that is not counted; a write of ID_RST_CTL then sets REFUSED. Which cause an access with
more than one has, as TurnsAway fixes it, is assumption log 10's choice. -/
def Obligations.RegisterAccesses : Prop :=
  (∀ r m i v ecc s, r ∈ [Reg.CREW_OVL_CTL, .CREW_SH_CTL, .ID_FLASH_ADDR, .ID_FLASH_MEM, .ID_FLASH_LEN, .LANE_ARG, .ID_MBX_CFG,
      .ID_UOP_LO, .ID_UOP_HI] → s.Takes m r i v → Does (exec (.registerWrite m (r.addr i) 4 v ecc) s) fun t =>
    (∀ f ∈ r.fields, t.get f i = if f.acc = .RW then f.ofWord v else s.get f i) ∧ t.resp = ⟨false, 0⟩ ∧ t.intake = s.intake ∧
    SameRegs (r.fields.map (·.key i)) s t ∧ SamePhases [] s t ∧ SameCrews [] s t ∧ SameMem s t) ∧
  (∀ r m i ecc s, r ≠ .CREW_AB → r ≠ .REC_WIN → s.Reads m r i → Does (exec (.registerRead m (r.addr i) 4 ecc) s) fun t =>
    t.resp = ⟨false, s.regWord r i⟩ ∧ (∀ f ∈ r.fields, f.acc = .RC →
      t.get f i = s.rest f i % 2 ^ f.width) ∧ t.intake = s.intake ∧
    SameRegs ((r.fields.filter fun f => f.acc == .RC).map (·.key i)) s t ∧ SamePhases [] s t ∧ SameCrews [] s t ∧ SameMem s t) ∧
  (∀ c m a v ecc s, c ∈ [Instr.registerWrite m a 4 v ecc, .registerRead m a 4 ecc] → placeAt a = .fixed → isFltEntry a = false →
    a % 4 = 0 → s.closed m = false → s.permitted (masterCode m) a 4 true false = true →
    s.permitted (masterCode m) a 4 false true = true → thas s.hiLatch a = false → Does (exec c s) fun t =>
      t.resp = ⟨false, 0⟩ ∧ t.intake = s.intake ∧ SameRegs [] s t ∧ SamePhases [] s t ∧ SameCrews [] s t ∧ SameMem s t) ∧
  (∀ c wr m a n v ecc cause s, (c, wr) ∈ [(Instr.registerWrite m a n v ecc, true), (.registerRead m a n ecc, false)] →
    isHost m = true → 7 ≤ s.get ID_BOOT_STAT.STEP 0 → s.TurnsAway m a n wr cause → Does (exec c s) fun t =>
      t.resp = ⟨true, 0⟩ ∧ t.get ID_ERR_CNT.COUNT 0 = ID_ERR_CNT.COUNT.count (s.get ID_ERR_CNT.COUNT 0) ∧
      t.get ID_ERR_CNT.CAUSE 0 = cause ∧ t.get ID_ERR_ADDR.ADDR 0 = a % 2 ^ 32 ∧ t.intake = s.intake ∧
      SameRegs [ID_ERR_CNT.COUNT.key 0, ID_ERR_CNT.CAUSE.key 0, ID_ERR_ADDR.ADDR.key 0] s t ∧ SamePhases [] s t ∧
      SameCrews [] s t ∧ SameMem s t) ∧
  (∀ r m i v ecc s, isHost m = true → 7 ≤ s.get ID_BOOT_STAT.STEP 0 → r.placed i → s.hostBars r i = true →
    s.permitted 1 (r.addr i) 4 false true = true → Does (exec (.registerWrite m (r.addr i) 4 v ecc) s) fun t =>
      t.resp = ⟨true, 0⟩ ∧ t.get ID_ERR_CNT.COUNT 0 = ID_ERR_CNT.COUNT.count (s.get ID_ERR_CNT.COUNT 0) ∧
      t.get ID_ERR_CNT.CAUSE 0 = 4 ∧ t.get ID_ERR_ADDR.ADDR 0 = r.addr i ∧ t.intake = s.intake ∧
      SameRegs [ID_ERR_CNT.COUNT.key 0, ID_ERR_CNT.CAUSE.key 0, ID_ERR_ADDR.ADDR.key 0] s t ∧ SamePhases [] s t ∧
      SameCrews [] s t ∧ SameMem s t) ∧
  (∀ c wr k a n v ecc cause s, (c, wr) ∈ [(Instr.registerWrite (.sup k) a n v ecc, true), (.registerRead (.sup k) a n
    ecc, false)] →
    s.TurnsAway (.sup k) a n wr cause → s.room → Does (exec c s) fun t =>
      t.resp = ⟨true, 0⟩ ∧ t.intake = s.intake ++ [s.eventOf 0x0705 4 (8 + k) (s.pc (8 + k) % 2 ^ 32) (a % 2 ^ 32)] ∧
      SameRegs [] s t ∧ SamePhases [] s t ∧ SameCrews [] s t ∧ SameMem s t) ∧
  (∀ c m a n v ecc s, c ∈ [Instr.registerWrite m a n v ecc, .registerRead m a n ecc] → isHost m = true →
    s.get ID_BOOT_STAT.STEP 0 < 7 → Does (exec c s) fun t => t.resp = ⟨true, 0⟩ ∧ t.intake = s.intake ∧
      SameRegs [ID_RST_STAT.REFUSED.key 0] s t ∧
      t.get ID_RST_STAT.REFUSED 0 = (if c = .registerWrite m a n v ecc ∧ a ≤ Reg.ID_RST_CTL.addr 0 ∧
        Reg.ID_RST_CTL.addr 0 < a + n then 1
        else s.get ID_RST_STAT.REFUSED 0) ∧ SamePhases [] s t ∧ SameCrews [] s t ∧ SameMem s t)

/-- MapAndMemories. The map names every instance of every register at the register's own address, but for the registers of
a supervisor block other than LANE_STAT and LANE_SIG; no two instances share an address, none lies in a memory, and
the identification block names nothing past ID_ERR_ADDR. A 64-bit write to coordinator memory stores its eight bytes,
little-endian, and leaves every other byte; a read of a good word of a memory of the map returns its bytes and changes
nothing; so a read behind a write returns what was written, and so does a read of the cycle of the write that goes before
it (assumption log 127's choice of how the sender tells a cycle). A word found uncorrectable fails with cause 5, is counted
with its address and raises an FC1 event. -/
def Obligations.MapAndMemories : Prop :=
  (∀ (r : Reg) i, i < r.info.n1 * r.info.n2 → (r ≠ .LANE_STAT → r ≠ .LANE_SIG → ¬(0x200800 ≤ r.addr i ∧ r.addr i < 0x200C00)) →
    r.placed i) ∧
  (∀ (r q : Reg) i j, r.placed i → q.placed j → r.addr i = q.addr j → r = q ∧ i = j) ∧
  (∀ (r : Reg) i, r.placed i → inMem (r.addr i) = false ∧ r.addr i % 4 = 0 ∧ r.addr i < 0x1000000) ∧
  (∀ a, 0x54 ≤ a → a < 0x10000 → placeAt a = .unnamed) ∧
  (∀ m a v ecc s, s.closed m = false → inCM a = true → a % 8 = 0 → s.permitted (masterCode m) a 8 false true = true →
    s.offline a = false → Does (exec (.registerWrite m a 8 v ecc) s) fun t =>
      (∀ k, k < 8 → mget 0 t.mem (a + k) = BitVec.ofNat 8 (v / 2 ^ (8 * k))) ∧
      (∀ x, ¬(a ≤ x ∧ x < a + 8) → mget 0 t.mem x = mget 0 s.mem x) ∧ t.flash = s.flash ∧ t.resp = ⟨false, 0⟩ ∧
      t.intake = s.intake ∧ SameRegs [] s t ∧ SamePhases [] s t ∧ SameCrews [] s t) ∧
  (∀ m a n s, s.closed m = false → inMem a = true → (n = 4 ∨ n = 8) → a % n = 0 →
    s.permitted (masterCode m) a n true false = true → s.offline a = false → s.goodAt a →
    s.cyc.on = false ∨ s.pending = [] → Does (exec (.registerRead m a n 0) s) fun t =>
      t.resp.err = false ∧ (∀ k, k < n → BitVec.ofNat 8 (t.resp.data / 2 ^ (8 * k)) = mget 0 s.mem (a + k)) ∧
      t.resp.data < 2 ^ (8 * n) ∧ t.mem = s.mem ∧ t.intake = s.intake ∧ SameRegs [] s t ∧ SamePhases [] s t ∧ SameCrews [] s t ∧
      SameMem s t) ∧
  (∀ m q a v ecc s t, s.closed m = false → s.closed q = false → inCM a = true → a % 8 = 0 →
    s.permitted (masterCode m) a 8 false true = true → s.permitted (masterCode q) a 8 true false = true → s.offline a = false →
    s.cyc.on = false ∨ s.pending = [] → exec (.registerWrite m a 8 v ecc) s = .next t →
      Does (exec (.registerRead q a 8 0) t) fun u => u.resp = ⟨false, v % 2 ^ 64⟩) ∧
  (∀ m q a v w ecc l s, s.cyc.on = true → s.pending = .registerWrite q a 8 v w :: l → s.closed m = false → s.closed q = false →
    inCM a = true → a % 8 = 0 → s.permitted (masterCode m) a 8 true false = true →
    s.permitted (masterCode q) a 8 false true = true → s.offline a = false → s.goodAt a → ecc = 0 →
    Does (exec (.registerRead m a 8 ecc) s) fun t => t.resp = ⟨false, v % 2 ^ 64⟩ ∧ t.mem = s.mem) ∧
  (∀ m a s, isHost m = true → 7 ≤ s.get ID_BOOT_STAT.STEP 0 → inCM a = true → a % 8 = 0 →
    s.permitted 1 a 8 true false = true → s.offline a = false → s.room → Does (exec (.registerRead m a 8 2) s) fun t =>
      t.resp = ⟨true, 0⟩ ∧ t.get ID_ERR_CNT.CAUSE 0 = 5 ∧ t.get ID_ECC_ADDR.ADDR 0 = a ∧ a ∈ t.eccBad ∧
      t.get ID_ECC_CNT.UNCORR 0 = ID_ECC_CNT.UNCORR.count (s.get ID_ECC_CNT.UNCORR 0) ∧
      t.intake = s.intake ++ [s.eventOf 0x0C02 0 0 a] ∧ SamePhases [] s t ∧ SameCrews [] s t ∧ SameMem s t)

/-- LockSetting. A write of 1 to SET_LOCK by a supervisor context sets LOCK, which governs the cycles that follow: in the
cycle of the write no field is locked yet, and from the next on the lock is in force. A write of 0 changes nothing. A
management-port write completes with an error response and writes nothing. -/
def Obligations.LockSetting : Prop :=
  (∀ k data s, s.Takes (.sup k) .ID_LOCK 0 data → data % 2 = 1 → s.flag ID_LOCK.LOCK 0 = false →
    Does (exec (.setLock (.sup k) data) s) fun t =>
    t.get ID_LOCK.LOCK 0 = 1 ∧ t.locked = false ∧ (∀ a v, t.violates a v = false) ∧
    (∀ n, s.now < n → State.locked { t with now := n } = true) ∧ t.resp = ⟨false, 0⟩ ∧ SameRegs [ID_LOCK.LOCK.key 0] s t ∧
    SamePhases [] s t ∧ SameCrews [] s t ∧ SameMem s t) ∧
  (∀ k data s, s.Takes (.sup k) .ID_LOCK 0 data → data % 2 = 0 ∨ s.flag ID_LOCK.LOCK 0 = true →
    Does (exec (.setLock (.sup k) data) s) fun t =>
    t.lockAt = s.lockAt ∧ t.resp = ⟨false, 0⟩ ∧ SameRegs [] s t ∧ SamePhases [] s t ∧ SameCrews [] s t ∧ SameMem s t) ∧
  (∀ m data s, isHost m = true → 7 ≤ s.get ID_BOOT_STAT.STEP 0 → s.permitted 1 0x40 4 false true = true →
    Does (exec (.setLock m data) s) fun t => t.resp = ⟨true, 0⟩ ∧ t.get ID_LOCK.LOCK 0 = s.get ID_LOCK.LOCK 0 ∧
      t.lockAt = s.lockAt ∧
      SameRegs [ID_ERR_CNT.COUNT.key 0, ID_ERR_CNT.CAUSE.key 0, ID_ERR_ADDR.ADDR.key 0] s t ∧ SamePhases [] s t ∧
      SameCrews [] s t ∧ SameMem s t)

/-- FrozenFields. While the lock is in force no 32-bit write by any master changes an RWL field, and an injection is
ignored. A write that tries to change one still writes the register's other fields, answers no error, and is counted
once with its master and address; one that writes only the value held is no violation. -/
def Obligations.FrozenFields : Prop :=
  (∀ r m i v ecc s, r ∈ [Reg.CREW_MOD_CTL, .CREW_FSC_CTL, .CAP_LIM, .THM_THRESH1, .THM_RISE, .FLT_CTL, .FLT_INJECT0, .ID_RGN] →
    s.Inv → r.placed i → s.locked = true → Does (exec (.registerWrite m (r.addr i) 4 v ecc) s) fun t =>
      ∀ f ∈ r.fields, f.acc = .RWL → t.get f i = s.get f i) ∧
  (∀ m c v ecc s, s.Inv → c < 192 → s.closed m = false →
    s.permitted (masterCode m) (Reg.CREW_FSC_CTL.addr c) 4 false true = true →
    s.locked = true → Does (exec (.registerWrite m (Reg.CREW_FSC_CTL.addr c) 4 v ecc) s) fun t =>
      t.get CREW_FSC_CTL.LIMIT c = s.get CREW_FSC_CTL.LIMIT c ∧ t.get CREW_FSC_CTL.BLANK c = CREW_FSC_CTL.BLANK.ofWord v ∧
      t.get CREW_FSC_CTL.TRIP_MAX c = min 31 (max 4 (CREW_FSC_CTL.TRIP_MAX.ofWord v)) ∧ t.resp = ⟨false, 0⟩ ∧
      (if CREW_FSC_CTL.LIMIT.ofWord v = s.get CREW_FSC_CTL.LIMIT c then
        t.get ID_LOCK_VIOL.COUNT 0 = s.get ID_LOCK_VIOL.COUNT 0 ∧ t.get ID_LOCK_VIOL.MASTER 0 = s.get ID_LOCK_VIOL.MASTER 0 ∧
        t.get ID_LOCK_ADDR.ADDR 0 = s.get ID_LOCK_ADDR.ADDR 0
      else t.get ID_LOCK_VIOL.COUNT 0 = ID_LOCK_VIOL.COUNT.count (s.get ID_LOCK_VIOL.COUNT 0) ∧
        t.get ID_LOCK_VIOL.MASTER 0 = (if isHost m then 1 else 0) ∧ t.get ID_LOCK_ADDR.ADDR 0 = Reg.CREW_FSC_CTL.addr c) ∧
      SameRegs ([CREW_FSC_CTL.BLANK.key c, CREW_FSC_CTL.TRIP_MAX.key c, ID_LOCK_VIOL.COUNT.key 0, ID_LOCK_VIOL.MASTER.key 0,
        ID_LOCK_ADDR.ADDR.key 0] ++ dropKeys) s t ∧ SamePhases [] s t ∧ SameMem s t) ∧
  (∀ m data s, s.Takes m .FLT_INJECT1 0 data → s.locked = true → Does (exec (.injection m data) s) fun t =>
    t.intake = s.intake ∧ t.fc2 = s.fc2 ∧ SamePhases [] s t ∧ SameCrews [] s t ∧ SameMem s t)

/-- StepRunsFront. A step takes the command at the front of the queue and answers what it does on the state with the
queue's rest; with no command waiting one coordinator cycle passes (the model's choice, assumption logs 1 and 127):
within a tick, with no crossing calibration due, no frame and no trigger waiting, nothing else changes but what the cycle
and its tick found, and 9 µs after host reset was released, 1 µs before XCAL_REQ, every region runs at RATE 16. -/
def Obligations.StepRunsFront : Prop :=
  (∀ c l s, s.pending = c :: l → step s = exec c { s with pending := l }) ∧
  (∀ s, s.pending = [] → step s = .next (idleCycle s) ∧ (idleCycle s).now = s.now + 1 ∧ (idleCycle s).pending = [] ∧
    SamePhases [] s (idleCycle s) ∧ SameMem s (idleCycle s)) ∧
  (∀ s, (s.now + 1 - s.markStart) % 4 ≠ 0 → s.xcalDue = false → s.stgCmd = [] → (∀ c, (s.crew c).trigWait = []) →
    idleCycle s = { s with
      now := s.now + 1
      cyc := { on := true, fld := s.fld, struck := s.cyc.struck,
               tickFld := if s.cyc.on then s.cyc.tickFld else s.fld, tickPh := if s.cyc.on then s.cyc.tickPh else s.phases } }) ∧
  (∀ s, s.xcalDue = true → s.now + 1 = s.hostAt + 4500 →
    (idleCycle s).xcalHold = true ∧ (idleCycle s).strReq = [] ∧ ∀ r, r < 24 → (idleCycle s).get MSH_REG_CFG.RATE r = 16)

/-- ResetInv. The state after reset has the invariant: memories and flash in canonical form, every stored value inside its
field; its queue is empty, and start-up has not begun. -/
def Obligations.ResetInv : Prop :=
  State.reset.Inv ∧ State.reset.pending = [] ∧ State.reset.get ID_BOOT_STAT.STEP 0 = 0

/-- StepKeepsInv. From every state with the invariant a step answers a next state that has it: no command, whatever its
operands, breaks the canonical form of a memory or of the flash, or leaves a register value outside its field. -/
def Obligations.StepKeepsInv : Prop :=
  ∀ s, s.Inv → Does (step s) State.Inv

/-- EveryCommandCompletes. Every command answers a next state in every state, and leaves the queue as it found it: no
ordinary data ends a run. That no command stops is the model's choice (assumption log 4). -/
def Obligations.EveryCommandCompletes : Prop :=
  ∀ c s, Does (exec c s) fun t => t.pending = s.pending
end

