-- ==== Sys2Proof/Laws/Map.lean ====
section
/-! SUPPORT. Where the registers lie: in a block of repeated instances, the address of an instance names that instance
and no other register. -/

namespace Sys2Proof.Machine

open Sys2Proof

/-- The byte after the last instance of a register. -/
def Reg.last (r : Reg) : Nat := r.info.base + (r.info.n2 - 1) * r.info.st2 + r.info.n1 * r.info.st1

/-- Register r lies outside the block of n instances of st bytes from lo on, or repeats with it. -/
def Reg.fits (lo st n : Nat) (r : Reg) : Bool :=
  decide (r.last ≤ lo ∨ lo + st * n ≤ r.info.base ∨
    (lo ≤ r.info.base ∧ r.info.st2 = st ∧ r.info.n2 = n ∧ r.info.base - lo + r.info.n1 * r.info.st1 ≤ st))

theorem Reg.st1_pos (r : Reg) : 0 < r.info.st1 := by cases r <;> decide

theorem Reg.instAt_out {r : Reg} {a : Nat} (h : a < r.info.base ∨ r.last ≤ a) : r.instAt a = none := by
  unfold Reg.instAt
  dsimp only
  split
  · rfl
  · rename_i hb
    rw [if_neg]
    rintro ⟨h1, -, h3⟩
    rcases h with h | h
    · exact hb h
    · have h4 := Nat.div_add_mod (a - r.info.base) r.info.st2
      have h5 : (a - r.info.base) % r.info.st2 < r.info.n1 * r.info.st1 := (Nat.div_lt_iff_lt_mul r.st1_pos).mp h3
      have h6 : (a - r.info.base) / r.info.st2 * r.info.st2 ≤ (r.info.n2 - 1) * r.info.st2 :=
        Nat.mul_le_mul_right _ (by omega)
      rw [Nat.mul_comm] at h4
      unfold Reg.last at h
      omega

/-- In the block, what instance c shows of a register is what the first instance shows, c times n1 further. -/
theorem Reg.instAt_shift {r : Reg} {lo st n c o : Nat} (h : r.fits lo st n) (hc : c < n) (ho : o < st) :
    r.instAt (lo + st * c + o) = (r.instAt (lo + o)).map (· + c * r.info.n1) := by
  simp only [Reg.fits, decide_eq_true_eq] at h
  have hle : st * (c + 1) ≤ st * n := Nat.mul_le_mul_left _ hc
  rw [Nat.mul_add, Nat.mul_one] at hle
  rcases h with h | h | ⟨h1, h2, h3, h4⟩
  · rw [Reg.instAt_out (.inr (by omega)), Reg.instAt_out (.inr (by omega))]; rfl
  · rw [Reg.instAt_out (.inl (by omega)), Reg.instAt_out (.inl (by omega))]; rfl
  · have hst : 0 < st := by omega
    by_cases hob : r.info.base - lo ≤ o
    · have e1 : lo + st * c + o - r.info.base = (o - (r.info.base - lo)) + st * c := by omega
      have e2 : lo + o - r.info.base = o - (r.info.base - lo) := by omega
      have e3 : o - (r.info.base - lo) < st := by omega
      unfold Reg.instAt
      simp only [h2, h3, e1, e2, Nat.add_mul_div_left _ _ hst, Nat.add_mul_mod_self_left, Nat.div_eq_of_lt e3,
        Nat.mod_eq_of_lt e3]
      rw [if_neg (show ¬ lo + st * c + o < r.info.base by omega), if_neg (show ¬ lo + o < r.info.base by omega)]
      simp only [Nat.zero_add, hc, true_and, show 0 < n by omega, Nat.zero_mul]
      split_ifs <;> simp [Nat.add_comm]
    · have e2 : r.instAt (lo + o) = none := Reg.instAt_out (.inl (by omega))
      rw [e2]
      rcases c with _ | c
      · rw [Reg.instAt_out (.inl (by omega))]; rfl
      · have e1 : lo + st * (c + 1) + o - r.info.base = (st + o - (r.info.base - lo)) + st * c := by
          rw [Nat.mul_add, Nat.mul_one]; omega
        have e3 : st + o - (r.info.base - lo) < st := by omega
        unfold Reg.instAt
        simp only [h2, h3, e1, Nat.add_mul_div_left _ _ hst, Nat.add_mul_mod_self_left, Nat.div_eq_of_lt e3,
          Nat.mod_eq_of_lt e3, Option.map_none]
        split
        · rfl
        · rw [if_neg]
          rintro ⟨-, -, h6⟩
          have := (Nat.div_lt_iff_lt_mul r.st1_pos).mp h6
          omega

/-- The register and instance at an address of the block, by those of its first instance. -/
theorem regAt_shift {lo st n c o : Nat} (h : Reg.all.all (Reg.fits lo st n) = true) (hc : c < n) (ho : o < st) :
    regAt (lo + st * c + o) = (regAt (lo + o)).map (fun e => (e.1, e.2 + c * e.1.info.n1)) := by
  unfold regAt
  have h' := List.all_eq_true.mp h
  generalize Reg.all = l at h'
  induction l with
  | nil => rfl
  | cons r t ih =>
    have e := Reg.instAt_shift (h' r (by simp)) hc ho
    simp only [List.findSome?_cons, e]
    cases r.instAt (lo + o) with
    | none => simpa using ih (fun x hx => h' x (by simp [hx]))
    | some i => simp

/-- A register of one instance per block answers in every block at its address (R491). -/
theorem block_placed {r : Reg} {lo st n c : Nat} (hall : Reg.all.all (Reg.fits lo st n) = true) (h0 : r.placed 0)
    (hr : r.info.st2 = st) (h1 : r.info.n1 = 1) (hb : lo ≤ r.info.base ∧ r.info.base < lo + st) (hc : c < n)
    (hs : ¬ (0x200800 ≤ r.addr c ∧ r.addr c < 0x200C00)) : r.placed c := by
  have e : ∀ i, r.addr i = lo + st * i + (r.info.base - lo) := by
    intro i
    simp only [Reg.addr, h1, hr, Nat.div_one, Nat.mod_one]
    rw [Nat.mul_comm i st]
    omega
  have h2 : regAt (r.addr 0) = some (r, 0) := by
    have := h0
    unfold Reg.placed placeAt at this
    split at this
    · rename_i r' i' e'
      split at this
      · cases this
      · cases this; exact e'
    · split at this <;> cases this
  have h3 := regAt_shift hall hc (o := r.info.base - lo) (by omega)
  have h4 : r.addr 0 = lo + (r.info.base - lo) := by rw [e 0]; simp
  rw [← e c, ← h4, h2] at h3
  simp only [Option.map_some, h1, Nat.mul_one, Nat.zero_add] at h3
  unfold Reg.placed placeAt
  rw [h3]
  dsimp only
  rw [if_neg]
  simp only [Bool.and_eq_true, decide_eq_true_eq, not_and]
  intro h
  exact absurd h.1 hs

/-- A register answers at its own addresses where every other register lies outside the range that holds them. -/
theorem range_placed {r : Reg} {i : Nat} (hall : Reg.all.all (fun q => q == r || decide (q.last ≤ r.info.base ∨ r.last ≤ q.info.base)) = true)
    (hr : r ∈ Reg.all) (hn : r.info.n2 = 1) (h2 : r.info.n1 * r.info.st1 ≤ r.info.st2) (hi : i < r.info.n1)
    (hs : ¬ (0x200800 ≤ r.addr i ∧ r.addr i < 0x200C00)) : r.placed i := by
  have hp := r.st1_pos
  have hlt : (i + 1) * r.info.st1 ≤ r.info.n1 * r.info.st1 := Nat.mul_le_mul_right _ hi
  rw [Nat.add_mul, Nat.one_mul] at hlt
  have e : r.addr i = r.info.base + i * r.info.st1 := by
    simp [Reg.addr, Nat.div_eq_of_lt hi, Nat.mod_eq_of_lt hi]
  have e2 : i * r.info.st1 < r.info.st2 := by omega
  have own : r.instAt (r.addr i) = some i := by
    unfold Reg.instAt
    simp only [e, Nat.add_sub_cancel_left, Nat.div_eq_of_lt e2, Nat.mod_eq_of_lt e2, Nat.mul_mod_left, hn,
      Nat.mul_div_cancel _ hp, hi]
    rw [if_neg (by omega)]
    simp
  have other : ∀ q ∈ Reg.all, q ≠ r → q.instAt (r.addr i) = none := by
    intro q hq hne
    have := List.all_eq_true.mp hall q hq
    simp only [Bool.or_eq_true, beq_iff_eq, hne, false_or, decide_eq_true_eq] at this
    refine Reg.instAt_out ?_
    have hl : r.last = r.info.base + r.info.n1 * r.info.st1 := by simp [Reg.last, hn]
    omega
  have h3 : regAt (r.addr i) = some (r, i) := by
    unfold regAt
    generalize Reg.all = l at hr other
    induction l with
    | nil => simp at hr
    | cons q t ih =>
      by_cases hq : q = r
      · subst hq; simp [own]
      · rw [List.findSome?_cons, other q (by simp) hq]
        exact ih (by simpa [Ne.symm hq] using hr) (fun x hx => other x (by simp [hx]))
  unfold Reg.placed placeAt
  rw [h3]
  dsimp only
  rw [if_neg]
  simp only [Bool.and_eq_true, decide_eq_true_eq, not_and]
  intro h
  exact absurd h.1 hs

set_option maxRecDepth 10000 in
/-- Every register lies outside the crew block or repeats with it. -/
theorem crew_block : Reg.all.all (Reg.fits 0x100000 0x1000 192) = true := by decide

/-- A crew register of one instance per crew answers at its address (R88, R117, R145, R175). -/
theorem crew_placed {r : Reg} {c : Nat} (h0 : r.placed 0) (hr : r.info.st2 = 0x1000) (h1 : r.info.n1 = 1)
    (hb : 0x100000 ≤ r.info.base ∧ r.info.base < 0x101000) (hc : c < 192) : r.placed c := by
  refine block_placed crew_block h0 hr h1 hb hc ?_
  simp only [Reg.addr, h1, hr, Nat.div_one, Nat.mod_one]
  omega

end Sys2Proof.Machine
end

