-- ==== Sys2Proof/Laws/Registers.lean ====
section
/-! SUPPORT. The laws of the sparse tables and of the register fields: what a read finds after a write. -/

namespace Sys2Proof.Machine

open Sys2Proof

/-! ## Tables -/

section
variable {α : Type} {d v : α} {t : Tab α} {j k : Nat}

/-- A table read after a write: at the key written the new entry, elsewhere the old. -/
theorem tget_tset : tget d (tset t k v) j = if j = k then v else tget d t j := by
  induction t <;> grind [tset, tget]

@[simp] theorem tget_tset_self : tget d (tset t k v) k = v := by simp [tget_tset]
theorem tget_tset_ne (h : j ≠ k) : tget d (tset t k v) j = tget d t j := by rw [tget_tset, if_neg h]
end

/-! ## Register fields -/

variable {s : State} {f g : Fld} {i j v : Nat} {k k' : FKey} {l : List (FKey × Nat)}

/-- A register file read after a write. -/
theorem flook_fset : flook (fset l k v) k' = if k' = k then some v else flook l k' := by
  induction l with
  | nil => simp only [fset, flook, eq_comm (a := k)]
  | cons e r ih =>
    obtain ⟨q, w⟩ := e
    simp only [fset]
    by_cases h1 : q = k
    · subst h1; by_cases h2 : k' = q
      · simp [flook, h2]
      · simp [flook, h2, Ne.symm h2]
    · rw [if_neg h1]
      by_cases h3 : k' = k
      · subst h3; split <;> simp [flook, h1, ih]
      · split <;> simp [flook, h3, Ne.symm h3, ih]

/-- A field reads as it was last written, cut to its width. -/
@[simp] theorem get_put_self : (s.put f i v).get f i = v % 2 ^ f.width := by simp [State.get, State.put, flook_fset]

/-- A write leaves every other field. -/
theorem get_put_ne (h : f.key i ≠ g.key j) : (s.put g j v).get f i = s.get f i := by
  simp [State.get, State.put, flook_fset, h]

/-- A write leaves the fields of every other register. -/
theorem get_put_reg (h : f.reg ≠ g.reg) : (s.put g j v).get f i = s.get f i :=
  get_put_ne (by simp [Fld.key, h])

/-- A write leaves every other instance. -/
theorem get_put_inst (h : i ≠ j) : (s.put g j v).get f i = s.get f i := get_put_ne (by simp [Fld.key, h])

/-- A write leaves the other fields of its register. -/
theorem get_put_lo (h : f.lo ≠ g.lo) : (s.put g j v).get f i = s.get f i := get_put_ne (by simp [Fld.key, h])

/-- A field reads the same in states of the same register values. -/
theorem get_congr {t : State} (h : t.fld = s.fld) (h' : t.fuse = s.fuse) : t.get f i = s.get f i := by
  simp [State.get, h, h']

end Sys2Proof.Machine
end

