-- ==== Sys2Proof/Laws/State.lean ====
section
/-! SUPPORT. One lemma per state component and named update: every component but the one updated is as before, and a
register field reads the same after an update of anything but the register values. -/

namespace Sys2Proof.Machine

open Sys2Proof

variable (s : State) (f : Fld) (i v c n : Nat) (k : Crew) (ph : Phase) (pl : Plane) (cx : Ctx) (ln : Lane) (sm : Stream)
  (ms : Marshal) (fs : Sensor → Sensor) (fr : Region → Region) (fu : Umpire → Umpire)

@[simp] theorem put_pending : (s.put f i v).pending = s.pending := rfl
@[simp] theorem put_now : (s.put f i v).now = s.now := rfl
@[simp] theorem put_markStart : (s.put f i v).markStart = s.markStart := rfl
@[simp] theorem put_markLen : (s.put f i v).markLen = s.markLen := rfl
@[simp] theorem put_strobe : (s.put f i v).strobe = s.strobe := rfl
@[simp] theorem put_fuse : (s.put f i v).fuse = s.fuse := rfl
@[simp] theorem put_resp : (s.put f i v).resp = s.resp := rfl
@[simp] theorem put_hiLatch : (s.put f i v).hiLatch = s.hiLatch := rfl
@[simp] theorem put_lockAt : (s.put f i v).lockAt = s.lockAt := rfl
@[simp] theorem put_crews : (s.put f i v).crews = s.crews := rfl
@[simp] theorem put_phases : (s.put f i v).phases = s.phases := rfl
@[simp] theorem put_planes : (s.put f i v).planes = s.planes := rfl
@[simp] theorem put_powerQ : (s.put f i v).powerQ = s.powerQ := rfl
@[simp] theorem put_unitPend : (s.put f i v).unitPend = s.unitPend := rfl
@[simp] theorem put_opNext : (s.put f i v).opNext = s.opNext := rfl
@[simp] theorem put_flight : (s.put f i v).flight = s.flight := rfl
@[simp] theorem put_uop : (s.put f i v).uop = s.uop := rfl
@[simp] theorem put_uopWait : (s.put f i v).uopWait = s.uopWait := rfl
@[simp] theorem put_tracks : (s.put f i v).tracks = s.tracks := rfl
@[simp] theorem put_intake : (s.put f i v).intake = s.intake := rfl
@[simp] theorem put_fltHist : (s.put f i v).fltHist = s.fltHist := rfl
@[simp] theorem put_fltFirst : (s.put f i v).fltFirst = s.fltFirst := rfl
@[simp] theorem put_fc2 : (s.put f i v).fc2 = s.fc2 := rfl
@[simp] theorem put_cleared : (s.put f i v).cleared = s.cleared := rfl
@[simp] theorem put_fltInit : (s.put f i v).fltInit = s.fltInit := rfl
@[simp] theorem put_stop : (s.put f i v).stop = s.stop := rfl
@[simp] theorem put_stopIssued : (s.put f i v).stopIssued = s.stopIssued := rfl
@[simp] theorem put_stopDone : (s.put f i v).stopDone = s.stopDone := rfl
@[simp] theorem put_hostReset : (s.put f i v).hostReset = s.hostReset := rfl
@[simp] theorem put_notices : (s.put f i v).notices = s.notices := rfl
@[simp] theorem put_ring : (s.put f i v).ring = s.ring := rfl
@[simp] theorem put_firstArea : (s.put f i v).firstArea = s.firstArea := rfl
@[simp] theorem put_snaps : (s.put f i v).snaps = s.snaps := rfl
@[simp] theorem put_snapDone : (s.put f i v).snapDone = s.snapDone := rfl
@[simp] theorem put_snapCopy : (s.put f i v).snapCopy = s.snapCopy := rfl
@[simp] theorem put_snapData : (s.put f i v).snapData = s.snapData := rfl
@[simp] theorem put_histDue : (s.put f i v).histDue = s.histDue := rfl
@[simp] theorem put_calQ : (s.put f i v).calQ = s.calQ := rfl
@[simp] theorem put_streams : (s.put f i v).streams = s.streams := rfl
@[simp] theorem put_groupMembers : (s.put f i v).groupMembers = s.groupMembers := rfl
@[simp] theorem put_pastLens : (s.put f i v).pastLens = s.pastLens := rfl
@[simp] theorem put_rdtAns : (s.put f i v).rdtAns = s.rdtAns := rfl
@[simp] theorem put_strReq : (s.put f i v).strReq = s.strReq := rfl
@[simp] theorem put_strTarget : (s.put f i v).strTarget = s.strTarget := rfl
@[simp] theorem put_strDroops : (s.put f i v).strDroops = s.strDroops := rfl
@[simp] theorem put_strAligns : (s.put f i v).strAligns = s.strAligns := rfl
@[simp] theorem put_xcalHold : (s.put f i v).xcalHold = s.xcalHold := rfl
@[simp] theorem put_mem : (s.put f i v).mem = s.mem := rfl
@[simp] theorem put_flash : (s.put f i v).flash = s.flash := rfl
@[simp] theorem put_eccBad : (s.put f i v).eccBad = s.eccBad := rfl
@[simp] theorem put_corrMark : (s.put f i v).corrMark = s.corrMark := rfl
@[simp] theorem put_fcHeld : (s.put f i v).fcHeld = s.fcHeld := rfl
@[simp] theorem put_fcPort : (s.put f i v).fcPort = s.fcPort := rfl
@[simp] theorem put_fcLast : (s.put f i v).fcLast = s.fcLast := rfl
@[simp] theorem put_fcOut : (s.put f i v).fcOut = s.fcOut := rfl
@[simp] theorem put_fcRet : (s.put f i v).fcRet = s.fcRet := rfl
@[simp] theorem put_fcReply : (s.put f i v).fcReply = s.fcReply := rfl
@[simp] theorem put_fcArr : (s.put f i v).fcArr = s.fcArr := rfl
@[simp] theorem put_fcEnd : (s.put f i v).fcEnd = s.fcEnd := rfl
@[simp] theorem put_fcUnread : (s.put f i v).fcUnread = s.fcUnread := rfl
@[simp] theorem put_fcDisc : (s.put f i v).fcDisc = s.fcDisc := rfl
@[simp] theorem put_msh : (s.put f i v).msh = s.msh := rfl
@[simp] theorem put_ctxs : (s.put f i v).ctxs = s.ctxs := rfl
@[simp] theorem put_lanes : (s.put f i v).lanes = s.lanes := rfl
@[simp] theorem put_load : (s.put f i v).load = s.load := rfl
@[simp] theorem put_orderly : (s.put f i v).orderly = s.orderly := rfl
@[simp] theorem put_models : (s.put f i v).models = s.models := rfl
@[simp] theorem put_estActive : (s.put f i v).estActive = s.estActive := rfl
@[simp] theorem put_estNew : (s.put f i v).estNew = s.estNew := rfl
@[simp] theorem put_estCheck : (s.put f i v).estCheck = s.estCheck := rfl
@[simp] theorem put_estCounts : (s.put f i v).estCounts = s.estCounts := rfl
@[simp] theorem put_estRaw : (s.put f i v).estRaw = s.estRaw := rfl
@[simp] theorem put_estCal : (s.put f i v).estCal = s.estCal := rfl
@[simp] theorem put_estDivRec : (s.put f i v).estDivRec = s.estDivRec := rfl
@[simp] theorem put_noticeOut : (s.put f i v).noticeOut = s.noticeOut := rfl
@[simp] theorem put_capHist : (s.put f i v).capHist = s.capHist := rfl
@[simp] theorem put_capA : (s.put f i v).capA = s.capA := rfl
@[simp] theorem put_capPass : (s.put f i v).capPass = s.capPass := rfl
@[simp] theorem put_capBoundAt : (s.put f i v).capBoundAt = s.capBoundAt := rfl
@[simp] theorem put_capOverAt : (s.put f i v).capOverAt = s.capOverAt := rfl
@[simp] theorem put_capHigh : (s.put f i v).capHigh = s.capHigh := rfl
@[simp] theorem put_capOver : (s.put f i v).capOver = s.capOver := rfl
@[simp] theorem put_capBound : (s.put f i v).capBound = s.capBound := rfl
@[simp] theorem put_capMinRun : (s.put f i v).capMinRun = s.capMinRun := rfl
@[simp] theorem put_capUp : (s.put f i v).capUp = s.capUp := rfl
@[simp] theorem put_capThr : (s.put f i v).capThr = s.capThr := rfl
@[simp] theorem put_capRel : (s.put f i v).capRel = s.capRel := rfl
@[simp] theorem put_capDem : (s.put f i v).capDem = s.capDem := rfl
@[simp] theorem put_sensors : (s.put f i v).sensors = s.sensors := rfl
@[simp] theorem put_regions : (s.put f i v).regions = s.regions := rfl
@[simp] theorem put_coolantPin : (s.put f i v).coolantPin = s.coolantPin := rfl
@[simp] theorem put_pwrEnPin : (s.put f i v).pwrEnPin = s.pwrEnPin := rfl
@[simp] theorem put_stopDomain : (s.put f i v).stopDomain = s.stopDomain := rfl
@[simp] theorem put_logQ : (s.put f i v).logQ = s.logQ := rfl
@[simp] theorem put_logErase : (s.put f i v).logErase = s.logErase := rfl
@[simp] theorem put_rgtLevels : (s.put f i v).rgtLevels = s.rgtLevels := rfl
@[simp] theorem put_rgtOwn : (s.put f i v).rgtOwn = s.rgtOwn := rfl
@[simp] theorem put_rgtPasses : (s.put f i v).rgtPasses = s.rgtPasses := rfl
@[simp] theorem put_rgtPower : (s.put f i v).rgtPower = s.rgtPower := rfl
@[simp] theorem put_rgtPeriod : (s.put f i v).rgtPeriod = s.rgtPeriod := rfl
@[simp] theorem put_rgtQuiet : (s.put f i v).rgtQuiet = s.rgtQuiet := rfl
@[simp] theorem put_rgtShort : (s.put f i v).rgtShort = s.rgtShort := rfl
@[simp] theorem put_rgtSlack : (s.put f i v).rgtSlack = s.rgtSlack := rfl
@[simp] theorem put_rgtWait : (s.put f i v).rgtWait = s.rgtWait := rfl
@[simp] theorem put_rgtMeas : (s.put f i v).rgtMeas = s.rgtMeas := rfl
@[simp] theorem put_rgtOut : (s.put f i v).rgtOut = s.rgtOut := rfl
@[simp] theorem put_keyHash : (s.put f i v).keyHash = s.keyHash := rfl
@[simp] theorem put_bootIn : (s.put f i v).bootIn = s.bootIn := rfl
@[simp] theorem put_xcalDue : (s.put f i v).xcalDue = s.xcalDue := rfl
@[simp] theorem put_march : (s.put f i v).march = s.march := rfl
@[simp] theorem put_scrubAt : (s.put f i v).scrubAt = s.scrubAt := rfl
@[simp] theorem put_flashOp : (s.put f i v).flashOp = s.flashOp := rfl
@[simp] theorem put_smbOut : (s.put f i v).smbOut = s.smbOut := rfl
@[simp] theorem put_pmbLatch : (s.put f i v).pmbLatch = s.pmbLatch := rfl
@[simp] theorem put_pmbCml : (s.put f i v).pmbCml = s.pmbCml := rfl
@[simp] theorem put_tapInstr : (s.put f i v).tapInstr = s.tapInstr := rfl
@[simp] theorem put_tapScan : (s.put f i v).tapScan = s.tapScan := rfl
@[simp] theorem put_tapOut : (s.put f i v).tapOut = s.tapOut := rfl
@[simp] theorem put_stgMiss : (s.put f i v).stgMiss = s.stgMiss := rfl
@[simp] theorem put_stgLow : (s.put f i v).stgLow = s.stgLow := rfl
@[simp] theorem put_stgWait : (s.put f i v).stgWait = s.stgWait := rfl
@[simp] theorem put_stgCmd : (s.put f i v).stgCmd = s.stgCmd := rfl
@[simp] theorem put_vibWas : (s.put f i v).vibWas = s.vibWas := rfl
@[simp] theorem put_capAllow : (s.put f i v).capAllow = s.capAllow := rfl
@[simp] theorem put_trstPin : (s.put f i v).trstPin = s.trstPin := rfl
@[simp] theorem put_stgOut : (s.put f i v).stgOut = s.stgOut := rfl
@[simp] theorem put_stopStamp : (s.put f i v).stopStamp = s.stopStamp := rfl
@[simp] theorem put_recLap : (s.put f i v).recLap = s.recLap := rfl
@[simp] theorem put_flips : (s.put f i v).flips = s.flips := rfl
@[simp] theorem put_eng : (s.put f i v).eng = s.eng := rfl
@[simp] theorem put_cyc : (s.put f i v).cyc = s.cyc := rfl
@[simp] theorem put_slowSent : (s.put f i v).slowSent = s.slowSent := rfl
@[simp] theorem put_slowAt : (s.put f i v).slowAt = s.slowAt := rfl
@[simp] theorem put_vsbLow : (s.put f i v).vsbLow = s.vsbLow := rfl
@[simp] theorem put_vsbLead : (s.put f i v).vsbLead = s.vsbLead := rfl
@[simp] theorem put_bootAt : (s.put f i v).bootAt = s.bootAt := rfl
@[simp] theorem put_hostAt : (s.put f i v).hostAt = s.hostAt := rfl
@[simp] theorem put_marchAt : (s.put f i v).marchAt = s.marchAt := rfl

@[simp] theorem setCrew_pending : (s.setCrew c k).pending = s.pending := rfl
@[simp] theorem setCrew_now : (s.setCrew c k).now = s.now := rfl
@[simp] theorem setCrew_markStart : (s.setCrew c k).markStart = s.markStart := rfl
@[simp] theorem setCrew_markLen : (s.setCrew c k).markLen = s.markLen := rfl
@[simp] theorem setCrew_strobe : (s.setCrew c k).strobe = s.strobe := rfl
@[simp] theorem setCrew_fld : (s.setCrew c k).fld = s.fld := rfl
@[simp] theorem setCrew_fuse : (s.setCrew c k).fuse = s.fuse := rfl
@[simp] theorem setCrew_resp : (s.setCrew c k).resp = s.resp := rfl
@[simp] theorem setCrew_hiLatch : (s.setCrew c k).hiLatch = s.hiLatch := rfl
@[simp] theorem setCrew_lockAt : (s.setCrew c k).lockAt = s.lockAt := rfl
@[simp] theorem setCrew_phases : (s.setCrew c k).phases = s.phases := rfl
@[simp] theorem setCrew_planes : (s.setCrew c k).planes = s.planes := rfl
@[simp] theorem setCrew_powerQ : (s.setCrew c k).powerQ = s.powerQ := rfl
@[simp] theorem setCrew_unitPend : (s.setCrew c k).unitPend = s.unitPend := rfl
@[simp] theorem setCrew_opNext : (s.setCrew c k).opNext = s.opNext := rfl
@[simp] theorem setCrew_flight : (s.setCrew c k).flight = s.flight := rfl
@[simp] theorem setCrew_uop : (s.setCrew c k).uop = s.uop := rfl
@[simp] theorem setCrew_uopWait : (s.setCrew c k).uopWait = s.uopWait := rfl
@[simp] theorem setCrew_tracks : (s.setCrew c k).tracks = s.tracks := rfl
@[simp] theorem setCrew_intake : (s.setCrew c k).intake = s.intake := rfl
@[simp] theorem setCrew_fltHist : (s.setCrew c k).fltHist = s.fltHist := rfl
@[simp] theorem setCrew_fltFirst : (s.setCrew c k).fltFirst = s.fltFirst := rfl
@[simp] theorem setCrew_fc2 : (s.setCrew c k).fc2 = s.fc2 := rfl
@[simp] theorem setCrew_cleared : (s.setCrew c k).cleared = s.cleared := rfl
@[simp] theorem setCrew_fltInit : (s.setCrew c k).fltInit = s.fltInit := rfl
@[simp] theorem setCrew_stop : (s.setCrew c k).stop = s.stop := rfl
@[simp] theorem setCrew_stopIssued : (s.setCrew c k).stopIssued = s.stopIssued := rfl
@[simp] theorem setCrew_stopDone : (s.setCrew c k).stopDone = s.stopDone := rfl
@[simp] theorem setCrew_hostReset : (s.setCrew c k).hostReset = s.hostReset := rfl
@[simp] theorem setCrew_notices : (s.setCrew c k).notices = s.notices := rfl
@[simp] theorem setCrew_ring : (s.setCrew c k).ring = s.ring := rfl
@[simp] theorem setCrew_firstArea : (s.setCrew c k).firstArea = s.firstArea := rfl
@[simp] theorem setCrew_snaps : (s.setCrew c k).snaps = s.snaps := rfl
@[simp] theorem setCrew_snapDone : (s.setCrew c k).snapDone = s.snapDone := rfl
@[simp] theorem setCrew_snapCopy : (s.setCrew c k).snapCopy = s.snapCopy := rfl
@[simp] theorem setCrew_snapData : (s.setCrew c k).snapData = s.snapData := rfl
@[simp] theorem setCrew_histDue : (s.setCrew c k).histDue = s.histDue := rfl
@[simp] theorem setCrew_calQ : (s.setCrew c k).calQ = s.calQ := rfl
@[simp] theorem setCrew_streams : (s.setCrew c k).streams = s.streams := rfl
@[simp] theorem setCrew_groupMembers : (s.setCrew c k).groupMembers = s.groupMembers := rfl
@[simp] theorem setCrew_pastLens : (s.setCrew c k).pastLens = s.pastLens := rfl
@[simp] theorem setCrew_rdtAns : (s.setCrew c k).rdtAns = s.rdtAns := rfl
@[simp] theorem setCrew_strReq : (s.setCrew c k).strReq = s.strReq := rfl
@[simp] theorem setCrew_strTarget : (s.setCrew c k).strTarget = s.strTarget := rfl
@[simp] theorem setCrew_strDroops : (s.setCrew c k).strDroops = s.strDroops := rfl
@[simp] theorem setCrew_strAligns : (s.setCrew c k).strAligns = s.strAligns := rfl
@[simp] theorem setCrew_xcalHold : (s.setCrew c k).xcalHold = s.xcalHold := rfl
@[simp] theorem setCrew_mem : (s.setCrew c k).mem = s.mem := rfl
@[simp] theorem setCrew_flash : (s.setCrew c k).flash = s.flash := rfl
@[simp] theorem setCrew_eccBad : (s.setCrew c k).eccBad = s.eccBad := rfl
@[simp] theorem setCrew_corrMark : (s.setCrew c k).corrMark = s.corrMark := rfl
@[simp] theorem setCrew_fcHeld : (s.setCrew c k).fcHeld = s.fcHeld := rfl
@[simp] theorem setCrew_fcPort : (s.setCrew c k).fcPort = s.fcPort := rfl
@[simp] theorem setCrew_fcLast : (s.setCrew c k).fcLast = s.fcLast := rfl
@[simp] theorem setCrew_fcOut : (s.setCrew c k).fcOut = s.fcOut := rfl
@[simp] theorem setCrew_fcRet : (s.setCrew c k).fcRet = s.fcRet := rfl
@[simp] theorem setCrew_fcReply : (s.setCrew c k).fcReply = s.fcReply := rfl
@[simp] theorem setCrew_fcArr : (s.setCrew c k).fcArr = s.fcArr := rfl
@[simp] theorem setCrew_fcEnd : (s.setCrew c k).fcEnd = s.fcEnd := rfl
@[simp] theorem setCrew_fcUnread : (s.setCrew c k).fcUnread = s.fcUnread := rfl
@[simp] theorem setCrew_fcDisc : (s.setCrew c k).fcDisc = s.fcDisc := rfl
@[simp] theorem setCrew_msh : (s.setCrew c k).msh = s.msh := rfl
@[simp] theorem setCrew_ctxs : (s.setCrew c k).ctxs = s.ctxs := rfl
@[simp] theorem setCrew_lanes : (s.setCrew c k).lanes = s.lanes := rfl
@[simp] theorem setCrew_load : (s.setCrew c k).load = s.load := rfl
@[simp] theorem setCrew_orderly : (s.setCrew c k).orderly = s.orderly := rfl
@[simp] theorem setCrew_models : (s.setCrew c k).models = s.models := rfl
@[simp] theorem setCrew_estActive : (s.setCrew c k).estActive = s.estActive := rfl
@[simp] theorem setCrew_estNew : (s.setCrew c k).estNew = s.estNew := rfl
@[simp] theorem setCrew_estCheck : (s.setCrew c k).estCheck = s.estCheck := rfl
@[simp] theorem setCrew_estCounts : (s.setCrew c k).estCounts = s.estCounts := rfl
@[simp] theorem setCrew_estRaw : (s.setCrew c k).estRaw = s.estRaw := rfl
@[simp] theorem setCrew_estCal : (s.setCrew c k).estCal = s.estCal := rfl
@[simp] theorem setCrew_estDivRec : (s.setCrew c k).estDivRec = s.estDivRec := rfl
@[simp] theorem setCrew_noticeOut : (s.setCrew c k).noticeOut = s.noticeOut := rfl
@[simp] theorem setCrew_capHist : (s.setCrew c k).capHist = s.capHist := rfl
@[simp] theorem setCrew_capA : (s.setCrew c k).capA = s.capA := rfl
@[simp] theorem setCrew_capPass : (s.setCrew c k).capPass = s.capPass := rfl
@[simp] theorem setCrew_capBoundAt : (s.setCrew c k).capBoundAt = s.capBoundAt := rfl
@[simp] theorem setCrew_capOverAt : (s.setCrew c k).capOverAt = s.capOverAt := rfl
@[simp] theorem setCrew_capHigh : (s.setCrew c k).capHigh = s.capHigh := rfl
@[simp] theorem setCrew_capOver : (s.setCrew c k).capOver = s.capOver := rfl
@[simp] theorem setCrew_capBound : (s.setCrew c k).capBound = s.capBound := rfl
@[simp] theorem setCrew_capMinRun : (s.setCrew c k).capMinRun = s.capMinRun := rfl
@[simp] theorem setCrew_capUp : (s.setCrew c k).capUp = s.capUp := rfl
@[simp] theorem setCrew_capThr : (s.setCrew c k).capThr = s.capThr := rfl
@[simp] theorem setCrew_capRel : (s.setCrew c k).capRel = s.capRel := rfl
@[simp] theorem setCrew_capDem : (s.setCrew c k).capDem = s.capDem := rfl
@[simp] theorem setCrew_sensors : (s.setCrew c k).sensors = s.sensors := rfl
@[simp] theorem setCrew_regions : (s.setCrew c k).regions = s.regions := rfl
@[simp] theorem setCrew_coolantPin : (s.setCrew c k).coolantPin = s.coolantPin := rfl
@[simp] theorem setCrew_pwrEnPin : (s.setCrew c k).pwrEnPin = s.pwrEnPin := rfl
@[simp] theorem setCrew_stopDomain : (s.setCrew c k).stopDomain = s.stopDomain := rfl
@[simp] theorem setCrew_logQ : (s.setCrew c k).logQ = s.logQ := rfl
@[simp] theorem setCrew_logErase : (s.setCrew c k).logErase = s.logErase := rfl
@[simp] theorem setCrew_rgtLevels : (s.setCrew c k).rgtLevels = s.rgtLevels := rfl
@[simp] theorem setCrew_rgtOwn : (s.setCrew c k).rgtOwn = s.rgtOwn := rfl
@[simp] theorem setCrew_rgtPasses : (s.setCrew c k).rgtPasses = s.rgtPasses := rfl
@[simp] theorem setCrew_rgtPower : (s.setCrew c k).rgtPower = s.rgtPower := rfl
@[simp] theorem setCrew_rgtPeriod : (s.setCrew c k).rgtPeriod = s.rgtPeriod := rfl
@[simp] theorem setCrew_rgtQuiet : (s.setCrew c k).rgtQuiet = s.rgtQuiet := rfl
@[simp] theorem setCrew_rgtShort : (s.setCrew c k).rgtShort = s.rgtShort := rfl
@[simp] theorem setCrew_rgtSlack : (s.setCrew c k).rgtSlack = s.rgtSlack := rfl
@[simp] theorem setCrew_rgtWait : (s.setCrew c k).rgtWait = s.rgtWait := rfl
@[simp] theorem setCrew_rgtMeas : (s.setCrew c k).rgtMeas = s.rgtMeas := rfl
@[simp] theorem setCrew_rgtOut : (s.setCrew c k).rgtOut = s.rgtOut := rfl
@[simp] theorem setCrew_keyHash : (s.setCrew c k).keyHash = s.keyHash := rfl
@[simp] theorem setCrew_bootIn : (s.setCrew c k).bootIn = s.bootIn := rfl
@[simp] theorem setCrew_xcalDue : (s.setCrew c k).xcalDue = s.xcalDue := rfl
@[simp] theorem setCrew_march : (s.setCrew c k).march = s.march := rfl
@[simp] theorem setCrew_scrubAt : (s.setCrew c k).scrubAt = s.scrubAt := rfl
@[simp] theorem setCrew_flashOp : (s.setCrew c k).flashOp = s.flashOp := rfl
@[simp] theorem setCrew_smbOut : (s.setCrew c k).smbOut = s.smbOut := rfl
@[simp] theorem setCrew_pmbLatch : (s.setCrew c k).pmbLatch = s.pmbLatch := rfl
@[simp] theorem setCrew_pmbCml : (s.setCrew c k).pmbCml = s.pmbCml := rfl
@[simp] theorem setCrew_tapInstr : (s.setCrew c k).tapInstr = s.tapInstr := rfl
@[simp] theorem setCrew_tapScan : (s.setCrew c k).tapScan = s.tapScan := rfl
@[simp] theorem setCrew_tapOut : (s.setCrew c k).tapOut = s.tapOut := rfl
@[simp] theorem setCrew_stgMiss : (s.setCrew c k).stgMiss = s.stgMiss := rfl
@[simp] theorem setCrew_stgLow : (s.setCrew c k).stgLow = s.stgLow := rfl
@[simp] theorem setCrew_stgWait : (s.setCrew c k).stgWait = s.stgWait := rfl
@[simp] theorem setCrew_stgCmd : (s.setCrew c k).stgCmd = s.stgCmd := rfl
@[simp] theorem setCrew_vibWas : (s.setCrew c k).vibWas = s.vibWas := rfl
@[simp] theorem setCrew_capAllow : (s.setCrew c k).capAllow = s.capAllow := rfl
@[simp] theorem setCrew_trstPin : (s.setCrew c k).trstPin = s.trstPin := rfl
@[simp] theorem setCrew_stgOut : (s.setCrew c k).stgOut = s.stgOut := rfl
@[simp] theorem setCrew_stopStamp : (s.setCrew c k).stopStamp = s.stopStamp := rfl
@[simp] theorem setCrew_recLap : (s.setCrew c k).recLap = s.recLap := rfl
@[simp] theorem setCrew_flips : (s.setCrew c k).flips = s.flips := rfl
@[simp] theorem setCrew_eng : (s.setCrew c k).eng = s.eng := rfl
@[simp] theorem setCrew_cyc : (s.setCrew c k).cyc = s.cyc := rfl
@[simp] theorem setCrew_slowSent : (s.setCrew c k).slowSent = s.slowSent := rfl
@[simp] theorem setCrew_slowAt : (s.setCrew c k).slowAt = s.slowAt := rfl
@[simp] theorem setCrew_vsbLow : (s.setCrew c k).vsbLow = s.vsbLow := rfl
@[simp] theorem setCrew_vsbLead : (s.setCrew c k).vsbLead = s.vsbLead := rfl
@[simp] theorem setCrew_bootAt : (s.setCrew c k).bootAt = s.bootAt := rfl
@[simp] theorem setCrew_hostAt : (s.setCrew c k).hostAt = s.hostAt := rfl
@[simp] theorem setCrew_marchAt : (s.setCrew c k).marchAt = s.marchAt := rfl

@[simp] theorem setPhase_pending : (s.setPhase n ph).pending = s.pending := rfl
@[simp] theorem setPhase_now : (s.setPhase n ph).now = s.now := rfl
@[simp] theorem setPhase_markStart : (s.setPhase n ph).markStart = s.markStart := rfl
@[simp] theorem setPhase_markLen : (s.setPhase n ph).markLen = s.markLen := rfl
@[simp] theorem setPhase_strobe : (s.setPhase n ph).strobe = s.strobe := rfl
@[simp] theorem setPhase_fld : (s.setPhase n ph).fld = s.fld := rfl
@[simp] theorem setPhase_fuse : (s.setPhase n ph).fuse = s.fuse := rfl
@[simp] theorem setPhase_resp : (s.setPhase n ph).resp = s.resp := rfl
@[simp] theorem setPhase_hiLatch : (s.setPhase n ph).hiLatch = s.hiLatch := rfl
@[simp] theorem setPhase_lockAt : (s.setPhase n ph).lockAt = s.lockAt := rfl
@[simp] theorem setPhase_crews : (s.setPhase n ph).crews = s.crews := rfl
@[simp] theorem setPhase_planes : (s.setPhase n ph).planes = s.planes := rfl
@[simp] theorem setPhase_powerQ : (s.setPhase n ph).powerQ = s.powerQ := rfl
@[simp] theorem setPhase_unitPend : (s.setPhase n ph).unitPend = s.unitPend := rfl
@[simp] theorem setPhase_opNext : (s.setPhase n ph).opNext = s.opNext := rfl
@[simp] theorem setPhase_flight : (s.setPhase n ph).flight = s.flight := rfl
@[simp] theorem setPhase_uop : (s.setPhase n ph).uop = s.uop := rfl
@[simp] theorem setPhase_uopWait : (s.setPhase n ph).uopWait = s.uopWait := rfl
@[simp] theorem setPhase_tracks : (s.setPhase n ph).tracks = s.tracks := rfl
@[simp] theorem setPhase_intake : (s.setPhase n ph).intake = s.intake := rfl
@[simp] theorem setPhase_fltHist : (s.setPhase n ph).fltHist = s.fltHist := rfl
@[simp] theorem setPhase_fltFirst : (s.setPhase n ph).fltFirst = s.fltFirst := rfl
@[simp] theorem setPhase_fc2 : (s.setPhase n ph).fc2 = s.fc2 := rfl
@[simp] theorem setPhase_cleared : (s.setPhase n ph).cleared = s.cleared := rfl
@[simp] theorem setPhase_fltInit : (s.setPhase n ph).fltInit = s.fltInit := rfl
@[simp] theorem setPhase_stop : (s.setPhase n ph).stop = s.stop := rfl
@[simp] theorem setPhase_stopIssued : (s.setPhase n ph).stopIssued = s.stopIssued := rfl
@[simp] theorem setPhase_stopDone : (s.setPhase n ph).stopDone = s.stopDone := rfl
@[simp] theorem setPhase_hostReset : (s.setPhase n ph).hostReset = s.hostReset := rfl
@[simp] theorem setPhase_notices : (s.setPhase n ph).notices = s.notices := rfl
@[simp] theorem setPhase_ring : (s.setPhase n ph).ring = s.ring := rfl
@[simp] theorem setPhase_firstArea : (s.setPhase n ph).firstArea = s.firstArea := rfl
@[simp] theorem setPhase_snaps : (s.setPhase n ph).snaps = s.snaps := rfl
@[simp] theorem setPhase_snapDone : (s.setPhase n ph).snapDone = s.snapDone := rfl
@[simp] theorem setPhase_snapCopy : (s.setPhase n ph).snapCopy = s.snapCopy := rfl
@[simp] theorem setPhase_snapData : (s.setPhase n ph).snapData = s.snapData := rfl
@[simp] theorem setPhase_histDue : (s.setPhase n ph).histDue = s.histDue := rfl
@[simp] theorem setPhase_calQ : (s.setPhase n ph).calQ = s.calQ := rfl
@[simp] theorem setPhase_streams : (s.setPhase n ph).streams = s.streams := rfl
@[simp] theorem setPhase_groupMembers : (s.setPhase n ph).groupMembers = s.groupMembers := rfl
@[simp] theorem setPhase_pastLens : (s.setPhase n ph).pastLens = s.pastLens := rfl
@[simp] theorem setPhase_rdtAns : (s.setPhase n ph).rdtAns = s.rdtAns := rfl
@[simp] theorem setPhase_strReq : (s.setPhase n ph).strReq = s.strReq := rfl
@[simp] theorem setPhase_strTarget : (s.setPhase n ph).strTarget = s.strTarget := rfl
@[simp] theorem setPhase_strDroops : (s.setPhase n ph).strDroops = s.strDroops := rfl
@[simp] theorem setPhase_strAligns : (s.setPhase n ph).strAligns = s.strAligns := rfl
@[simp] theorem setPhase_xcalHold : (s.setPhase n ph).xcalHold = s.xcalHold := rfl
@[simp] theorem setPhase_mem : (s.setPhase n ph).mem = s.mem := rfl
@[simp] theorem setPhase_flash : (s.setPhase n ph).flash = s.flash := rfl
@[simp] theorem setPhase_eccBad : (s.setPhase n ph).eccBad = s.eccBad := rfl
@[simp] theorem setPhase_corrMark : (s.setPhase n ph).corrMark = s.corrMark := rfl
@[simp] theorem setPhase_fcHeld : (s.setPhase n ph).fcHeld = s.fcHeld := rfl
@[simp] theorem setPhase_fcPort : (s.setPhase n ph).fcPort = s.fcPort := rfl
@[simp] theorem setPhase_fcLast : (s.setPhase n ph).fcLast = s.fcLast := rfl
@[simp] theorem setPhase_fcOut : (s.setPhase n ph).fcOut = s.fcOut := rfl
@[simp] theorem setPhase_fcRet : (s.setPhase n ph).fcRet = s.fcRet := rfl
@[simp] theorem setPhase_fcReply : (s.setPhase n ph).fcReply = s.fcReply := rfl
@[simp] theorem setPhase_fcArr : (s.setPhase n ph).fcArr = s.fcArr := rfl
@[simp] theorem setPhase_fcEnd : (s.setPhase n ph).fcEnd = s.fcEnd := rfl
@[simp] theorem setPhase_fcUnread : (s.setPhase n ph).fcUnread = s.fcUnread := rfl
@[simp] theorem setPhase_fcDisc : (s.setPhase n ph).fcDisc = s.fcDisc := rfl
@[simp] theorem setPhase_msh : (s.setPhase n ph).msh = s.msh := rfl
@[simp] theorem setPhase_ctxs : (s.setPhase n ph).ctxs = s.ctxs := rfl
@[simp] theorem setPhase_lanes : (s.setPhase n ph).lanes = s.lanes := rfl
@[simp] theorem setPhase_load : (s.setPhase n ph).load = s.load := rfl
@[simp] theorem setPhase_orderly : (s.setPhase n ph).orderly = s.orderly := rfl
@[simp] theorem setPhase_models : (s.setPhase n ph).models = s.models := rfl
@[simp] theorem setPhase_estActive : (s.setPhase n ph).estActive = s.estActive := rfl
@[simp] theorem setPhase_estNew : (s.setPhase n ph).estNew = s.estNew := rfl
@[simp] theorem setPhase_estCheck : (s.setPhase n ph).estCheck = s.estCheck := rfl
@[simp] theorem setPhase_estCounts : (s.setPhase n ph).estCounts = s.estCounts := rfl
@[simp] theorem setPhase_estRaw : (s.setPhase n ph).estRaw = s.estRaw := rfl
@[simp] theorem setPhase_estCal : (s.setPhase n ph).estCal = s.estCal := rfl
@[simp] theorem setPhase_estDivRec : (s.setPhase n ph).estDivRec = s.estDivRec := rfl
@[simp] theorem setPhase_noticeOut : (s.setPhase n ph).noticeOut = s.noticeOut := rfl
@[simp] theorem setPhase_capHist : (s.setPhase n ph).capHist = s.capHist := rfl
@[simp] theorem setPhase_capA : (s.setPhase n ph).capA = s.capA := rfl
@[simp] theorem setPhase_capPass : (s.setPhase n ph).capPass = s.capPass := rfl
@[simp] theorem setPhase_capBoundAt : (s.setPhase n ph).capBoundAt = s.capBoundAt := rfl
@[simp] theorem setPhase_capOverAt : (s.setPhase n ph).capOverAt = s.capOverAt := rfl
@[simp] theorem setPhase_capHigh : (s.setPhase n ph).capHigh = s.capHigh := rfl
@[simp] theorem setPhase_capOver : (s.setPhase n ph).capOver = s.capOver := rfl
@[simp] theorem setPhase_capBound : (s.setPhase n ph).capBound = s.capBound := rfl
@[simp] theorem setPhase_capMinRun : (s.setPhase n ph).capMinRun = s.capMinRun := rfl
@[simp] theorem setPhase_capUp : (s.setPhase n ph).capUp = s.capUp := rfl
@[simp] theorem setPhase_capThr : (s.setPhase n ph).capThr = s.capThr := rfl
@[simp] theorem setPhase_capRel : (s.setPhase n ph).capRel = s.capRel := rfl
@[simp] theorem setPhase_capDem : (s.setPhase n ph).capDem = s.capDem := rfl
@[simp] theorem setPhase_sensors : (s.setPhase n ph).sensors = s.sensors := rfl
@[simp] theorem setPhase_regions : (s.setPhase n ph).regions = s.regions := rfl
@[simp] theorem setPhase_coolantPin : (s.setPhase n ph).coolantPin = s.coolantPin := rfl
@[simp] theorem setPhase_pwrEnPin : (s.setPhase n ph).pwrEnPin = s.pwrEnPin := rfl
@[simp] theorem setPhase_stopDomain : (s.setPhase n ph).stopDomain = s.stopDomain := rfl
@[simp] theorem setPhase_logQ : (s.setPhase n ph).logQ = s.logQ := rfl
@[simp] theorem setPhase_logErase : (s.setPhase n ph).logErase = s.logErase := rfl
@[simp] theorem setPhase_rgtLevels : (s.setPhase n ph).rgtLevels = s.rgtLevels := rfl
@[simp] theorem setPhase_rgtOwn : (s.setPhase n ph).rgtOwn = s.rgtOwn := rfl
@[simp] theorem setPhase_rgtPasses : (s.setPhase n ph).rgtPasses = s.rgtPasses := rfl
@[simp] theorem setPhase_rgtPower : (s.setPhase n ph).rgtPower = s.rgtPower := rfl
@[simp] theorem setPhase_rgtPeriod : (s.setPhase n ph).rgtPeriod = s.rgtPeriod := rfl
@[simp] theorem setPhase_rgtQuiet : (s.setPhase n ph).rgtQuiet = s.rgtQuiet := rfl
@[simp] theorem setPhase_rgtShort : (s.setPhase n ph).rgtShort = s.rgtShort := rfl
@[simp] theorem setPhase_rgtSlack : (s.setPhase n ph).rgtSlack = s.rgtSlack := rfl
@[simp] theorem setPhase_rgtWait : (s.setPhase n ph).rgtWait = s.rgtWait := rfl
@[simp] theorem setPhase_rgtMeas : (s.setPhase n ph).rgtMeas = s.rgtMeas := rfl
@[simp] theorem setPhase_rgtOut : (s.setPhase n ph).rgtOut = s.rgtOut := rfl
@[simp] theorem setPhase_keyHash : (s.setPhase n ph).keyHash = s.keyHash := rfl
@[simp] theorem setPhase_bootIn : (s.setPhase n ph).bootIn = s.bootIn := rfl
@[simp] theorem setPhase_xcalDue : (s.setPhase n ph).xcalDue = s.xcalDue := rfl
@[simp] theorem setPhase_march : (s.setPhase n ph).march = s.march := rfl
@[simp] theorem setPhase_scrubAt : (s.setPhase n ph).scrubAt = s.scrubAt := rfl
@[simp] theorem setPhase_flashOp : (s.setPhase n ph).flashOp = s.flashOp := rfl
@[simp] theorem setPhase_smbOut : (s.setPhase n ph).smbOut = s.smbOut := rfl
@[simp] theorem setPhase_pmbLatch : (s.setPhase n ph).pmbLatch = s.pmbLatch := rfl
@[simp] theorem setPhase_pmbCml : (s.setPhase n ph).pmbCml = s.pmbCml := rfl
@[simp] theorem setPhase_tapInstr : (s.setPhase n ph).tapInstr = s.tapInstr := rfl
@[simp] theorem setPhase_tapScan : (s.setPhase n ph).tapScan = s.tapScan := rfl
@[simp] theorem setPhase_tapOut : (s.setPhase n ph).tapOut = s.tapOut := rfl
@[simp] theorem setPhase_stgMiss : (s.setPhase n ph).stgMiss = s.stgMiss := rfl
@[simp] theorem setPhase_stgLow : (s.setPhase n ph).stgLow = s.stgLow := rfl
@[simp] theorem setPhase_stgWait : (s.setPhase n ph).stgWait = s.stgWait := rfl
@[simp] theorem setPhase_stgCmd : (s.setPhase n ph).stgCmd = s.stgCmd := rfl
@[simp] theorem setPhase_vibWas : (s.setPhase n ph).vibWas = s.vibWas := rfl
@[simp] theorem setPhase_capAllow : (s.setPhase n ph).capAllow = s.capAllow := rfl
@[simp] theorem setPhase_trstPin : (s.setPhase n ph).trstPin = s.trstPin := rfl
@[simp] theorem setPhase_stgOut : (s.setPhase n ph).stgOut = s.stgOut := rfl
@[simp] theorem setPhase_stopStamp : (s.setPhase n ph).stopStamp = s.stopStamp := rfl
@[simp] theorem setPhase_recLap : (s.setPhase n ph).recLap = s.recLap := rfl
@[simp] theorem setPhase_flips : (s.setPhase n ph).flips = s.flips := rfl
@[simp] theorem setPhase_eng : (s.setPhase n ph).eng = s.eng := rfl
@[simp] theorem setPhase_cyc : (s.setPhase n ph).cyc = s.cyc := rfl
@[simp] theorem setPhase_slowSent : (s.setPhase n ph).slowSent = s.slowSent := rfl
@[simp] theorem setPhase_slowAt : (s.setPhase n ph).slowAt = s.slowAt := rfl
@[simp] theorem setPhase_vsbLow : (s.setPhase n ph).vsbLow = s.vsbLow := rfl
@[simp] theorem setPhase_vsbLead : (s.setPhase n ph).vsbLead = s.vsbLead := rfl
@[simp] theorem setPhase_bootAt : (s.setPhase n ph).bootAt = s.bootAt := rfl
@[simp] theorem setPhase_hostAt : (s.setPhase n ph).hostAt = s.hostAt := rfl
@[simp] theorem setPhase_marchAt : (s.setPhase n ph).marchAt = s.marchAt := rfl

@[simp] theorem setPlane_pending : (s.setPlane n pl).pending = s.pending := rfl
@[simp] theorem setPlane_now : (s.setPlane n pl).now = s.now := rfl
@[simp] theorem setPlane_markStart : (s.setPlane n pl).markStart = s.markStart := rfl
@[simp] theorem setPlane_markLen : (s.setPlane n pl).markLen = s.markLen := rfl
@[simp] theorem setPlane_strobe : (s.setPlane n pl).strobe = s.strobe := rfl
@[simp] theorem setPlane_fld : (s.setPlane n pl).fld = s.fld := rfl
@[simp] theorem setPlane_fuse : (s.setPlane n pl).fuse = s.fuse := rfl
@[simp] theorem setPlane_resp : (s.setPlane n pl).resp = s.resp := rfl
@[simp] theorem setPlane_hiLatch : (s.setPlane n pl).hiLatch = s.hiLatch := rfl
@[simp] theorem setPlane_lockAt : (s.setPlane n pl).lockAt = s.lockAt := rfl
@[simp] theorem setPlane_crews : (s.setPlane n pl).crews = s.crews := rfl
@[simp] theorem setPlane_phases : (s.setPlane n pl).phases = s.phases := rfl
@[simp] theorem setPlane_powerQ : (s.setPlane n pl).powerQ = s.powerQ := rfl
@[simp] theorem setPlane_unitPend : (s.setPlane n pl).unitPend = s.unitPend := rfl
@[simp] theorem setPlane_opNext : (s.setPlane n pl).opNext = s.opNext := rfl
@[simp] theorem setPlane_flight : (s.setPlane n pl).flight = s.flight := rfl
@[simp] theorem setPlane_uop : (s.setPlane n pl).uop = s.uop := rfl
@[simp] theorem setPlane_uopWait : (s.setPlane n pl).uopWait = s.uopWait := rfl
@[simp] theorem setPlane_tracks : (s.setPlane n pl).tracks = s.tracks := rfl
@[simp] theorem setPlane_intake : (s.setPlane n pl).intake = s.intake := rfl
@[simp] theorem setPlane_fltHist : (s.setPlane n pl).fltHist = s.fltHist := rfl
@[simp] theorem setPlane_fltFirst : (s.setPlane n pl).fltFirst = s.fltFirst := rfl
@[simp] theorem setPlane_fc2 : (s.setPlane n pl).fc2 = s.fc2 := rfl
@[simp] theorem setPlane_cleared : (s.setPlane n pl).cleared = s.cleared := rfl
@[simp] theorem setPlane_fltInit : (s.setPlane n pl).fltInit = s.fltInit := rfl
@[simp] theorem setPlane_stop : (s.setPlane n pl).stop = s.stop := rfl
@[simp] theorem setPlane_stopIssued : (s.setPlane n pl).stopIssued = s.stopIssued := rfl
@[simp] theorem setPlane_stopDone : (s.setPlane n pl).stopDone = s.stopDone := rfl
@[simp] theorem setPlane_hostReset : (s.setPlane n pl).hostReset = s.hostReset := rfl
@[simp] theorem setPlane_notices : (s.setPlane n pl).notices = s.notices := rfl
@[simp] theorem setPlane_ring : (s.setPlane n pl).ring = s.ring := rfl
@[simp] theorem setPlane_firstArea : (s.setPlane n pl).firstArea = s.firstArea := rfl
@[simp] theorem setPlane_snaps : (s.setPlane n pl).snaps = s.snaps := rfl
@[simp] theorem setPlane_snapDone : (s.setPlane n pl).snapDone = s.snapDone := rfl
@[simp] theorem setPlane_snapCopy : (s.setPlane n pl).snapCopy = s.snapCopy := rfl
@[simp] theorem setPlane_snapData : (s.setPlane n pl).snapData = s.snapData := rfl
@[simp] theorem setPlane_histDue : (s.setPlane n pl).histDue = s.histDue := rfl
@[simp] theorem setPlane_calQ : (s.setPlane n pl).calQ = s.calQ := rfl
@[simp] theorem setPlane_streams : (s.setPlane n pl).streams = s.streams := rfl
@[simp] theorem setPlane_groupMembers : (s.setPlane n pl).groupMembers = s.groupMembers := rfl
@[simp] theorem setPlane_pastLens : (s.setPlane n pl).pastLens = s.pastLens := rfl
@[simp] theorem setPlane_rdtAns : (s.setPlane n pl).rdtAns = s.rdtAns := rfl
@[simp] theorem setPlane_strReq : (s.setPlane n pl).strReq = s.strReq := rfl
@[simp] theorem setPlane_strTarget : (s.setPlane n pl).strTarget = s.strTarget := rfl
@[simp] theorem setPlane_strDroops : (s.setPlane n pl).strDroops = s.strDroops := rfl
@[simp] theorem setPlane_strAligns : (s.setPlane n pl).strAligns = s.strAligns := rfl
@[simp] theorem setPlane_xcalHold : (s.setPlane n pl).xcalHold = s.xcalHold := rfl
@[simp] theorem setPlane_mem : (s.setPlane n pl).mem = s.mem := rfl
@[simp] theorem setPlane_flash : (s.setPlane n pl).flash = s.flash := rfl
@[simp] theorem setPlane_eccBad : (s.setPlane n pl).eccBad = s.eccBad := rfl
@[simp] theorem setPlane_corrMark : (s.setPlane n pl).corrMark = s.corrMark := rfl
@[simp] theorem setPlane_fcHeld : (s.setPlane n pl).fcHeld = s.fcHeld := rfl
@[simp] theorem setPlane_fcPort : (s.setPlane n pl).fcPort = s.fcPort := rfl
@[simp] theorem setPlane_fcLast : (s.setPlane n pl).fcLast = s.fcLast := rfl
@[simp] theorem setPlane_fcOut : (s.setPlane n pl).fcOut = s.fcOut := rfl
@[simp] theorem setPlane_fcRet : (s.setPlane n pl).fcRet = s.fcRet := rfl
@[simp] theorem setPlane_fcReply : (s.setPlane n pl).fcReply = s.fcReply := rfl
@[simp] theorem setPlane_fcArr : (s.setPlane n pl).fcArr = s.fcArr := rfl
@[simp] theorem setPlane_fcEnd : (s.setPlane n pl).fcEnd = s.fcEnd := rfl
@[simp] theorem setPlane_fcUnread : (s.setPlane n pl).fcUnread = s.fcUnread := rfl
@[simp] theorem setPlane_fcDisc : (s.setPlane n pl).fcDisc = s.fcDisc := rfl
@[simp] theorem setPlane_msh : (s.setPlane n pl).msh = s.msh := rfl
@[simp] theorem setPlane_ctxs : (s.setPlane n pl).ctxs = s.ctxs := rfl
@[simp] theorem setPlane_lanes : (s.setPlane n pl).lanes = s.lanes := rfl
@[simp] theorem setPlane_load : (s.setPlane n pl).load = s.load := rfl
@[simp] theorem setPlane_orderly : (s.setPlane n pl).orderly = s.orderly := rfl
@[simp] theorem setPlane_models : (s.setPlane n pl).models = s.models := rfl
@[simp] theorem setPlane_estActive : (s.setPlane n pl).estActive = s.estActive := rfl
@[simp] theorem setPlane_estNew : (s.setPlane n pl).estNew = s.estNew := rfl
@[simp] theorem setPlane_estCheck : (s.setPlane n pl).estCheck = s.estCheck := rfl
@[simp] theorem setPlane_estCounts : (s.setPlane n pl).estCounts = s.estCounts := rfl
@[simp] theorem setPlane_estRaw : (s.setPlane n pl).estRaw = s.estRaw := rfl
@[simp] theorem setPlane_estCal : (s.setPlane n pl).estCal = s.estCal := rfl
@[simp] theorem setPlane_estDivRec : (s.setPlane n pl).estDivRec = s.estDivRec := rfl
@[simp] theorem setPlane_noticeOut : (s.setPlane n pl).noticeOut = s.noticeOut := rfl
@[simp] theorem setPlane_capHist : (s.setPlane n pl).capHist = s.capHist := rfl
@[simp] theorem setPlane_capA : (s.setPlane n pl).capA = s.capA := rfl
@[simp] theorem setPlane_capPass : (s.setPlane n pl).capPass = s.capPass := rfl
@[simp] theorem setPlane_capBoundAt : (s.setPlane n pl).capBoundAt = s.capBoundAt := rfl
@[simp] theorem setPlane_capOverAt : (s.setPlane n pl).capOverAt = s.capOverAt := rfl
@[simp] theorem setPlane_capHigh : (s.setPlane n pl).capHigh = s.capHigh := rfl
@[simp] theorem setPlane_capOver : (s.setPlane n pl).capOver = s.capOver := rfl
@[simp] theorem setPlane_capBound : (s.setPlane n pl).capBound = s.capBound := rfl
@[simp] theorem setPlane_capMinRun : (s.setPlane n pl).capMinRun = s.capMinRun := rfl
@[simp] theorem setPlane_capUp : (s.setPlane n pl).capUp = s.capUp := rfl
@[simp] theorem setPlane_capThr : (s.setPlane n pl).capThr = s.capThr := rfl
@[simp] theorem setPlane_capRel : (s.setPlane n pl).capRel = s.capRel := rfl
@[simp] theorem setPlane_capDem : (s.setPlane n pl).capDem = s.capDem := rfl
@[simp] theorem setPlane_sensors : (s.setPlane n pl).sensors = s.sensors := rfl
@[simp] theorem setPlane_regions : (s.setPlane n pl).regions = s.regions := rfl
@[simp] theorem setPlane_coolantPin : (s.setPlane n pl).coolantPin = s.coolantPin := rfl
@[simp] theorem setPlane_pwrEnPin : (s.setPlane n pl).pwrEnPin = s.pwrEnPin := rfl
@[simp] theorem setPlane_stopDomain : (s.setPlane n pl).stopDomain = s.stopDomain := rfl
@[simp] theorem setPlane_logQ : (s.setPlane n pl).logQ = s.logQ := rfl
@[simp] theorem setPlane_logErase : (s.setPlane n pl).logErase = s.logErase := rfl
@[simp] theorem setPlane_rgtLevels : (s.setPlane n pl).rgtLevels = s.rgtLevels := rfl
@[simp] theorem setPlane_rgtOwn : (s.setPlane n pl).rgtOwn = s.rgtOwn := rfl
@[simp] theorem setPlane_rgtPasses : (s.setPlane n pl).rgtPasses = s.rgtPasses := rfl
@[simp] theorem setPlane_rgtPower : (s.setPlane n pl).rgtPower = s.rgtPower := rfl
@[simp] theorem setPlane_rgtPeriod : (s.setPlane n pl).rgtPeriod = s.rgtPeriod := rfl
@[simp] theorem setPlane_rgtQuiet : (s.setPlane n pl).rgtQuiet = s.rgtQuiet := rfl
@[simp] theorem setPlane_rgtShort : (s.setPlane n pl).rgtShort = s.rgtShort := rfl
@[simp] theorem setPlane_rgtSlack : (s.setPlane n pl).rgtSlack = s.rgtSlack := rfl
@[simp] theorem setPlane_rgtWait : (s.setPlane n pl).rgtWait = s.rgtWait := rfl
@[simp] theorem setPlane_rgtMeas : (s.setPlane n pl).rgtMeas = s.rgtMeas := rfl
@[simp] theorem setPlane_rgtOut : (s.setPlane n pl).rgtOut = s.rgtOut := rfl
@[simp] theorem setPlane_keyHash : (s.setPlane n pl).keyHash = s.keyHash := rfl
@[simp] theorem setPlane_bootIn : (s.setPlane n pl).bootIn = s.bootIn := rfl
@[simp] theorem setPlane_xcalDue : (s.setPlane n pl).xcalDue = s.xcalDue := rfl
@[simp] theorem setPlane_march : (s.setPlane n pl).march = s.march := rfl
@[simp] theorem setPlane_scrubAt : (s.setPlane n pl).scrubAt = s.scrubAt := rfl
@[simp] theorem setPlane_flashOp : (s.setPlane n pl).flashOp = s.flashOp := rfl
@[simp] theorem setPlane_smbOut : (s.setPlane n pl).smbOut = s.smbOut := rfl
@[simp] theorem setPlane_pmbLatch : (s.setPlane n pl).pmbLatch = s.pmbLatch := rfl
@[simp] theorem setPlane_pmbCml : (s.setPlane n pl).pmbCml = s.pmbCml := rfl
@[simp] theorem setPlane_tapInstr : (s.setPlane n pl).tapInstr = s.tapInstr := rfl
@[simp] theorem setPlane_tapScan : (s.setPlane n pl).tapScan = s.tapScan := rfl
@[simp] theorem setPlane_tapOut : (s.setPlane n pl).tapOut = s.tapOut := rfl
@[simp] theorem setPlane_stgMiss : (s.setPlane n pl).stgMiss = s.stgMiss := rfl
@[simp] theorem setPlane_stgLow : (s.setPlane n pl).stgLow = s.stgLow := rfl
@[simp] theorem setPlane_stgWait : (s.setPlane n pl).stgWait = s.stgWait := rfl
@[simp] theorem setPlane_stgCmd : (s.setPlane n pl).stgCmd = s.stgCmd := rfl
@[simp] theorem setPlane_vibWas : (s.setPlane n pl).vibWas = s.vibWas := rfl
@[simp] theorem setPlane_capAllow : (s.setPlane n pl).capAllow = s.capAllow := rfl
@[simp] theorem setPlane_trstPin : (s.setPlane n pl).trstPin = s.trstPin := rfl
@[simp] theorem setPlane_stgOut : (s.setPlane n pl).stgOut = s.stgOut := rfl
@[simp] theorem setPlane_stopStamp : (s.setPlane n pl).stopStamp = s.stopStamp := rfl
@[simp] theorem setPlane_recLap : (s.setPlane n pl).recLap = s.recLap := rfl
@[simp] theorem setPlane_flips : (s.setPlane n pl).flips = s.flips := rfl
@[simp] theorem setPlane_eng : (s.setPlane n pl).eng = s.eng := rfl
@[simp] theorem setPlane_cyc : (s.setPlane n pl).cyc = s.cyc := rfl
@[simp] theorem setPlane_slowSent : (s.setPlane n pl).slowSent = s.slowSent := rfl
@[simp] theorem setPlane_slowAt : (s.setPlane n pl).slowAt = s.slowAt := rfl
@[simp] theorem setPlane_vsbLow : (s.setPlane n pl).vsbLow = s.vsbLow := rfl
@[simp] theorem setPlane_vsbLead : (s.setPlane n pl).vsbLead = s.vsbLead := rfl
@[simp] theorem setPlane_bootAt : (s.setPlane n pl).bootAt = s.bootAt := rfl
@[simp] theorem setPlane_hostAt : (s.setPlane n pl).hostAt = s.hostAt := rfl
@[simp] theorem setPlane_marchAt : (s.setPlane n pl).marchAt = s.marchAt := rfl

@[simp] theorem setCtx_pending : (s.setCtx n cx).pending = s.pending := rfl
@[simp] theorem setCtx_now : (s.setCtx n cx).now = s.now := rfl
@[simp] theorem setCtx_fld : (s.setCtx n cx).fld = s.fld := rfl
@[simp] theorem setCtx_fuse : (s.setCtx n cx).fuse = s.fuse := rfl
@[simp] theorem setCtx_resp : (s.setCtx n cx).resp = s.resp := rfl
@[simp] theorem setCtx_crews : (s.setCtx n cx).crews = s.crews := rfl
@[simp] theorem setCtx_phases : (s.setCtx n cx).phases = s.phases := rfl
@[simp] theorem setCtx_planes : (s.setCtx n cx).planes = s.planes := rfl
@[simp] theorem setCtx_intake : (s.setCtx n cx).intake = s.intake := rfl
@[simp] theorem setCtx_mem : (s.setCtx n cx).mem = s.mem := rfl
@[simp] theorem setCtx_flash : (s.setCtx n cx).flash = s.flash := rfl
@[simp] theorem setCtx_lanes : (s.setCtx n cx).lanes = s.lanes := rfl
@[simp] theorem setCtx_streams : (s.setCtx n cx).streams = s.streams := rfl
@[simp] theorem setCtx_msh : (s.setCtx n cx).msh = s.msh := rfl
@[simp] theorem setCtx_sensors : (s.setCtx n cx).sensors = s.sensors := rfl
@[simp] theorem setCtx_regions : (s.setCtx n cx).regions = s.regions := rfl
@[simp] theorem setCtx_rgtLevels : (s.setCtx n cx).rgtLevels = s.rgtLevels := rfl
@[simp] theorem setCtx_markStart : (s.setCtx n cx).markStart = s.markStart := rfl
@[simp] theorem setCtx_markLen : (s.setCtx n cx).markLen = s.markLen := rfl
@[simp] theorem setCtx_notices : (s.setCtx n cx).notices = s.notices := rfl
@[simp] theorem setCtx_fc2 : (s.setCtx n cx).fc2 = s.fc2 := rfl
@[simp] theorem setCtx_ring : (s.setCtx n cx).ring = s.ring := rfl

@[simp] theorem setLane_pending : (s.setLane n ln).pending = s.pending := rfl
@[simp] theorem setLane_now : (s.setLane n ln).now = s.now := rfl
@[simp] theorem setLane_fld : (s.setLane n ln).fld = s.fld := rfl
@[simp] theorem setLane_fuse : (s.setLane n ln).fuse = s.fuse := rfl
@[simp] theorem setLane_resp : (s.setLane n ln).resp = s.resp := rfl
@[simp] theorem setLane_crews : (s.setLane n ln).crews = s.crews := rfl
@[simp] theorem setLane_phases : (s.setLane n ln).phases = s.phases := rfl
@[simp] theorem setLane_planes : (s.setLane n ln).planes = s.planes := rfl
@[simp] theorem setLane_intake : (s.setLane n ln).intake = s.intake := rfl
@[simp] theorem setLane_mem : (s.setLane n ln).mem = s.mem := rfl
@[simp] theorem setLane_flash : (s.setLane n ln).flash = s.flash := rfl
@[simp] theorem setLane_ctxs : (s.setLane n ln).ctxs = s.ctxs := rfl
@[simp] theorem setLane_streams : (s.setLane n ln).streams = s.streams := rfl
@[simp] theorem setLane_msh : (s.setLane n ln).msh = s.msh := rfl
@[simp] theorem setLane_sensors : (s.setLane n ln).sensors = s.sensors := rfl
@[simp] theorem setLane_regions : (s.setLane n ln).regions = s.regions := rfl
@[simp] theorem setLane_rgtLevels : (s.setLane n ln).rgtLevels = s.rgtLevels := rfl
@[simp] theorem setLane_markStart : (s.setLane n ln).markStart = s.markStart := rfl
@[simp] theorem setLane_markLen : (s.setLane n ln).markLen = s.markLen := rfl
@[simp] theorem setLane_notices : (s.setLane n ln).notices = s.notices := rfl
@[simp] theorem setLane_fc2 : (s.setLane n ln).fc2 = s.fc2 := rfl
@[simp] theorem setLane_ring : (s.setLane n ln).ring = s.ring := rfl

@[simp] theorem setStream_pending : (s.setStream n sm).pending = s.pending := rfl
@[simp] theorem setStream_now : (s.setStream n sm).now = s.now := rfl
@[simp] theorem setStream_fld : (s.setStream n sm).fld = s.fld := rfl
@[simp] theorem setStream_fuse : (s.setStream n sm).fuse = s.fuse := rfl
@[simp] theorem setStream_resp : (s.setStream n sm).resp = s.resp := rfl
@[simp] theorem setStream_crews : (s.setStream n sm).crews = s.crews := rfl
@[simp] theorem setStream_phases : (s.setStream n sm).phases = s.phases := rfl
@[simp] theorem setStream_planes : (s.setStream n sm).planes = s.planes := rfl
@[simp] theorem setStream_intake : (s.setStream n sm).intake = s.intake := rfl
@[simp] theorem setStream_mem : (s.setStream n sm).mem = s.mem := rfl
@[simp] theorem setStream_flash : (s.setStream n sm).flash = s.flash := rfl
@[simp] theorem setStream_ctxs : (s.setStream n sm).ctxs = s.ctxs := rfl
@[simp] theorem setStream_lanes : (s.setStream n sm).lanes = s.lanes := rfl
@[simp] theorem setStream_msh : (s.setStream n sm).msh = s.msh := rfl
@[simp] theorem setStream_sensors : (s.setStream n sm).sensors = s.sensors := rfl
@[simp] theorem setStream_regions : (s.setStream n sm).regions = s.regions := rfl
@[simp] theorem setStream_rgtLevels : (s.setStream n sm).rgtLevels = s.rgtLevels := rfl
@[simp] theorem setStream_markStart : (s.setStream n sm).markStart = s.markStart := rfl
@[simp] theorem setStream_markLen : (s.setStream n sm).markLen = s.markLen := rfl
@[simp] theorem setStream_notices : (s.setStream n sm).notices = s.notices := rfl
@[simp] theorem setStream_fc2 : (s.setStream n sm).fc2 = s.fc2 := rfl
@[simp] theorem setStream_ring : (s.setStream n sm).ring = s.ring := rfl

@[simp] theorem setMar_pending : (s.setMar n ms).pending = s.pending := rfl
@[simp] theorem setMar_now : (s.setMar n ms).now = s.now := rfl
@[simp] theorem setMar_fld : (s.setMar n ms).fld = s.fld := rfl
@[simp] theorem setMar_fuse : (s.setMar n ms).fuse = s.fuse := rfl
@[simp] theorem setMar_resp : (s.setMar n ms).resp = s.resp := rfl
@[simp] theorem setMar_crews : (s.setMar n ms).crews = s.crews := rfl
@[simp] theorem setMar_phases : (s.setMar n ms).phases = s.phases := rfl
@[simp] theorem setMar_planes : (s.setMar n ms).planes = s.planes := rfl
@[simp] theorem setMar_intake : (s.setMar n ms).intake = s.intake := rfl
@[simp] theorem setMar_mem : (s.setMar n ms).mem = s.mem := rfl
@[simp] theorem setMar_flash : (s.setMar n ms).flash = s.flash := rfl
@[simp] theorem setMar_ctxs : (s.setMar n ms).ctxs = s.ctxs := rfl
@[simp] theorem setMar_lanes : (s.setMar n ms).lanes = s.lanes := rfl
@[simp] theorem setMar_streams : (s.setMar n ms).streams = s.streams := rfl
@[simp] theorem setMar_sensors : (s.setMar n ms).sensors = s.sensors := rfl
@[simp] theorem setMar_regions : (s.setMar n ms).regions = s.regions := rfl
@[simp] theorem setMar_rgtLevels : (s.setMar n ms).rgtLevels = s.rgtLevels := rfl
@[simp] theorem setMar_markStart : (s.setMar n ms).markStart = s.markStart := rfl
@[simp] theorem setMar_markLen : (s.setMar n ms).markLen = s.markLen := rfl
@[simp] theorem setMar_notices : (s.setMar n ms).notices = s.notices := rfl
@[simp] theorem setMar_fc2 : (s.setMar n ms).fc2 = s.fc2 := rfl
@[simp] theorem setMar_ring : (s.setMar n ms).ring = s.ring := rfl

@[simp] theorem onSensor_pending : (s.onSensor n fs).pending = s.pending := rfl
@[simp] theorem onSensor_now : (s.onSensor n fs).now = s.now := rfl
@[simp] theorem onSensor_fld : (s.onSensor n fs).fld = s.fld := rfl
@[simp] theorem onSensor_fuse : (s.onSensor n fs).fuse = s.fuse := rfl
@[simp] theorem onSensor_resp : (s.onSensor n fs).resp = s.resp := rfl
@[simp] theorem onSensor_crews : (s.onSensor n fs).crews = s.crews := rfl
@[simp] theorem onSensor_phases : (s.onSensor n fs).phases = s.phases := rfl
@[simp] theorem onSensor_planes : (s.onSensor n fs).planes = s.planes := rfl
@[simp] theorem onSensor_intake : (s.onSensor n fs).intake = s.intake := rfl
@[simp] theorem onSensor_mem : (s.onSensor n fs).mem = s.mem := rfl
@[simp] theorem onSensor_flash : (s.onSensor n fs).flash = s.flash := rfl
@[simp] theorem onSensor_ctxs : (s.onSensor n fs).ctxs = s.ctxs := rfl
@[simp] theorem onSensor_lanes : (s.onSensor n fs).lanes = s.lanes := rfl
@[simp] theorem onSensor_streams : (s.onSensor n fs).streams = s.streams := rfl
@[simp] theorem onSensor_msh : (s.onSensor n fs).msh = s.msh := rfl
@[simp] theorem onSensor_regions : (s.onSensor n fs).regions = s.regions := rfl
@[simp] theorem onSensor_rgtLevels : (s.onSensor n fs).rgtLevels = s.rgtLevels := rfl
@[simp] theorem onSensor_markStart : (s.onSensor n fs).markStart = s.markStart := rfl
@[simp] theorem onSensor_markLen : (s.onSensor n fs).markLen = s.markLen := rfl
@[simp] theorem onSensor_notices : (s.onSensor n fs).notices = s.notices := rfl
@[simp] theorem onSensor_fc2 : (s.onSensor n fs).fc2 = s.fc2 := rfl
@[simp] theorem onSensor_ring : (s.onSensor n fs).ring = s.ring := rfl

@[simp] theorem onRegn_pending : (s.onRegn n fr).pending = s.pending := rfl
@[simp] theorem onRegn_now : (s.onRegn n fr).now = s.now := rfl
@[simp] theorem onRegn_fld : (s.onRegn n fr).fld = s.fld := rfl
@[simp] theorem onRegn_fuse : (s.onRegn n fr).fuse = s.fuse := rfl
@[simp] theorem onRegn_resp : (s.onRegn n fr).resp = s.resp := rfl
@[simp] theorem onRegn_crews : (s.onRegn n fr).crews = s.crews := rfl
@[simp] theorem onRegn_phases : (s.onRegn n fr).phases = s.phases := rfl
@[simp] theorem onRegn_planes : (s.onRegn n fr).planes = s.planes := rfl
@[simp] theorem onRegn_intake : (s.onRegn n fr).intake = s.intake := rfl
@[simp] theorem onRegn_mem : (s.onRegn n fr).mem = s.mem := rfl
@[simp] theorem onRegn_flash : (s.onRegn n fr).flash = s.flash := rfl
@[simp] theorem onRegn_ctxs : (s.onRegn n fr).ctxs = s.ctxs := rfl
@[simp] theorem onRegn_lanes : (s.onRegn n fr).lanes = s.lanes := rfl
@[simp] theorem onRegn_streams : (s.onRegn n fr).streams = s.streams := rfl
@[simp] theorem onRegn_msh : (s.onRegn n fr).msh = s.msh := rfl
@[simp] theorem onRegn_sensors : (s.onRegn n fr).sensors = s.sensors := rfl
@[simp] theorem onRegn_rgtLevels : (s.onRegn n fr).rgtLevels = s.rgtLevels := rfl
@[simp] theorem onRegn_markStart : (s.onRegn n fr).markStart = s.markStart := rfl
@[simp] theorem onRegn_markLen : (s.onRegn n fr).markLen = s.markLen := rfl
@[simp] theorem onRegn_notices : (s.onRegn n fr).notices = s.notices := rfl
@[simp] theorem onRegn_fc2 : (s.onRegn n fr).fc2 = s.fc2 := rfl
@[simp] theorem onRegn_ring : (s.onRegn n fr).ring = s.ring := rfl

@[simp] theorem onUmp_pending : (s.onUmp n fu).pending = s.pending := rfl
@[simp] theorem onUmp_now : (s.onUmp n fu).now = s.now := rfl
@[simp] theorem onUmp_fld : (s.onUmp n fu).fld = s.fld := rfl
@[simp] theorem onUmp_fuse : (s.onUmp n fu).fuse = s.fuse := rfl
@[simp] theorem onUmp_resp : (s.onUmp n fu).resp = s.resp := rfl
@[simp] theorem onUmp_crews : (s.onUmp n fu).crews = s.crews := rfl
@[simp] theorem onUmp_phases : (s.onUmp n fu).phases = s.phases := rfl
@[simp] theorem onUmp_planes : (s.onUmp n fu).planes = s.planes := rfl
@[simp] theorem onUmp_intake : (s.onUmp n fu).intake = s.intake := rfl
@[simp] theorem onUmp_mem : (s.onUmp n fu).mem = s.mem := rfl
@[simp] theorem onUmp_flash : (s.onUmp n fu).flash = s.flash := rfl
@[simp] theorem onUmp_ctxs : (s.onUmp n fu).ctxs = s.ctxs := rfl
@[simp] theorem onUmp_lanes : (s.onUmp n fu).lanes = s.lanes := rfl
@[simp] theorem onUmp_streams : (s.onUmp n fu).streams = s.streams := rfl
@[simp] theorem onUmp_msh : (s.onUmp n fu).msh = s.msh := rfl
@[simp] theorem onUmp_sensors : (s.onUmp n fu).sensors = s.sensors := rfl
@[simp] theorem onUmp_regions : (s.onUmp n fu).regions = s.regions := rfl
@[simp] theorem onUmp_markStart : (s.onUmp n fu).markStart = s.markStart := rfl
@[simp] theorem onUmp_markLen : (s.onUmp n fu).markLen = s.markLen := rfl
@[simp] theorem onUmp_notices : (s.onUmp n fu).notices = s.notices := rfl
@[simp] theorem onUmp_fc2 : (s.onUmp n fu).fc2 = s.fc2 := rfl
@[simp] theorem onUmp_ring : (s.onUmp n fu).ring = s.ring := rfl

@[simp] theorem setCrew_get : (s.setCrew c k).get f i = s.get f i := rfl
@[simp] theorem setPhase_get : (s.setPhase n ph).get f i = s.get f i := rfl
@[simp] theorem setPlane_get : (s.setPlane n pl).get f i = s.get f i := rfl
@[simp] theorem setCtx_get : (s.setCtx n cx).get f i = s.get f i := rfl
@[simp] theorem setLane_get : (s.setLane n ln).get f i = s.get f i := rfl
@[simp] theorem setStream_get : (s.setStream n sm).get f i = s.get f i := rfl
@[simp] theorem setMar_get : (s.setMar n ms).get f i = s.get f i := rfl
@[simp] theorem onSensor_get : (s.onSensor n fs).get f i = s.get f i := rfl
@[simp] theorem onRegn_get : (s.onRegn n fr).get f i = s.get f i := rfl
@[simp] theorem onUmp_get : (s.onUmp n fu).get f i = s.get f i := rfl

@[simp] theorem put_crew : (s.put f i v).crew n = s.crew n := rfl
@[simp] theorem setPhase_crew : (s.setPhase n ph).crew v = s.crew v := rfl
@[simp] theorem setPlane_crew : (s.setPlane n pl).crew v = s.crew v := rfl
@[simp] theorem setCtx_crew : (s.setCtx n cx).crew v = s.crew v := rfl
@[simp] theorem setLane_crew : (s.setLane n ln).crew v = s.crew v := rfl
@[simp] theorem setStream_crew : (s.setStream n sm).crew v = s.crew v := rfl
@[simp] theorem setMar_crew : (s.setMar n ms).crew v = s.crew v := rfl
@[simp] theorem onSensor_crew : (s.onSensor n fs).crew v = s.crew v := rfl
@[simp] theorem onRegn_crew : (s.onRegn n fr).crew v = s.crew v := rfl
@[simp] theorem onUmp_crew : (s.onUmp n fu).crew v = s.crew v := rfl
@[simp] theorem put_phase : (s.put f i v).phase n = s.phase n := rfl
@[simp] theorem setCrew_phase : (s.setCrew c k).phase v = s.phase v := rfl
@[simp] theorem setPlane_phase : (s.setPlane n pl).phase v = s.phase v := rfl
@[simp] theorem setCtx_phase : (s.setCtx n cx).phase v = s.phase v := rfl
@[simp] theorem setLane_phase : (s.setLane n ln).phase v = s.phase v := rfl
@[simp] theorem setStream_phase : (s.setStream n sm).phase v = s.phase v := rfl
@[simp] theorem setMar_phase : (s.setMar n ms).phase v = s.phase v := rfl
@[simp] theorem onSensor_phase : (s.onSensor n fs).phase v = s.phase v := rfl
@[simp] theorem onRegn_phase : (s.onRegn n fr).phase v = s.phase v := rfl
@[simp] theorem onUmp_phase : (s.onUmp n fu).phase v = s.phase v := rfl
@[simp] theorem put_plane : (s.put f i v).plane n = s.plane n := rfl
@[simp] theorem setCrew_plane : (s.setCrew c k).plane v = s.plane v := rfl
@[simp] theorem setPhase_plane : (s.setPhase n ph).plane v = s.plane v := rfl
@[simp] theorem setCtx_plane : (s.setCtx n cx).plane v = s.plane v := rfl
@[simp] theorem setLane_plane : (s.setLane n ln).plane v = s.plane v := rfl
@[simp] theorem setStream_plane : (s.setStream n sm).plane v = s.plane v := rfl
@[simp] theorem setMar_plane : (s.setMar n ms).plane v = s.plane v := rfl
@[simp] theorem onSensor_plane : (s.onSensor n fs).plane v = s.plane v := rfl
@[simp] theorem onRegn_plane : (s.onRegn n fr).plane v = s.plane v := rfl
@[simp] theorem onUmp_plane : (s.onUmp n fu).plane v = s.plane v := rfl
@[simp] theorem put_ctx : (s.put f i v).ctx n = s.ctx n := rfl
@[simp] theorem setCrew_ctx : (s.setCrew c k).ctx v = s.ctx v := rfl
@[simp] theorem setPhase_ctx : (s.setPhase n ph).ctx v = s.ctx v := rfl
@[simp] theorem setPlane_ctx : (s.setPlane n pl).ctx v = s.ctx v := rfl
@[simp] theorem setLane_ctx : (s.setLane n ln).ctx v = s.ctx v := rfl
@[simp] theorem setStream_ctx : (s.setStream n sm).ctx v = s.ctx v := rfl
@[simp] theorem setMar_ctx : (s.setMar n ms).ctx v = s.ctx v := rfl
@[simp] theorem onSensor_ctx : (s.onSensor n fs).ctx v = s.ctx v := rfl
@[simp] theorem onRegn_ctx : (s.onRegn n fr).ctx v = s.ctx v := rfl
@[simp] theorem onUmp_ctx : (s.onUmp n fu).ctx v = s.ctx v := rfl
@[simp] theorem put_lane : (s.put f i v).lane n = s.lane n := rfl
@[simp] theorem setCrew_lane : (s.setCrew c k).lane v = s.lane v := rfl
@[simp] theorem setPhase_lane : (s.setPhase n ph).lane v = s.lane v := rfl
@[simp] theorem setPlane_lane : (s.setPlane n pl).lane v = s.lane v := rfl
@[simp] theorem setCtx_lane : (s.setCtx n cx).lane v = s.lane v := rfl
@[simp] theorem setStream_lane : (s.setStream n sm).lane v = s.lane v := rfl
@[simp] theorem setMar_lane : (s.setMar n ms).lane v = s.lane v := rfl
@[simp] theorem onSensor_lane : (s.onSensor n fs).lane v = s.lane v := rfl
@[simp] theorem onRegn_lane : (s.onRegn n fr).lane v = s.lane v := rfl
@[simp] theorem onUmp_lane : (s.onUmp n fu).lane v = s.lane v := rfl
@[simp] theorem put_stream : (s.put f i v).stream n = s.stream n := rfl
@[simp] theorem setCrew_stream : (s.setCrew c k).stream v = s.stream v := rfl
@[simp] theorem setPhase_stream : (s.setPhase n ph).stream v = s.stream v := rfl
@[simp] theorem setPlane_stream : (s.setPlane n pl).stream v = s.stream v := rfl
@[simp] theorem setCtx_stream : (s.setCtx n cx).stream v = s.stream v := rfl
@[simp] theorem setLane_stream : (s.setLane n ln).stream v = s.stream v := rfl
@[simp] theorem setMar_stream : (s.setMar n ms).stream v = s.stream v := rfl
@[simp] theorem onSensor_stream : (s.onSensor n fs).stream v = s.stream v := rfl
@[simp] theorem onRegn_stream : (s.onRegn n fr).stream v = s.stream v := rfl
@[simp] theorem onUmp_stream : (s.onUmp n fu).stream v = s.stream v := rfl
@[simp] theorem put_mar : (s.put f i v).mar n = s.mar n := rfl
@[simp] theorem setCrew_mar : (s.setCrew c k).mar v = s.mar v := rfl
@[simp] theorem setPhase_mar : (s.setPhase n ph).mar v = s.mar v := rfl
@[simp] theorem setPlane_mar : (s.setPlane n pl).mar v = s.mar v := rfl
@[simp] theorem setCtx_mar : (s.setCtx n cx).mar v = s.mar v := rfl
@[simp] theorem setLane_mar : (s.setLane n ln).mar v = s.mar v := rfl
@[simp] theorem setStream_mar : (s.setStream n sm).mar v = s.mar v := rfl
@[simp] theorem onSensor_mar : (s.onSensor n fs).mar v = s.mar v := rfl
@[simp] theorem onRegn_mar : (s.onRegn n fr).mar v = s.mar v := rfl
@[simp] theorem onUmp_mar : (s.onUmp n fu).mar v = s.mar v := rfl
@[simp] theorem put_sensor : (s.put f i v).sensor n = s.sensor n := rfl
@[simp] theorem setCrew_sensor : (s.setCrew c k).sensor v = s.sensor v := rfl
@[simp] theorem setPhase_sensor : (s.setPhase n ph).sensor v = s.sensor v := rfl
@[simp] theorem setPlane_sensor : (s.setPlane n pl).sensor v = s.sensor v := rfl
@[simp] theorem setCtx_sensor : (s.setCtx n cx).sensor v = s.sensor v := rfl
@[simp] theorem setLane_sensor : (s.setLane n ln).sensor v = s.sensor v := rfl
@[simp] theorem setStream_sensor : (s.setStream n sm).sensor v = s.sensor v := rfl
@[simp] theorem setMar_sensor : (s.setMar n ms).sensor v = s.sensor v := rfl
@[simp] theorem onRegn_sensor : (s.onRegn n fr).sensor v = s.sensor v := rfl
@[simp] theorem onUmp_sensor : (s.onUmp n fu).sensor v = s.sensor v := rfl
@[simp] theorem put_regn : (s.put f i v).regn n = s.regn n := rfl
@[simp] theorem setCrew_regn : (s.setCrew c k).regn v = s.regn v := rfl
@[simp] theorem setPhase_regn : (s.setPhase n ph).regn v = s.regn v := rfl
@[simp] theorem setPlane_regn : (s.setPlane n pl).regn v = s.regn v := rfl
@[simp] theorem setCtx_regn : (s.setCtx n cx).regn v = s.regn v := rfl
@[simp] theorem setLane_regn : (s.setLane n ln).regn v = s.regn v := rfl
@[simp] theorem setStream_regn : (s.setStream n sm).regn v = s.regn v := rfl
@[simp] theorem setMar_regn : (s.setMar n ms).regn v = s.regn v := rfl
@[simp] theorem onSensor_regn : (s.onSensor n fs).regn v = s.regn v := rfl
@[simp] theorem onUmp_regn : (s.onUmp n fu).regn v = s.regn v := rfl
@[simp] theorem put_ump : (s.put f i v).ump n = s.ump n := rfl
@[simp] theorem setCrew_ump : (s.setCrew c k).ump v = s.ump v := rfl
@[simp] theorem setPhase_ump : (s.setPhase n ph).ump v = s.ump v := rfl
@[simp] theorem setPlane_ump : (s.setPlane n pl).ump v = s.ump v := rfl
@[simp] theorem setCtx_ump : (s.setCtx n cx).ump v = s.ump v := rfl
@[simp] theorem setLane_ump : (s.setLane n ln).ump v = s.ump v := rfl
@[simp] theorem setStream_ump : (s.setStream n sm).ump v = s.ump v := rfl
@[simp] theorem setMar_ump : (s.setMar n ms).ump v = s.ump v := rfl
@[simp] theorem onSensor_ump : (s.onSensor n fs).ump v = s.ump v := rfl
@[simp] theorem onRegn_ump : (s.onRegn n fr).ump v = s.ump v := rfl

/-! What a component update puts is what is then there. -/

@[simp] theorem setCrew_crew_self : (s.setCrew c k).crew c = k := by simp [State.crew, State.setCrew]
@[simp] theorem setPhase_phase_self : (s.setPhase n ph).phase n = ph := by simp [State.phase, State.setPhase]
@[simp] theorem setPlane_plane_self : (s.setPlane n pl).plane n = pl := by simp [State.plane, State.setPlane]
@[simp] theorem setCtx_ctx_self : (s.setCtx n cx).ctx n = cx := by simp [State.ctx, State.setCtx]
@[simp] theorem setLane_lane_self : (s.setLane n ln).lane n = ln := by simp [State.lane, State.setLane]
@[simp] theorem setStream_stream_self : (s.setStream n sm).stream n = sm := by simp [State.stream, State.setStream]
@[simp] theorem setMar_mar_self : (s.setMar n ms).mar n = ms := by simp [State.mar, State.setMar]
@[simp] theorem onSensor_sensor_self : (s.onSensor n fs).sensor n = fs (s.sensor n) := by simp [State.sensor, State.onSensor]
@[simp] theorem onRegn_regn_self : (s.onRegn n fr).regn n = fr (s.regn n) := by simp [State.regn, State.onRegn]
@[simp] theorem onUmp_ump_self : (s.onUmp n fu).ump n = fu (s.ump n) := by simp [State.ump, State.onUmp]

theorem setCrew_crew_ne (h : i ≠ c) : (s.setCrew c k).crew i = s.crew i := tget_tset_ne h
theorem setPhase_phase_ne (h : i ≠ n) : (s.setPhase n ph).phase i = s.phase i := tget_tset_ne h
theorem setPlane_plane_ne (h : i ≠ n) : (s.setPlane n pl).plane i = s.plane i := tget_tset_ne h
theorem setCtx_ctx_ne (h : i ≠ n) : (s.setCtx n cx).ctx i = s.ctx i := tget_tset_ne h

@[simp] theorem answered_pending : (s.answered i).pending = s.pending := rfl
@[simp] theorem answered_now : (s.answered i).now = s.now := rfl
@[simp] theorem answered_markStart : (s.answered i).markStart = s.markStart := rfl
@[simp] theorem answered_markLen : (s.answered i).markLen = s.markLen := rfl
@[simp] theorem answered_strobe : (s.answered i).strobe = s.strobe := rfl
@[simp] theorem answered_fuse : (s.answered i).fuse = s.fuse := rfl
@[simp] theorem answered_hiLatch : (s.answered i).hiLatch = s.hiLatch := rfl
@[simp] theorem answered_lockAt : (s.answered i).lockAt = s.lockAt := rfl
@[simp] theorem answered_crews : (s.answered i).crews = s.crews := rfl
@[simp] theorem answered_phases : (s.answered i).phases = s.phases := rfl
@[simp] theorem answered_planes : (s.answered i).planes = s.planes := rfl
@[simp] theorem answered_powerQ : (s.answered i).powerQ = s.powerQ := rfl
@[simp] theorem answered_unitPend : (s.answered i).unitPend = s.unitPend := rfl
@[simp] theorem answered_opNext : (s.answered i).opNext = s.opNext := rfl
@[simp] theorem answered_flight : (s.answered i).flight = s.flight := rfl
@[simp] theorem answered_uop : (s.answered i).uop = s.uop := rfl
@[simp] theorem answered_uopWait : (s.answered i).uopWait = s.uopWait := rfl
@[simp] theorem answered_tracks : (s.answered i).tracks = s.tracks := rfl
@[simp] theorem answered_intake : (s.answered i).intake = s.intake := rfl
@[simp] theorem answered_fltHist : (s.answered i).fltHist = s.fltHist := rfl
@[simp] theorem answered_fltFirst : (s.answered i).fltFirst = s.fltFirst := rfl
@[simp] theorem answered_fc2 : (s.answered i).fc2 = s.fc2 := rfl
@[simp] theorem answered_cleared : (s.answered i).cleared = s.cleared := rfl
@[simp] theorem answered_fltInit : (s.answered i).fltInit = s.fltInit := rfl
@[simp] theorem answered_stop : (s.answered i).stop = s.stop := rfl
@[simp] theorem answered_stopIssued : (s.answered i).stopIssued = s.stopIssued := rfl
@[simp] theorem answered_stopDone : (s.answered i).stopDone = s.stopDone := rfl
@[simp] theorem answered_hostReset : (s.answered i).hostReset = s.hostReset := rfl
@[simp] theorem answered_notices : (s.answered i).notices = s.notices := rfl
@[simp] theorem answered_ring : (s.answered i).ring = s.ring := rfl
@[simp] theorem answered_firstArea : (s.answered i).firstArea = s.firstArea := rfl
@[simp] theorem answered_snaps : (s.answered i).snaps = s.snaps := rfl
@[simp] theorem answered_snapDone : (s.answered i).snapDone = s.snapDone := rfl
@[simp] theorem answered_snapCopy : (s.answered i).snapCopy = s.snapCopy := rfl
@[simp] theorem answered_snapData : (s.answered i).snapData = s.snapData := rfl
@[simp] theorem answered_histDue : (s.answered i).histDue = s.histDue := rfl
@[simp] theorem answered_calQ : (s.answered i).calQ = s.calQ := rfl
@[simp] theorem answered_streams : (s.answered i).streams = s.streams := rfl
@[simp] theorem answered_groupMembers : (s.answered i).groupMembers = s.groupMembers := rfl
@[simp] theorem answered_pastLens : (s.answered i).pastLens = s.pastLens := rfl
@[simp] theorem answered_rdtAns : (s.answered i).rdtAns = s.rdtAns := rfl
@[simp] theorem answered_strReq : (s.answered i).strReq = s.strReq := rfl
@[simp] theorem answered_strTarget : (s.answered i).strTarget = s.strTarget := rfl
@[simp] theorem answered_strDroops : (s.answered i).strDroops = s.strDroops := rfl
@[simp] theorem answered_strAligns : (s.answered i).strAligns = s.strAligns := rfl
@[simp] theorem answered_xcalHold : (s.answered i).xcalHold = s.xcalHold := rfl
@[simp] theorem answered_mem : (s.answered i).mem = s.mem := rfl
@[simp] theorem answered_flash : (s.answered i).flash = s.flash := rfl
@[simp] theorem answered_eccBad : (s.answered i).eccBad = s.eccBad := rfl
@[simp] theorem answered_corrMark : (s.answered i).corrMark = s.corrMark := rfl
@[simp] theorem answered_fcHeld : (s.answered i).fcHeld = s.fcHeld := rfl
@[simp] theorem answered_fcPort : (s.answered i).fcPort = s.fcPort := rfl
@[simp] theorem answered_fcLast : (s.answered i).fcLast = s.fcLast := rfl
@[simp] theorem answered_fcOut : (s.answered i).fcOut = s.fcOut := rfl
@[simp] theorem answered_fcRet : (s.answered i).fcRet = s.fcRet := rfl
@[simp] theorem answered_fcReply : (s.answered i).fcReply = s.fcReply := rfl
@[simp] theorem answered_fcArr : (s.answered i).fcArr = s.fcArr := rfl
@[simp] theorem answered_fcEnd : (s.answered i).fcEnd = s.fcEnd := rfl
@[simp] theorem answered_fcUnread : (s.answered i).fcUnread = s.fcUnread := rfl
@[simp] theorem answered_fcDisc : (s.answered i).fcDisc = s.fcDisc := rfl
@[simp] theorem answered_msh : (s.answered i).msh = s.msh := rfl
@[simp] theorem answered_ctxs : (s.answered i).ctxs = s.ctxs := rfl
@[simp] theorem answered_lanes : (s.answered i).lanes = s.lanes := rfl
@[simp] theorem answered_load : (s.answered i).load = s.load := rfl
@[simp] theorem answered_orderly : (s.answered i).orderly = s.orderly := rfl
@[simp] theorem answered_models : (s.answered i).models = s.models := rfl
@[simp] theorem answered_estActive : (s.answered i).estActive = s.estActive := rfl
@[simp] theorem answered_estNew : (s.answered i).estNew = s.estNew := rfl
@[simp] theorem answered_estCheck : (s.answered i).estCheck = s.estCheck := rfl
@[simp] theorem answered_estCounts : (s.answered i).estCounts = s.estCounts := rfl
@[simp] theorem answered_estRaw : (s.answered i).estRaw = s.estRaw := rfl
@[simp] theorem answered_estCal : (s.answered i).estCal = s.estCal := rfl
@[simp] theorem answered_estDivRec : (s.answered i).estDivRec = s.estDivRec := rfl
@[simp] theorem answered_noticeOut : (s.answered i).noticeOut = s.noticeOut := rfl
@[simp] theorem answered_capHist : (s.answered i).capHist = s.capHist := rfl
@[simp] theorem answered_capA : (s.answered i).capA = s.capA := rfl
@[simp] theorem answered_capPass : (s.answered i).capPass = s.capPass := rfl
@[simp] theorem answered_capBoundAt : (s.answered i).capBoundAt = s.capBoundAt := rfl
@[simp] theorem answered_capOverAt : (s.answered i).capOverAt = s.capOverAt := rfl
@[simp] theorem answered_capHigh : (s.answered i).capHigh = s.capHigh := rfl
@[simp] theorem answered_capOver : (s.answered i).capOver = s.capOver := rfl
@[simp] theorem answered_capBound : (s.answered i).capBound = s.capBound := rfl
@[simp] theorem answered_capMinRun : (s.answered i).capMinRun = s.capMinRun := rfl
@[simp] theorem answered_capUp : (s.answered i).capUp = s.capUp := rfl
@[simp] theorem answered_capThr : (s.answered i).capThr = s.capThr := rfl
@[simp] theorem answered_capRel : (s.answered i).capRel = s.capRel := rfl
@[simp] theorem answered_capDem : (s.answered i).capDem = s.capDem := rfl
@[simp] theorem answered_sensors : (s.answered i).sensors = s.sensors := rfl
@[simp] theorem answered_regions : (s.answered i).regions = s.regions := rfl
@[simp] theorem answered_coolantPin : (s.answered i).coolantPin = s.coolantPin := rfl
@[simp] theorem answered_pwrEnPin : (s.answered i).pwrEnPin = s.pwrEnPin := rfl
@[simp] theorem answered_stopDomain : (s.answered i).stopDomain = s.stopDomain := rfl
@[simp] theorem answered_logQ : (s.answered i).logQ = s.logQ := rfl
@[simp] theorem answered_logErase : (s.answered i).logErase = s.logErase := rfl
@[simp] theorem answered_rgtLevels : (s.answered i).rgtLevels = s.rgtLevels := rfl
@[simp] theorem answered_rgtOwn : (s.answered i).rgtOwn = s.rgtOwn := rfl
@[simp] theorem answered_rgtPasses : (s.answered i).rgtPasses = s.rgtPasses := rfl
@[simp] theorem answered_rgtPower : (s.answered i).rgtPower = s.rgtPower := rfl
@[simp] theorem answered_rgtPeriod : (s.answered i).rgtPeriod = s.rgtPeriod := rfl
@[simp] theorem answered_rgtQuiet : (s.answered i).rgtQuiet = s.rgtQuiet := rfl
@[simp] theorem answered_rgtShort : (s.answered i).rgtShort = s.rgtShort := rfl
@[simp] theorem answered_rgtSlack : (s.answered i).rgtSlack = s.rgtSlack := rfl
@[simp] theorem answered_rgtWait : (s.answered i).rgtWait = s.rgtWait := rfl
@[simp] theorem answered_rgtMeas : (s.answered i).rgtMeas = s.rgtMeas := rfl
@[simp] theorem answered_rgtOut : (s.answered i).rgtOut = s.rgtOut := rfl
@[simp] theorem answered_keyHash : (s.answered i).keyHash = s.keyHash := rfl
@[simp] theorem answered_bootIn : (s.answered i).bootIn = s.bootIn := rfl
@[simp] theorem answered_xcalDue : (s.answered i).xcalDue = s.xcalDue := rfl
@[simp] theorem answered_march : (s.answered i).march = s.march := rfl
@[simp] theorem answered_scrubAt : (s.answered i).scrubAt = s.scrubAt := rfl
@[simp] theorem answered_flashOp : (s.answered i).flashOp = s.flashOp := rfl
@[simp] theorem answered_smbOut : (s.answered i).smbOut = s.smbOut := rfl
@[simp] theorem answered_pmbLatch : (s.answered i).pmbLatch = s.pmbLatch := rfl
@[simp] theorem answered_pmbCml : (s.answered i).pmbCml = s.pmbCml := rfl
@[simp] theorem answered_tapInstr : (s.answered i).tapInstr = s.tapInstr := rfl
@[simp] theorem answered_tapScan : (s.answered i).tapScan = s.tapScan := rfl
@[simp] theorem answered_tapOut : (s.answered i).tapOut = s.tapOut := rfl
@[simp] theorem answered_stgMiss : (s.answered i).stgMiss = s.stgMiss := rfl
@[simp] theorem answered_stgLow : (s.answered i).stgLow = s.stgLow := rfl
@[simp] theorem answered_stgWait : (s.answered i).stgWait = s.stgWait := rfl
@[simp] theorem answered_stgCmd : (s.answered i).stgCmd = s.stgCmd := rfl
@[simp] theorem answered_vibWas : (s.answered i).vibWas = s.vibWas := rfl
@[simp] theorem answered_capAllow : (s.answered i).capAllow = s.capAllow := rfl
@[simp] theorem answered_trstPin : (s.answered i).trstPin = s.trstPin := rfl
@[simp] theorem answered_stgOut : (s.answered i).stgOut = s.stgOut := rfl
@[simp] theorem answered_stopStamp : (s.answered i).stopStamp = s.stopStamp := rfl
@[simp] theorem answered_recLap : (s.answered i).recLap = s.recLap := rfl
@[simp] theorem answered_flips : (s.answered i).flips = s.flips := rfl
@[simp] theorem answered_eng : (s.answered i).eng = s.eng := rfl
@[simp] theorem answered_cyc : (s.answered i).cyc = s.cyc := rfl
@[simp] theorem answered_slowSent : (s.answered i).slowSent = s.slowSent := rfl
@[simp] theorem answered_slowAt : (s.answered i).slowAt = s.slowAt := rfl
@[simp] theorem answered_vsbLow : (s.answered i).vsbLow = s.vsbLow := rfl
@[simp] theorem answered_vsbLead : (s.answered i).vsbLead = s.vsbLead := rfl
@[simp] theorem answered_bootAt : (s.answered i).bootAt = s.bootAt := rfl
@[simp] theorem answered_hostAt : (s.answered i).hostAt = s.hostAt := rfl
@[simp] theorem answered_marchAt : (s.answered i).marchAt = s.marchAt := rfl
@[simp] theorem answered_fld : (s.answered i).fld = s.fld := rfl
@[simp] theorem answered_resp : (s.answered i).resp = ⟨false, i⟩ := rfl
@[simp] theorem answered_get : (s.answered n).get f i = s.get f i := rfl
@[simp] theorem answered_crew : (s.answered i).crew n = s.crew n := rfl
@[simp] theorem answered_phase : (s.answered i).phase n = s.phase n := rfl
@[simp] theorem answered_plane : (s.answered i).plane n = s.plane n := rfl
@[simp] theorem answered_ctx : (s.answered i).ctx n = s.ctx n := rfl
@[simp] theorem answered_lane : (s.answered i).lane n = s.lane n := rfl
@[simp] theorem answered_stream : (s.answered i).stream n = s.stream n := rfl
@[simp] theorem answered_mar : (s.answered i).mar n = s.mar n := rfl

/-! ## The present cycle -/

@[simp] theorem putWas_pending : (s.putWas f i v).pending = s.pending := rfl
@[simp] theorem putWas_now : (s.putWas f i v).now = s.now := rfl
@[simp] theorem putWas_fld : (s.putWas f i v).fld = s.fld := rfl
@[simp] theorem putWas_fuse : (s.putWas f i v).fuse = s.fuse := rfl
@[simp] theorem putWas_resp : (s.putWas f i v).resp = s.resp := rfl
@[simp] theorem putWas_crews : (s.putWas f i v).crews = s.crews := rfl
@[simp] theorem putWas_phases : (s.putWas f i v).phases = s.phases := rfl
@[simp] theorem putWas_planes : (s.putWas f i v).planes = s.planes := rfl
@[simp] theorem putWas_intake : (s.putWas f i v).intake = s.intake := rfl
@[simp] theorem putWas_mem : (s.putWas f i v).mem = s.mem := rfl
@[simp] theorem putWas_flash : (s.putWas f i v).flash = s.flash := rfl
@[simp] theorem putWas_fc2 : (s.putWas f i v).fc2 = s.fc2 := rfl
@[simp] theorem putWas_ctxs : (s.putWas f i v).ctxs = s.ctxs := rfl
@[simp] theorem putWas_lanes : (s.putWas f i v).lanes = s.lanes := rfl

@[simp] theorem setCame_pending : (s.setCame f i v).pending = s.pending := rfl
@[simp] theorem setCame_now : (s.setCame f i v).now = s.now := rfl
@[simp] theorem setCame_fld : (s.setCame f i v).fld = s.fld := rfl
@[simp] theorem setCame_fuse : (s.setCame f i v).fuse = s.fuse := rfl
@[simp] theorem setCame_resp : (s.setCame f i v).resp = s.resp := rfl
@[simp] theorem setCame_crews : (s.setCame f i v).crews = s.crews := rfl
@[simp] theorem setCame_phases : (s.setCame f i v).phases = s.phases := rfl
@[simp] theorem setCame_planes : (s.setCame f i v).planes = s.planes := rfl
@[simp] theorem setCame_intake : (s.setCame f i v).intake = s.intake := rfl
@[simp] theorem setCame_mem : (s.setCame f i v).mem = s.mem := rfl
@[simp] theorem setCame_flash : (s.setCame f i v).flash = s.flash := rfl
@[simp] theorem setCame_fc2 : (s.setCame f i v).fc2 = s.fc2 := rfl
@[simp] theorem setCame_ctxs : (s.setCame f i v).ctxs = s.ctxs := rfl
@[simp] theorem setCame_lanes : (s.setCame f i v).lanes = s.lanes := rfl

end Sys2Proof.Machine
end

