-- ==== Sys2Proof/Laws/Bus.lean ====
section
/-! SUPPORT. What a write that is taken does: it is the register's own write, and the answer is no error. -/

namespace Sys2Proof.Machine

open Sys2Proof

/-- A register lies on word addresses inside the window and outside the memories. -/
def Reg.apart (r : Reg) : Bool :=
  decide (r.info.base % 4 = 0 ∧ r.info.st1 % 4 = 0 ∧ r.info.st2 % 4 = 0 ∧ r.last ≤ 0x1000000 ∧
    (r.last ≤ 0x290000 ∨ 0x2D0000 ≤ r.info.base) ∧ (r.last ≤ 0x400000 ∨ 0x880000 ≤ r.info.base))

theorem Reg.all_apart (r : Reg) : r.apart = true := by cases r <;> decide

/-- An address at which a register shows an instance lies between the register's first byte and its last, on a word. -/
theorem Reg.instAt_some {r : Reg} {a i : Nat} (h : r.instAt a = some i) : r.info.base ≤ a ∧ a < r.last ∧ a % 4 = 0 := by
  have hb : r.info.base ≤ a ∧ a < r.last := by
    by_contra hc
    have := Reg.instAt_out (r := r) (a := a) (by omega)
    rw [h] at this
    cases this
  refine ⟨hb.1, hb.2, ?_⟩
  have hap := r.all_apart
  simp only [Reg.apart, decide_eq_true_eq] at hap
  unfold Reg.instAt at h
  dsimp only at h
  split at h
  · cases h
  · split at h
    · rename_i hx
      have h4 := Nat.div_add_mod (a - r.info.base) r.info.st2
      have h5 := Nat.div_add_mod ((a - r.info.base) % r.info.st2) r.info.st1
      have e1 : r.info.st2 * ((a - r.info.base) / r.info.st2) % 4 = 0 := by rw [Nat.mul_mod, hap.2.2.1]; simp
      have e2 : r.info.st1 * ((a - r.info.base) % r.info.st2 / r.info.st1) % 4 = 0 := by rw [Nat.mul_mod, hap.2.1]; simp
      omega
    · cases h

theorem regAt_some {a i : Nat} {r : Reg} (h : regAt a = some (r, i)) : r.instAt a = some i := by
  obtain ⟨q, -, hq⟩ := List.exists_of_findSome?_eq_some h
  cases e : q.instAt a with
  | none => simp [e] at hq
  | some j => simp [e] at hq; obtain ⟨rfl, rfl⟩ := hq; exact e

theorem placed_regAt {r : Reg} {i : Nat} (h : r.placed i) : regAt (r.addr i) = some (r, i) := by
  unfold Reg.placed placeAt at h
  split at h
  · rename_i e
    split at h
    · cases h
    · cases h; exact e
  · split at h <;> cases h

/-- The access of a placed register's word is formed rightly, and lies in no memory. -/
theorem placed_access {r : Reg} {i : Nat} (h : r.placed i) :
    formOk (r.addr i) 4 = true ∧ inMem (r.addr i) = false ∧ named (r.addr i) 4 = true := by
  have h1 := Reg.instAt_some (regAt_some (placed_regAt h))
  have hap := r.all_apart
  simp only [Reg.apart, decide_eq_true_eq] at hap
  refine ⟨?_, ?_, ?_⟩
  · simp only [formOk, decide_eq_true_eq]
    exact ⟨.inl trivial, h1.2.2, by omega⟩
  · simp only [inMem, inCM, inPS, inFM, Bool.or_eq_false_iff, decide_eq_false_iff_not]
    refine ⟨⟨?_, ?_⟩, ?_⟩ <;> omega
  · have : placeAt (r.addr i) = .reg r i := h
    simp [named, this]

/-- A write that is taken is the register's own write (R19 to R23); the uop register's write acts beside (R50). -/
theorem portWrite_takes {inp : BootIn} {m : Master} {r : Reg} {i v : Nat} {s : State} (h : s.Takes m r i v)
    (hr : r ≠ .ID_UOP_CTL) :
    portWrite inp m (r.addr i) 4 v 0 s = (writeReg inp (isHost m) r i (v % 2 ^ 32) s).answered 0 := by
  have hp := h.placed
  obtain ⟨h1, h2, h3⟩ := placed_access hp
  have h4 : placeAt (r.addr i) = .reg r i := hp
  have hu : r.addr i ≠ 0x10608 := by
    intro e
    have h5 : placeAt 0x10608 = .reg .ID_UOP_CTL 0 := by decide
    rw [e, h5] at h4
    cases h4
    exact hr rfl
  simp only [inMem, Bool.or_eq_false_iff] at h2
  have hl : s.violates (r.addr i) (v % 4294967296) = false := h.lock
  unfold portWrite busWrite State.accessBar writeRegs
  simp [h.open_, h1, h.region, h2, h3, accessWords, h.block, hl, asksUop, hu, writePlace, h4, State.answered]

theorem regWrite_takes {m : Master} {r : Reg} {i v : Nat} {s : State} (h : s.Takes m r i v) (hr : r ≠ .ID_UOP_CTL) :
    regWrite m r i v s = (writeReg s.openBoot (isHost m) r i (v % 2 ^ 32) s).answered 0 := portWrite_takes h hr

/-- A read that is taken answers with the register's word, and changes what a read of it changes (R20, R21). -/
theorem portRead_reads {m : Master} {r : Reg} {i ecc : Nat} {s : State} (h : s.Reads m r i) :
    portRead m (r.addr i) 4 ecc s = (afterRead r i s).answered (s.regWord r i) := by
  obtain ⟨h1, h2, h3⟩ := placed_access h.placed
  have h4 : placeAt (r.addr i) = .reg r i := h.placed
  unfold portRead busRead State.accessBar readReg32 readPlace
  have h5 := h.single
  simp only [List.contains_eq_mem, decide_eq_false_iff_not] at h5
  simp [h.open_, h1, h.region, h2, h3, h.fresh, h5, h4, State.answered]

/-- A register without lockable fields takes every word as it is. -/
theorem lockWord_plain {r : Reg} {i v : Nat} {s : State} (h : r.fields.all (fun f => f.acc != .RWL) = true) :
    s.lockWord r i v = (v, false) := by
  unfold State.lockWord
  have : r.fields.filter (fun f => f.acc == .RWL) = [] := by
    rw [List.filter_eq_nil_iff]
    intro f hf
    have := List.all_eq_true.mp h f hf
    simpa using this
  rw [this]
  rfl

/-- A field of a word lies in its 32 bits. -/
theorem ofWord_mod {f : Fld} {v : Nat} (h : f.lo ≤ f.hi ∧ f.hi < 32) : f.ofWord (v % 2 ^ 32) = f.ofWord v := by
  unfold Fld.ofWord bits
  have e : (2 : Nat) ^ 32 = 2 ^ f.lo * 2 ^ (32 - f.lo) := by rw [← Nat.pow_add]; congr 1; omega
  rw [e, Nat.mod_mul_right_div_self, Nat.mod_mod_of_dvd _ (Nat.pow_dvd_pow 2 (by omega))]

end Sys2Proof.Machine
end

