-- ==== Sys2Proof/Laws/Ops.lean ====
section
/-! SUPPORT. What the shared operations do: raising an event, counting, latching PMBus status. -/

namespace Sys2Proof.Machine

open Sys2Proof

variable {s : State} {f g : Fld} {i j v n code kind src d0 d1 : Nat} {e : Event}

/-! ## Fields -/

@[simp] theorem get_setCame : (s.setCame g j v).get f i = s.get f i := rfl

@[simp] theorem get_bump_self : (s.bump f i n).get f i = min (s.get f i + n) (2 ^ f.width - 1) := by
  rw [State.bump, get_setCame, get_put_self]
  apply Nat.mod_eq_of_lt
  have : 0 < 2 ^ f.width := by positivity
  omega

theorem get_bump_reg (h : f.reg ≠ g.reg) : (s.bump g j n).get f i = s.get f i := get_put_reg h
theorem get_bump_lo (h : f.lo ≠ g.lo) : (s.bump g j n).get f i = s.get f i := get_put_lo h
theorem get_bump_ne (h : f.key i ≠ g.key j) : (s.bump g j n).get f i = s.get f i := get_put_ne h

/-- A largest value keeps what it had or takes the new one. -/
theorem get_raiseTo_self : (s.raiseTo f i v).get f i = max (s.get f i) v % 2 ^ f.width := by
  rw [State.raiseTo, get_setCame, get_put_self]

theorem get_raiseTo_ne (h : f.key i ≠ g.key j) : (s.raiseTo g j v).get f i = s.get f i := get_put_ne h

/-! ## The present cycle (R21) -/

@[simp] theorem get_putWas : (s.putWas g j v).get f i = s.get f i := rfl
theorem was_put (h : s.cyc.on = true) : (s.put g j v).was f i = s.was f i := by
  simp [State.was, State.get, h]

/-- A clear takes from a W1C field the bits written that the cycle found set, and no others. -/
theorem get_clearBits_self : (s.clearBits f i v).get f i =
    (s.get f i - Nat.land (Nat.land (s.get f i) (s.was f i)) v) % 2 ^ f.width := by
  rw [State.clearBits, get_putWas, get_put_self]

theorem get_clearBits_ne (h : f.key i ≠ g.key j) : (s.clearBits g j v).get f i = s.get f i := get_put_ne h

/-- A read leaves of an RC field what has come in the present cycle. -/
theorem get_clearRipe_self : (s.clearRipe f i).get f i = s.rest f i % 2 ^ f.width := by
  rw [State.clearRipe, get_putWas, get_put_self]

theorem get_clearRipe_ne (h : f.key i ≠ g.key j) : (s.clearRipe g j).get f i = s.get f i := get_put_ne h

theorem get_setOver_self : (s.setOver f i).get f i = 1 % 2 ^ f.width := by rw [State.setOver, get_putWas, get_put_self]

theorem get_setOver_ne (h : f.key i ≠ g.key j) : (s.setOver g j).get f i = s.get f i := get_put_ne h

/-! ## Raising an event -/

/-- Raising an event changes the registers of dropped events at most, the crew it names, and the waiting events. -/
theorem raiseEv_eq : ∃ l cr q y, s.raiseEv e = { s with fld := l, crews := cr, intake := q, cyc := y } ∧
    (∀ k, k.reg ≠ .FLT_DROP → flook l k = flook s.fld k) := by
  have key : ∀ (cr : Tab Crew) (u : State), u = { s with crews := cr } →
      ∃ l cr q y, (if classNo e.code ≤ 1 ∧ 64 ≤ (u.intake.filter (fun x => classNo x.code ≤ 1)).length then
        u.bump (if classNo e.code = 0 then FLT_DROP.FC0 else FLT_DROP.FC1) 0 else { u with intake := u.intake ++ [e] }) =
          { s with fld := l, crews := cr, intake := q, cyc := y } ∧ (∀ k, k.reg ≠ .FLT_DROP → flook l k = flook s.fld k) := by
    rintro cr u rfl
    split
    · refine ⟨_, _, _, _, rfl, fun k hk => ?_⟩
      refine (flook_fset ..).trans (if_neg ?_)
      intro he
      apply hk
      rw [he]
      simp only [Fld.key]
      split <;> rfl
    · exact ⟨s.fld, cr, s.intake ++ [e], s.cyc, rfl, fun _ _ => rfl⟩
  rcases h : srcCrew e.kind e.src with _ | b
  · simp only [State.raiseEv, h]
    exact key s.crews s rfl
  · simp only [State.raiseEv, h]
    exact key _ _ rfl

theorem raiseEv_get (h : f.reg ≠ .FLT_DROP) : (s.raiseEv e).get f i = s.get f i := by
  obtain ⟨l, cr, q, y, h1, h2⟩ := raiseEv_eq (s := s) (e := e)
  rw [h1]
  simp [State.get, h2 (f.key i) h]

/-- Raising an event leaves every register but those that count dropped events. -/
theorem raise_get (h : f.reg ≠ .FLT_DROP) : (s.raise code kind src d0 d1).get f i = s.get f i := raiseEv_get h

@[simp] theorem raise_now : (s.raise code kind src d0 d1).now = s.now := by
  obtain ⟨l, cr, q, y, h, -⟩ := raiseEv_eq (s := s) (e := ⟨code, kind, src, s.stampOf code kind src, d0 % 2 ^ 32, d1 % 2 ^ 32, 0, false⟩)
  rw [State.raise, h]

@[simp] theorem raise_phases : (s.raise code kind src d0 d1).phases = s.phases := by
  obtain ⟨l, cr, q, y, h, -⟩ := raiseEv_eq (s := s) (e := ⟨code, kind, src, s.stampOf code kind src, d0 % 2 ^ 32, d1 % 2 ^ 32, 0, false⟩)
  rw [State.raise, h]

@[simp] theorem raise_planes : (s.raise code kind src d0 d1).planes = s.planes := by
  obtain ⟨l, cr, q, y, h, -⟩ := raiseEv_eq (s := s) (e := ⟨code, kind, src, s.stampOf code kind src, d0 % 2 ^ 32, d1 % 2 ^ 32, 0, false⟩)
  rw [State.raise, h]

@[simp] theorem raise_mem : (s.raise code kind src d0 d1).mem = s.mem := by
  obtain ⟨l, cr, q, y, h, -⟩ := raiseEv_eq (s := s) (e := ⟨code, kind, src, s.stampOf code kind src, d0 % 2 ^ 32, d1 % 2 ^ 32, 0, false⟩)
  rw [State.raise, h]

@[simp] theorem raise_flash : (s.raise code kind src d0 d1).flash = s.flash := by
  obtain ⟨l, cr, q, y, h, -⟩ := raiseEv_eq (s := s) (e := ⟨code, kind, src, s.stampOf code kind src, d0 % 2 ^ 32, d1 % 2 ^ 32, 0, false⟩)
  rw [State.raise, h]

/-- An event of class FC2 or FC3 is never dropped: it waits last (R359, R360). -/
theorem raise_intake (h : 2 ≤ classNo code) :
    (s.raise code kind src d0 d1).intake = s.intake ++ [⟨code, kind, src, s.stampOf code kind src, d0 % 2 ^ 32, d1 % 2 ^ 32, 0, false⟩] := by
  rcases hc : srcCrew kind src with _ | b <;> simp only [State.raise, State.raiseEv, hc] <;> rw [if_neg (by omega)]
  rfl

/-- Where fewer than 64 events of FC0 and FC1 wait, any event waits last. -/
theorem raise_intake_room (h : (s.intake.filter (fun x => classNo x.code ≤ 1)).length < 64) :
    (s.raise code kind src d0 d1).intake = s.intake ++ [⟨code, kind, src, s.stampOf code kind src, d0 % 2 ^ 32, d1 % 2 ^ 32, 0, false⟩] := by
  rcases hc : srcCrew kind src with _ | b <;> simp only [State.raise, State.raiseEv, hc]
  · rw [if_neg (by omega)]
  · rw [if_neg]
    · rfl
    · show ¬ (_ ∧ 64 ≤ (s.intake.filter (fun x => classNo x.code ≤ 1)).length)
      omega

/-- A crew keeps all but the highest class raised for its snapshot, with its stamp. -/
theorem raise_crew (c : Nat) : ∃ m a, (s.raise code kind src d0 d1).crew c = { s.crew c with faultMax := m, faultAt := a } := by
  rcases hc : srcCrew kind src with _ | b <;> simp only [State.raise, State.raiseEv, hc]
  · exact ⟨(s.crew c).faultMax, (s.crew c).faultAt, by split <;> rfl⟩
  · by_cases h : c = b
    · subst h
      split <;> simp only [State.crew, State.onCrew, State.setCrew, State.bump, State.setCame, State.put, tget_tset_self] <;> exact ⟨_, _, rfl⟩
    · refine ⟨(s.crew c).faultMax, (s.crew c).faultAt, ?_⟩
      split <;> simp [State.crew, State.onCrew, State.setCrew, State.bump, State.setCame, State.put, tget_tset, h]

end Sys2Proof.Machine
end

