-- ==== Sys2Proof/Laws/Frames.lean ====
section
/-! SUPPORT. Frames: what an update of one register, crew or phase, and the raising of an event, leave as they were. -/

namespace Sys2Proof.Machine

open Sys2Proof

variable {s t u : State} {l : List FKey} {ls : List Nat} {f g : Fld} {i j v n : Nat}

theorem SameRegs.refl : SameRegs l s s := fun _ _ _ => rfl
theorem SameMem.refl : SameMem s s := fun _ => ⟨rfl, rfl⟩
theorem SamePhases.refl : SamePhases ls s s := fun _ _ => rfl
theorem SameCrews.refl : SameCrews ls s s := fun _ _ => rfl

theorem SameRegs.congr (h : SameRegs l s t) (h1 : u.fld = t.fld) (h2 : u.fuse = t.fuse) : SameRegs l s u :=
  fun f i hf => by rw [get_congr h1 h2, h f i hf]
theorem SameMem.congr (h : SameMem s t) (h1 : u.mem = t.mem) (h2 : u.flash = t.flash) : SameMem s u :=
  fun a => by rw [h1, h2]; exact h a
theorem SamePhases.congr (h : SamePhases ls s t) (h1 : u.phases = t.phases) : SamePhases ls s u :=
  fun q hq => by rw [← h q hq]; simp only [State.phase, h1]
theorem SameCrews.congr (h : SameCrews ls s t) (h1 : u.crews = t.crews) : SameCrews ls s u :=
  fun q hq => by rw [← h q hq]; simp only [State.crew, h1]

theorem SameRegs.put (h : SameRegs l s t) (hk : g.key j ∈ l) : SameRegs l s (t.put g j v) :=
  fun f i hf => by rw [get_put_ne (fun e => hf (by rw [e]; exact hk)), h f i hf]
theorem SameRegs.bump (h : SameRegs l s t) (hk : g.key j ∈ l) : SameRegs l s (t.bump g j n) := h.put hk

/-- Raising an event changes no register but those of dropped events. -/
theorem SameRegs.raise {code kind src d0 d1 : Nat} (h : SameRegs l s t) (h0 : FLT_DROP.FC0.key 0 ∈ l)
    (h1 : FLT_DROP.FC1.key 0 ∈ l) : SameRegs l s (t.raise code kind src d0 d1) := by
  simp only [State.raise, State.raiseEv]
  have h' : ∀ u : State, u.fld = t.fld → u.fuse = t.fuse → SameRegs l s u := fun u e1 e2 => h.congr e1 e2
  split <;> split
  · split
    · exact (h' _ rfl rfl).bump h0
    · exact (h' _ rfl rfl).bump h1
  · exact h' _ rfl rfl
  · split
    · exact (h' _ rfl rfl).bump h0
    · exact (h' _ rfl rfl).bump h1
  · exact h' _ rfl rfl

theorem SameRegs.answered {d : Nat} (h : SameRegs l s t) : SameRegs l s (t.answered d) := h.congr rfl rfl
theorem SameMem.answered {d : Nat} (h : SameMem s t) : SameMem s (t.answered d) := h.congr rfl rfl
theorem SamePhases.answered {d : Nat} (h : SamePhases ls s t) : SamePhases ls s (t.answered d) := h.congr rfl
theorem SameCrews.answered {d : Nat} (h : SameCrews ls s t) : SameCrews ls s (t.answered d) := h.congr rfl
theorem SameRegs.setCrew {k : Crew} (h : SameRegs l s t) : SameRegs l s (t.setCrew n k) := h.congr rfl rfl
theorem SameRegs.setPhase {p : Phase} (h : SameRegs l s t) : SameRegs l s (t.setPhase n p) := h.congr rfl rfl
theorem SameRegs.onCrew {k : Crew → Crew} (h : SameRegs l s t) : SameRegs l s (t.onCrew n k) := h.congr rfl rfl
theorem SamePhases.put (h : SamePhases ls s t) : SamePhases ls s (t.put g j v) := h.congr rfl
theorem SamePhases.setCrew {k : Crew} (h : SamePhases ls s t) : SamePhases ls s (t.setCrew n k) := h.congr rfl
theorem SameCrews.put (h : SameCrews ls s t) : SameCrews ls s (t.put g j v) := h.congr rfl
theorem SameCrews.setPhase {p : Phase} (h : SameCrews ls s t) : SameCrews ls s (t.setPhase n p) := h.congr rfl

theorem SamePhases.set {p : Phase} (h : SamePhases ls s t) (hk : n ∈ ls) : SamePhases ls s (t.setPhase n p) :=
  fun q hq => by rw [setPhase_phase_ne (h := fun e => hq (by rw [e]; exact hk)), h q hq]
theorem SameCrews.set {k : Crew} (h : SameCrews ls s t) (hk : n ∈ ls) : SameCrews ls s (t.setCrew n k) :=
  fun q hq => by rw [setCrew_crew_ne (h := fun e => hq (by rw [e]; exact hk)), h q hq]

/-! ## Folds over instances -/

/-- A relation to a fixed state that every step of a fold keeps, the fold keeps. -/
theorem forAll_keeps {P : State → Prop} {ks : List Nat} {F : State → Nat → State} (h : ∀ u k, k ∈ ks → P u → P (F u k))
    (h0 : P t) : P (forAll ks F t) := by
  induction ks generalizing t with
  | nil => exact h0
  | cons k r ih => exact ih (fun u j hj => h u j (by simp [hj])) (h t k (by simp) h0)

/-- An update of each phase of a list without repeats, read at one phase. -/
theorem forAll_onPhase {ks : List Nat} {F : Phase → Phase} (h : ks.Nodup) (q : Nat) :
    (forAll ks (fun s ph => s.onPhase ph F) s).phase q = if q ∈ ks then F (s.phase q) else s.phase q := by
  induction ks generalizing s with
  | nil => simp [forAll]
  | cons k r ih =>
    obtain ⟨h1, h2⟩ := List.nodup_cons.mp h
    have := ih (s := s.onPhase k F) h2
    simp only [forAll, List.foldl_cons] at this ⊢
    rw [this]
    by_cases e : q = k
    · subst e; simp [h1, State.onPhase]
    · simp [State.onPhase, setPhase_phase_ne (h := e), e]

theorem crewPhases_nodup {c : Nat} : (crewPhases c).Nodup := by
  simp only [crewPhases]
  exact (List.nodup_range).map (fun a b h => by simpa using h)

theorem mem_crewPhases {c q : Nat} : q ∈ crewPhases c ↔ q / 8 = c := by
  simp only [crewPhases, List.mem_map, List.mem_range]
  constructor
  · rintro ⟨k, hk, rfl⟩; omega
  · intro h; exact ⟨q % 8, by omega, by omega⟩

/-! ## Updates by name -/

@[simp] theorem onCrew_get {k : Crew → Crew} : (s.onCrew n k).get f i = s.get f i := rfl
@[simp] theorem onCrew_phase {k : Crew → Crew} : (s.onCrew n k).phase i = s.phase i := rfl
@[simp] theorem onCrew_phases {k : Crew → Crew} : (s.onCrew n k).phases = s.phases := rfl
@[simp] theorem onCrew_mem {k : Crew → Crew} : (s.onCrew n k).mem = s.mem := rfl
@[simp] theorem onCrew_flash {k : Crew → Crew} : (s.onCrew n k).flash = s.flash := rfl
@[simp] theorem onCrew_now {k : Crew → Crew} : (s.onCrew n k).now = s.now := rfl
@[simp] theorem onCrew_plane {k : Crew → Crew} : (s.onCrew n k).plane i = s.plane i := rfl
@[simp] theorem onCrew_crew {k : Crew → Crew} : (s.onCrew n k).crew n = k (s.crew n) := by simp [State.onCrew]
theorem onCrew_crew_ne {k : Crew → Crew} (h : i ≠ n) : (s.onCrew n k).crew i = s.crew i := setCrew_crew_ne _ _ _ _ h
@[simp] theorem onPhase_get {k : Phase → Phase} : (s.onPhase n k).get f i = s.get f i := rfl
@[simp] theorem onPhase_crew {k : Phase → Phase} : (s.onPhase n k).crew i = s.crew i := rfl
@[simp] theorem onPhase_mem {k : Phase → Phase} : (s.onPhase n k).mem = s.mem := rfl
@[simp] theorem onPhase_flash {k : Phase → Phase} : (s.onPhase n k).flash = s.flash := rfl
@[simp] theorem onPhase_phase {k : Phase → Phase} : (s.onPhase n k).phase n = k (s.phase n) := by simp [State.onPhase]
theorem onPhase_phase_ne {k : Phase → Phase} (h : i ≠ n) : (s.onPhase n k).phase i = s.phase i := setPhase_phase_ne _ _ _ _ h
@[simp] theorem bump_phase : (s.bump f i n).phase j = s.phase j := rfl
@[simp] theorem bump_phases : (s.bump f i n).phases = s.phases := rfl
@[simp] theorem bump_mem : (s.bump f i n).mem = s.mem := rfl
@[simp] theorem bump_flash : (s.bump f i n).flash = s.flash := rfl
@[simp] theorem bump_crew : (s.bump f i n).crew j = s.crew j := rfl
@[simp] theorem bump_crews : (s.bump f i n).crews = s.crews := rfl
@[simp] theorem bump_now : (s.bump f i n).now = s.now := rfl
@[simp] theorem bump_intake : (s.bump f i n).intake = s.intake := rfl
@[simp] theorem bump_plane : (s.bump f i n).plane j = s.plane j := rfl

end Sys2Proof.Machine
end

