-- ==== Sys2Proof/Laws/Instructions.lean ====
section
/-! SUPPORT. The issue of an instruction and its common ends: what acts, and in which state; going on; writing a register;
waiting; delivering an operation. -/

namespace Sys2Proof.Machine

open Sys2Proof

variable {s t u : State} {n op r v k : Nat} {act : PWord → State → State} {f : Fld} {i : Nat}

/-! ## The issue -/

/-- A context that can issue in the present cycle runs, and neither waits nor stalls (R211). -/
theorem canIssue_runs (h : s.canIssue n = true) : s.runs n = true := by
  simp only [State.canIssue, Bool.and_eq_true, beq_iff_eq] at h
  have h2 := List.find?_some h.2
  simp only [State.eligible, Bool.and_eq_true] at h2
  exact h2.1.1

/-- And none of its waits is under way. -/
theorem canIssue_noWait (h : s.canIssue n = true) : (s.ctx n).wait = none := by
  have := canIssue_runs h
  simp only [State.runs, Bool.and_eq_true, Option.isNone_iff_eq_none] at this
  exact this.2

/-- One that can issue waits for no other cycle. -/
theorem toTurn_self (h : s.canIssue n = true) : s.toTurn n = s := by simp [State.toTurn, h]

/-- An instruction that its context issues acts in the state that counts the issue. -/
theorem issue_acts (h : s.Issues n op) (ho : op ∈ opcodes) (hn : n < 8 → op < 0x60) :
    issue n op act s = act (s.word n) (s.issued n) := by
  have h2 : s.fits n op = true := by
    have : 8 ≤ n ∨ op < 0x60 := by omega
    simp [State.fits, h.fetch, h.word, h.pred, ho, this]
  simp only [issue, toTurn_self h.can, h2, h.can, issueNow, h.fetch, h.word, ho, h.pred, h.acts, not_true, if_false, if_true,
    or_self, Bool.false_eq_true, Bool.true_eq_false]

@[simp] theorem issued_ctx : (s.issued n).ctx k = s.ctx k := by unfold State.issued; dsimp only; split <;> rfl
@[simp] theorem issued_now : (s.issued n).now = s.now := by unfold State.issued; dsimp only; split <;> rfl
@[simp] theorem issued_vreg : (s.issued n).vreg k r = s.vreg k r := by simp [State.vreg]
@[simp] theorem issued_intake : (s.issued n).intake = s.intake := by unfold State.issued; dsimp only; split <;> rfl
@[simp] theorem issued_flight : (s.issued n).flight = s.flight := by unfold State.issued; dsimp only; split <;> rfl
@[simp] theorem issued_lane : (s.issued n).lane k = s.lane k := by unfold State.issued; dsimp only; split <;> rfl
@[simp] theorem issued_lanes : (s.issued n).lanes = s.lanes := by unfold State.issued; dsimp only; split <;> rfl
@[simp] theorem issued_crew : (s.issued n).crew k = s.crew k := by unfold State.issued; dsimp only; split <;> rfl
@[simp] theorem issued_phase : (s.issued n).phase k = s.phase k := by unfold State.issued; dsimp only; split <;> rfl
@[simp] theorem issued_mem : (s.issued n).mem = s.mem := by unfold State.issued; dsimp only; split <;> rfl
@[simp] theorem issued_flash : (s.issued n).flash = s.flash := by unfold State.issued; dsimp only; split <;> rfl
theorem issued_get (h : f.reg ≠ .LANE_ISSUE_CNT) : (s.issued n).get f i = s.get f i := by
  unfold State.issued; dsimp only; split
  · exact get_bump_reg h
  · rfl
@[simp] theorem issued_pc : (s.issued n).pc k = s.pc k := issued_get (by decide)
@[simp] theorem issued_lst : (s.issued n).lst k = s.lst k := issued_get (by decide)

/-- Counting the issue changes nothing else. -/
theorem issued_frame : IssueFrame n [] s (s.issued n) := by
  refine ⟨?_, ?_, fun k _ => issued_ctx, fun q _ => issued_phase, fun c _ => issued_crew, fun a => by simp⟩
  · unfold State.issued; dsimp only; split
    · exact SameRegs.bump (fun _ _ _ => rfl) (by simp)
    · exact fun _ _ _ => rfl
  · unfold State.issued; dsimp only; split
    · rw [get_bump_self]; rfl
    · rfl

/-! ## Frames of an instruction -/

variable {l : List FKey}

theorem IssueFrame.mono {l' : List FKey} (h : IssueFrame n l s t) (hl : l ⊆ l') : IssueFrame n l' s t := by
  refine ⟨fun f i hf => h.1 f i (fun e => hf ?_), h.2⟩
  simp only [List.mem_append] at e ⊢
  exact e.imp id (fun x => hl x)

theorem IssueFrame.put {g : Fld} {j : Nat} (h : IssueFrame n l s t) (hk : g.key j ∈ [LANE_STAT.PC.key n] ++ l)
    (hr : g.reg ≠ .LANE_ISSUE_CNT) : IssueFrame n l s (t.put g j v) := by
  refine ⟨h.1.put ?_, ?_, h.2.2.1, h.2.2.2.1.congr rfl, h.2.2.2.2.1.congr rfl, h.2.2.2.2.2.congr rfl rfl⟩
  · simp only [List.mem_append, List.mem_cons, List.not_mem_nil, or_false] at hk ⊢
    exact hk.imp (fun x => .inl x) id
  · rw [get_put_reg (by simpa [LANE_ISSUE_CNT.ISSUED] using hr.symm)]; exact h.2.1

theorem IssueFrame.setCtx {x : Ctx} (h : IssueFrame n l s t) : IssueFrame n l s (t.setCtx n x) := by
  refine ⟨h.1.congr rfl rfl, h.2.1, fun k hk => ?_, h.2.2.2.1.congr rfl, h.2.2.2.2.1.congr rfl, h.2.2.2.2.2.congr rfl rfl⟩
  rw [setCtx_ctx_ne (h := by simpa using hk)]
  exact h.2.2.1 k hk

theorem IssueFrame.congr (h : IssueFrame n l s t) (h1 : u.fld = t.fld) (h2 : u.fuse = t.fuse) (h3 : u.ctxs = t.ctxs)
    (h4 : u.phases = t.phases) (h5 : u.crews = t.crews) (h6 : u.mem = t.mem) (h7 : u.flash = t.flash) : IssueFrame n l s u :=
  ⟨h.1.congr h1 h2, by rw [get_congr h1 h2]; exact h.2.1, fun k hk => by simpa [State.ctx, h3] using h.2.2.1 k hk,
    h.2.2.2.1.congr h4, h.2.2.2.2.1.congr h5, h.2.2.2.2.2.congr h6 h7⟩

/-! ## Going on -/

theorem fall_eq : fall n s = ((s.setCtx n { s.ctx n with loops := (fallLoops (s.pc n) (s.ctx n).loops).2 }).put LANE_STAT.PC n
    (fallLoops (s.pc n) (s.ctx n).loops).1) := rfl

@[simp] theorem fall_ctx : (fall n s).ctx n = { s.ctx n with loops := (fallLoops (s.pc n) (s.ctx n).loops).2 } := by
  simp [fall_eq]
@[simp] theorem fall_pc : (fall n s).pc n = (fallLoops (s.pc n) (s.ctx n).loops).1 % 2 ^ 15 := by
  simp only [fall_eq, State.pc, get_put_self]; rfl
@[simp] theorem fall_vreg : (fall n s).vreg n r = s.vreg n r := by simp [State.vreg, Ctx.v]
@[simp] theorem fall_intake : (fall n s).intake = s.intake := rfl
@[simp] theorem fall_flight : (fall n s).flight = s.flight := rfl
@[simp] theorem fall_lanes : (fall n s).lanes = s.lanes := rfl
@[simp] theorem fall_msh : (fall n s).msh = s.msh := rfl
@[simp] theorem fall_crews : (fall n s).crews = s.crews := rfl
@[simp] theorem fall_phases : (fall n s).phases = s.phases := rfl
@[simp] theorem fall_mem : (fall n s).mem = s.mem := rfl
@[simp] theorem fall_flash : (fall n s).flash = s.flash := rfl
theorem fall_get (h : f.key i ≠ LANE_STAT.PC.key n) : (fall n s).get f i = s.get f i := by rw [fall_eq, get_put_ne h]; rfl

/-- A context that goes on in a state that has its index, loops and calls goes on. -/
theorem goesOn (hp : t.pc n = s.pc n) (hl : (t.ctx n).loops = (s.ctx n).loops) (hr : (t.ctx n).ret = (s.ctx n).ret)
    (hw : (t.ctx n).wait = none) : GoesOn n s (fall n t) := by
  refine ⟨?_, ?_, ?_, ?_⟩ <;> simp [hp, hl, hr, hw]

theorem IssueFrame.fall (h : IssueFrame n l s t) : IssueFrame n l s (fall n t) :=
  (h.setCtx).put (by simp) (by decide)

theorem State.Issues.wait (h : s.Issues n op) : (s.ctx n).wait = none := by
  have := canIssue_runs h.can
  simp only [State.runs, Bool.and_eq_true, Option.isNone_iff_eq_none] at this
  exact this.2

theorem State.Issues.running (h : s.Issues n op) : s.lst n = 3 := by
  have := canIssue_runs h.can
  simp only [State.runs, Bool.and_eq_true, beq_iff_eq] at this
  exact this.1.2

theorem State.Issues.lt (h : s.Issues n op) : n < 12 := by
  have := canIssue_runs h.can
  simp only [State.runs, Bool.and_eq_true, decide_eq_true_eq] at this
  exact this.1.1

/-- An instruction that only goes on changes no register. -/
theorem writesNone (h : s.Issues n op) : WritesNone n s (fall n (s.issued n)) :=
  ⟨goesOn (by simp) (by simp) (by simp) (by simpa using h.wait), by simp, by simp, issued_frame.fall⟩

@[simp] theorem setV_pc : (s.setV n r v).pc k = s.pc k := rfl
@[simp] theorem setV_ctx : (s.setV n r v).ctx n = (s.ctx n).setV r v := by simp [State.setV, State.onCtx]
@[simp] theorem setV_lst : (s.setV n r v).lst k = s.lst k := rfl
@[simp] theorem setV_now : (s.setV n r v).now = s.now := rfl
theorem IssueFrame.setV (h : IssueFrame n l s t) : IssueFrame n l s (t.setV n r v) := h.setCtx

theorem setV_vreg (h : k < 16) (hr : r < 16) : (s.setV n r v).vreg n k = if k = r then v % 2 ^ 32 else s.vreg n k := by
  simp only [State.vreg, setV_ctx, Ctx.v, Ctx.setV, Nat.mod_eq_of_lt h, Nat.mod_eq_of_lt hr, tget_tset]

/-- An instruction that writes register r and goes on. -/
theorem writesReg (h : s.Issues n op) (hr : r < 16) : WritesReg n r v s (fall n ((s.issued n).setV n r v)) := by
  refine ⟨goesOn (by simp) (by simp [Ctx.setV]) (by simp [Ctx.setV]) (by simpa [Ctx.setV] using h.wait), ?_, ?_, ?_,
    issued_frame.setV.fall⟩
  · rw [fall_vreg, setV_vreg hr hr, if_pos rfl]
  · intro k hk hne; rw [fall_vreg, setV_vreg hk hr, if_neg hne, issued_vreg]
  · simp [Ctx.setV]

@[simp] theorem setLst_vreg {j : Nat} : (s.setLst k v).vreg j r = s.vreg j r := by simp [State.vreg, State.setLst]
@[simp] theorem setLst_pc {j : Nat} : (s.setLst k v).pc j = s.pc j := by
  simp only [State.setLst, State.pc]; exact get_put_lo (by decide)
@[simp] theorem onCtx_pc {j : Nat} {g : Ctx → Ctx} : (s.onCtx k g).pc j = s.pc j := rfl
@[simp] theorem onCtx_lst {j : Nat} {g : Ctx → Ctx} : (s.onCtx k g).lst j = s.lst j := rfl
@[simp] theorem onCtx_ctx {g : Ctx → Ctx} : (s.onCtx k g).ctx k = g (s.ctx k) := by simp [State.onCtx]
@[simp] theorem setLst_ctx {j : Nat} : (s.setLst k v).ctx j = s.ctx j := by simp [State.setLst]

/-- The register fields of a word name registers. -/
theorem word_rd_lt : (s.word n).rd < 16 := by
  simp only [State.word, PWord.ofNat, bits]; exact Nat.mod_lt _ (by norm_num)
theorem word_rs_lt : (s.word n).rs < 16 := by
  simp only [State.word, PWord.ofNat, bits]; exact Nat.mod_lt _ (by norm_num)

/-- An arithmetic instruction writes its register. -/
theorem arith_writes {val : PWord → Ctx → Nat} (h : s.Issues n op) (ho : op ∈ opcodes) (hn : op < 0x60) :
    Does (arith n op val s) (WritesReg n (s.word n).rd (val (s.word n) (s.ctx n)) s) := by
  refine ⟨_, rfl, ?_⟩
  rw [issue_acts h ho (fun _ => hn), issued_ctx]
  exact writesReg h word_rd_lt

/-! ## Waiting -/

/-- The state in which a wait that context n issues is judged. -/
def State.waiting (s : State) (n : Nat) (c : Cond) (r v : Nat) : State :=
  ((s.issued n).onCtx n (fun x => { x with wait := some ⟨c, r, s.now, v⟩ })).setLst n 4

theorem waiting_get {c : Cond} (h1 : f.reg ≠ .LANE_ISSUE_CNT) (h2 : f.key i ≠ LANE_STAT.STATE.key n) :
    (s.waiting n c r v).get f i = s.get f i := by
  rw [State.waiting, State.setLst, get_put_ne h2]
  exact issued_get h1

@[simp] theorem waiting_now {c : Cond} : (s.waiting n c r v).now = s.now := issued_now
@[simp] theorem waiting_markNo {c : Cond} : (s.waiting n c r v).markNo = s.markNo := waiting_get (by decide) (by simp [Fld.key, TB_NOW_MARK.MARK, LANE_STAT.STATE])

/-- Stamps compare the same in states of one time. -/
theorem reached_congr {st : Stamp} (h1 : t.now = s.now) (h2 : t.markStart = s.markStart) (h3 : t.markLen = s.markLen)
    (h4 : t.pastLens = s.pastLens) (h5 : t.strobe = s.strobe) (h6 : t.markNo = s.markNo)
    (h7 : t.get TB_CTL.PERIOD 0 = s.get TB_CTL.PERIOD 0) : t.reached st = s.reached st := by
  have hl : t.lenOf = s.lenOf := by funext m; simp only [State.lenOf, h3, h4, h5, h6, h7]
  have hn : ∀ k x, t.normN k x = s.normN k x := by
    intro k; induction k with
    | zero => intro x; rfl
    | succ k ih => intro x; simp only [State.normN, hl, ih]
  have hs : t.stampNow = s.stampNow := by simp only [State.stampNow, h6, State.ticks, h1, h2]
  have hm : t.norm = s.norm := by funext x; exact hn 8 x
  simp only [State.reached, State.before, hm, hs]

theorem issued_time : (s.issued n).markStart = s.markStart ∧ (s.issued n).markLen = s.markLen ∧
    (s.issued n).pastLens = s.pastLens ∧ (s.issued n).strobe = s.strobe ∧ (s.issued n).tracks = s.tracks := by
  unfold State.issued; dsimp only; split <;> exact ⟨rfl, rfl, rfl, rfl, rfl⟩

theorem waiting_waitsFor {c : Cond} : WaitsFor n c r v s (s.waiting n c r v) := by
  refine ⟨by simp [State.waiting, State.setLst, State.onCtx], ?_, ?_, by simp [State.waiting, State.setLst, State.onCtx],
    by simp [State.waiting, State.setLst, State.onCtx], by simp [State.waiting, State.setLst, State.onCtx],
    by simp [State.waiting, State.setLst, State.onCtx], ?_⟩
  · simp only [State.waiting, State.lst, State.setLst, get_put_self]; rfl
  · simp only [State.waiting, State.pc, State.setLst]; rw [get_put_lo (by decide)]; exact issued_pc
  · exact ((issued_frame.mono (by simp)).setCtx).put (by simp) (by decide)

/-- A condition that is no lane barrier holds in the judged state as it does at the issue. -/
theorem waiting_outcome {c c' : Cond} (hw : (s.ctx n).wait = none) (hc : ∀ m k, c' ≠ .barl m k) :
    (s.waiting n c r v).outcome n c' = s.outcome n c' := by
  obtain ⟨e1, e2, e3, e4, e5⟩ := issued_time (s := s) (n := n)
  cases c' with
  | tick st =>
    simp only [State.outcome]
    rw [reached_congr (s := s) waiting_now e1 e2 e3 e4 waiting_markNo
      (waiting_get (by decide) (by simp [Fld.key, TB_CTL.PERIOD, LANE_STAT.STATE]))]
  | mark m => simp only [State.outcome, waiting_markNo]
  | setp u =>
    have : (s.waiting n c r v).trackOf n u = s.trackOf n u := by
      simp only [State.trackOf]; rw [show (s.waiting n c r v).tracks = s.tracks from e5]
    simp only [State.outcome, this]
  | arrive w g =>
    simp only [State.outcome]
    rw [waiting_get (by decide) (by simp [Fld.key, FCW_ARRIVALS.ARRIVALS, LANE_STAT.STATE])]
  | barl m k => exact absurd rfl (hc m k)
  | barx k => rfl
  | sig m =>
    have : (s.waiting n c r v).sigSeen n = s.sigSeen n := by
      rw [State.sigSeen, waiting_waitsFor.1, State.sigSeen, hw]
      dsimp only
      rw [waiting_now, if_pos rfl, waiting_get (by decide) (by simp [Fld.key, LANE_SIG.SIG, LANE_STAT.STATE])]
    simp only [State.outcome, this]
  | endless => rfl
  | faulted => rfl
  | access => rfl
  | rdt => rfl

theorem beginWait_eq {c : Cond} : beginWait n c r v (s.issued n) =
    match (s.waiting n c r v).outcome n c with
    | some _ => tryEnd n (s.waiting n c r v)
    | none => s.waiting n c r v := by
  simp only [beginWait, issued_now]; rfl

/-- A wait whose condition does not hold at its issue waits. -/
theorem beginWait_waits {c : Cond} (hw : (s.ctx n).wait = none) (hc : ∀ m k, c ≠ .barl m k) (ho : s.outcome n c = none) :
    WaitsFor n c r v s (beginWait n c r v (s.issued n)) := by
  rw [beginWait_eq, waiting_outcome hw hc, ho]
  exact waiting_waitsFor

/-- A field of a key that holds 3 in both states reads the same in both. -/
theorem get_of_lst (h1 : s.lst n = 3) (h2 : t.lst n = 3) (h : f.key i = LANE_STAT.STATE.key n) : t.get f i = s.get f i := by
  have key : ∀ u : State, u.lst n = 3 → u.get f i = 3 := by
    intro u hu
    simp only [State.lst, State.get] at hu ⊢
    rw [h]
    cases e : flook u.fld (LANE_STAT.STATE.key n) with
    | some v => simpa [e] using hu
    | none =>
      cases e' : flook u.fuse (LANE_STAT.STATE.key n) with
      | some v => simpa [e, e'] using hu
      | none => rw [e, e'] at hu; exact absurd hu (by simp [LANE_STAT.STATE])
  rw [key s h1, key t h2]

/-- A context that runs again in the state that a frame left it in but for its STATE. -/
theorem state_back (h : s.lst n = 3) (F : IssueFrame n [LANE_STAT.STATE.key n] s t) : IssueFrame n [] s (t.setLst n 3) := by
  have F2 : IssueFrame n [LANE_STAT.STATE.key n] s (t.setLst n 3) := F.put (by simp) (by decide)
  refine ⟨fun f i hf => ?_, F2.2⟩
  by_cases e : f.key i = LANE_STAT.STATE.key n
  · refine get_of_lst h ?_ e
    simp only [State.lst, State.setLst, get_put_self]; rfl
  · refine F2.1 f i ?_
    simp only [List.mem_append, List.mem_cons, List.not_mem_nil, or_false] at hf ⊢
    tauto

/-- The end of a wait for anything but a signal. -/
theorem endWait_eq {c : Cond} {o tm a : Nat} (hw : (s.ctx n).wait = some ⟨c, r, a, tm⟩) (hs : ∀ m, c ≠ .sig m) :
    endWait n o s = fall n ((((s.rested n).onCtx n (fun k => { k with wait := none })).setV n r o).setLst n 3) := by
  unfold endWait
  rw [hw]
  cases c with
  | sig m => exact absurd rfl (hs m)
  | _ => rfl

/-- A wait, of no barrier and no signal, whose condition holds ends with its outcome. -/
theorem tryEnd_met {c : Cond} {o tm a : Nat} (hw : (s.ctx n).wait = some ⟨c, r, a, tm⟩) (hc : ∀ m k, c ≠ .barl m k)
    (hs : ∀ m, c ≠ .sig m) (ho : s.outcome n c = some o) :
    tryEnd n s = fall n ((((s.rested n).onCtx n (fun k => { k with wait := none })).setV n r o).setLst n 3) := by
  rw [← endWait_eq hw hs]
  unfold tryEnd
  rw [hw]
  dsimp only
  rw [ho]
  cases c with
  | barl m k => exact absurd rfl (hc m k)
  | _ => rfl

/-- A context that waits still does where only its next issue is put off. -/
theorem WaitsFor.rested {c : Cond} (h : WaitsFor n c r v s t) : WaitsFor n c r v s (t.rested n) := h

/-- The end of a wait that context n began as it issued. -/
theorem writesReg_back (h : s.Issues n op) (hr : r < 16) {o a : Nat} {c : Cond} (W : WaitsFor n c a v s t) :
    WritesReg n r o s (fall n (((t.onCtx n (fun k => { k with wait := none })).setV n r o).setLst n 3)) := by
  obtain ⟨-, -, hpc, hreg, hp, hl, hrt, F⟩ := W
  refine ⟨goesOn ?_ ?_ ?_ ?_, ?_, ?_, ?_, ?_⟩
  · rw [setLst_pc, setV_pc, onCtx_pc, hpc]
  · rw [setLst_ctx, setV_ctx, onCtx_ctx]; exact hl
  · rw [setLst_ctx, setV_ctx, onCtx_ctx]; exact hrt
  · rw [setLst_ctx, setV_ctx, onCtx_ctx]; rfl
  · rw [fall_vreg, setLst_vreg, setV_vreg hr hr, if_pos rfl]
  · intro k hk hne
    rw [fall_vreg, setLst_vreg, setV_vreg hk hr, if_neg hne]
    simp only [State.vreg, onCtx_ctx, Ctx.v]; rw [hreg]
  · rw [fall_ctx, setLst_ctx, setV_ctx, onCtx_ctx]; exact hp
  · exact (state_back h.running ((F.setCtx (x := { t.ctx n with wait := none })).setV (r := r) (v := o))).fall

/-- A wait, of no barrier and no signal, whose condition holds at its issue is met at once. -/
theorem beginWait_met {c : Cond} {o : Nat} (h : s.Issues n op) (hr : r < 16) (hc : ∀ m k, c ≠ .barl m k) (hs : ∀ m, c ≠ .sig m)
    (ho : s.outcome n c = some o) : WritesReg n r o s (beginWait n c r v (s.issued n)) := by
  have hw := canIssue_noWait h.can
  rw [beginWait_eq, waiting_outcome hw hc, ho]
  show WritesReg n r o s (tryEnd n (s.waiting n c r v))
  rw [tryEnd_met waiting_waitsFor.1 hc hs ((waiting_outcome hw hc).trans ho)]
  exact writesReg_back (t := (s.waiting n c r v).rested n) h hr (waiting_waitsFor (c := c)).rested

end Sys2Proof.Machine
end

