-- ==== Sys2Proof/Laws/Memory.lean ====
section
/-! SUPPORT. The laws of the memories: a read after a write, and that every memory operation keeps the canonical form. -/

namespace Sys2Proof.Machine

open Sys2Proof

variable {d b : Byte} {m : List Host.Cell} {a x lo hi : Nat}

@[simp] theorem mget_nil : mget d [] a = d := rfl

/-- A canonical memory is its head below a canonical rest. -/
theorem wf_cons {e : Host.Cell} :
    Memory.wf d (e :: m) ↔ (∀ y ∈ m, e.1 < y.1) ∧ e.2 ≠ d ∧ Memory.wf d m := by
  simp only [Memory.wf, List.pairwise_cons, List.mem_cons, forall_eq_or_imp]
  tauto

/-- Every address of a memory after a write was there before, or is the address written. -/
theorem mem_mset {e : Host.Cell} (h : e ∈ mset d m a b) : e = (a, b) ∨ e ∈ m := by
  induction m with
  | nil => simp only [mset] at h; split at h <;> simp_all
  | cons y t ih =>
    obtain ⟨j, w⟩ := y
    simp only [mset] at h
    split at h
    · split at h <;> simp_all
    · split at h
      · split at h <;> simp_all; tauto
      · rcases List.mem_cons.mp h with h | h
        · simp [h]
        · rcases ih h with h | h <;> simp [h]

/-- A write keeps the canonical form. -/
theorem mset_wf (h : Memory.wf d m) : Memory.wf d (mset d m a b) := by
  induction m with
  | nil => simp only [mset]; split <;> simp_all [Memory.wf]
  | cons y t ih =>
    obtain ⟨j, w⟩ := y
    obtain ⟨h1, h2, h3⟩ := wf_cons.mp h
    simp only [mset]
    split
    · split
      · exact h
      · refine wf_cons.mpr ⟨?_, by assumption, h⟩
        intro y hy
        rcases List.mem_cons.mp hy with rfl | hy
        · assumption
        · exact lt_trans ‹_› (h1 y hy)
    · split
      · split
        · exact h3
        · subst_vars; exact wf_cons.mpr ⟨h1, by assumption, h3⟩
      · refine wf_cons.mpr ⟨?_, h2, ih h3⟩
        intro y hy
        rcases mem_mset hy with rfl | hy
        · simp; omega
        · exact h1 y hy

/-- A write of bytes keeps the canonical form. -/
theorem msetList_wf {l : List Byte} (h : Memory.wf d m) : Memory.wf d (msetList d m a l) := by
  induction l generalizing m a with
  | nil => exact h
  | cons y t ih => exact ih (mset_wf h)

/-- Putting a range back to the default keeps the canonical form. -/
theorem mclear_wf (h : Memory.wf d m) : Memory.wf d (mclear m lo hi) :=
  ⟨h.1.sublist List.filter_sublist, fun e he => h.2 e (List.mem_filter.mp he).1⟩

/-- No entry lies at an address that every entry exceeds. -/
theorem mget_of_lt (h : ∀ y ∈ m, a < y.1) : mget d m a = d := by
  induction m with
  | nil => rfl
  | cons y t ih =>
    have := h y (by simp)
    simp only [mget]
    rw [if_neg (by omega), ih (fun z hz => h z (by simp [hz]))]

/-- A read after a write of the same byte gives the byte; of another byte, what it gave before. -/
theorem mget_mset (h : Memory.wf d m) : mget d (mset d m a b) x = if x = a then b else mget d m x := by
  induction m with
  | nil => grind [mset, mget]
  | cons y t ih =>
    obtain ⟨j, w⟩ := y
    obtain ⟨h1, h2, h3⟩ := wf_cons.mp h
    have hx : x = j → mget d t x = d := fun e => mget_of_lt (fun y hy => e ▸ h1 y hy)
    have ha : a < j → mget d t a = d := fun e => mget_of_lt (fun y hy => lt_trans e (h1 y hy))
    simp only [mset]
    split
    · split
      · by_cases e : x = a
        · subst e; simp [mget, ha ‹_›, show j ≠ x by omega]; simp_all
        · simp [e]
      · by_cases e : x = a
        · simp [mget, e]
        · simp [mget, e, show a ≠ x by omega]
    · split
      · split
        · by_cases e : x = a
          · subst_vars; simp [hx]
          · simp [mget, e]; intro h; omega
        · by_cases e : x = a
          · simp [mget, e]
          · simp [mget, e]; rw [if_neg (by omega), if_neg (by omega)]
      · by_cases e : x = a
        · subst e; simp [mget, ih h3, show j ≠ x by omega]
        · simp [mget, ih h3, e]

/-- A write of bytes leaves every byte outside them. -/
theorem mget_msetList_ne {l : List Byte} (h : Memory.wf d m) (hx : x < a ∨ a + l.length ≤ x) :
    mget d (msetList d m a l) x = mget d m x := by
  induction l generalizing m a with
  | nil => rfl
  | cons y t ih =>
    simp only [List.length_cons] at hx
    rw [msetList, ih (mset_wf h) (by omega), mget_mset h, if_neg (by omega)]

/-- A write of bytes puts byte k of them at its address. -/
theorem mget_msetList {l : List Byte} {k : Nat} (h : Memory.wf d m) (hk : k < l.length) :
    mget d (msetList d m a l) (a + k) = l.getD k 0 := by
  induction l generalizing m a k with
  | nil => simp at hk
  | cons y t ih =>
    rw [msetList]
    cases k with
    | zero => rw [mget_msetList_ne (mset_wf h) (by omega), mget_mset h]; simp
    | succ k =>
      have := ih (m := mset d m a y) (a := a + 1) (k := k) (mset_wf h) (by simpa using hk)
      rw [show a + (k + 1) = a + 1 + k by omega, this]; simp

end Sys2Proof.Machine
end

