-- ==== Sys2Proof/Laws/Kept.lean ====
section
/-! SUPPORT. What the named operations keep: `Kept` is reflexive and transitive, and a change of a state component other
than the queue, the register values and the memories keeps it. -/

namespace Sys2Proof.Machine

open Sys2Proof

variable {s t u : State}

@[refl] theorem Kept.refl (s : State) : Kept s s := ⟨rfl, id⟩

theorem Kept.trans (h : Kept s t) (h' : Kept t u) : Kept s u := ⟨h'.1.trans h.1, fun i => h'.2 (h.2 i)⟩

/-- Only the queue, the register values and the memories matter. -/
theorem Kept.congr (h : Kept s t) (hp : u.pending = t.pending) (hm : u.mem = t.mem) (hf : u.flash = t.flash)
    (hr : u.fld = t.fld) (hz : u.fuse = t.fuse) : Kept s u :=
  ⟨hp.trans h.1, fun i => let j := h.2 i; ⟨hm ▸ j.1, hf ▸ j.2, hr ▸ j.3, hz ▸ j.4⟩⟩

/-- A record update outside those components. -/
theorem upd_kept {x1 x2 x3 x4 x7 x8 x9 x10 x11 x12 x13 x14 x15 x16 x17 x18 x19 x20 x21 x22 x23 x24 x25 x26 x27 x28
    x29 x30 x31 x32 x33 x34 x35 x36 x37 x38 x39 x40 x41 x42 x43 x44 x45 x46 x47 x48 x49 x52 x53 x54 x55 x56 x57 x58
    x59 x60 x61 x62 x63 x64 x65 x66 x67 x68 x69 x70 x71 x72 x73 x74 x75 x76 x77 x78 x79 x80 x81 x82 x83 x84 x85 x86
    x87 x88 x89 x90 x91 x92 x93 x94 x95 x96 x97 x98 x99 x100 x101 x102 x103 x104 x105 x106 x107 x108 x109 x110 x111
    x112 x113 x114 x115 x116 x117 x118 x119 x120 x121 x122 x123 x124 x125 x126 x127 x128 x129 x130 x131 x132 x133
    x134 x135 x136 x137 x138} (h : Kept s t) :
    Kept s ⟨t.pending, x1, x2, x3, x4, t.fld, t.fuse, x7, x8, x9, x10, x11, x12, x13, x14, x15, x16, x17, x18,
      x19, x20, x21, x22, x23, x24, x25, x26, x27, x28, x29, x30, x31, x32, x33, x34, x35, x36, x37, x38, x39,
      x40, x41, x42, x43, x44, x45, x46, x47, x48, x49, t.mem, t.flash, x52, x53, x54, x55, x56, x57, x58,
      x59, x60, x61, x62, x63, x64, x65, x66, x67, x68, x69, x70, x71, x72, x73, x74, x75, x76, x77, x78, x79,
      x80, x81, x82, x83, x84, x85, x86, x87, x88, x89, x90, x91, x92, x93, x94, x95, x96, x97, x98, x99,
      x100, x101, x102, x103, x104, x105, x106, x107, x108, x109, x110, x111, x112, x113, x114, x115, x116,
      x117, x118, x119, x120, x121, x122, x123, x124, x125, x126, x127, x128, x129, x130, x131, x132, x133,
      x134, x135, x136, x137, x138⟩ :=
  h.congr rfl rfl rfl rfl rfl

/-- A choice of which neither arm breaks it; the arm taken otherwise is at hand for the other. -/
theorem ite_kept {c : Prop} [Decidable c] {a b : State} (hb : Kept s b) (ha : Kept s b → Kept s a) :
    Kept s (if c then a else b) := by
  split
  · exact ha hb
  · exact hb

theorem ite_fst_kept {β : Type} {c : Prop} [Decidable c] {a b : State × β} (hb : Kept s b.1) (ha : Kept s b.1 → Kept s a.1) :
    Kept s (if c then a else b).1 := by
  split
  · exact ha hb
  · exact hb

/-- A fold of steps that keep it. -/
theorem foldl_kept {α : Type} {l : List α} {f : State → α → State} (h : Kept s t)
    (hf : ∀ u x, Kept s u → Kept s (f u x)) : Kept s (l.foldl f t) := by
  induction l generalizing t with
  | nil => exact h
  | cons x r ih => exact ih (hf _ _ h)

theorem forAll_kept {l : List Nat} {f : State → Nat → State} (h : Kept s t)
    (hf : ∀ u x, Kept s u → Kept s (f u x)) : Kept s (forAll l f t) := foldl_kept h hf

/-- A fold of steps that answer a state with something else. -/
theorem foldl_fst_kept {α β : Type} {l : List α} {f : State × β → α → State × β} {p : State × β} (h : Kept s p.1)
    (hf : ∀ q x, Kept s q.1 → Kept s (f q x).1) : Kept s (l.foldl f p).1 := by
  induction l generalizing p with
  | nil => exact h
  | cons x r ih => exact ih (hf _ _ h)

/-- An outcome that goes on and keeps it. -/
def Goes (s : State) (o : Out) : Prop := ∃ u, o = .next u ∧ Kept s u

theorem next_goes (h : Kept s u) : Goes s (.next u) := ⟨u, rfl, h⟩

theorem ite_goes {c : Prop} [Decidable c] {a b : Out} (ha : Goes s a) (hb : Goes s b) :
    Goes s (if c then a else b) := by
  split
  · exact ha
  · exact hb

/-! ## Register values -/

/-- The row of a mapped field. -/
theorem mapped_row {f : Fld} (hf : f.mapped) : ∃ g ∈ f.reg.fields, g.lo = f.lo ∧ g.width = f.width := by
  obtain ⟨g, hg, h⟩ := List.any_eq_true.mp hf
  simp only [Bool.and_eq_true, beq_iff_eq] at h
  exact ⟨g, hg, h.1, by simp [Fld.width, h.1, h.2]⟩

theorem fitList_fset {l : List (FKey × Nat)} {f : Fld} {i v : Nat} (hf : f.mapped) (hv : v < 2 ^ f.width)
    (h : fitList l) : fitList (fset l (f.key i) v) := by
  have h0 : ∃ g ∈ (f.key i).reg.fields, g.lo = (f.key i).lo ∧ v < 2 ^ g.width := by
    obtain ⟨g, hg, h1, h2⟩ := mapped_row hf
    exact ⟨g, hg, h1, h2 ▸ hv⟩
  induction l with
  | nil => intro e he; simp only [fset, List.mem_singleton] at he; subst he; exact h0
  | cons y r ih =>
    have hy := h y (by simp)
    have hr : fitList r := fun e he => h e (by simp [he])
    intro e he
    simp only [fset] at he
    split at he
    · rcases List.mem_cons.mp he with rfl | he
      · exact h0
      · exact hr e he
    · split at he
      · rcases List.mem_cons.mp he with rfl | he
        · exact h0
        · exact h e he
      · rcases List.mem_cons.mp he with rfl | he
        · exact hy
        · exact ih hr e he

theorem put_kept {f : Fld} {i v : Nat} (h : Kept s t) (hf : f.mapped) : Kept s (t.put f i v) :=
  ⟨h.1, fun j => let k := h.2 j; ⟨k.1, k.2, fitList_fset hf (Nat.mod_lt _ (by positivity)) k.3, k.4⟩⟩

theorem putWas_kept {f : Fld} {i v : Nat} (h : Kept s t) : Kept s (t.putWas f i v) := upd_kept h
theorem clearBits_kept {f : Fld} {i v : Nat} (h : Kept s t) (hf : f.mapped) : Kept s (t.clearBits f i v) :=
  putWas_kept (put_kept h hf)
theorem clearRipe_kept {f : Fld} {i : Nat} (h : Kept s t) (hf : f.mapped) : Kept s (t.clearRipe f i) :=
  putWas_kept (put_kept h hf)
theorem setOver_kept {f : Fld} {i : Nat} (h : Kept s t) (hf : f.mapped) : Kept s (t.setOver f i) := putWas_kept (put_kept h hf)
theorem setCame_kept {f : Fld} {i n : Nat} (h : Kept s t) : Kept s (t.setCame f i n) := upd_kept h
theorem setOverBit_kept {f : Fld} {i k : Nat} (h : Kept s t) (hf : f.mapped) : Kept s (t.setOverBit f i k) :=
  putWas_kept (put_kept h hf)
theorem mark_kept {f : Fld} {i : Nat} {b : Bool} (h : Kept s t) (hf : f.mapped) : Kept s (t.mark f i b) := put_kept h hf
theorem putI_kept {f : Fld} {i : Nat} {z : Int} (h : Kept s t) (hf : f.mapped) : Kept s (t.putI f i z) := put_kept h hf
theorem bump_kept {f : Fld} {i n : Nat} (h : Kept s t) (hf : f.mapped) : Kept s (t.bump f i n) :=
  setCame_kept (put_kept h hf)
theorem raiseTo_kept {f : Fld} {i n : Nat} (h : Kept s t) (hf : f.mapped) : Kept s (t.raiseTo f i n) :=
  setCame_kept (put_kept h hf)
theorem wrap_kept {f : Fld} {i : Nat} (h : Kept s t) (hf : f.mapped) : Kept s (t.wrap f i) := put_kept h hf
theorem putBit_kept {f : Fld} {i k : Nat} {b : Bool} (h : Kept s t) (hf : f.mapped) : Kept s (t.putBit f i k b) :=
  put_kept h hf

/-- A register file cut down to some of its entries still fits. -/
theorem fitList_filter {l : List (FKey × Nat)} {p : FKey × Nat → Bool} (h : fitList l) : fitList (l.filter p) :=
  fun e he => h e (List.mem_filter.mp he).1

/-! ## Memories -/

theorem mem_kept {m : List Host.Cell} (h : Kept s t) (hm : Memory.wf 0 t.mem → Memory.wf 0 m) :
    Kept s { t with mem := m } := ⟨h.1, fun i => let j := h.2 i; ⟨hm j.1, j.2, j.3, j.4⟩⟩

theorem flash_kept {m : List Host.Cell} (h : Kept s t) (hm : Memory.wf 0xFF#8 t.flash → Memory.wf 0xFF#8 m) :
    Kept s { t with flash := m } := ⟨h.1, fun i => let j := h.2 i; ⟨j.1, hm j.2, j.3, j.4⟩⟩

theorem wr_kept {n a v : Nat} (h : Kept s t) : Kept s (t.wr n a v) := mem_kept h msetList_wf

theorem wrBytes_kept {a : Nat} {l : List Byte} (h : Kept s t) : Kept s (t.wrBytes a l) :=
  (mem_kept (m := msetList 0 t.mem a l) h msetList_wf).congr rfl rfl rfl rfl rfl

end Sys2Proof.Machine
end

