-- ==== Sys2Proof/Laws/KeptOps.lean ====
section
/-! SUPPORT. What the operations of Machine/Ops.lean keep. -/

namespace Sys2Proof.Machine

open Sys2Proof

variable {s t : State}

theorem setCrew_kept {a1 : Nat} {a2 : Crew} (h : Kept s t) :
    Kept s (State.setCrew t a1 a2) := by
  unfold State.setCrew
  repeat' first
    | with_reducible first
        | assumption | apply Kept.refl
    | intro _
    | decide
    | split
    | (with_reducible apply upd_kept); with_reducible first
        | assumption

theorem onCrew_kept {a1 : Nat} {a2 : Crew → Crew} (h : Kept s t) :
    Kept s (State.onCrew t a1 a2) := by
  unfold State.onCrew
  repeat' with_reducible first
    | assumption | apply setCrew_kept

theorem setPhase_kept {a1 : Nat} {a2 : Phase} (h : Kept s t) :
    Kept s (State.setPhase t a1 a2) := by
  unfold State.setPhase
  repeat' first
    | with_reducible first
        | assumption | apply Kept.refl
    | intro _
    | decide
    | split
    | (with_reducible apply upd_kept); with_reducible first
        | assumption

theorem onPhase_kept {a1 : Nat} {a2 : Phase → Phase} (h : Kept s t) :
    Kept s (State.onPhase t a1 a2) := by
  unfold State.onPhase
  repeat' with_reducible first
    | assumption | apply setPhase_kept

theorem setPlane_kept {a1 : Nat} {a2 : Plane} (h : Kept s t) :
    Kept s (State.setPlane t a1 a2) := by
  unfold State.setPlane
  repeat' first
    | with_reducible first
        | assumption | apply Kept.refl
    | intro _
    | decide
    | split
    | (with_reducible apply upd_kept); with_reducible first
        | assumption

theorem onPlane_kept {a1 : Nat} {a2 : Plane → Plane} (h : Kept s t) :
    Kept s (State.onPlane t a1 a2) := by
  unfold State.onPlane
  repeat' with_reducible first
    | assumption | apply setPlane_kept

theorem latchStatus_kept {a0 : Nat} {a1 : Nat} {a2 : Nat} {a3 : Nat} (h : Kept s t) :
    Kept s (latchStatus a0 a1 a2 a3 t) := by
  unfold latchStatus
  dsimp only
  repeat' first
    | with_reducible first
        | assumption | apply Kept.refl
    | intro _
    | decide
    | split
    | (with_reducible apply upd_kept); with_reducible first
        | assumption

theorem raiseEv_kept {a1 : Event} (h : Kept s t) :
    Kept s (State.raiseEv t a1) := by
  unfold State.raiseEv
  dsimp only
  repeat' first
    | with_reducible first
        | assumption | apply ite_kept | apply bump_kept | apply onCrew_kept
    | intro _
    | decide
    | split
    | (with_reducible apply upd_kept); with_reducible first
        | assumption | apply ite_kept | apply bump_kept | apply onCrew_kept

theorem raise_kept {a1 : Nat} {a2 : Nat} {a3 : Nat} {a4 : optParam Nat 0} {a5 : optParam Nat 0} (h : Kept s t) :
    Kept s (State.raise t a1 a2 a3 a4 a5) := by
  unfold State.raise
  repeat' with_reducible first
    | assumption | apply raiseEv_kept

theorem raiseCrew_kept {a1 : Nat} {a2 : Nat} {a3 : optParam Nat 0} {a4 : optParam Nat 0} (h : Kept s t) :
    Kept s (State.raiseCrew t a1 a2 a3 a4) := by
  unfold State.raiseCrew
  repeat' with_reducible first
    | assumption | apply raise_kept

theorem raisePlane_kept {a1 : Nat} {a2 : Nat} {a3 : optParam Nat 0} {a4 : optParam Nat 0} (h : Kept s t) :
    Kept s (State.raisePlane t a1 a2 a3 a4) := by
  unfold State.raisePlane
  repeat' with_reducible first
    | assumption | apply raise_kept

theorem setCst_kept {a1 : Nat} {a2 : Nat} (h : Kept s t) :
    Kept s (State.setCst t a1 a2) := by
  unfold State.setCst
  repeat' first
    | with_reducible first
        | assumption | apply put_kept
    | intro _
    | decide

end Sys2Proof.Machine
end

