-- ==== Sys2Proof/Laws/KeptMemory.lean ====
section
/-! SUPPORT. What the operations of Machine/Memory.lean keep. -/

namespace Sys2Proof.Machine

open Sys2Proof

variable {s t : State}

theorem renew_kept {a1 : Nat} {a2 : Nat} (h : Kept s t) :
    Kept s (State.renew t a1 a2) := by
  unfold State.renew
  repeat' first
    | with_reducible first
        | assumption | apply Kept.refl
    | intro _
    | decide
    | split
    | (with_reducible apply upd_kept); with_reducible first
        | assumption

theorem setBank_kept {a1 : Nat} {a2 : Nat} (h : Kept s t) :
    Kept s (State.setBank t a1 a2) := by
  unfold State.setBank
  repeat' first
    | with_reducible first
        | assumption | apply put_kept
    | intro _
    | decide

theorem uncorrectable_kept {a0 : Nat} (h : Kept s t) :
    Kept s (uncorrectable a0 t) := by
  unfold uncorrectable
  dsimp only
  repeat' first
    | with_reducible first
        | assumption | apply ite_kept | apply bump_kept | apply put_kept | apply raise_kept
    | intro _
    | decide
    | split
    | (with_reducible apply upd_kept); with_reducible first
        | assumption

theorem corrected_kept {a0 : Nat} {a1 : Nat} (h : Kept s t) :
    Kept s (corrected a0 a1 t) := by
  unfold corrected
  dsimp only
  repeat' first
    | with_reducible first
        | assumption | apply ite_kept | apply bump_kept | apply raise_kept
    | intro _
    | decide
    | split
    | (with_reducible apply upd_kept); with_reducible first
        | assumption | apply ite_kept | apply bump_kept

theorem readCheck_kept {a0 : Nat} {a1 : Nat} (h : Kept s t) :
    Kept s (readCheck a0 a1 t).1 := by
  unfold readCheck
  dsimp only
  repeat' first
    | with_reducible first
        | assumption | apply ite_kept | apply ite_fst_kept | apply corrected_kept | apply uncorrectable_kept
    | intro _
    | decide
    | split

theorem readChecks_kept {a0 : Nat} {a1 : Nat} (h : Kept s t) :
    Kept s (readChecks a0 a1 t).1 := by
  unfold readChecks
  repeat' first
    | with_reducible first
        | assumption | apply ite_kept | apply ite_fst_kept | apply foldl_kept | apply foldl_fst_kept
        | apply readCheck_kept
    | intro _

end Sys2Proof.Machine
end

