-- ==== Sys2Proof/Laws/KeptPhases.lean ====
section
/-! SUPPORT. What the operations of Machine/Phases.lean keep. -/

namespace Sys2Proof.Machine

open Sys2Proof

variable {s t : State}

theorem trigger_kept {a0 : Nat} {a1 : Nat} (h : Kept s t) :
    Kept s (trigger a0 a1 t) := by
  unfold trigger
  repeat' first
    | with_reducible first
        | assumption | apply ite_kept | apply bump_kept | apply onCrew_kept
    | intro _
    | decide

theorem tickTriggers_kept (h : Kept s t) :
    Kept s (tickTriggers t) := by
  unfold tickTriggers
  repeat' first
    | with_reducible first
        | assumption | apply forAll_kept | apply trigger_kept
    | intro _

theorem fireTriggers_kept {a1 : Nat} (h : Kept s t) :
    Kept s (fireTriggers t a1) := by
  unfold fireTriggers
  dsimp only
  repeat' first
    | with_reducible first
        | assumption | apply foldl_kept | apply foldl_fst_kept | apply onCrew_kept | apply trigger_kept
    | intro _

theorem cycleTriggers_kept {a0 : Bool} (h : Kept s t) :
    Kept s (cycleTriggers a0 t) := by
  unfold cycleTriggers
  dsimp only
  repeat' with_reducible first
    | assumption | apply ite_kept | apply ite_fst_kept | apply foldl_kept | apply foldl_fst_kept
    | apply fireTriggers_kept | apply tickTriggers_kept

theorem pulseTrigger_kept {a0 : Nat} {a1 : Nat} {a2 : Nat} (h : Kept s t) :
    Kept s (pulseTrigger a0 a1 a2 t) := by
  unfold pulseTrigger
  dsimp only
  repeat' first
    | with_reducible first
        | assumption | apply ite_kept | apply fireTriggers_kept | apply onCrew_kept
    | intro _

theorem zeroTrims_kept {a0 : Nat} (h : Kept s t) :
    Kept s (zeroTrims a0 t) := by
  unfold zeroTrims
  repeat' first
    | with_reducible first
        | assumption | apply put_kept
    | intro _
    | decide

theorem passRoles_kept {a0 : Nat} {a1 : Nat} (h : Kept s t) :
    Kept s (passRoles a0 a1 t) := by
  unfold passRoles
  dsimp only
  repeat' first
    | with_reducible first
        | assumption | apply ite_kept | apply put_kept
    | intro _
    | decide

theorem parkPhases_kept {a0 : PhaseSt} {a1 : Bool} {a2 : Nat} (h : Kept s t) :
    Kept s (parkPhases a0 a1 a2 t) := by
  unfold parkPhases
  dsimp only
  repeat' first
    | with_reducible first
        | assumption | apply ite_kept | apply bump_kept | apply forAll_kept | apply onCrew_kept
        | apply put_kept | apply setPhase_kept | apply zeroTrims_kept
    | intro _
    | decide

theorem idlePhases_kept {a0 : Nat} (h : Kept s t) :
    Kept s (idlePhases a0 t) := by
  unfold idlePhases
  repeat' with_reducible first
    | assumption | apply parkPhases_kept

theorem stopPhases_kept {a0 : Nat} (h : Kept s t) :
    Kept s (stopPhases a0 t) := by
  unfold stopPhases
  repeat' with_reducible first
    | assumption | apply parkPhases_kept

theorem startRing_kept {a0 : Nat} (h : Kept s t) :
    Kept s (startRing a0 t) := by
  unfold startRing
  dsimp only
  repeat' first
    | with_reducible first
        | assumption | apply ite_kept | apply forAll_kept | apply put_kept | apply setPhase_kept
        | apply zeroTrims_kept
    | intro _
    | decide

theorem endRegulation_kept {a0 : Nat} (h : Kept s t) :
    Kept s (endRegulation a0 t) := by
  unfold endRegulation
  repeat' first
    | with_reducible first
        | assumption | apply onCrew_kept | apply put_kept
    | intro _
    | decide

theorem setMar_kept {a1 : Nat} {a2 : Marshal} (h : Kept s t) :
    Kept s (State.setMar t a1 a2) := by
  unfold State.setMar
  repeat' first
    | with_reducible first
        | assumption | apply Kept.refl
    | intro _
    | decide
    | split
    | (with_reducible apply upd_kept); with_reducible first
        | assumption

theorem startHeld_kept {a0 : Nat} (h : Kept s t) :
    Kept s (startHeld a0 t) := by
  unfold startHeld
  dsimp only
  repeat' first
    | with_reducible first
        | assumption | apply ite_kept | apply raise_kept | apply setMar_kept
    | intro _

theorem reachOn_kept {a0 : Nat} (h : Kept s t) :
    Kept s (reachOn a0 t) := by
  unfold reachOn
  repeat' with_reducible first
    | assumption | apply setCst_kept | apply startHeld_kept

theorem settleOff_kept {a0 : Nat} (h : Kept s t) :
    Kept s (settleOff a0 t) := by
  unfold settleOff
  repeat' with_reducible first
    | assumption | apply ite_kept | apply onPlane_kept

theorem offCrew_kept {a1 : Nat} (h : Kept s t) :
    Kept s (offCrew t a1) := by
  unfold offCrew
  repeat' first
    | with_reducible first
        | assumption | apply ite_kept | apply setCst_kept
    | intro _

theorem rampOver_kept {a0 : Nat} (h : Kept s t) :
    Kept s (rampOver a0 t) := by
  unfold rampOver
  repeat' first
    | with_reducible first
        | assumption | apply ite_kept | apply forAll_kept | apply offCrew_kept | apply onPlane_kept
        | apply settleOff_kept
    | intro _

theorem darkCheck_kept {a0 : Nat} (h : Kept s t) :
    Kept s (darkCheck a0 t) := by
  unfold darkCheck
  dsimp only
  repeat' first
    | with_reducible first
        | assumption | apply ite_kept | apply forAll_kept | apply idlePhases_kept | apply raisePlane_kept
        | apply rampOver_kept | apply startHeld_kept
    | intro _

theorem selectInterleaved_kept {a0 : Nat} (h : Kept s t) :
    Kept s (selectInterleaved a0 t) := by
  unfold selectInterleaved
  repeat' first
    | with_reducible first
        | assumption | apply onCrew_kept | apply put_kept
    | intro _
    | decide

theorem selectZero_kept {a0 : Nat} (h : Kept s t) :
    Kept s (selectZero a0 t) := by
  unfold selectZero
  repeat' first
    | with_reducible first
        | assumption | apply onCrew_kept | apply put_kept
    | intro _
    | decide

theorem startRejoin_kept {a0 : Nat} (h : Kept s t) :
    Kept s (startRejoin a0 t) := by
  unfold startRejoin
  repeat' with_reducible first
    | assumption | apply selectInterleaved_kept | apply setCst_kept

theorem rejoinCrew_kept {a0 : Nat} (h : Kept s t) :
    Kept s (rejoinCrew a0 t) := by
  unfold rejoinCrew
  repeat' first
    | with_reducible first
        | assumption | apply ite_kept | apply onCrew_kept | apply startRejoin_kept
    | intro _

theorem shed_kept {a0 : Nat} (h : Kept s t) :
    Kept s (shed a0 t) := by
  unfold shed
  repeat' with_reducible first
    | assumption | apply onCrew_kept | apply setCst_kept

theorem forcedDown_kept {a0 : Nat} (h : Kept s t) :
    Kept s (forcedDown a0 t) := by
  unfold forcedDown
  dsimp only
  repeat' first
    | with_reducible first
        | assumption | apply ite_kept | apply darkCheck_kept | apply endRegulation_kept | apply idlePhases_kept
        | apply onCrew_kept | apply put_kept | apply setCst_kept | apply shed_kept
    | intro _
    | decide
    | split

theorem strike_kept {a0 : Nat} {a1 : Nat} {a2 : Nat} (h : Kept s t) :
    Kept s (strike a0 a1 a2 t) := by
  unfold strike
  dsimp only
  repeat' first
    | with_reducible first
        | assumption | apply ite_kept | apply forcedDown_kept | apply passRoles_kept | apply putBit_kept
        | apply put_kept | apply raise_kept | apply setPhase_kept | apply zeroTrims_kept
    | intro _
    | decide
    | split
    | (with_reducible apply upd_kept); with_reducible first
        | assumption | apply setPhase_kept

theorem dither_kept {a0 : Nat} (h : Kept s t) :
    Kept s (dither a0 t).1 := by
  unfold dither
  dsimp only
  repeat' first
    | with_reducible first
        | assumption | apply ite_kept | apply ite_fst_kept | apply onCrew_kept
    | intro _

theorem stepEvent_kept {a0 : Nat} {a1 : Bool} (h : Kept s t) :
    Kept s (stepEvent a0 a1 t) := by
  unfold stepEvent
  dsimp only
  repeat' first
    | with_reducible first
        | assumption | apply ite_kept | apply bump_kept | apply onCrew_kept | apply put_kept
    | intro _
    | decide

theorem beginHold_kept {a0 : Nat} (h : Kept s t) :
    Kept s (beginHold a0 t) := by
  unfold beginHold
  repeat' first
    | with_reducible first
        | assumption | apply ite_kept | apply bump_kept | apply put_kept
    | intro _
    | decide

theorem pulse_kept {a0 : Nat} {a1 : Nat} {a2 : Nat} {a3 : Nat} {a4 : Nat} (h : Kept s t) :
    Kept s (pulse a0 a1 a2 a3 a4 t) := by
  unfold pulse
  dsimp only
  repeat' first
    | with_reducible first
        | assumption | apply ite_kept | apply ite_fst_kept | apply beginHold_kept | apply dither_kept
        | apply onCrew_kept | apply onPhase_kept | apply pulseTrigger_kept | apply put_kept
        | apply stepEvent_kept
    | intro _
    | decide
    | split

theorem execPulse_goes {a0 : Nat} {a1 : Nat} {a2 : Nat} {a3 : Nat} {a4 : Nat} (h : Kept s t) :
    Goes s (execPulse a0 a1 a2 a3 a4 t) := by
  unfold execPulse
  repeat' with_reducible first
    | assumption | apply next_goes | apply ite_goes | apply pulse_kept

theorem execEndOfOnTime_goes {a0 : Nat} {a1 : Nat} (h : Kept s t) :
    Goes s (execEndOfOnTime a0 a1 t) := by
  unfold execEndOfOnTime
  dsimp only
  repeat' first
    | with_reducible first
        | assumption | apply next_goes | apply ite_goes | apply ite_kept | apply put_kept | apply setPhase_kept
        | apply strike_kept
    | intro _
    | decide

theorem execMinimumOffTimeEnd_goes {a0 : Nat} (h : Kept s t) :
    Goes s (execMinimumOffTimeEnd a0 t) := by
  unfold execMinimumOffTimeEnd
  dsimp only
  repeat' first
    | with_reducible first
        | assumption | apply next_goes | apply ite_goes | apply ite_kept | apply setPhase_kept
    | intro _

theorem execFastLimitTrip_goes {a0 : Nat} (h : Kept s t) :
    Goes s (execFastLimitTrip a0 t) := by
  unfold execFastLimitTrip
  dsimp only
  repeat' first
    | with_reducible first
        | assumption | apply next_goes | apply ite_goes | apply ite_kept | apply bump_kept
        | apply setPhase_kept | apply strike_kept
    | intro _
    | decide

theorem execBlankEnd_goes {a0 : Nat} (h : Kept s t) :
    Goes s (execBlankEnd a0 t) := by
  unfold execBlankEnd
  dsimp only
  repeat' with_reducible first
    | assumption | apply next_goes | apply ite_goes | apply ite_kept | apply setPhase_kept

theorem execTripWindow_goes {a0 : Nat} (h : Kept s t) :
    Goes s (execTripWindow a0 t) := by
  unfold execTripWindow
  repeat' first
    | with_reducible first
        | assumption | apply next_goes | apply ite_goes | apply forAll_kept | apply onPhase_kept
    | intro _

theorem execOverTemp_goes {a0 : Nat} {a1 : Bool} {a2 : Bool} (h : Kept s t) :
    Goes s (execOverTemp a0 a1 a2 t) := by
  unfold execOverTemp
  dsimp only
  repeat' first
    | with_reducible first
        | assumption | apply next_goes | apply ite_goes | apply ite_kept | apply putBit_kept
        | apply strike_kept
    | intro _
    | decide

theorem restoreOne_kept {a0 : Nat} {a2 : Nat} (h : Kept s t) :
    Kept s (restoreOne a0 t a2) := by
  unfold restoreOne
  dsimp only
  repeat' first
    | with_reducible first
        | assumption | apply ite_kept | apply onPhase_kept | apply put_kept | apply zeroTrims_kept
    | intro _
    | decide

theorem restore_kept {a0 : Nat} {a1 : Nat} (h : Kept s t) :
    Kept s (restore a0 a1 t) := by
  unfold restore
  dsimp only
  repeat' first
    | with_reducible first
        | assumption | apply ite_kept | apply forAll_kept | apply put_kept | apply rejoinCrew_kept
        | apply restoreOne_kept
    | intro _
    | decide

theorem execBalanceTrim_goes {a0 : Nat} (h : Kept s t) :
    Goes s (execBalanceTrim a0 t) := by
  unfold execBalanceTrim
  dsimp only
  repeat' first
    | with_reducible first
        | assumption | apply next_goes | apply ite_goes | apply ite_kept | apply forAll_kept | apply put_kept
    | intro _
    | decide

theorem execCrewOverload_goes {a0 : Nat} (h : Kept s t) :
    Goes s (execCrewOverload a0 t) := by
  unfold execCrewOverload
  repeat' first
    | with_reducible first
        | assumption | apply next_goes | apply ite_goes | apply ite_kept | apply bump_kept
        | apply latchStatus_kept | apply put_kept | apply raiseCrew_kept
    | intro _
    | decide

theorem execFoldOffset_goes {a0 : Nat} (h : Kept s t) :
    Goes s (execFoldOffset a0 t) := by
  unfold execFoldOffset
  dsimp only
  repeat' first
    | with_reducible first
        | assumption | apply next_goes | apply ite_goes | apply ite_kept | apply mark_kept | apply onCrew_kept
        | apply put_kept | apply reachOn_kept
    | intro _
    | decide

theorem execOverloadUnresolved_goes {a0 : Nat} (h : Kept s t) :
    Goes s (execOverloadUnresolved a0 t) := by
  unfold execOverloadUnresolved
  repeat' with_reducible first
    | assumption | apply next_goes | apply ite_goes | apply ite_kept | apply raiseCrew_kept

theorem execTestPulse_goes {a0 : Nat} {a1 : Nat} {a2 : Nat} (h : Kept s t) :
    Goes s (execTestPulse a0 a1 a2 t) := by
  unfold execTestPulse
  dsimp only
  repeat' first
    | with_reducible first
        | assumption | apply next_goes | apply ite_goes | apply ite_kept | apply forAll_kept
        | apply pulseTrigger_kept | apply setPhase_kept
    | intro _

theorem loadSeed_kept {a0 : Nat} (h : Kept s t) :
    Kept s (loadSeed a0 t) := by
  unfold loadSeed
  dsimp only
  repeat' with_reducible first
    | assumption | apply ite_kept | apply onCrew_kept

theorem execPhaseCurrentReachesZero_goes {a0 : Nat} (h : Kept s t) :
    Goes s (execPhaseCurrentReachesZero a0 t) := by
  unfold execPhaseCurrentReachesZero
  dsimp only
  repeat' with_reducible first
    | assumption | apply next_goes | apply ite_goes | apply ite_kept | apply setPhase_kept

end Sys2Proof.Machine
end

