-- ==== Sys2Proof/Laws/KeptSense.lean ====
section
/-! SUPPORT. What the operations of Machine/Sense.lean keep. -/

namespace Sys2Proof.Machine

open Sys2Proof

variable {s t : State}

theorem showSlewing_kept {a0 : Nat} (h : Kept s t) :
    Kept s (showSlewing a0 t) := by
  unfold showSlewing
  repeat' first
    | with_reducible first
        | assumption | apply mark_kept
    | intro _
    | decide

theorem miss_kept {a0 : Nat} (h : Kept s t) :
    Kept s (miss a0 t) := by
  unfold miss
  dsimp only
  repeat' first
    | with_reducible first
        | assumption | apply ite_kept | apply bump_kept | apply onCrew_kept | apply put_kept
        | apply raiseCrew_kept
    | intro _
    | decide

theorem execAbSampleLand_goes {a0 : Nat} {a1 : Bool} {a2 : Int} {a3 : Nat} (h : Kept s t) :
    Goes s (execAbSampleLand a0 a1 a2 a3 t) := by
  unfold execAbSampleLand
  dsimp only
  repeat' first
    | with_reducible first
        | assumption | apply next_goes | apply ite_goes | apply ite_kept | apply bump_kept | apply mark_kept
        | apply miss_kept | apply onCrew_kept | apply putI_kept | apply put_kept | apply setOver_kept
    | intro _
    | decide
    | split

theorem takeOnRead_kept {a0 : Nat} {a1 : Bool} (h : Kept s t) :
    Kept s (takeOnRead a0 a1 t) := by
  unfold takeOnRead
  repeat' first
    | with_reducible first
        | assumption | apply ite_kept | apply put_kept
    | intro _
    | decide

theorem abModeWrite_kept {a0 : Nat} {a1 : Nat} (h : Kept s t) :
    Kept s (abModeWrite a0 a1 t) := by
  unfold abModeWrite
  repeat' first
    | with_reducible first
        | assumption | apply ite_kept | apply onCrew_kept | apply put_kept | apply raiseCrew_kept
        | apply setOver_kept
    | intro _
    | decide

theorem execModeChange_goes {a0 : Nat} (h : Kept s t) :
    Goes s (execModeChange a0 t) := by
  unfold execModeChange
  repeat' first
    | with_reducible first
        | assumption | apply next_goes | apply ite_goes | apply onCrew_kept | apply put_kept
    | intro _
    | decide
    | split

theorem startSlot_kept {a0 : Nat} (h : Kept s t) :
    Kept s (startSlot a0 t) := by
  unfold startSlot
  dsimp only
  repeat' first
    | with_reducible first
        | assumption | apply ite_kept | apply onCrew_kept | apply put_kept
    | intro _
    | decide
    | split

theorem execHSlotEnd_goes {a0 : Nat} (h : Kept s t) :
    Goes s (execHSlotEnd a0 t) := by
  unfold execHSlotEnd
  dsimp only
  repeat' first
    | with_reducible first
        | assumption | apply next_goes | apply ite_goes | apply ite_kept | apply onCrew_kept | apply put_kept
        | apply startSlot_kept
    | intro _
    | decide
    | split

theorem execUrgentRequest_goes {a0 : Nat} {a1 : Bool} {a2 : Bool} (h : Kept s t) :
    Goes s (execUrgentRequest a0 a1 a2 t) := by
  unfold execUrgentRequest
  dsimp only
  repeat' first
    | with_reducible first
        | assumption | apply next_goes | apply ite_goes | apply ite_kept | apply bump_kept | apply onCrew_kept
        | apply startSlot_kept
    | intro _
    | decide
    | split
    | (with_reducible apply upd_kept); with_reducible first
        | assumption | apply next_goes | apply ite_goes | apply ite_kept | apply bump_kept | apply onCrew_kept

theorem refSel_kept {a0 : Nat} {a1 : Nat} (h : Kept s t) :
    Kept s (refSel a0 a1 t) := by
  unfold refSel
  repeat' first
    | with_reducible first
        | assumption | apply ite_kept | apply put_kept
    | intro _
    | decide

theorem execRefSettled_goes {a0 : Nat} (h : Kept s t) :
    Goes s (execRefSettled a0 t) := by
  unfold execRefSettled
  repeat' first
    | with_reducible first
        | assumption | apply next_goes | apply ite_goes | apply put_kept
    | intro _
    | decide

theorem referenceCheck_kept {a0 : Nat} {a1 : Int} {a2 : Bool} (h : Kept s t) :
    Kept s (referenceCheck a0 a1 a2 t) := by
  unfold referenceCheck
  dsimp only
  repeat' first
    | with_reducible first
        | assumption | apply ite_kept | apply onCrew_kept | apply raiseCrew_kept | apply refSel_kept
        | apply setOver_kept
    | intro _
    | decide

theorem showSuspect_kept {a0 : Nat} (h : Kept s t) :
    Kept s (showSuspect a0 t) := by
  unfold showSuspect
  dsimp only
  repeat' first
    | with_reducible first
        | assumption | apply mark_kept
    | intro _
    | decide

theorem startConfirm_kept {a0 : Nat} {a1 : Bool} (h : Kept s t) :
    Kept s (startConfirm a0 a1 t) := by
  unfold startConfirm
  repeat' first
    | with_reducible first
        | assumption | apply onCrew_kept | apply put_kept
    | intro _
    | decide
    | split

theorem sequencerTest_kept {a0 : Nat} (h : Kept s t) :
    Kept s (sequencerTest a0 t) := by
  unfold sequencerTest
  repeat' first
    | with_reducible first
        | assumption | apply ite_kept | apply idlePhases_kept | apply onCrew_kept | apply startConfirm_kept
    | intro _

theorem openWireCheck_kept {a0 : Nat} {a1 : Nat} {a2 : Int} {a3 : Nat} {a4 : Nat} (h : Kept s t) :
    Kept s (openWireCheck a0 a1 a2 a3 a4 t) := by
  unfold openWireCheck
  dsimp only
  repeat' with_reducible first
    | assumption | apply ite_kept | apply onCrew_kept | apply showSuspect_kept | apply startConfirm_kept

theorem endConfirm_kept {a0 : Nat} {a1 : OwTest} {a2 : Bool} {a3 : Bool} (h : Kept s t) :
    Kept s (endConfirm a0 a1 a2 a3 t) := by
  unfold endConfirm
  dsimp only
  repeat' first
    | with_reducible first
        | assumption | apply ite_kept | apply mark_kept | apply onCrew_kept | apply put_kept
        | apply raiseCrew_kept | apply showSuspect_kept
    | intro _
    | decide

theorem owResult_kept {a0 : Nat} {a1 : Int} {a2 : Nat} {a3 : Nat} (h : Kept s t) :
    Kept s (owResult a0 a1 a2 a3 t) := by
  unfold owResult
  dsimp only
  repeat' first
    | with_reducible first
        | assumption | apply ite_kept | apply endConfirm_kept | apply onCrew_kept | apply put_kept
    | intro _
    | decide
    | split

theorem execPullEnd_goes {a0 : Nat} (h : Kept s t) :
    Goes s (execPullEnd a0 t) := by
  unfold execPullEnd
  repeat' first
    | with_reducible first
        | assumption | apply next_goes | apply ite_goes | apply ite_kept | apply onCrew_kept
    | intro _
    | decide
    | split

theorem hConsume_kept {a0 : Nat} {a1 : HSlot} {a2 : Int} (h : Kept s t) :
    Kept s (hConsume a0 a1 a2 t) := by
  unfold hConsume
  dsimp only
  repeat' first
    | with_reducible first
        | assumption | apply ite_kept | apply onCrew_kept | apply openWireCheck_kept | apply owResult_kept
        | apply putI_kept | apply put_kept | apply referenceCheck_kept
    | intro _
    | decide

theorem hHold_kept {a0 : Nat} {a1 : HSlot} (h : Kept s t) : Kept s (hHold a0 a1 t) := by
  unfold hHold
  dsimp only
  repeat' first
    | with_reducible first
        | assumption | apply ite_kept | apply onCrew_kept | apply owResult_kept
    | intro _
    | decide
    | split

theorem execHResult_goes {a0 : Nat} {a1 : Int} (h : Kept s t) :
    Goes s (execHResult a0 a1 t) := by
  unfold execHResult
  dsimp only
  repeat' first
    | with_reducible first
        | assumption | apply next_goes | apply ite_goes | apply ite_kept | apply hConsume_kept
        | apply hHold_kept | apply mark_kept | apply onCrew_kept | apply put_kept | apply wrap_kept
    | intro _
    | decide
    | split
    | (with_reducible apply upd_kept); with_reducible first
        | assumption | apply next_goes | apply ite_goes | apply ite_kept | apply hConsume_kept
        | apply hHold_kept

theorem execLocalOvervoltage_goes {a0 : Nat} {a1 : Bool} (h : Kept s t) :
    Goes s (execLocalOvervoltage a0 a1 t) := by
  unfold execLocalOvervoltage
  dsimp only
  repeat' with_reducible first
    | assumption | apply next_goes | apply ite_goes | apply ite_kept | apply onCrew_kept
    | apply showSuspect_kept | apply startConfirm_kept

theorem execSenseSwitch_goes {a0 : Nat} (h : Kept s t) :
    Goes s (execSenseSwitch a0 t) := by
  unfold execSenseSwitch
  repeat' first
    | with_reducible first
        | assumption | apply next_goes | apply ite_goes | apply onCrew_kept | apply put_kept
        | apply raiseCrew_kept | apply showSlewing_kept
    | intro _
    | decide
    | split

end Sys2Proof.Machine
end

