-- ==== Sys2Proof/Laws/KeptDatapath.lean ====
section
/-! SUPPORT. What the operations of Machine/Datapath.lean keep. -/

namespace Sys2Proof.Machine

open Sys2Proof

variable {s t : State}

theorem llsWrite_kept {a0 : Nat} {a1 : Nat} (h : Kept s t) :
    Kept s (llsWrite a0 a1 t) := by
  unfold llsWrite
  repeat' first
    | with_reducible first
        | assumption | apply onCrew_kept | apply put_kept
    | intro _
    | decide

theorem schedule_kept {a0 : Nat} (h : Kept s t) :
    Kept s (schedule a0 t) := by
  unfold schedule
  dsimp only
  repeat' first
    | with_reducible first
        | assumption | apply onCrew_kept | apply put_kept
    | intro _
    | decide

theorem complete_kept {a0 : Nat} (h : Kept s t) :
    Kept s (complete a0 t) := by
  unfold complete
  dsimp only
  repeat' first
    | with_reducible first
        | assumption | apply ite_kept | apply onCrew_kept | apply put_kept
    | intro _
    | decide
    | split
    | (with_reducible apply upd_kept); with_reducible first
        | assumption | apply ite_kept | apply onCrew_kept

theorem showMargin_kept {a0 : Nat} (h : Kept s t) :
    Kept s (showMargin a0 t) := by
  unfold showMargin
  dsimp only
  repeat' first
    | with_reducible first
        | assumption | apply ite_kept | apply latchStatus_kept | apply mark_kept | apply onCrew_kept
        | apply raiseCrew_kept
    | intro _
    | decide

theorem setpoint_kept {a0 : Nat} {a1 : Nat} {a2 : Nat} {a3 : Nat} {a4 : Bool} (h : Kept s t) :
    Kept s (setpoint a0 a1 a2 a3 a4 t) := by
  unfold setpoint
  dsimp only
  repeat' first
    | with_reducible first
        | assumption | apply ite_kept | apply bump_kept | apply complete_kept | apply onCrew_kept
        | apply put_kept | apply raiseCrew_kept | apply showMargin_kept | apply showSlewing_kept
        | apply wrap_kept
    | intro _
    | decide
    | split
    | (with_reducible apply upd_kept); with_reducible first
        | assumption | apply ite_kept | apply bump_kept | apply complete_kept | apply onCrew_kept
        | apply put_kept | apply raiseCrew_kept

theorem settleCommand_kept {a1 : Nat} (h : Kept s t) :
    Kept s (settleCommand t a1) := by
  unfold settleCommand
  repeat' with_reducible first
    | assumption | apply ite_kept | apply complete_kept

theorem rampEnd_kept {a0 : Nat} (h : Kept s t) :
    Kept s (rampEnd a0 t) := by
  unfold rampEnd
  dsimp only
  repeat' first
    | with_reducible first
        | assumption | apply endRegulation_kept | apply idlePhases_kept | apply onCrew_kept
        | apply onPlane_kept | apply put_kept | apply rampOver_kept | apply setCst_kept
    | intro _
    | decide
    | split

theorem refStep_kept {a0 : Nat} (h : Kept s t) :
    Kept s (refStep a0 t) := by
  unfold refStep
  dsimp only
  repeat' first
    | with_reducible first
        | assumption | apply ite_kept | apply complete_kept | apply mark_kept | apply onCrew_kept
        | apply put_kept | apply rampEnd_kept | apply reachOn_kept | apply showSlewing_kept
    | intro _
    | decide

theorem beginRegulation_kept {a0 : Nat} {a1 : Int} (h : Kept s t) :
    Kept s (beginRegulation a0 a1 t) := by
  unfold beginRegulation
  dsimp only
  repeat' first
    | with_reducible first
        | assumption | apply ite_kept | apply mark_kept | apply onCrew_kept | apply put_kept
        | apply reachOn_kept | apply schedule_kept | apply showMargin_kept | apply showSlewing_kept
        | apply startRing_kept
    | intro _
    | decide
    | split
    | (with_reducible apply upd_kept); with_reducible first
        | assumption | apply ite_kept | apply mark_kept | apply onCrew_kept

theorem stepIF_kept {a0 : Nat} (h : Kept s t) :
    Kept s (stepIF a0 t) := by
  unfold stepIF
  repeat' first
    | with_reducible first
        | assumption | apply ite_kept | apply putI_kept
    | intro _
    | decide

theorem compute_kept {a0 : Nat} {a1 : Int} (h : Kept s t) :
    Kept s (compute a0 a1 t) := by
  unfold compute
  dsimp only
  repeat' first
    | with_reducible first
        | assumption | apply ite_kept | apply bump_kept | apply onCrew_kept | apply put_kept
        | apply raiseCrew_kept | apply schedule_kept | apply stepIF_kept
    | intro _
    | decide

theorem execDatapathUpdate_goes {a0 : Nat} (h : Kept s t) :
    Goes s (execDatapathUpdate a0 t) := by
  unfold execDatapathUpdate
  dsimp only
  repeat' first
    | with_reducible first
        | assumption | apply next_goes | apply ite_goes | apply ite_kept | apply beginRegulation_kept
        | apply compute_kept | apply onCrew_kept | apply put_kept
    | intro _
    | decide

theorem monitors_kept {a0 : Nat} {a1 : Nat} (h : Kept s t) :
    Kept s (monitors a0 a1 t) := by
  unfold monitors
  dsimp only
  repeat' first
    | with_reducible first
        | assumption | apply ite_kept | apply bump_kept | apply onCrew_kept | apply put_kept
    | intro _
    | decide

theorem execUpdateCompletion_goes {a0 : Nat} {a1 : Nat} (h : Kept s t) :
    Goes s (execUpdateCompletion a0 a1 t) := by
  unfold execUpdateCompletion
  dsimp only
  repeat' first
    | with_reducible first
        | assumption | apply next_goes | apply ite_goes | apply ite_kept | apply bump_kept
        | apply monitors_kept | apply onCrew_kept | apply putI_kept | apply put_kept | apply raiseTo_kept
    | intro _
    | decide

theorem execMissWindow_goes {a0 : Nat} (h : Kept s t) :
    Goes s (execMissWindow a0 t) := by
  unfold execMissWindow
  repeat' first
    | with_reducible first
        | assumption | apply next_goes | apply ite_goes | apply put_kept
    | intro _
    | decide

theorem resumeWrite_kept {a0 : Nat} (h : Kept s t) :
    Kept s (resumeWrite a0 t) := by
  unfold resumeWrite
  repeat' first
    | with_reducible first
        | assumption | apply ite_kept | apply onCrew_kept | apply put_kept
    | intro _
    | decide

theorem commitOne_kept {a0 : Nat} {a2 : Nat} (h : Kept s t) :
    Kept s (commitOne a0 t a2) := by
  unfold commitOne
  dsimp only
  repeat' first
    | with_reducible first
        | assumption | apply ite_kept | apply forAll_kept | apply onCrew_kept | apply put_kept
        | apply setOverBit_kept
    | intro _
    | decide

theorem commitCopy_kept {a0 : Nat} (h : Kept s t) :
    Kept s (commitCopy a0 t) := by
  unfold commitCopy
  dsimp only
  repeat' first
    | with_reducible first
        | assumption | apply foldl_kept | apply foldl_fst_kept | apply commitOne_kept | apply forAll_kept
        | apply onCrew_kept | apply put_kept
    | intro _
    | decide

theorem commitWrite_kept {a0 : Nat} {a1 : Nat} (h : Kept s t) :
    Kept s (commitWrite a0 a1 t) := by
  unfold commitWrite
  dsimp only
  repeat' first
    | with_reducible first
        | assumption | apply ite_kept | apply commitCopy_kept | apply onCrew_kept | apply put_kept
    | intro _
    | decide

theorem execCommitCopy_goes {a0 : Nat} (h : Kept s t) :
    Goes s (execCommitCopy a0 t) := by
  unfold execCommitCopy
  repeat' with_reducible first
    | assumption | apply next_goes | apply ite_goes | apply ite_kept | apply commitCopy_kept

theorem shadowWrite_kept {a0 : Nat} {a1 : Nat} (h : Kept s t) :
    Kept s (shadowWrite a0 a1 t) := by
  unfold shadowWrite
  dsimp only
  repeat' first
    | with_reducible first
        | assumption | apply ite_kept | apply onCrew_kept | apply put_kept
    | intro _
    | decide

end Sys2Proof.Machine
end

