-- ==== Sys2Proof/Laws/KeptPlanes.lean ====
section
/-! SUPPORT. What the operations of Machine/Planes.lean keep. -/

namespace Sys2Proof.Machine

open Sys2Proof

variable {s t : State}

theorem sharePlane_kept {a1 : Nat} (h : Kept s t) :
    Kept s (sharePlane t a1) := by
  unfold sharePlane
  dsimp only
  repeat' first
    | with_reducible first
        | assumption | apply ite_kept | apply ite_fst_kept | apply foldl_kept | apply foldl_fst_kept
        | apply mark_kept | apply onCrew_kept
    | intro _
    | decide

theorem execTrimTake_goes (h : Kept s t) :
    Goes s (execTrimTake t) := by
  unfold execTrimTake
  repeat' first
    | with_reducible first
        | assumption | apply next_goes | apply ite_goes | apply forAll_kept | apply onCrew_kept
        | apply putI_kept
    | intro _
    | decide
    | split

theorem standGrant_kept {a1 : Nat} (h : Kept s t) :
    Kept s (standGrant t a1) := by
  unfold standGrant
  dsimp only
  repeat' first
    | with_reducible first
        | assumption | apply ite_kept | apply onCrew_kept | apply put_kept | apply shed_kept
    | intro _
    | decide
    | split

theorem withdrawStand_kept {a0 : Nat} (h : Kept s t) :
    Kept s (withdrawStand a0 t) := by
  unfold withdrawStand
  dsimp only
  repeat' first
    | with_reducible first
        | assumption | apply ite_kept | apply onCrew_kept | apply put_kept | apply setCst_kept
    | intro _
    | decide

theorem rejoinPark_kept {a0 : Nat} (h : Kept s t) :
    Kept s (rejoinPark a0 t) := by
  unfold rejoinPark
  repeat' with_reducible first
    | assumption | apply ite_kept | apply rejoinCrew_kept

theorem sheddingEnd_kept {a0 : Nat} (h : Kept s t) :
    Kept s (sheddingEnd a0 t) := by
  unfold sheddingEnd
  dsimp only
  repeat' first
    | with_reducible first
        | assumption | apply ite_kept | apply darkCheck_kept | apply endRegulation_kept | apply idlePhases_kept
        | apply selectZero_kept | apply setCst_kept | apply startRejoin_kept
    | intro _

theorem execCrewCalibrationEnd_goes {a0 : Nat} {a1 : Int} {a2 : Int} {a3 : List Nat} (h : Kept s t) :
    Goes s (execCrewCalibrationEnd a0 a1 a2 a3 t) := by
  unfold execCrewCalibrationEnd
  dsimp only
  repeat' first
    | with_reducible first
        | assumption | apply next_goes | apply ite_goes | apply ite_kept | apply idlePhases_kept
        | apply onCrew_kept | apply putI_kept | apply selectInterleaved_kept | apply setCst_kept
        | apply startRejoin_kept
    | intro _
    | decide

theorem dump_kept {a0 : Nat} (h : Kept s t) :
    Kept s (dump a0 t) := by
  unfold dump
  repeat' first
    | with_reducible first
        | assumption | apply bump_kept | apply put_kept
    | intro _
    | decide

theorem requestStretch_kept {a0 : Nat} (h : Kept s t) :
    Kept s (requestStretch a0 t) := by
  unfold requestStretch
  dsimp only
  repeat' first
    | with_reducible first
        | assumption | apply ite_kept
    | intro _
    | decide
    | split
    | (with_reducible apply upd_kept); with_reducible first
        | assumption

theorem triggerStreams_kept {a0 : State → Nat → Bool} (h : Kept s t) :
    Kept s (triggerStreams a0 t) := by
  unfold triggerStreams
  repeat' first
    | with_reducible first
        | assumption | apply ite_kept | apply forAll_kept
    | intro _
    | decide
    | split
    | (with_reducible apply upd_kept); with_reducible first
        | assumption

theorem showDroop_kept {a0 : Nat} {a1 : Nat} {a2 : Nat} (h : Kept s t) :
    Kept s (showDroop a0 a1 a2 t) := by
  unfold showDroop
  repeat' first
    | with_reducible first
        | assumption | apply ite_kept | apply mark_kept
    | intro _
    | decide

theorem execDroop_goes {a0 : Nat} {a1 : Nat} {a2 : Nat} (h : Kept s t) :
    Goes s (execDroop a0 a1 a2 t) := by
  unfold execDroop
  dsimp only
  repeat' first
    | with_reducible first
        | assumption | apply next_goes | apply ite_goes | apply ite_kept | apply bump_kept | apply dump_kept
        | apply onCrew_kept | apply requestStretch_kept | apply showDroop_kept | apply triggerStreams_kept
    | intro _
    | decide

theorem execDroopRearm_goes {a0 : Nat} {a1 : Nat} {a2 : Nat} (h : Kept s t) :
    Goes s (execDroopRearm a0 a1 a2 t) := by
  unfold execDroopRearm
  dsimp only
  repeat' with_reducible first
    | assumption | apply next_goes | apply ite_goes | apply ite_kept | apply onCrew_kept
    | apply showDroop_kept

theorem execReservoirReady_goes {a0 : Nat} (h : Kept s t) :
    Goes s (execReservoirReady a0 t) := by
  unfold execReservoirReady
  repeat' first
    | with_reducible first
        | assumption | apply next_goes | apply ite_goes | apply put_kept
    | intro _
    | decide

theorem armSkip_kept {a0 : Nat} (h : Kept s t) :
    Kept s (armSkip a0 t) := by
  unfold armSkip
  repeat' first
    | with_reducible first
        | assumption | apply bump_kept | apply raiseCrew_kept
    | intro _
    | decide

theorem armCrew_kept {a0 : Nat} {a1 : Held} (h : Kept s t) :
    Kept s (armCrew a0 a1 t) := by
  unfold armCrew
  repeat' first
    | with_reducible first
        | assumption | apply ite_kept | apply armSkip_kept | apply onCrew_kept | apply put_kept
    | intro _
    | decide

theorem execArmedFiring_goes {a0 : Nat} (h : Kept s t) :
    Goes s (execArmedFiring a0 t) := by
  unfold execArmedFiring
  dsimp only
  repeat' first
    | with_reducible first
        | assumption | apply next_goes | apply ite_goes | apply ite_kept | apply armSkip_kept | apply dump_kept
        | apply onCrew_kept | apply put_kept
    | intro _
    | decide
    | split

theorem execOvershootClamp_goes {a0 : Nat} {a1 : Nat} {a2 : Nat} (h : Kept s t) :
    Goes s (execOvershootClamp a0 a1 a2 t) := by
  unfold execOvershootClamp
  dsimp only
  repeat' first
    | with_reducible first
        | assumption | apply next_goes | apply ite_goes | apply ite_kept | apply bump_kept | apply onCrew_kept
        | apply put_kept | apply raiseCrew_kept
    | intro _
    | decide

theorem execClampOff_goes {a0 : Nat} {a1 : Nat} {a2 : Nat} (h : Kept s t) :
    Goes s (execClampOff a0 a1 a2 t) := by
  unfold execClampOff
  dsimp only
  repeat' first
    | with_reducible first
        | assumption | apply next_goes | apply ite_goes | apply ite_kept | apply put_kept
    | intro _
    | decide

theorem execClampWindow_goes {a0 : Nat} (h : Kept s t) :
    Goes s (execClampWindow a0 t) := by
  unfold execClampWindow
  repeat' with_reducible first
    | assumption | apply next_goes | apply ite_goes | apply onCrew_kept

theorem execPlaneFloor_goes {a0 : Nat} (h : Kept s t) :
    Goes s (execPlaneFloor a0 t) := by
  unfold execPlaneFloor
  dsimp only
  repeat' first
    | with_reducible first
        | assumption | apply next_goes | apply ite_goes | apply forAll_kept | apply onCrew_kept
        | apply put_kept | apply showMargin_kept | apply showSlewing_kept
    | intro _
    | decide

theorem coverCrew_kept {a0 : Nat} {a1 : Option Held} {a2 : Option Nat} (h : Kept s t) :
    Kept s (coverCrew a0 a1 a2 t) := by
  unfold coverCrew
  dsimp only
  repeat' first
    | with_reducible first
        | assumption | apply ite_kept | apply onCrew_kept | apply put_kept
    | intro _
    | decide

theorem execCoverExpiry_goes {a0 : Nat} (h : Kept s t) :
    Goes s (execCoverExpiry a0 t) := by
  unfold execCoverExpiry
  repeat' first
    | with_reducible first
        | assumption | apply next_goes | apply ite_goes | apply onCrew_kept | apply put_kept
    | intro _
    | decide

theorem execAgeSlack_goes {a0 : Nat} {a1 : Int} (h : Kept s t) :
    Goes s (execAgeSlack a0 a1 t) := by
  unfold execAgeSlack
  repeat' first
    | with_reducible first
        | assumption | apply next_goes | apply ite_goes | apply putI_kept
    | intro _
    | decide

theorem admitCrew_kept {a1 : Nat} (h : Kept s t) :
    Kept s (admitCrew t a1) := by
  unfold admitCrew
  dsimp only
  repeat' first
    | with_reducible first
        | assumption | apply ite_kept | apply forAll_kept | apply loadSeed_kept | apply onCrew_kept
        | apply onPhase_kept | apply put_kept | apply selectZero_kept | apply setCst_kept
        | apply zeroTrims_kept
    | intro _
    | decide

theorem admitPlane_kept {a0 : Nat} (h : Kept s t) :
    Kept s (admitPlane a0 t) := by
  unfold admitPlane
  dsimp only
  repeat' with_reducible first
    | assumption | apply admitCrew_kept | apply forAll_kept | apply onPlane_kept

theorem countRound_kept {a0 : Nat} (h : Kept s t) :
    Kept s (countRound a0 t) := by
  unfold countRound
  repeat' first
    | with_reducible first
        | assumption | apply bump_kept | apply forAll_kept
    | intro _
    | decide

theorem queuePlane_kept {a0 : Nat} (h : Kept s t) :
    Kept s (queuePlane a0 t) := by
  unfold queuePlane
  repeat' first
    | with_reducible first
        | assumption | apply forAll_kept | apply raisePlane_kept | apply setCst_kept
    | intro _
    | decide
    | split
    | (with_reducible apply upd_kept); with_reducible first
        | assumption | apply forAll_kept

theorem tryAdmit_kept {a0 : Nat} (h : Kept s t) :
    Kept s (tryAdmit a0 t) := by
  unfold tryAdmit
  dsimp only
  repeat' first
    | with_reducible first
        | assumption | apply admitPlane_kept | apply countRound_kept | apply queuePlane_kept
    | intro _
    | decide
    | split

theorem requeueOne_kept {e : State × Rat} {p : Nat} (h : Kept s e.1) : Kept s (requeueOne e p).1 := by
  unfold requeueOne
  dsimp only
  split
  · exact (admitPlane_kept (countRound_kept h)).congr rfl rfl rfl rfl rfl
  · exact countRound_kept h

theorem execQueueReevaluation_goes (h : Kept s t) :
    Goes s (execQueueReevaluation t) := by
  unfold execQueueReevaluation
  repeat' with_reducible first
    | assumption | apply next_goes | apply ite_goes | apply foldl_kept | apply foldl_fst_kept
    | apply requeueOne_kept

theorem execSoftStartAbort_goes {a0 : Nat} {a1 : Nat} {a2 : Nat} (h : Kept s t) :
    Goes s (execSoftStartAbort a0 a1 a2 t) := by
  unfold execSoftStartAbort
  dsimp only
  repeat' first
    | with_reducible first
        | assumption | apply next_goes | apply ite_goes | apply ite_kept | apply endRegulation_kept
        | apply forAll_kept | apply idlePhases_kept | apply onPlane_kept | apply put_kept
        | apply raisePlane_kept | apply setCst_kept
    | intro _
    | decide

theorem execPowerOnRetry_goes {a0 : Nat} (h : Kept s t) :
    Goes s (execPowerOnRetry a0 t) := by
  unfold execPowerOnRetry
  dsimp only
  repeat' first
    | with_reducible first
        | assumption | apply next_goes | apply ite_goes | apply ite_kept | apply forAll_kept | apply put_kept
        | apply setPlane_kept | apply tryAdmit_kept
    | intro _
    | decide

theorem unlock_kept {a0 : Nat} (h : Kept s t) :
    Kept s (unlock a0 t) := by
  unfold unlock
  dsimp only
  repeat' first
    | with_reducible first
        | assumption | apply ite_kept | apply forAll_kept | apply onPlane_kept | apply put_kept
        | apply setCst_kept
    | intro _
    | decide

theorem planePowerOff_kept {a0 : Nat} (h : Kept s t) :
    Kept s (planePowerOff a0 t) := by
  unfold planePowerOff
  dsimp only
  repeat' first
    | with_reducible first
        | assumption | apply ite_kept | apply endRegulation_kept | apply forAll_kept | apply idlePhases_kept
        | apply offCrew_kept | apply onPlane_kept | apply settleOff_kept
    | intro _
    | decide
    | split
    | (with_reducible apply upd_kept); with_reducible first
        | assumption | apply ite_kept | apply endRegulation_kept | apply forAll_kept

theorem powerOff_kept {a0 : Nat} (h : Kept s t) :
    Kept s (powerOff a0 t) := by
  unfold powerOff
  repeat' with_reducible first
    | assumption | apply planePowerOff_kept | apply startHeld_kept

theorem powerOnCrew_kept {a0 : Nat} (h : Kept s t) :
    Kept s (powerOnCrew a0 t) := by
  unfold powerOnCrew
  dsimp only
  repeat' first
    | with_reducible first
        | assumption | apply ite_kept | apply admitCrew_kept | apply setCst_kept
    | intro _

theorem powerOffCrew_kept {a0 : Nat} (h : Kept s t) :
    Kept s (powerOffCrew a0 t) := by
  unfold powerOffCrew
  dsimp only
  repeat' first
    | with_reducible first
        | assumption | apply ite_kept | apply endRegulation_kept | apply idlePhases_kept | apply setCst_kept
        | apply settleOff_kept
    | intro _
    | decide
    | split
    | (with_reducible apply upd_kept); with_reducible first
        | assumption | apply ite_kept | apply endRegulation_kept | apply idlePhases_kept | apply setCst_kept

theorem vminRearm_kept {a0 : Nat} (h : Kept s t) :
    Kept s (vminRearm a0 t) := by
  unfold vminRearm
  repeat' first
    | with_reducible first
        | assumption | apply put_kept
    | intro _
    | decide

theorem dieVminTake_kept {a1 : Nat} (h : Kept s t) :
    Kept s (dieVminTake t a1) := by
  unfold dieVminTake
  dsimp only
  repeat' first
    | with_reducible first
        | assumption | apply ite_kept | apply put_kept
    | intro _
    | decide

theorem dieVmin_kept (h : Kept s t) :
    Kept s (dieVmin t) := by
  unfold dieVmin
  repeat' with_reducible first
    | assumption | apply dieVminTake_kept | apply forAll_kept

end Sys2Proof.Machine
end

