-- ==== Sys2Proof/Laws/KeptDelivery.lean ====
section
/-! SUPPORT. What the operations of Machine/Delivery.lean keep. -/

namespace Sys2Proof.Machine

open Sys2Proof

variable {s t : State}

theorem applyOp_kept {a0 : Op} {a1 : Held} {a2 : Nat} (h : Kept s t) :
    Kept s (applyOp a0 a1 a2 t) := by
  unfold applyOp
  repeat' first
    | with_reducible first
        | assumption | apply ite_kept | apply armCrew_kept | apply coverCrew_kept | apply llsWrite_kept
        | apply onCrew_kept | apply powerOffCrew_kept | apply powerOnCrew_kept | apply put_kept
        | apply rejoinPark_kept | apply setpoint_kept
    | intro _
    | decide
    | split

theorem deliverHeld_kept {a1 : Nat} {a2 : HeldOp} (h : Kept s t) :
    Kept s (deliverHeld t a1 a2) := by
  unfold deliverHeld
  repeat' first
    | with_reducible first
        | assumption | apply ite_kept | apply applyOp_kept
    | intro _

theorem holdOp_kept {a0 : Op} {a2 : Nat} (h : Kept s t) :
    Kept s (holdOp a0 t a2) := by
  unfold holdOp
  repeat' with_reducible first
    | assumption | apply ite_kept | apply onCrew_kept

theorem deliverTo_kept {a0 : Op} {a2 : Nat} (h : Kept s t) :
    Kept s (deliverTo a0 t a2) := by
  unfold deliverTo
  repeat' first
    | with_reducible first
        | assumption | apply ite_kept | apply deliverHeld_kept | apply holdOp_kept
    | intro _

theorem deliver_kept {a0 : OpKind → Bool} (h : Kept s t) :
    Kept s (deliver a0 t) := by
  unfold deliver
  repeat' first
    | with_reducible first
        | assumption | apply ite_kept | apply deliverTo_kept | apply forAll_kept
    | intro _
    | decide
    | split
    | (with_reducible apply upd_kept); with_reducible first
        | assumption

theorem execSetpointCommand_goes (h : Kept s t) :
    Goes s (execSetpointCommand t) := by
  unfold execSetpointCommand
  repeat' with_reducible first
    | assumption | apply next_goes | apply ite_goes | apply deliver_kept

theorem execLlsDelivery_goes (h : Kept s t) :
    Goes s (execLlsDelivery t) := by
  unfold execLlsDelivery
  repeat' with_reducible first
    | assumption | apply next_goes | apply ite_goes | apply deliver_kept

theorem execGselDelivery_goes (h : Kept s t) :
    Goes s (execGselDelivery t) := by
  unfold execGselDelivery
  repeat' with_reducible first
    | assumption | apply next_goes | apply ite_goes | apply deliver_kept

theorem execArmDelivery_goes (h : Kept s t) :
    Goes s (execArmDelivery t) := by
  unfold execArmDelivery
  repeat' with_reducible first
    | assumption | apply next_goes | apply ite_goes | apply deliver_kept

theorem execCoverDelivery_goes (h : Kept s t) :
    Goes s (execCoverDelivery t) := by
  unfold execCoverDelivery
  repeat' with_reducible first
    | assumption | apply next_goes | apply ite_goes | apply deliver_kept

theorem execStandDelivery_goes (h : Kept s t) :
    Goes s (execStandDelivery t) := by
  unfold execStandDelivery
  repeat' with_reducible first
    | assumption | apply next_goes | apply ite_goes | apply deliver_kept

theorem calRequest_kept {a0 : Bool} {a1 : Bool} {a2 : Nat} (h : Kept s t) :
    Kept s (calRequest a0 a1 a2 t) := by
  unfold calRequest
  dsimp only
  repeat' first
    | with_reducible first
        | assumption | apply ite_kept | apply onCrew_kept | apply put_kept | apply setOver_kept
    | intro _
    | decide
    | split
    | (with_reducible apply upd_kept); with_reducible first
        | assumption | apply ite_kept | apply onCrew_kept | apply put_kept

theorem calWrite_kept {a0 : Nat} {a1 : List Nat} {a2 : Nat} (h : Kept s t) :
    Kept s (calWrite a0 a1 a2 t) := by
  unfold calWrite
  dsimp only
  repeat' first
    | with_reducible first
        | assumption | apply ite_kept | apply mark_kept | apply put_kept | apply raiseCrew_kept
    | intro _
    | decide

theorem rejoinHeld_kept {a0 : Nat} (h : Kept s t) :
    Kept s (rejoinHeld a0 t) := by
  unfold rejoinHeld
  dsimp only
  repeat' first
    | with_reducible first
        | assumption | apply ite_kept | apply onCrew_kept | apply rejoinCrew_kept
    | intro _

theorem execDeliveryCalibrationEnd_goes {a0 : Nat} {a1 : List Nat} {a2 : Nat} (h : Kept s t) :
    Goes s (execDeliveryCalibrationEnd a0 a1 a2 t) := by
  unfold execDeliveryCalibrationEnd
  dsimp only
  repeat' first
    | with_reducible first
        | assumption | apply next_goes | apply ite_goes | apply ite_kept | apply ite_fst_kept
        | apply foldl_kept | apply foldl_fst_kept | apply calWrite_kept | apply deliverHeld_kept
        | apply onCrew_kept | apply put_kept | apply rejoinHeld_kept
    | intro _
    | decide
    | split
    | (with_reducible apply upd_kept); with_reducible first
        | assumption | apply next_goes | apply ite_goes | apply ite_kept | apply ite_fst_kept
        | apply foldl_kept | apply foldl_fst_kept | apply calWrite_kept | apply deliverHeld_kept
        | apply onCrew_kept | apply put_kept | apply rejoinHeld_kept

end Sys2Proof.Machine
end

