-- ==== Sys2Proof/Laws/KeptTimebase.lean ====
section
/-! SUPPORT. What the operations of Machine/Timebase.lean keep. -/

namespace Sys2Proof.Machine

open Sys2Proof

variable {s t : State}

theorem execMarkStrobe_goes (h : Kept s t) :
    Goes s (execMarkStrobe t) := by
  unfold execMarkStrobe
  dsimp only
  repeat' first
    | with_reducible first
        | assumption | apply next_goes | apply ite_goes
    | intro _
    | decide
    | split
    | (with_reducible apply upd_kept); with_reducible first
        | assumption

theorem clearHist_kept {a0 a2 : Nat} (h : Kept s t) : Kept s (clearHist a0 t a2) :=
  put_kept (put_kept ⟨h.1, fun i => let j := h.2 i; ⟨j.1, j.2, fitList_filter j.3, j.4⟩⟩ (by decide)) (by decide)

theorem crewMark_kept {a1 : Nat} (h : Kept s t) :
    Kept s (crewMark t a1) := by
  unfold crewMark
  dsimp only
  repeat' with_reducible first
    | assumption | apply ite_kept | apply onCrew_kept | apply raiseCrew_kept

theorem strMark_kept {a1 : Nat} (h : Kept s t) :
    Kept s (strMark t a1) := by
  unfold strMark
  repeat' first
    | with_reducible first
        | assumption | apply put_kept
    | intro _
    | decide

theorem crewCount_kept {a0 : List (Nat × Nat)} {a2 : Nat} (h : Kept s t) :
    Kept s (crewCount a0 t a2) := by
  unfold crewCount
  repeat' first
    | with_reducible first
        | assumption | apply onCrew_kept
    | intro _
    | decide
    | split

theorem markSlip_kept {a0 : Nat} {a2 : Nat} (h : Kept s t) :
    Kept s (markSlip a0 t a2) := by
  unfold markSlip
  dsimp only
  repeat' first
    | with_reducible first
        | assumption | apply ite_kept | apply bump_kept | apply onCrew_kept | apply raiseCrew_kept
    | intro _
    | decide
    | split

theorem latchSnap_kept {a0 : Nat} {a1 : Nat} {a2 : List Snap} (h : Kept s t) :
    Kept s (latchSnap a0 a1 a2 t) := by
  unfold latchSnap
  repeat' first
    | with_reducible first
        | assumption | apply Kept.refl
    | intro _
    | decide
    | split
    | (with_reducible apply upd_kept); with_reducible first
        | assumption

theorem beginMark_kept {a0 : Nat} {a1 : Nat} {a2 : Bool} {a3 : List (Nat × Nat)} (h : Kept s t) :
    Kept s (beginMark a0 a1 a2 a3 t) := by
  unfold beginMark
  dsimp only
  repeat' first
    | with_reducible first
        | assumption | apply ite_kept | apply clearHist_kept | apply crewCount_kept | apply crewMark_kept
        | apply dieVmin_kept | apply forAll_kept | apply latchSnap_kept | apply markSlip_kept | apply put_kept
        | apply strMark_kept
    | intro _
    | decide
    | split
    | (with_reducible apply upd_kept); with_reducible first
        | assumption | apply ite_kept | apply clearHist_kept | apply crewCount_kept | apply crewMark_kept
        | apply dieVmin_kept | apply forAll_kept | apply latchSnap_kept

theorem snapMissing_kept {a1 : Nat} (h : Kept s t) :
    Kept s (snapMissing t a1) := by
  unfold snapMissing
  dsimp only
  repeat' first
    | with_reducible first
        | assumption | apply ite_kept | apply onCrew_kept | apply raiseCrew_kept
    | intro _

theorem execSnapshotComplete_goes {a0 : List Nat} (h : Kept s t) :
    Goes s (execSnapshotComplete a0 t) := by
  unfold execSnapshotComplete
  dsimp only
  repeat' first
    | with_reducible first
        | assumption | apply next_goes | apply ite_goes | apply ite_kept | apply forAll_kept | apply put_kept
        | apply snapMissing_kept
    | intro _
    | decide
    | split
    | (with_reducible apply upd_kept); with_reducible first
        | assumption

theorem snapReq_kept (h : Kept s t) :
    Kept s (snapReq t) := by
  unfold snapReq
  repeat' first
    | with_reducible first
        | assumption | apply ite_kept | apply put_kept
    | intro _
    | decide

theorem histClear_kept {a1 : Nat} (h : Kept s t) :
    Kept s (histClear t a1) := by
  unfold histClear
  repeat' first
    | with_reducible first
        | assumption | apply put_kept
    | intro _
    | decide
    | (with_reducible apply upd_kept); with_reducible first
        | assumption | apply put_kept

theorem tbWrite_kept {a0 : Nat} {a1 : Nat} (h : Kept s t) :
    Kept s (tbWrite a0 a1 t) := by
  unfold tbWrite
  dsimp only
  repeat' first
    | with_reducible first
        | assumption | apply ite_kept | apply put_kept | apply setOver_kept
    | intro _
    | decide

theorem sendRate_kept {a1 : Nat} (h : Kept s t) :
    Kept s (sendRate t a1) := by
  unfold sendRate
  dsimp only
  repeat' first
    | with_reducible first
        | assumption | apply ite_kept | apply put_kept
    | intro _
    | decide

theorem sendRates_kept (h : Kept s t) :
    Kept s (sendRates t) := by
  unfold sendRates
  repeat' with_reducible first
    | assumption | apply forAll_kept | apply sendRate_kept

end Sys2Proof.Machine
end

