-- ==== Sys2Proof/Laws/KeptCapture.lean ====
section
/-! SUPPORT. What the operations of Machine/Capture.lean keep. -/

namespace Sys2Proof.Machine

open Sys2Proof

variable {s t : State}

theorem setStream_kept {a1 : Nat} {a2 : Stream} (h : Kept s t) :
    Kept s (State.setStream t a1 a2) := by
  unfold State.setStream
  repeat' first
    | with_reducible first
        | assumption | apply Kept.refl
    | intro _
    | decide
    | split
    | (with_reducible apply upd_kept); with_reducible first
        | assumption

theorem armStream_kept {a0 : Nat} (h : Kept s t) :
    Kept s (armStream a0 t) := by
  unfold armStream
  repeat' first
    | with_reducible first
        | assumption | apply ite_kept | apply put_kept | apply setStream_kept
    | intro _
    | decide

theorem stopStream_kept {a0 : Nat} (h : Kept s t) :
    Kept s (stopStream a0 t) := by
  unfold stopStream
  dsimp only
  repeat' first
    | with_reducible first
        | assumption | apply ite_kept | apply put_kept | apply setStream_kept
    | intro _
    | decide

theorem fireStream_kept {a0 : Nat} (h : Kept s t) :
    Kept s (fireStream a0 t) := by
  unfold fireStream
  repeat' with_reducible first
    | assumption | apply ite_kept | apply setStream_kept

theorem execCaptureTrigger_goes {a0 : Nat} (h : Kept s t) :
    Goes s (execCaptureTrigger a0 t) := by
  unfold execCaptureTrigger
  dsimp only
  repeat' first
    | with_reducible first
        | assumption | apply next_goes | apply ite_goes | apply ite_kept | apply put_kept
        | apply setStream_kept
    | intro _
    | decide

theorem takeSlot_kept {a0 : Nat} {a1 : Bool} {a2 : Option Int} (h : Kept s t) :
    Kept s (takeSlot a0 a1 a2 t) := by
  unfold takeSlot
  dsimp only
  repeat' first
    | with_reducible first
        | assumption | apply ite_kept | apply bump_kept | apply raise_kept | apply setStream_kept
    | intro _
    | decide

theorem tickStream_kept {a1 : Nat} (h : Kept s t) :
    Kept s (tickStream t a1) := by
  unfold tickStream
  repeat' first
    | with_reducible first
        | assumption | apply ite_kept | apply takeSlot_kept
    | intro _
    | decide
    | split

theorem holdXcal_kept (h : Kept s t) :
    Kept s (holdXcal t) := by
  unfold holdXcal
  repeat' first
    | with_reducible first
        | assumption | apply ite_kept | apply sendRates_kept
    | intro _
    | decide
    | split
    | (with_reducible apply upd_kept); with_reducible first
        | assumption

theorem beginCycle_kept {a0 : Bool} (h : Kept s t) :
    Kept s (beginCycle a0 t) := by
  unfold beginCycle
  repeat' first
    | with_reducible first
        | assumption | apply ite_kept
    | intro _
    | decide
    | split
    | (with_reducible apply upd_kept); with_reducible first
        | assumption

theorem endTick_kept (h : Kept s t) :
    Kept s (endTick t) := by
  unfold endTick
  repeat' with_reducible first
    | assumption | apply forAll_kept | apply settleCommand_kept | apply tickStream_kept

theorem sendFrames_kept {a1 : Nat} (h : Kept s t) :
    Kept s (sendFrames t a1) := by
  unfold sendFrames
  dsimp only
  repeat' first
    | with_reducible first
        | assumption | apply Kept.refl
    | intro _
    | decide
    | split
    | (with_reducible apply upd_kept); with_reducible first
        | assumption

theorem sendAll_kept (h : Kept s t) :
    Kept s (sendAll t) := by
  unfold sendAll
  repeat' first
    | with_reducible first
        | assumption | apply foldl_kept | apply foldl_fst_kept | apply ite_kept | apply sendFrames_kept
    | intro _

theorem passCycle_kept (h : Kept s t) :
    Kept s (passCycle t) := by
  unfold passCycle
  repeat' first
    | with_reducible first
        | assumption | apply ite_kept | apply beginCycle_kept | apply cycleTriggers_kept | apply endTick_kept
        | apply holdXcal_kept | apply sendAll_kept
    | intro _

theorem idleCycle_kept (h : Kept s t) :
    Kept s (idleCycle t) := by
  unfold idleCycle
  repeat' first
    | with_reducible first
        | assumption | apply ite_kept | apply passCycle_kept
    | intro _
    | decide
    | split
    | (with_reducible apply upd_kept); with_reducible first
        | assumption

theorem passCycles_kept {a0 : Nat} (h : Kept s t) : Kept s (passCycles a0 t) := by
  induction a0 generalizing t with
  | zero => exact h
  | succ n ih => exact ih (passCycle_kept h)

theorem appendRun_kept {a0 : Nat} {a1 : List (List Bool)} {a2 : Option (Stamp × Bool)} {a3 : Option Nat} (h : Kept s t) :
    Kept s (appendRun a0 a1 a2 a3 t) := by
  unfold appendRun
  dsimp only
  repeat' first
    | with_reducible first
        | assumption | apply ite_kept | apply put_kept | apply setStream_kept
    | intro _
    | decide
    | split

theorem execCaptureBlock_goes {a0 : Nat} (h : Kept s t) :
    Goes s (execCaptureBlock a0 t) := by
  unfold execCaptureBlock
  dsimp only
  repeat' first
    | with_reducible first
        | assumption | apply next_goes | apply ite_goes | apply ite_kept | apply appendRun_kept
        | apply setStream_kept
    | intro _
    | decide
    | split

end Sys2Proof.Machine
end

