-- ==== Sys2Proof/Laws/KeptForecast.lean ====
section
/-! SUPPORT. What the operations of Machine/Forecast.lean keep. -/

namespace Sys2Proof.Machine

open Sys2Proof

variable {s t : State}

theorem fcEnqueue_kept {a0 : FRec} (h : Kept s t) :
    Kept s (fcEnqueue a0 t) := by
  unfold fcEnqueue
  repeat' first
    | with_reducible first
        | assumption | apply Kept.refl
    | intro _
    | decide
    | split
    | (with_reducible apply upd_kept); with_reducible first
        | assumption

theorem fcAccept_kept {a0 : FRec} (h : Kept s t) :
    Kept s (fcAccept a0 t) := by
  unfold fcAccept
  dsimp only
  repeat' first
    | with_reducible first
        | assumption | apply ite_kept | apply bump_kept | apply fcEnqueue_kept
    | intro _
    | decide
    | split
    | (with_reducible apply upd_kept); with_reducible first
        | assumption

theorem fcHold_kept {a0 : FRec} (h : Kept s t) :
    Kept s (fcHold a0 t) := by
  unfold fcHold
  repeat' first
    | with_reducible first
        | assumption | apply Kept.refl
    | intro _
    | decide
    | split
    | (with_reducible apply upd_kept); with_reducible first
        | assumption

theorem fcHeldOne_kept {a1 : FRec} (h : Kept s t) :
    Kept s (fcHeldOne t a1) := by
  unfold fcHeldOne
  repeat' first
    | with_reducible first
        | assumption | apply ite_kept | apply fcAccept_kept | apply fcHold_kept
    | intro _

theorem fcDisplace_kept {a0 : FRec} {a1 : FRec} (h : Kept s t) :
    Kept s (fcDisplace a0 a1 t) := by
  unfold fcDisplace
  repeat' first
    | with_reducible first
        | assumption | apply fcEnqueue_kept | apply fcHold_kept
    | intro _
    | decide
    | split
    | (with_reducible apply upd_kept); with_reducible first
        | assumption

theorem fcRelease_kept (h : Kept s t) :
    Kept s (fcRelease t) := by
  unfold fcRelease
  repeat' first
    | with_reducible first
        | assumption | apply foldl_kept | apply foldl_fst_kept | apply fcHeldOne_kept
    | intro _
    | decide
    | split
    | (with_reducible apply upd_kept); with_reducible first
        | assumption

theorem execForecastWrite_goes {a0 : Nat} {a1 : Nat} {a2 : List Nat} {a3 : Nat} (h : Kept s t) :
    Goes s (execForecastWrite a0 a1 a2 a3 t) := by
  unfold execForecastWrite
  dsimp only
  repeat' first
    | with_reducible first
        | assumption | apply next_goes | apply ite_goes | apply ite_kept | apply fcAccept_kept
        | apply fcDisplace_kept | apply fcHold_kept
    | intro _
    | decide
    | split

theorem execCreditReturn_goes (h : Kept s t) :
    Goes s (execCreditReturn t) := by
  unfold execCreditReturn
  dsimp only
  repeat' first
    | with_reducible first
        | assumption | apply next_goes | apply ite_goes | apply ite_kept | apply fcRelease_kept
        | apply put_kept
    | intro _
    | decide
    | split
    | (with_reducible apply upd_kept); with_reducible first
        | assumption

theorem fcDiscard_kept {a0 : FRec} {a1 : Nat} (h : Kept s t) :
    Kept s (fcDiscard a0 a1 t) := by
  unfold fcDiscard
  repeat' first
    | with_reducible first
        | assumption | apply bump_kept
    | intro _
    | decide
    | split
    | (with_reducible apply upd_kept); with_reducible first
        | assumption | apply bump_kept

theorem keepEarly_kept {a1 : Nat} {a2 : Bool} {a3 : Stamp} (h : Kept s t) :
    Kept s (State.keepEarly t a1 a2 a3) := by
  unfold State.keepEarly
  repeat' first
    | with_reducible first
        | assumption | apply ite_kept | apply put_kept
    | intro _
    | decide

theorem keepLate_kept {a1 : Nat} {a2 : Bool} {a3 : Stamp} (h : Kept s t) :
    Kept s (State.keepLate t a1 a2 a3) := by
  unfold State.keepLate
  repeat' first
    | with_reducible first
        | assumption | apply ite_kept | apply put_kept
    | intro _
    | decide

theorem keepEnd_kept {a1 : Nat} {a2 : Stamp} (h : Kept s t) :
    Kept s (State.keepEnd t a1 a2) := by
  unfold State.keepEnd
  repeat' first
    | with_reducible first
        | assumption | apply ite_kept | apply put_kept
    | intro _
    | decide
    | split
    | (with_reducible apply upd_kept); with_reducible first
        | assumption | apply ite_kept | apply put_kept

theorem addSum_kept {a0 : Nat} {a1 : Nat} {a2 : Int} (h : Kept s t) :
    Kept s (addSum a0 a1 a2 t) := by
  unfold addSum
  repeat' first
    | with_reducible first
        | assumption | apply putI_kept
    | intro _
    | decide

theorem fcSummary_kept {a0 : FRec} {a1 : Stamp} (h : Kept s t) :
    Kept s (fcSummary a0 a1 t) := by
  unfold fcSummary
  dsimp only
  repeat' first
    | with_reducible first
        | assumption | apply ite_kept | apply addSum_kept | apply keepEarly_kept | apply keepEnd_kept
        | apply keepLate_kept | apply put_kept
    | intro _
    | decide

theorem fcKeep_kept {a0 : FRec} {a1 : Nat} {a2 : Stamp} (h : Kept s t) :
    Kept s (fcKeep a0 a1 a2 t) := by
  unfold fcKeep
  dsimp only
  repeat' first
    | with_reducible first
        | assumption | apply ite_kept | apply put_kept | apply wrBytes_kept
    | intro _
    | decide
    | split
    | (with_reducible apply upd_kept); with_reducible first
        | assumption | apply ite_kept | apply put_kept

theorem fcTake_kept {a0 : FRec} (h : Kept s t) :
    Kept s (fcTake a0 t) := by
  unfold fcTake
  dsimp only
  repeat' first
    | with_reducible first
        | assumption | apply ite_kept | apply bump_kept | apply fcDiscard_kept | apply fcKeep_kept
        | apply fcSummary_kept
    | intro _
    | decide
    | split
    | (with_reducible apply upd_kept); with_reducible first
        | assumption | apply ite_kept | apply bump_kept | apply fcDiscard_kept | apply fcKeep_kept

theorem execIntake_goes {a0 : Nat} (h : Kept s t) :
    Goes s (execIntake a0 t) := by
  unfold execIntake
  repeat' first
    | with_reducible first
        | assumption | apply next_goes | apply ite_goes | apply fcTake_kept
    | intro _
    | decide
    | split
    | (with_reducible apply upd_kept); with_reducible first
        | assumption

theorem execArrival_goes (h : Kept s t) :
    Goes s (execArrival t) := by
  unfold execArrival
  repeat' first
    | with_reducible first
        | assumption | apply next_goes | apply ite_goes | apply wrap_kept
    | intro _
    | decide
    | split
    | (with_reducible apply upd_kept); with_reducible first
        | assumption

theorem fcMark_kept (h : Kept s t) :
    Kept s (fcMark t) := by
  unfold fcMark
  repeat' first
    | with_reducible first
        | assumption | apply ite_kept | apply ite_fst_kept | apply foldl_kept | apply foldl_fst_kept
        | apply raiseEv_kept
    | intro _
    | decide
    | split
    | (with_reducible apply upd_kept); with_reducible first
        | assumption

theorem fcwCfg_kept {a0 : Nat} {a1 : Nat} (h : Kept s t) :
    Kept s (fcwCfg a0 a1 t) := by
  unfold fcwCfg
  dsimp only
  repeat' first
    | with_reducible first
        | assumption | apply ite_kept | apply fcRelease_kept | apply put_kept | apply setOver_kept
    | intro _
    | decide

theorem fcwRing_kept {a0 : Nat} {a1 : Nat} (h : Kept s t) :
    Kept s (fcwRing a0 a1 t) := by
  unfold fcwRing
  repeat' first
    | with_reducible first
        | assumption | apply ite_kept | apply put_kept | apply setOver_kept
    | intro _
    | decide

theorem ringRelease_kept {a0 : Nat} {a1 : Nat} (h : Kept s t) :
    Kept s (ringRelease a0 a1 t) := by
  unfold ringRelease
  dsimp only
  repeat' first
    | with_reducible first
        | assumption | apply ite_kept | apply put_kept
    | intro _
    | decide
    | split
    | (with_reducible apply upd_kept); with_reducible first
        | assumption | apply ite_kept | apply put_kept

theorem windowOpen_kept {a0 : Nat} (h : Kept s t) :
    Kept s (windowOpen a0 t) := by
  unfold windowOpen
  dsimp only
  repeat' first
    | with_reducible first
        | assumption | apply ite_kept | apply forAll_kept | apply put_kept
    | intro _
    | decide
    | split
    | (with_reducible apply upd_kept); with_reducible first
        | assumption | apply ite_kept | apply forAll_kept | apply put_kept

theorem windowClose_kept {a0 : Nat} (h : Kept s t) :
    Kept s (windowClose a0 t) := by
  unfold windowClose
  repeat' first
    | with_reducible first
        | assumption | apply ite_kept | apply put_kept
    | intro _
    | decide

theorem startHeldAll_kept (h : Kept s t) :
    Kept s (startHeldAll t) := by
  unfold startHeldAll
  repeat' with_reducible first
    | assumption | apply forAll_kept | apply startHeld_kept

theorem execStartRequest_goes {a0 : Nat} {a1 : Nat} (h : Kept s t) :
    Goes s (execStartRequest a0 a1 t) := by
  unfold execStartRequest
  dsimp only
  repeat' first
    | with_reducible first
        | assumption | apply next_goes | apply ite_goes | apply ite_kept | apply bump_kept | apply setMar_kept
        | apply startHeld_kept
    | intro _
    | decide

theorem heat_kept {a0 : Nat} {a1 : Bool} (h : Kept s t) :
    Kept s (heat a0 a1 t) := by
  unfold heat
  dsimp only
  repeat' first
    | with_reducible first
        | assumption | apply ite_kept | apply bump_kept | apply setMar_kept
    | intro _
    | decide

theorem execHeatOpen_goes {a0 : Nat} (h : Kept s t) :
    Goes s (execHeatOpen a0 t) := by
  unfold execHeatOpen
  dsimp only
  repeat' first
    | with_reducible first
        | assumption | apply next_goes | apply ite_goes | apply ite_kept | apply heat_kept
        | apply startHeld_kept
    | intro _
    | decide
    | split

theorem execHeatGrant_goes {a0 : Nat} (h : Kept s t) :
    Goes s (execHeatGrant a0 t) := by
  unfold execHeatGrant
  dsimp only
  repeat' first
    | with_reducible first
        | assumption | apply next_goes | apply ite_goes | apply setMar_kept
    | intro _
    | decide
    | split

theorem execStartStalled_goes {a0 : Nat} (h : Kept s t) :
    Goes s (execStartStalled a0 t) := by
  unfold execStartStalled
  dsimp only
  repeat' first
    | with_reducible first
        | assumption | apply next_goes | apply ite_goes | apply ite_kept | apply bump_kept | apply raise_kept
        | apply setMar_kept
    | intro _
    | decide

theorem openGated_kept {a0 : Nat} {a1 : Stamp} (h : Kept s t) :
    Kept s (openGated a0 a1 t) := by
  unfold openGated
  dsimp only
  repeat' first
    | with_reducible first
        | assumption | apply ite_kept | apply setMar_kept
    | intro _
    | decide
    | split

theorem postponeCrew_kept {a0 : Nat} {a2 : Nat} (h : Kept s t) :
    Kept s (postponeCrew a0 t a2) := by
  unfold postponeCrew
  dsimp only
  repeat' first
    | with_reducible first
        | assumption | apply ite_kept | apply ite_fst_kept | apply foldl_kept | apply foldl_fst_kept
        | apply raiseCrew_kept | apply setCrew_kept
    | intro _

theorem slips_kept {a0 : Nat} (h : Kept s t) :
    Kept s (slips a0 t) := by
  unfold slips
  repeat' first
    | with_reducible first
        | assumption | apply ite_kept | apply forAll_kept | apply raise_kept
    | intro _

theorem execStretch_goes {a0 : Nat} (h : Kept s t) :
    Goes s (execStretch a0 t) := by
  unfold execStretch
  dsimp only
  repeat' first
    | with_reducible first
        | assumption | apply next_goes | apply ite_goes | apply ite_kept | apply forAll_kept
        | apply postponeCrew_kept | apply slips_kept | apply wrap_kept
    | intro _
    | decide
    | split
    | (with_reducible apply upd_kept); with_reducible first
        | assumption | apply next_goes | apply ite_goes | apply ite_kept | apply forAll_kept
        | apply postponeCrew_kept | apply slips_kept | apply wrap_kept

theorem execRealignment_goes {a0 : Nat} (h : Kept s t) :
    Goes s (execRealignment a0 t) := by
  unfold execRealignment
  dsimp only
  repeat' first
    | with_reducible first
        | assumption | apply next_goes | apply ite_goes | apply ite_kept
    | intro _
    | decide
    | split
    | (with_reducible apply upd_kept); with_reducible first
        | assumption

end Sys2Proof.Machine
end

