-- ==== Sys2Proof/Laws/KeptUnits.lean ====
section
/-! SUPPORT. What the operations of Machine/Units.lean keep. -/

namespace Sys2Proof.Machine

open Sys2Proof

variable {s t : State}

theorem recompute_kept {a0 : Nat} (h : Kept s t) :
    Kept s (recompute a0 t) := by
  unfold recompute
  dsimp only
  repeat' first
    | with_reducible first
        | assumption | apply ite_kept | apply mark_kept | apply put_kept
    | intro _
    | decide

theorem execCapabilityRecompute_goes {a0 : Nat} (h : Kept s t) :
    Goes s (execCapabilityRecompute a0 t) := by
  unfold execCapabilityRecompute
  repeat' first
    | with_reducible first
        | assumption | apply next_goes | apply ite_goes | apply ite_kept | apply forAll_kept
        | apply recompute_kept | apply wrap_kept
    | intro _
    | decide

theorem writeGrant_kept {a0 : Nat} (h : Kept s t) :
    Kept s (writeGrant a0 t) := by
  unfold writeGrant
  repeat' first
    | with_reducible first
        | assumption | apply put_kept
    | intro _
    | decide
    | split

theorem execGrantUpdate_goes {a0 : Nat} (h : Kept s t) :
    Goes s (execGrantUpdate a0 t) := by
  unfold execGrantUpdate
  repeat' first
    | with_reducible first
        | assumption | apply next_goes | apply ite_goes | apply forAll_kept | apply wrap_kept
        | apply writeGrant_kept
    | intro _
    | decide

theorem readMembers_kept {a1 : Nat} (h : Kept s t) :
    Kept s (State.readMembers t a1).1 := by
  unfold State.readMembers
  dsimp only
  repeat' first
    | with_reducible first
        | assumption | apply ite_kept | apply ite_fst_kept | apply readChecks_kept
    | intro _

theorem groupUp_kept {a0 : Nat} {a1 : List Nat} (h : Kept s t) :
    Kept s (groupUp a0 a1 t) := by
  unfold groupUp
  dsimp only
  repeat' first
    | with_reducible first
        | assumption | apply forAll_kept | apply put_kept | apply recompute_kept | apply writeGrant_kept
    | intro _
    | decide
    | split
    | (with_reducible apply upd_kept); with_reducible first
        | assumption

theorem groupFail_kept {a0 : Nat} {a1 : Nat} (h : Kept s t) :
    Kept s (groupFail a0 a1 t) := by
  unfold groupFail
  repeat' first
    | with_reducible first
        | assumption | apply put_kept
    | intro _
    | decide

theorem validate_kept {a0 : Nat} (h : Kept s t) : Kept s (validate a0 t) := by
  unfold validate
  refine ite_kept (ite_kept ?_ fun _ => groupFail_kept h) fun _ => groupFail_kept h
  split
  · rename_i u e
    have k : Kept s u := by simpa [e] using readMembers_kept (a1 := a0) h
    exact groupFail_kept k
  · rename_i u l e
    have k : Kept s u := by simpa [e] using readMembers_kept (a1 := a0) h
    exact ite_kept (groupFail_kept k) fun _ => groupUp_kept k

theorem execValidationComplete_goes {a0 : Nat} (h : Kept s t) :
    Goes s (execValidationComplete a0 t) := by
  unfold execValidationComplete
  repeat' first
    | with_reducible first
        | assumption | apply next_goes | apply ite_goes | apply ite_kept | apply validate_kept
        | apply wrap_kept
    | intro _
    | decide
    | split
    | (with_reducible apply upd_kept); with_reducible first
        | assumption | apply validate_kept

theorem descFields_mapped : ∀ f ∈ descFields, f.mapped := by simp only [descFields]; decide

theorem execRemovalComplete_goes {a0 : Nat} (h : Kept s t) : Goes s (execRemovalComplete a0 t) := by
  unfold execRemovalComplete
  refine ite_goes (next_goes (put_kept ?_ (by decide))) (next_goes h)
  have key : ∀ (l : List Fld) (u : State), (∀ f ∈ l, f.mapped) → Kept s u →
      Kept s (l.foldl (fun s f => s.put f a0 (f.reset a0)) u) := by
    intro l
    induction l with
    | nil => exact fun u _ k => k
    | cons f r ih => exact fun u hl k => ih _ (fun g hg => hl g (by simp [hg])) (put_kept k (hl f (by simp)))
  exact key _ _ descFields_mapped (upd_kept (forAll_kept h fun _ _ k => put_kept k (by decide)))

theorem askRemoval_kept {a0 : Nat} (h : Kept s t) :
    Kept s (askRemoval a0 t) := by
  unfold askRemoval
  repeat' first
    | with_reducible first
        | assumption | apply ite_kept | apply put_kept | apply wrap_kept
    | intro _
    | decide
    | split
    | (with_reducible apply upd_kept); with_reducible first
        | assumption | apply ite_kept | apply put_kept | apply wrap_kept

theorem descWrite_kept {a0 : Nat} {a1 : Nat} {a2 : Nat} (h : Kept s t) :
    Kept s (descWrite a0 a1 a2 t) := by
  unfold descWrite
  dsimp only
  repeat' first
    | with_reducible first
        | assumption | apply ite_kept | apply askRemoval_kept | apply put_kept | apply raise_kept
        | apply wrap_kept
    | intro _
    | decide
    | split
    | (with_reducible apply upd_kept); with_reducible first
        | assumption | apply ite_kept | apply askRemoval_kept | apply put_kept | apply raise_kept
        | apply wrap_kept

theorem tookOps_kept {a1 : Nat} (h : Kept s t) :
    Kept s (State.tookOps t a1) := by
  unfold State.tookOps
  repeat' first
    | with_reducible first
        | assumption | apply Kept.refl
    | intro _
    | decide
    | split
    | (with_reducible apply upd_kept); with_reducible first
        | assumption

theorem issueOp_kept {a0 : OpKind} {a1 : Nat} {a2 : Nat} {a3 : Nat} (h : Kept s t) :
    Kept s (issueOp a0 a1 a2 a3 t) := by
  unfold issueOp
  dsimp only
  repeat' first
    | with_reducible first
        | assumption | apply ite_kept | apply tookOps_kept
    | intro _
    | decide
    | split
    | (with_reducible apply upd_kept); with_reducible first
        | assumption | apply ite_kept | apply tookOps_kept

theorem uopGo_kept (h : Kept s t) :
    Kept s (uopGo t).1 := by
  unfold uopGo
  dsimp only
  repeat' first
    | with_reducible first
        | assumption | apply ite_kept | apply ite_fst_kept | apply put_kept
    | intro _
    | decide
    | split
    | (with_reducible apply upd_kept); with_reducible first
        | assumption | apply ite_kept | apply ite_fst_kept | apply put_kept

theorem execUopIssue_goes (h : Kept s t) :
    Goes s (execUopIssue t) := by
  unfold execUopIssue
  dsimp only
  repeat' first
    | with_reducible first
        | assumption | apply next_goes | apply ite_goes | apply ite_kept | apply bump_kept | apply issueOp_kept
        | apply passCycle_kept | apply put_kept
    | intro _
    | decide
    | split
    | (with_reducible apply upd_kept); with_reducible first
        | assumption | apply next_goes | apply ite_goes | apply ite_kept | apply bump_kept | apply issueOp_kept
        | apply passCycle_kept | apply put_kept

end Sys2Proof.Machine
end

