-- ==== Sys2Proof/Laws/KeptEstimator.lean ====
section
/-! SUPPORT. What the operations of Machine/Estimator.lean keep. -/

namespace Sys2Proof.Machine

open Sys2Proof

variable {s t : State}

theorem showModels_kept (h : Kept s t) :
    Kept s (showModels t) := by
  unfold showModels
  repeat' first
    | with_reducible first
        | assumption | apply mark_kept | apply put_kept
    | intro _
    | decide

theorem installModel_kept {a0 : Nat} {a1 : List Byte} (h : Kept s t) :
    Kept s (installModel a0 a1 t) := by
  unfold installModel
  repeat' first
    | with_reducible first
        | assumption | apply showModels_kept
    | intro _
    | decide
    | split
    | (with_reducible apply upd_kept); with_reducible first
        | assumption

theorem dropModel_kept {a0 : Nat} (h : Kept s t) :
    Kept s (dropModel a0 t) := by
  unfold dropModel
  dsimp only
  repeat' first
    | with_reducible first
        | assumption | apply ite_kept | apply put_kept | apply showModels_kept
    | intro _
    | decide
    | split
    | (with_reducible apply upd_kept); with_reducible first
        | assumption

theorem setSrc_kept {a0 : Nat} (h : Kept s t) :
    Kept s (setSrc a0 t) := by
  unfold setSrc
  repeat' first
    | with_reducible first
        | assumption | apply ite_kept | apply put_kept
    | intro _
    | decide

theorem fwLoadModel_kept (h : Kept s t) :
    Kept s (fwLoadModel t) := by
  unfold fwLoadModel
  repeat' first
    | with_reducible first
        | assumption | apply Kept.refl
    | intro _
    | decide
    | split
    | (with_reducible apply upd_kept); with_reducible first
        | assumption

theorem readContainer_kept {a0 : Nat} (h : Kept s t) :
    Kept s (readContainer a0 t).1 := by
  unfold readContainer
  dsimp only
  repeat' first
    | with_reducible first
        | assumption | apply ite_kept | apply ite_fst_kept | apply readChecks_kept
    | intro _

theorem execModelCheckComplete_goes (h : Kept s t) : Goes s (execModelCheckComplete t) := by
  unfold execModelCheckComplete
  split
  · exact next_goes h
  · rename_i a _
    have h' : Kept s { t with estCheck := none } := upd_kept h
    split
    · rename_i u e
      have k : Kept s u := by simpa [e] using readContainer_kept (a0 := a) h'
      exact next_goes (put_kept k (by decide))
    · rename_i u b e
      have k : Kept s u := by simpa [e] using readContainer_kept (a0 := a) h'
      exact next_goes (ite_kept (put_kept k (by decide)) fun k' => installModel_kept k')

theorem dumpWord_kept {a1 : Nat × List Nat} (h : Kept s t) :
    Kept s (dumpWord t a1) := by
  unfold dumpWord
  repeat' first
    | with_reducible first
        | assumption | apply ite_kept | apply put_kept | apply wrBytes_kept
    | intro _
    | decide

theorem dumpAll_kept {a0 : Shape} {a1 : List (List Nat)} (h : Kept s t) :
    Kept s (dumpAll a0 a1 t) := by
  unfold dumpAll
  dsimp only
  repeat' with_reducible first
    | assumption | apply foldl_kept | apply foldl_fst_kept | apply dumpWord_kept

theorem showCal_kept {a0 : Nat} {a1 : Cal} (h : Kept s t) :
    Kept s (showCal a0 a1 t) := by
  unfold showCal
  dsimp only
  repeat' first
    | with_reducible first
        | assumption | apply putI_kept | apply put_kept
    | intro _
    | decide

theorem restartCrew_kept {a1 : Nat} (h : Kept s t) :
    Kept s (restartCrew t a1) := by
  unfold restartCrew
  dsimp only
  repeat' first
    | with_reducible first
        | assumption | apply put_kept | apply showCal_kept
    | intro _
    | decide
    | split
    | (with_reducible apply upd_kept); with_reducible first
        | assumption | apply put_kept

theorem restartCal_kept (h : Kept s t) :
    Kept s (restartCal t) := by
  unfold restartCal
  repeat' first
    | with_reducible first
        | assumption | apply forAll_kept | apply restartCrew_kept
    | intro _
    | decide
    | split
    | (with_reducible apply upd_kept); with_reducible first
        | assumption

theorem activate_kept (h : Kept s t) :
    Kept s (activate t) := by
  unfold activate
  dsimp only
  repeat' first
    | with_reducible first
        | assumption | apply ite_kept | apply mark_kept | apply put_kept | apply restartCal_kept
    | intro _
    | decide
    | split
    | (with_reducible apply upd_kept); with_reducible first
        | assumption

theorem execEstimatorUpdate_goes {a0 : List (Nat × List Nat)} (h : Kept s t) :
    Goes s (execEstimatorUpdate a0 t) := by
  unfold execEstimatorUpdate
  dsimp only
  repeat' first
    | with_reducible first
        | assumption | apply next_goes | apply ite_goes | apply ite_kept | apply ite_fst_kept
        | apply foldl_kept | apply foldl_fst_kept | apply activate_kept | apply bump_kept | apply dumpAll_kept
    | intro _
    | decide
    | split
    | (with_reducible apply upd_kept); with_reducible first
        | assumption | apply next_goes | apply ite_goes | apply ite_kept | apply ite_fst_kept
        | apply foldl_kept | apply foldl_fst_kept | apply activate_kept | apply bump_kept | apply dumpAll_kept

theorem diverge_kept {a0 : Nat} {a1 : Rat} {a2 : Rat} (h : Kept s t) :
    Kept s (diverge a0 a1 a2 t) := by
  unfold diverge
  dsimp only
  repeat' first
    | with_reducible first
        | assumption | apply ite_kept | apply put_kept | apply raiseCrew_kept
    | intro _
    | decide
    | split
    | (with_reducible apply upd_kept); with_reducible first
        | assumption | apply ite_kept | apply put_kept

theorem calibrateCrew_kept {a1 : Nat} (h : Kept s t) :
    Kept s (calibrateCrew t a1) := by
  unfold calibrateCrew
  dsimp only
  repeat' first
    | with_reducible first
        | assumption | apply ite_kept | apply diverge_kept | apply put_kept | apply showCal_kept
    | intro _
    | decide
    | split
    | (with_reducible apply upd_kept); with_reducible first
        | assumption | apply ite_kept | apply diverge_kept | apply put_kept

theorem showMode_kept (h : Kept s t) :
    Kept s (showMode t) := by
  unfold showMode
  repeat' first
    | with_reducible first
        | assumption | apply mark_kept | apply put_kept
    | intro _
    | decide

end Sys2Proof.Machine
end

