-- ==== Sys2Proof/Laws/KeptLanes.lean ====
section
/-! SUPPORT. What the operations of Machine/Lanes.lean keep. -/

namespace Sys2Proof.Machine

open Sys2Proof

variable {s t : State}

theorem setCtx_kept {a1 : Nat} {a2 : Ctx} (h : Kept s t) :
    Kept s (State.setCtx t a1 a2) := by
  unfold State.setCtx
  repeat' first
    | with_reducible first
        | assumption | apply Kept.refl
    | intro _
    | decide
    | split
    | (with_reducible apply upd_kept); with_reducible first
        | assumption

theorem onCtx_kept {a1 : Nat} {a2 : Ctx → Ctx} (h : Kept s t) :
    Kept s (State.onCtx t a1 a2) := by
  unfold State.onCtx
  repeat' with_reducible first
    | assumption | apply setCtx_kept

theorem setLane_kept {a1 : Nat} {a2 : Lane} (h : Kept s t) :
    Kept s (State.setLane t a1 a2) := by
  unfold State.setLane
  repeat' first
    | with_reducible first
        | assumption | apply Kept.refl
    | intro _
    | decide
    | split
    | (with_reducible apply upd_kept); with_reducible first
        | assumption

theorem setLst_kept {a1 : Nat} {a2 : Nat} (h : Kept s t) :
    Kept s (State.setLst t a1 a2) := by
  unfold State.setLst
  repeat' first
    | with_reducible first
        | assumption | apply put_kept
    | intro _
    | decide

theorem setPc_kept {a1 : Nat} {a2 : Nat} (h : Kept s t) :
    Kept s (State.setPc t a1 a2) := by
  unfold State.setPc
  repeat' first
    | with_reducible first
        | assumption | apply put_kept
    | intro _
    | decide

theorem setV_kept {a1 : Nat} {a2 : Nat} {a3 : Nat} (h : Kept s t) :
    Kept s (State.setV t a1 a2 a3) := by
  unfold State.setV
  repeat' with_reducible first
    | assumption | apply onCtx_kept

theorem setSig_kept {a0 : Nat} {a1 : Nat} (h : Kept s t) :
    Kept s (setSig a0 a1 t) := by
  unfold setSig
  repeat' first
    | with_reducible first
        | assumption | apply put_kept
    | intro _
    | decide

theorem sigSupers_kept {a0 : Nat} (h : Kept s t) :
    Kept s (sigSupers a0 t) := by
  unfold sigSupers
  repeat' first
    | with_reducible first
        | assumption | apply forAll_kept | apply setSig_kept
    | intro _

theorem sigLanes_kept {a0 : Nat} {a1 : List Nat} (h : Kept s t) :
    Kept s (sigLanes a0 a1 t) := by
  unfold sigLanes
  repeat' first
    | with_reducible first
        | assumption | apply ite_kept | apply forAll_kept | apply setSig_kept
    | intro _

theorem fall_kept {a0 : Nat} (h : Kept s t) :
    Kept s (fall a0 t) := by
  unfold fall
  dsimp only
  repeat' with_reducible first
    | assumption | apply onCtx_kept | apply setPc_kept

theorem laneHalt_kept {a0 : Nat} (h : Kept s t) :
    Kept s (laneHalt a0 t) := by
  unfold laneHalt
  repeat' with_reducible first
    | assumption | apply onCtx_kept | apply setLst_kept | apply sigSupers_kept

theorem laneFault_kept {a0 : Nat} {a1 : Nat} {a2 : Nat} (h : Kept s t) :
    Kept s (laneFault a0 a1 a2 t) := by
  unfold laneFault
  dsimp only
  repeat' first
    | with_reducible first
        | assumption | apply onCtx_kept | apply put_kept | apply raise_kept | apply setLst_kept
        | apply setPc_kept | apply sigSupers_kept
    | intro _
    | decide

theorem stopHalt_kept {a0 : Nat} {a1 : Nat} (h : Kept s t) :
    Kept s (stopHalt a0 a1 t) := by
  unfold stopHalt
  repeat' with_reducible first
    | assumption | apply laneHalt_kept | apply setLane_kept

theorem rested_kept {a1 : Nat} (h : Kept s t) :
    Kept s (State.rested t a1) := by
  unfold State.rested
  repeat' first
    | with_reducible first
        | assumption | apply Kept.refl
    | intro _
    | decide
    | split
    | (with_reducible apply upd_kept); with_reducible first
        | assumption

theorem unstalled_kept {a1 : Nat} (h : Kept s t) :
    Kept s (State.unstalled t a1) := by
  unfold State.unstalled
  repeat' first
    | with_reducible first
        | assumption | apply Kept.refl
    | intro _
    | decide
    | split
    | (with_reducible apply upd_kept); with_reducible first
        | assumption

theorem laneStop_kept {a0 : Nat} (h : Kept s t) :
    Kept s (laneStop a0 t) := by
  unfold laneStop
  repeat' first
    | with_reducible first
        | assumption | apply fall_kept | apply onCtx_kept | apply rested_kept | apply stopHalt_kept
    | intro _
    | decide
    | split

theorem stopLanes_kept (h : Kept s t) :
    Kept s (stopLanes t) := by
  unfold stopLanes
  repeat' first
    | with_reducible first
        | assumption | apply ite_kept | apply forAll_kept | apply laneStop_kept
    | intro _

theorem laneUnload_kept {a0 : Nat} (h : Kept s t) :
    Kept s (laneUnload a0 t) := by
  unfold laneUnload
  dsimp only
  repeat' first
    | with_reducible first
        | assumption | apply ite_kept | apply dropModel_kept | apply forAll_kept | apply put_kept
        | apply setLane_kept | apply setLst_kept
    | intro _
    | decide

theorem laneStart_kept {a0 : Nat} (h : Kept s t) :
    Kept s (laneStart a0 t) := by
  unfold laneStart
  dsimp only
  repeat' first
    | with_reducible first
        | assumption | apply put_kept | apply setCtx_kept | apply setLane_kept | apply setLst_kept
        | apply setPc_kept
    | intro _
    | decide
    | split
    | (with_reducible apply upd_kept); with_reducible first
        | assumption | apply put_kept | apply setCtx_kept

theorem laneCtl_kept {a0 : Nat} {a1 : Nat} (h : Kept s t) :
    Kept s (laneCtl a0 a1 t) := by
  unfold laneCtl
  dsimp only
  repeat' first
    | with_reducible first
        | assumption | apply ite_kept | apply laneStart_kept | apply laneStop_kept | apply laneUnload_kept
        | apply setOver_kept
    | intro _
    | decide
    | split

theorem execWatchdog_goes {a0 : Nat} (h : Kept s t) :
    Goes s (execWatchdog a0 t) := by
  unfold execWatchdog
  repeat' first
    | with_reducible first
        | assumption | apply next_goes | apply ite_goes | apply ite_kept | apply laneFault_kept
    | intro _
    | decide
    | split

theorem supFault_kept {a0 : Nat} {a1 : Nat} (h : Kept s t) :
    Kept s (supFault a0 a1 t) := by
  unfold supFault
  dsimp only
  repeat' with_reducible first
    | assumption | apply onCtx_kept | apply raise_kept | apply setLst_kept

theorem endWait_kept {a0 : Nat} {a1 : Nat} (h : Kept s t) :
    Kept s (endWait a0 a1 t) := by
  unfold endWait
  dsimp only
  repeat' first
    | with_reducible first
        | assumption | apply ite_kept | apply fall_kept | apply onCtx_kept | apply put_kept | apply rested_kept
        | apply setLst_kept | apply setV_kept
    | intro _
    | decide
    | split

theorem endBarrier_kept {a0 : Nat} (h : Kept s t) :
    Kept s (endBarrier a0 t) := by
  unfold endBarrier
  dsimp only
  repeat' first
    | with_reducible first
        | assumption | apply endWait_kept | apply forAll_kept
    | intro _

theorem timeOut_kept {a0 : Nat} {a1 : Wait} (h : Kept s t) :
    Kept s (timeOut a0 a1 t) := by
  unfold timeOut
  repeat' with_reducible first
    | assumption | apply ite_kept | apply endWait_kept

theorem tryEnd_kept {a0 : Nat} (h : Kept s t) :
    Kept s (tryEnd a0 t) := by
  unfold tryEnd
  repeat' first
    | with_reducible first
        | assumption | apply timeOut_kept | apply endBarrier_kept | apply endWait_kept
    | intro _
    | decide
    | split

theorem execWaitEnd_goes {a0 : Nat} (h : Kept s t) :
    Goes s (execWaitEnd a0 t) := by
  unfold execWaitEnd
  repeat' with_reducible first
    | assumption | apply next_goes | apply ite_goes | apply ite_kept | apply tryEnd_kept

theorem beginWait_kept {a0 : Nat} {a1 : Cond} {a2 : Nat} {a3 : Nat} (h : Kept s t) :
    Kept s (beginWait a0 a1 a2 a3 t) := by
  unfold beginWait
  dsimp only
  repeat' first
    | with_reducible first
        | assumption | apply onCtx_kept | apply setLst_kept | apply tryEnd_kept
    | intro _
    | decide
    | split

theorem setGrant_kept {a0 : Nat} {a1 : List Nat} {a2 : Nat} (h : Kept s t) :
    Kept s (setGrant a0 a1 a2 t) := by
  unfold setGrant
  dsimp only
  repeat' first
    | with_reducible first
        | assumption | apply forAll_kept | apply put_kept
    | intro _
    | decide

end Sys2Proof.Machine
end

