-- ==== Sys2Proof/Laws/KeptPsiul.lean ====
section
/-! SUPPORT. What the operations of Machine/Psiul.lean keep. -/

namespace Sys2Proof.Machine

open Sys2Proof

variable {s t : State}

theorem toTurn_kept {a1 : Nat} (h : Kept s t) :
    Kept s (State.toTurn t a1) := by
  unfold State.toTurn
  dsimp only
  repeat' first
    | with_reducible first
        | assumption | apply ite_kept | apply passCycle_kept | apply passCycles_kept
    | intro _

theorem fetch_kept {a1 : Nat} (h : Kept s t) :
    Kept s (State.fetch t a1).1 := by
  unfold State.fetch
  repeat' with_reducible first
    | assumption | apply readCheck_kept

theorem issued_kept {a1 : Nat} (h : Kept s t) :
    Kept s (State.issued t a1) := by
  unfold State.issued
  dsimp only
  repeat' first
    | with_reducible first
        | assumption | apply ite_kept | apply ite_fst_kept | apply bump_kept | apply fetch_kept
    | intro _
    | decide
    | split
    | (with_reducible apply upd_kept); with_reducible first
        | assumption

theorem issueNow_kept {a0 : Nat} {f : PWord → State → State} (h : Kept s t) (hf : ∀ x u, Kept s u → Kept s (f x u)) :
    Kept s (issueNow a0 f t) := by
  unfold issueNow
  have k : Kept s (t.fetch a0).1 := fetch_kept h
  exact ite_kept (ite_kept (ite_kept (fall_kept (issued_kept k)) fun _ => hf _ _ (issued_kept k))
    fun _ => supFault_kept (issued_kept k)) fun _ => ite_kept (supFault_kept k) fun _ => laneFault_kept k

theorem issue_kept {a0 a1 : Nat} {f : PWord → State → State} (h : Kept s t) (hf : ∀ x u, Kept s u → Kept s (f x u)) :
    Kept s (issue a0 a1 f t) := by
  unfold issue
  exact ite_kept (ite_kept (ite_kept h fun _ => ite_kept h fun _ => issueNow_kept (setLst_kept h) hf)
    fun _ => issueNow_kept (toTurn_kept h) hf) fun _ => h

theorem supRefused_kept {a0 : Nat} {a1 : Nat} (h : Kept s t) :
    Kept s (supRefused a0 a1 t) := by
  unfold supRefused
  repeat' with_reducible first
    | assumption | apply raise_kept

theorem execNop_goes {a0 : Nat} (h : Kept s t) :
    Goes s (execNop a0 t) := by
  unfold execNop
  repeat' first
    | with_reducible first
        | assumption | apply next_goes | apply ite_goes | apply fall_kept | apply issue_kept
    | intro _

theorem waitForever_kept {a0 : Nat} (h : Kept s t) :
    Kept s (waitForever a0 t) := by
  unfold waitForever
  repeat' with_reducible first
    | assumption | apply onCtx_kept | apply setLst_kept

theorem haltCtx_kept {a0 : Nat} (h : Kept s t) :
    Kept s (haltCtx a0 t) := by
  unfold haltCtx
  repeat' first
    | with_reducible first
        | assumption | apply ite_kept | apply fall_kept | apply laneHalt_kept | apply waitForever_kept
    | intro _

theorem execHalt_goes {a0 : Nat} (h : Kept s t) :
    Goes s (execHalt a0 t) := by
  unfold execHalt
  repeat' first
    | with_reducible first
        | assumption | apply next_goes | apply ite_goes | apply haltCtx_kept | apply issue_kept
    | intro _

theorem execYield_goes {a0 : Nat} (h : Kept s t) :
    Goes s (execYield a0 t) := by
  unfold execYield
  repeat' first
    | with_reducible first
        | assumption | apply next_goes | apply ite_goes | apply ite_kept | apply fall_kept | apply issue_kept
        | apply setLane_kept
    | intro _

theorem jump_kept {a0 : Nat} {a1 : Nat} (h : Kept s t) :
    Kept s (jump a0 a1 t) := by
  unfold jump
  repeat' first
    | with_reducible first
        | assumption | apply ite_kept | apply setPc_kept | apply supFault_kept
    | intro _

theorem execBr_goes {a0 : Nat} (h : Kept s t) :
    Goes s (execBr a0 t) := by
  unfold execBr
  repeat' first
    | with_reducible first
        | assumption | apply next_goes | apply ite_goes | apply issue_kept | apply jump_kept
    | intro _

theorem execBrc_goes {a0 : Nat} (h : Kept s t) :
    Goes s (execBrc a0 t) := by
  unfold execBrc
  repeat' first
    | with_reducible first
        | assumption | apply next_goes | apply ite_goes | apply ite_kept | apply fall_kept | apply issue_kept
        | apply jump_kept
    | intro _

theorem execCall_goes {a0 : Nat} (h : Kept s t) :
    Goes s (execCall a0 t) := by
  unfold execCall
  repeat' first
    | with_reducible first
        | assumption | apply next_goes | apply ite_goes | apply ite_kept | apply issue_kept | apply onCtx_kept
        | apply setPc_kept | apply supFault_kept
    | intro _

theorem execRet_goes {a0 : Nat} (h : Kept s t) :
    Goes s (execRet a0 t) := by
  unfold execRet
  repeat' first
    | with_reducible first
        | assumption | apply next_goes | apply ite_goes | apply ite_kept | apply fall_kept | apply haltCtx_kept
        | apply issue_kept | apply onCtx_kept | apply setPc_kept | apply supFault_kept
    | intro _
    | decide
    | split

theorem execLoop_goes {a0 : Nat} (h : Kept s t) :
    Goes s (execLoop a0 t) := by
  unfold execLoop
  dsimp only
  repeat' first
    | with_reducible first
        | assumption | apply next_goes | apply ite_goes | apply ite_kept | apply issue_kept | apply onCtx_kept
        | apply setPc_kept | apply supFault_kept
    | intro _

theorem arith_goes {a0 : Nat} {a1 : Nat} {a2 : PWord → Ctx → Nat} (h : Kept s t) :
    Goes s (arith a0 a1 a2 t) := by
  unfold arith
  repeat' first
    | with_reducible first
        | assumption | apply next_goes | apply ite_goes | apply fall_kept | apply issue_kept | apply setV_kept
    | intro _

theorem execMovi_goes {a0 : Nat} (h : Kept s t) :
    Goes s (execMovi a0 t) := by
  unfold execMovi
  repeat' with_reducible first
    | assumption | apply next_goes | apply ite_goes | apply arith_goes

theorem execMov_goes {a0 : Nat} (h : Kept s t) :
    Goes s (execMov a0 t) := by
  unfold execMov
  repeat' with_reducible first
    | assumption | apply next_goes | apply ite_goes | apply arith_goes

theorem execAdd_goes {a0 : Nat} (h : Kept s t) :
    Goes s (execAdd a0 t) := by
  unfold execAdd
  repeat' with_reducible first
    | assumption | apply next_goes | apply ite_goes | apply arith_goes

theorem execSub_goes {a0 : Nat} (h : Kept s t) :
    Goes s (execSub a0 t) := by
  unfold execSub
  repeat' with_reducible first
    | assumption | apply next_goes | apply ite_goes | apply arith_goes

theorem execMulq_goes {a0 : Nat} (h : Kept s t) :
    Goes s (execMulq a0 t) := by
  unfold execMulq
  repeat' with_reducible first
    | assumption | apply next_goes | apply ite_goes | apply arith_goes

theorem execShr_goes {a0 : Nat} (h : Kept s t) :
    Goes s (execShr a0 t) := by
  unfold execShr
  repeat' with_reducible first
    | assumption | apply next_goes | apply ite_goes | apply arith_goes

theorem execShl_goes {a0 : Nat} (h : Kept s t) :
    Goes s (execShl a0 t) := by
  unfold execShl
  repeat' with_reducible first
    | assumption | apply next_goes | apply ite_goes | apply arith_goes

theorem execAnd_goes {a0 : Nat} (h : Kept s t) :
    Goes s (execAnd a0 t) := by
  unfold execAnd
  repeat' with_reducible first
    | assumption | apply next_goes | apply ite_goes | apply arith_goes

theorem execOr_goes {a0 : Nat} (h : Kept s t) :
    Goes s (execOr a0 t) := by
  unfold execOr
  repeat' with_reducible first
    | assumption | apply next_goes | apply ite_goes | apply arith_goes

theorem execCmp_goes {a0 : Nat} (h : Kept s t) :
    Goes s (execCmp a0 t) := by
  unfold execCmp
  repeat' first
    | with_reducible first
        | assumption | apply next_goes | apply ite_goes | apply fall_kept | apply issue_kept | apply onCtx_kept
    | intro _

theorem execMin_goes {a0 : Nat} (h : Kept s t) :
    Goes s (execMin a0 t) := by
  unfold execMin
  repeat' with_reducible first
    | assumption | apply next_goes | apply ite_goes | apply ite_kept | apply arith_goes

theorem execMax_goes {a0 : Nat} (h : Kept s t) :
    Goes s (execMax a0 t) := by
  unfold execMax
  repeat' with_reducible first
    | assumption | apply next_goes | apply ite_goes | apply ite_kept | apply arith_goes

theorem execClamp_goes {a0 : Nat} (h : Kept s t) :
    Goes s (execClamp a0 t) := by
  unfold execClamp
  repeat' with_reducible first
    | assumption | apply next_goes | apply ite_goes | apply arith_goes

theorem stampAbsent_kept {a0 : Nat} {a1 : Nat} (h : Kept s t) :
    Kept s (stampAbsent a0 a1 t) := by
  unfold stampAbsent
  repeat' with_reducible first
    | assumption | apply raise_kept

theorem execWaitt_goes {a0 : Nat} (h : Kept s t) :
    Goes s (execWaitt a0 t) := by
  unfold execWaitt
  repeat' first
    | with_reducible first
        | assumption | apply next_goes | apply ite_goes | apply beginWait_kept | apply fall_kept
        | apply issue_kept | apply setV_kept
    | intro _
    | decide
    | split

theorem execWaitm_goes {a0 : Nat} (h : Kept s t) :
    Goes s (execWaitm a0 t) := by
  unfold execWaitm
  repeat' first
    | with_reducible first
        | assumption | apply next_goes | apply ite_goes | apply ite_kept | apply beginWait_kept
        | apply issue_kept
    | intro _

theorem execWaits_goes {a0 : Nat} (h : Kept s t) :
    Goes s (execWaits a0 t) := by
  unfold execWaits
  repeat' first
    | with_reducible first
        | assumption | apply next_goes | apply ite_goes | apply beginWait_kept | apply issue_kept
    | intro _

theorem execWaita_goes {a0 : Nat} (h : Kept s t) :
    Goes s (execWaita a0 t) := by
  unfold execWaita
  repeat' first
    | with_reducible first
        | assumption | apply next_goes | apply ite_goes | apply beginWait_kept | apply issue_kept
    | intro _

theorem laneOnlyWait_kept {a0 : Nat} {a1 : Nat} {a2 : Nat} (h : Kept s t) :
    Kept s (laneOnlyWait a0 a1 a2 t) := by
  unfold laneOnlyWait
  repeat' with_reducible first
    | assumption | apply fall_kept | apply setV_kept | apply supRefused_kept

theorem execBarl_goes {a0 : Nat} (h : Kept s t) :
    Goes s (execBarl a0 t) := by
  unfold execBarl
  dsimp only
  repeat' first
    | with_reducible first
        | assumption | apply next_goes | apply ite_goes | apply ite_kept | apply endBarrier_kept
        | apply issue_kept | apply laneOnlyWait_kept | apply onCtx_kept | apply setLst_kept
    | intro _

theorem execMarkq_goes {a0 : Nat} (h : Kept s t) :
    Goes s (execMarkq a0 t) := by
  unfold execMarkq
  repeat' first
    | with_reducible first
        | assumption | apply next_goes | apply ite_goes | apply fall_kept | apply issue_kept | apply setV_kept
    | intro _

theorem execWaite_goes {a0 : Nat} (h : Kept s t) :
    Goes s (execWaite a0 t) := by
  unfold execWaite
  repeat' first
    | with_reducible first
        | assumption | apply next_goes | apply ite_goes | apply beginWait_kept | apply issue_kept
    | intro _

theorem deliverOp_kept {a0 : Nat} {a1 : PWord} {a2 : OpKind} (h : Kept s t) :
    Kept s (deliverOp a0 a1 a2 t) := by
  unfold deliverOp
  repeat' first
    | with_reducible first
        | assumption | apply ite_kept | apply fall_kept | apply issueOp_kept | apply supRefused_kept
    | intro _

theorem execSetv_goes {a0 : Nat} (h : Kept s t) :
    Goes s (execSetv a0 t) := by
  unfold execSetv
  repeat' first
    | with_reducible first
        | assumption | apply next_goes | apply ite_goes | apply deliverOp_kept | apply issue_kept
    | intro _

theorem execSetvr_goes {a0 : Nat} (h : Kept s t) :
    Goes s (execSetvr a0 t) := by
  unfold execSetvr
  dsimp only
  repeat' first
    | with_reducible first
        | assumption | apply next_goes | apply ite_goes | apply ite_kept | apply deliverOp_kept
        | apply issue_kept | apply laneFault_kept
    | intro _

theorem execRamp_goes {a0 : Nat} (h : Kept s t) :
    Goes s (execRamp a0 t) := by
  unfold execRamp
  repeat' first
    | with_reducible first
        | assumption | apply next_goes | apply ite_goes | apply deliverOp_kept | apply issue_kept
    | intro _

theorem execLls_goes {a0 : Nat} (h : Kept s t) :
    Goes s (execLls a0 t) := by
  unfold execLls
  repeat' first
    | with_reducible first
        | assumption | apply next_goes | apply ite_goes | apply deliverOp_kept | apply issue_kept
    | intro _

theorem execGsel_goes {a0 : Nat} (h : Kept s t) :
    Goes s (execGsel a0 t) := by
  unfold execGsel
  repeat' first
    | with_reducible first
        | assumption | apply next_goes | apply ite_goes | apply deliverOp_kept | apply issue_kept
    | intro _

theorem execArm_goes {a0 : Nat} (h : Kept s t) :
    Goes s (execArm a0 t) := by
  unfold execArm
  repeat' first
    | with_reducible first
        | assumption | apply next_goes | apply ite_goes | apply deliverOp_kept | apply fall_kept
        | apply issue_kept | apply stampAbsent_kept
    | intro _
    | decide
    | split

theorem execStand_goes {a0 : Nat} (h : Kept s t) :
    Goes s (execStand a0 t) := by
  unfold execStand
  repeat' first
    | with_reducible first
        | assumption | apply next_goes | apply ite_goes | apply ite_kept | apply deliverOp_kept
        | apply fall_kept | apply issue_kept | apply supRefused_kept
    | intro _

theorem execPwron_goes {a0 : Nat} (h : Kept s t) :
    Goes s (execPwron a0 t) := by
  unfold execPwron
  repeat' first
    | with_reducible first
        | assumption | apply next_goes | apply ite_goes | apply deliverOp_kept | apply issue_kept
    | intro _

theorem execPwroff_goes {a0 : Nat} (h : Kept s t) :
    Goes s (execPwroff a0 t) := by
  unfold execPwroff
  repeat' first
    | with_reducible first
        | assumption | apply next_goes | apply ite_goes | apply deliverOp_kept | apply issue_kept
    | intro _

theorem execFcst_goes {a0 : Nat} (h : Kept s t) :
    Goes s (execFcst a0 t) := by
  unfold execFcst
  dsimp only
  repeat' first
    | with_reducible first
        | assumption | apply next_goes | apply ite_goes | apply ite_kept | apply deliverOp_kept
        | apply fall_kept | apply issue_kept | apply stampAbsent_kept
    | intro _
    | decide
    | split

theorem execRdt_goes {a0 : Nat} (h : Kept s t) :
    Goes s (execRdt a0 t) := by
  unfold execRdt
  dsimp only
  repeat' first
    | with_reducible first
        | assumption | apply next_goes | apply ite_goes | apply ite_kept | apply fall_kept | apply issue_kept
        | apply onCrew_kept | apply onCtx_kept | apply setV_kept | apply supRefused_kept
    | intro _

theorem execRdtResult_goes (h : Kept s t) :
    Goes s (execRdtResult t) := by
  unfold execRdtResult
  dsimp only
  repeat' first
    | with_reducible first
        | assumption | apply next_goes | apply ite_goes | apply ite_kept | apply fall_kept | apply onCtx_kept
        | apply setV_kept | apply stopHalt_kept | apply unstalled_kept
    | intro _
    | decide
    | split
    | (with_reducible apply upd_kept); with_reducible first
        | assumption

theorem execWopen_goes {a0 : Nat} (h : Kept s t) :
    Goes s (execWopen a0 t) := by
  unfold execWopen
  repeat' first
    | with_reducible first
        | assumption | apply next_goes | apply ite_goes | apply ite_kept | apply fall_kept | apply issue_kept
        | apply supRefused_kept | apply windowOpen_kept
    | intro _

theorem execWclose_goes {a0 : Nat} (h : Kept s t) :
    Goes s (execWclose a0 t) := by
  unfold execWclose
  repeat' first
    | with_reducible first
        | assumption | apply next_goes | apply ite_goes | apply ite_kept | apply fall_kept | apply issue_kept
        | apply supRefused_kept | apply windowClose_kept
    | intro _

theorem execHeat_goes {a0 : Nat} (h : Kept s t) :
    Goes s (execHeat a0 t) := by
  unfold execHeat
  repeat' first
    | with_reducible first
        | assumption | apply next_goes | apply ite_goes | apply ite_kept | apply fall_kept | apply issue_kept
        | apply openGated_kept | apply stampAbsent_kept | apply supRefused_kept
    | intro _
    | decide
    | split

theorem execCapq_goes {a0 : Nat} (h : Kept s t) :
    Goes s (execCapq a0 t) := by
  unfold execCapq
  dsimp only
  repeat' first
    | with_reducible first
        | assumption | apply next_goes | apply ite_goes | apply ite_kept | apply fall_kept | apply issue_kept
        | apply setV_kept | apply supRefused_kept
    | intro _

theorem execEvt_goes {a0 : Nat} (h : Kept s t) :
    Goes s (execEvt a0 t) := by
  unfold execEvt
  dsimp only
  repeat' first
    | with_reducible first
        | assumption | apply next_goes | apply ite_goes | apply ite_kept | apply fall_kept | apply issue_kept
        | apply raiseEv_kept | apply setCtx_kept
    | intro _

theorem evtMark_kept (h : Kept s t) :
    Kept s (evtMark t) := by
  unfold evtMark
  repeat' first
    | with_reducible first
        | assumption | apply ite_kept | apply forAll_kept | apply onCtx_kept
    | intro _

theorem startAccess_kept {a0 : Nat} {a1 : Nat} {a2 : PWord} (h : Kept s t) :
    Kept s (startAccess a0 a1 a2 t) := by
  unfold startAccess
  dsimp only
  repeat' with_reducible first
    | assumption | apply ite_kept | apply onCtx_kept

theorem execLd_goes {a0 : Nat} (h : Kept s t) :
    Goes s (execLd a0 t) := by
  unfold execLd
  repeat' first
    | with_reducible first
        | assumption | apply next_goes | apply ite_goes | apply issue_kept | apply startAccess_kept
    | intro _

theorem execSt_goes {a0 : Nat} (h : Kept s t) :
    Goes s (execSt a0 t) := by
  unfold execSt
  repeat' first
    | with_reducible first
        | assumption | apply next_goes | apply ite_goes | apply issue_kept | apply startAccess_kept
    | intro _

theorem execAadd_goes {a0 : Nat} (h : Kept s t) :
    Goes s (execAadd a0 t) := by
  unfold execAadd
  repeat' first
    | with_reducible first
        | assumption | apply next_goes | apply ite_goes | apply issue_kept | apply startAccess_kept
    | intro _

theorem execSwap_goes {a0 : Nat} (h : Kept s t) :
    Goes s (execSwap a0 t) := by
  unfold execSwap
  repeat' first
    | with_reducible first
        | assumption | apply next_goes | apply ite_goes | apply issue_kept | apply startAccess_kept
    | intro _

theorem execGrant_goes {a0 : Nat} (h : Kept s t) :
    Goes s (execGrant a0 t) := by
  unfold execGrant
  dsimp only
  repeat' first
    | with_reducible first
        | assumption | apply next_goes | apply ite_goes | apply ite_kept | apply fall_kept | apply issue_kept
        | apply setGrant_kept | apply setV_kept
    | intro _

theorem execSignal_goes {a0 : Nat} (h : Kept s t) :
    Goes s (execSignal a0 t) := by
  unfold execSignal
  dsimp only
  repeat' first
    | with_reducible first
        | assumption | apply next_goes | apply ite_goes | apply ite_kept | apply fall_kept | apply issue_kept
        | apply setSig_kept
    | intro _

end Sys2Proof.Machine
end

