-- ==== Sys2Proof/Laws/KeptLoader.lean ====
section
/-! SUPPORT. What the operations of Machine/Loader.lean keep. -/

namespace Sys2Proof.Machine

open Sys2Proof

variable {s t : State}

theorem loadReport_kept {a0 : Nat} {a1 : Nat} {a2 : Nat} {a3 : Nat} (h : Kept s t) :
    Kept s (loadReport a0 a1 a2 a3 t) := by
  unfold loadReport
  repeat' first
    | with_reducible first
        | assumption | apply put_kept | apply sigSupers_kept
    | intro _
    | decide

theorem startLoad_kept {a0 : Nat} {a1 : Nat} {a2 : Nat} (h : Kept s t) :
    Kept s (startLoad a0 a1 a2 t) := by
  unfold startLoad
  dsimp only
  repeat' first
    | with_reducible first
        | assumption | apply ite_kept | apply ite_fst_kept | apply loadReport_kept | apply readChecks_kept
        | apply setLst_kept
    | intro _
    | decide
    | split
    | (with_reducible apply upd_kept); with_reducible first
        | assumption | apply ite_kept | apply ite_fst_kept | apply loadReport_kept | apply readChecks_kept
        | apply setLst_kept

theorem execLoadp_goes {a0 : Nat} (h : Kept s t) :
    Goes s (execLoadp a0 t) := by
  unfold execLoadp
  repeat' first
    | with_reducible first
        | assumption | apply next_goes | apply ite_goes | apply fall_kept | apply issue_kept
        | apply startLoad_kept
    | intro _

theorem loadRefuse_kept {a0 : Nat} {a1 : Nat} {a2 : Nat} {a3 : Nat} (h : Kept s t) :
    Kept s (loadRefuse a0 a1 a2 a3 t) := by
  unfold loadRefuse
  repeat' with_reducible first
    | assumption | apply loadReport_kept | apply setLst_kept

theorem loadAccept_kept {a0 : Nat} {a1 : Nat} {a2 : List Byte} {a3 : List UDecl} {a4 : List PWord} (h : Kept s t) :
    Kept s (loadAccept a0 a1 a2 a3 a4 t) := by
  unfold loadAccept
  dsimp only
  repeat' first
    | with_reducible first
        | assumption | apply ite_kept | apply forAll_kept | apply installModel_kept | apply loadReport_kept
        | apply put_kept | apply setLane_kept | apply setLst_kept | apply setPc_kept
    | intro _
    | decide

theorem finishLoad_kept {a0 : Load} (h : Kept s t) :
    Kept s (finishLoad a0 t) := by
  unfold finishLoad
  dsimp only
  repeat' first
    | with_reducible first
        | assumption | apply ite_kept | apply loadAccept_kept | apply loadRefuse_kept | apply put_kept
        | apply wrBytes_kept
    | intro _
    | decide
    | split

theorem execLoadComplete_goes (h : Kept s t) :
    Goes s (execLoadComplete t) := by
  unfold execLoadComplete
  repeat' first
    | with_reducible first
        | assumption | apply next_goes | apply ite_goes | apply finishLoad_kept
    | intro _
    | decide
    | split
    | (with_reducible apply upd_kept); with_reducible first
        | assumption

end Sys2Proof.Machine
end

