-- ==== Sys2Proof/Laws/KeptCollector.lean ====
section
/-! SUPPORT. What the operations of Machine/Collector.lean keep. -/

namespace Sys2Proof.Machine

open Sys2Proof

variable {s t : State}

theorem record_kept {a0 : Event} {a1 : Bool} {a2 : Bool} {a3 : Nat} (h : Kept s t) :
    Kept s (record a0 a1 a2 a3 t) := by
  unfold record
  dsimp only
  repeat' first
    | with_reducible first
        | assumption | apply ite_kept | apply put_kept
    | intro _
    | decide
    | split
    | (with_reducible apply upd_kept); with_reducible first
        | assumption | apply ite_kept | apply put_kept

theorem history_kept {a0 : Event} {a1 : Bool} (h : Kept s t) :
    Kept s (history a0 a1 t).1 := by
  unfold history
  dsimp only
  repeat' first
    | with_reducible first
        | assumption | apply ite_kept | apply ite_fst_kept | apply put_kept
    | intro _
    | decide
    | split
    | (with_reducible apply upd_kept); with_reducible first
        | assumption | apply ite_kept | apply ite_fst_kept | apply put_kept

theorem fc2Take_kept {a0 : Event} {a1 : Nat} {a2 : Bool} {a3 : Bool} (h : Kept s t) :
    Kept s (fc2Take a0 a1 a2 a3 t).1 := by
  unfold fc2Take
  repeat' first
    | with_reducible first
        | assumption | apply forAll_kept | apply latchStatus_kept
    | intro _
    | decide
    | split
    | (with_reducible apply upd_kept); with_reducible first
        | assumption

theorem undoClear_kept {a0 : Event} (h : Kept s t) :
    Kept s (undoClear a0 t) := by
  unfold undoClear
  dsimp only
  repeat' first
    | with_reducible first
        | assumption | apply ite_kept | apply put_kept
    | intro _
    | decide
    | split
    | (with_reducible apply upd_kept); with_reducible first
        | assumption

theorem recurrence_kept {a0 : Event} (h : Kept s t) :
    Kept s (recurrence a0 t) := by
  unfold recurrence
  dsimp only
  repeat' first
    | with_reducible first
        | assumption | apply ite_kept | apply raise_kept
    | intro _
    | decide
    | split
    | (with_reducible apply upd_kept); with_reducible first
        | assumption

theorem collect_kept {a0 : Event} {a1 : Bool} (h : Kept s t) :
    Kept s (collect a0 a1 t).1 := by
  unfold collect
  dsimp only
  repeat' first
    | with_reducible first
        | assumption | apply ite_kept | apply ite_fst_kept | apply bump_kept | apply fc2Take_kept
        | apply history_kept | apply record_kept | apply triggerStreams_kept
    | intro _
    | decide
    | split

theorem collectFuse_kept {a0 : Event} (h : Kept s t) :
    Kept s (collectFuse a0 t) := by
  unfold collectFuse
  dsimp only
  repeat' first
    | with_reducible first
        | assumption | apply ite_kept | apply ite_fst_kept | apply collect_kept | apply raise_kept
        | apply recurrence_kept | apply setOver_kept
    | intro _
    | decide
    | split
    | (with_reducible apply upd_kept); with_reducible first
        | assumption

end Sys2Proof.Machine
end

