-- ==== Sys2Proof/Laws/KeptBoot.lean ====
section
/-! SUPPORT. What the operations of Machine/Boot.lean keep. -/

namespace Sys2Proof.Machine

open Sys2Proof

variable {s t : State}

theorem fwCopy_kept {a0 : Nat → Byte} {a1 : Nat} (h : Kept s t) :
    Kept s (fwCopy a0 a1 t) := by
  unfold fwCopy
  dsimp only
  repeat' first
    | with_reducible first
        | assumption | apply ite_kept | apply wrBytes_kept
    | intro _

theorem startSuper_kept {a1 : Nat} (h : Kept s t) :
    Kept s (startSuper t a1) := by
  unfold startSuper
  repeat' with_reducible first
    | assumption | apply setCtx_kept | apply setLst_kept | apply setPc_kept

theorem startSupers_kept (h : Kept s t) :
    Kept s (startSupers t) := by
  unfold startSupers
  repeat' with_reducible first
    | assumption | apply forAll_kept | apply startSuper_kept

theorem beginTime_kept (h : Kept s t) :
    Kept s (beginTime t) := by
  unfold beginTime
  dsimp only
  repeat' first
    | with_reducible first
        | assumption | apply latchSnap_kept | apply put_kept
    | intro _
    | decide
    | split
    | (with_reducible apply upd_kept); with_reducible first
        | assumption | apply latchSnap_kept

theorem fwStart_kept {a0 : Nat → Byte} (h : Kept s t) :
    Kept s (fwStart a0 t) := by
  unfold fwStart
  dsimp only
  repeat' first
    | with_reducible first
        | assumption | apply beginTime_kept | apply forAll_kept | apply put_kept | apply startSupers_kept
    | intro _
    | decide

theorem fwRefused_kept {a0 : Nat} {a1 : Nat} (h : Kept s t) :
    Kept s (fwRefused a0 a1 t) := by
  unfold fwRefused
  repeat' with_reducible first
    | assumption | apply raise_kept

theorem recovery_kept (h : Kept s t) :
    Kept s (recovery t) := by
  unfold recovery
  repeat' first
    | with_reducible first
        | assumption | apply put_kept
    | intro _
    | decide

theorem fwStep_kept {a0 : BootIn} (h : Kept s t) :
    Kept s (fwStep a0 t) := by
  unfold fwStep
  dsimp only
  repeat' first
    | with_reducible first
        | assumption | apply ite_kept | apply fwCopy_kept | apply fwRefused_kept | apply fwStart_kept
        | apply put_kept | apply recovery_kept
    | intro _
    | decide

theorem putRegion_kept {a0 : Nat} {a1 : Nat} (h : Kept s t) :
    Kept s (putRegion a0 a1 t) := by
  unfold putRegion
  repeat' first
    | with_reducible first
        | assumption | apply put_kept
    | intro _
    | decide

theorem releaseRegions_kept (h : Kept s t) :
    Kept s (releaseRegions t) := by
  unfold releaseRegions
  repeat' first
    | with_reducible first
        | assumption | apply foldl_kept | apply foldl_fst_kept | apply putRegion_kept
    | intro _

theorem fuseUnits_kept {a0 : List Nat} (h : Kept s t) :
    Kept s (fuseUnits a0 t) := by
  unfold fuseUnits
  dsimp only
  repeat' first
    | with_reducible first
        | assumption | apply ite_kept | apply forAll_kept | apply mark_kept | apply put_kept
    | intro _
    | decide

theorem planeCheck_kept {a1 : Nat} (h : Kept s t) :
    Kept s (planeCheck t a1) := by
  unfold planeCheck
  repeat' first
    | with_reducible first
        | assumption | apply ite_kept | apply onPlane_kept | apply raisePlane_kept
    | intro _

theorem fuseCrew_kept {a1 : Nat} (h : Kept s t) :
    Kept s (fuseCrew t a1) := by
  unfold fuseCrew
  dsimp only
  repeat' first
    | with_reducible first
        | assumption | apply ite_kept | apply onCrew_kept | apply put_kept
    | intro _
    | decide

theorem fuseStep_kept (h : Kept s t) :
    Kept s (fuseStep t) := by
  unfold fuseStep
  dsimp only
  repeat' first
    | with_reducible first
        | assumption | apply forAll_kept | apply fuseCrew_kept | apply fuseUnits_kept | apply onPhase_kept
        | apply planeCheck_kept | apply releaseRegions_kept
    | intro _

theorem marchFail_kept {a0 : Mismatch} (h : Kept s t) :
    Kept s (marchFail a0 t) := by
  unfold marchFail
  repeat' first
    | with_reducible first
        | assumption | apply put_kept
    | intro _
    | decide

theorem marchStep_kept {a0 : BootIn} (h : Kept s t) :
    Kept s (marchStep a0 t) := by
  unfold marchStep
  dsimp only
  repeat' first
    | with_reducible first
        | assumption | apply ite_kept | apply forAll_kept | apply marchFail_kept | apply put_kept
        | apply raise_kept | apply setBank_kept
    | intro _
    | decide
    | split

theorem showLog_kept (h : Kept s t) :
    Kept s (showLog t) := by
  unfold showLog
  repeat' first
    | with_reducible first
        | assumption | apply mark_kept | apply put_kept
    | intro _
    | decide

theorem logStep_kept {a0 : BootIn} (h : Kept s t) :
    Kept s (logStep a0 t) := by
  unfold logStep
  dsimp only
  repeat' first
    | with_reducible first
        | assumption | apply ite_kept | apply put_kept | apply showLog_kept
    | intro _
    | decide
    | split
    | (with_reducible apply upd_kept); with_reducible first
        | assumption | apply ite_kept | apply put_kept

theorem collectorStep_kept (h : Kept s t) : Kept s (collectorStep t) := by
  unfold collectorStep
  have h1 : Kept s { t with fltInit := true } := h.congr rfl rfl rfl rfl rfl
  refine foldl_kept ((ite_kept h1 fun k => ?_).congr rfl rfl rfl rfl rfl) fun _ _ k => collectFuse_kept k
  exact (put_kept (put_kept k (by decide)) (by decide)).congr rfl rfl rfl rfl rfl

theorem calStep_kept {a0 : BootIn} (h : Kept s t) :
    Kept s (calStep a0 t) := by
  unfold calStep
  dsimp only
  repeat' first
    | with_reducible first
        | assumption | apply calWrite_kept | apply forAll_kept
    | intro _

theorem bootSteps_kept {a0 : BootIn} (h : Kept s t) :
    Kept s (bootSteps a0 t) := by
  unfold bootSteps
  dsimp only
  repeat' first
    | with_reducible first
        | assumption | apply calStep_kept | apply collectorStep_kept | apply fuseStep_kept | apply fwStep_kept
        | apply logStep_kept | apply marchStep_kept | apply put_kept
    | intro _
    | decide
    | split
    | (with_reducible apply upd_kept); with_reducible first
        | assumption | apply calStep_kept | apply collectorStep_kept | apply fuseStep_kept | apply fwStep_kept
        | apply logStep_kept | apply marchStep_kept | apply put_kept

theorem fitList_nil : fitList [] := fun e he => by simp at he

theorem Memory.wf_nil {d : Byte} : Memory.wf d [] := by simp [Memory.wf]

/-- Fuse values are cut to the fields of the map. -/
theorem fitList_cutFuses {l : List (FKey × Nat)} : fitList (cutFuses l) := by
  intro e he
  simp only [cutFuses, List.mem_filterMap] at he
  obtain ⟨x, -, hx⟩ := he
  split at hx
  · rename_i f hf
    cases hx
    have h1 := List.mem_of_find?_eq_some hf
    have h2 := List.find?_some hf
    exact ⟨f, h1, by simpa using h2, Nat.mod_lt _ (by positivity)⟩
  · cases hx

theorem execPowerOn_goes {a0 : List (FKey × Nat)} {a1 : List Nat} {a2 : BootIn} (h : Kept s t) :
    Goes s (execPowerOn a0 a1 a2 t) := by
  unfold execPowerOn
  refine ite_goes (next_goes h) (next_goes (bootSteps_kept (ite_kept ?_ (fun k => put_kept k (by decide)))))
  exact ⟨h.1, fun i => let j := h.2 i; ⟨Memory.wf_nil, j.2, fitList_nil, fitList_cutFuses⟩⟩

theorem fullReset_kept {a0 : BootIn} (h : Kept s t) : Kept s (fullReset a0 t) := by
  unfold fullReset
  refine bootSteps_kept (put_kept (put_kept ?_ (by decide)) (by decide))
  exact ⟨h.1, fun i => let j := h.2 i; ⟨Memory.wf_nil, j.2, fitList_filter j.3, j.4⟩⟩

end Sys2Proof.Machine
end

