-- ==== Sys2Proof/Laws/KeptStops.lean ====
section
/-! SUPPORT. What the operations of Machine/Stops.lean keep. -/

namespace Sys2Proof.Machine

open Sys2Proof

variable {s t : State}

theorem notice_kept {a0 : Nat} {a1 : Nat} {a2 : Nat} {a3 : Nat} {a4 : Nat} (h : Kept s t) :
    Kept s (notice a0 a1 a2 a3 a4 t) := by
  unfold notice
  repeat' first
    | with_reducible first
        | assumption | apply Kept.refl
    | intro _
    | decide
    | split
    | (with_reducible apply upd_kept); with_reducible first
        | assumption

theorem throttleAll_kept {a0 : Nat} (h : Kept s t) :
    Kept s (throttleAll a0 t) := by
  unfold throttleAll
  repeat' first
    | with_reducible first
        | assumption | apply forAll_kept | apply notice_kept
    | intro _

theorem endXcal_kept {a0 : Nat} (h : Kept s t) :
    Kept s (endXcal a0 t) := by
  unfold endXcal
  repeat' first
    | with_reducible first
        | assumption | apply put_kept | apply sendRates_kept
    | intro _
    | decide
    | split
    | (with_reducible apply upd_kept); with_reducible first
        | assumption | apply put_kept

theorem assertHostReset_kept (h : Kept s t) :
    Kept s (assertHostReset t) := by
  unfold assertHostReset
  dsimp only
  repeat' first
    | with_reducible first
        | assumption | apply ite_kept | apply endXcal_kept | apply put_kept | apply sendRates_kept
    | intro _
    | decide
    | split
    | (with_reducible apply upd_kept); with_reducible first
        | assumption | apply ite_kept | apply endXcal_kept | apply put_kept

theorem stgSend_kept {a0 : Nat} {a2 : Nat} (h : Kept s t) :
    Kept s (stgSend a0 t a2) := by
  unfold stgSend
  repeat' first
    | with_reducible first
        | assumption | apply ite_kept
    | intro _
    | decide
    | split
    | (with_reducible apply upd_kept); with_reducible first
        | assumption

theorem fsStop_kept (h : Kept s t) :
    Kept s (fsStop t) := by
  unfold fsStop
  dsimp only
  repeat' first
    | with_reducible first
        | assumption | apply forAll_kept | apply put_kept | apply stgSend_kept
    | intro _
    | decide
    | split
    | (with_reducible apply upd_kept); with_reducible first
        | assumption | apply forAll_kept | apply put_kept

theorem cancelPower_kept {a1 : Nat} (h : Kept s t) :
    Kept s (cancelPower t a1) := by
  unfold cancelPower
  repeat' first
    | with_reducible first
        | assumption | apply ite_kept | apply forAll_kept | apply onPlane_kept | apply setCst_kept
    | intro _
    | decide
    | split
    | (with_reducible apply upd_kept); with_reducible first
        | assumption | apply ite_kept | apply forAll_kept

theorem cancelAll_kept (h : Kept s t) :
    Kept s (cancelAll t) := by
  unfold cancelAll
  repeat' with_reducible first
    | assumption | apply cancelPower_kept | apply forAll_kept

theorem rampPlane_kept {a0 : Ramp} {a1 : Nat} (h : Kept s t) :
    Kept s (rampPlane a0 a1 t) := by
  unfold rampPlane
  dsimp only
  repeat' first
    | with_reducible first
        | assumption | apply ite_kept | apply endRegulation_kept | apply forAll_kept | apply idlePhases_kept
        | apply onPlane_kept | apply withdrawStand_kept
    | intro _

theorem planeIsOff_kept {a0 : Nat} (h : Kept s t) :
    Kept s (planeIsOff a0 t) := by
  unfold planeIsOff
  dsimp only
  repeat' first
    | with_reducible first
        | assumption | apply ite_kept | apply endRegulation_kept | apply forAll_kept | apply onCrew_kept
        | apply onPlane_kept | apply put_kept | apply setCst_kept
    | intro _
    | decide

theorem sdFinish_kept (h : Kept s t) :
    Kept s (sdFinish t) := by
  unfold sdFinish
  dsimp only
  repeat' first
    | with_reducible first
        | assumption | apply fsStop_kept | apply fullReset_kept | apply put_kept
    | intro _
    | decide
    | split
    | (with_reducible apply upd_kept); with_reducible first
        | assumption | apply fsStop_kept | apply fullReset_kept | apply put_kept

theorem sdGo_kept {a0 : List Nat} (h : Kept s t) : Kept s (sdGo a0 t) := by
  induction a0 generalizing t with
  | nil => exact sdFinish_kept h
  | cons d r ih =>
    have k : Kept s ((forAll (t.sdPlanes d) (fun s p => powerOff p s) t).put ID_PWR_STAT.SD_DOMAIN 0 d) :=
      put_kept (forAll_kept h fun _ _ k => powerOff_kept k) (by decide)
    exact ite_kept k fun _ => ih k

theorem sdAdvance_kept (h : Kept s t) :
    Kept s (sdAdvance t) := by
  unfold sdAdvance
  dsimp only
  repeat' first
    | with_reducible first
        | assumption | apply ite_kept | apply sdGo_kept | apply startHeldAll_kept
    | intro _

theorem startOrderly_kept (h : Kept s t) :
    Kept s (startOrderly t) := by
  unfold startOrderly
  repeat' first
    | with_reducible first
        | assumption | apply ite_kept | apply cancelAll_kept | apply put_kept | apply stopLanes_kept
        | apply throttleAll_kept
    | intro _
    | decide
    | split
    | (with_reducible apply upd_kept); with_reducible first
        | assumption | apply ite_kept | apply cancelAll_kept

theorem execSdWait_goes (h : Kept s t) :
    Goes s (execSdWait t) := by
  unfold execSdWait
  dsimp only
  repeat' first
    | with_reducible first
        | assumption | apply next_goes | apply ite_goes | apply ite_kept | apply assertHostReset_kept
        | apply put_kept | apply sdGo_kept
    | intro _
    | decide

theorem stopComplete_kept (h : Kept s t) :
    Kept s (stopComplete t) := by
  unfold stopComplete
  dsimp only
  repeat' first
    | with_reducible first
        | assumption | apply ite_kept | apply fsStop_kept | apply put_kept | apply sdFinish_kept
    | intro _
    | decide
    | split
    | (with_reducible apply upd_kept); with_reducible first
        | assumption | apply ite_kept | apply fsStop_kept | apply put_kept

theorem startCritical_kept (h : Kept s t) :
    Kept s (startCritical t) := by
  unfold startCritical
  dsimp only
  repeat' first
    | with_reducible first
        | assumption | apply ite_kept | apply assertHostReset_kept | apply cancelAll_kept | apply put_kept
    | intro _
    | decide
    | split
    | (with_reducible apply upd_kept); with_reducible first
        | assumption | apply ite_kept | apply assertHostReset_kept | apply cancelAll_kept | apply put_kept

theorem startControlled_kept (h : Kept s t) :
    Kept s (startControlled t) := by
  unfold startControlled
  dsimp only
  repeat' first
    | with_reducible first
        | assumption | apply ite_kept | apply cancelAll_kept | apply put_kept | apply throttleAll_kept
    | intro _
    | decide
    | split
    | (with_reducible apply upd_kept); with_reducible first
        | assumption | apply ite_kept | apply cancelAll_kept | apply put_kept

theorem execStopAtCrews_goes (h : Kept s t) :
    Goes s (execStopAtCrews t) := by
  unfold execStopAtCrews
  dsimp only
  repeat' first
    | with_reducible first
        | assumption | apply next_goes | apply ite_goes | apply ite_kept | apply endRegulation_kept
        | apply forAll_kept | apply onCrew_kept | apply onPlane_kept | apply put_kept | apply startHeldAll_kept
        | apply stopComplete_kept | apply stopPhases_kept
    | intro _
    | decide
    | split
    | (with_reducible apply upd_kept); with_reducible first
        | assumption | apply next_goes | apply ite_goes | apply ite_kept | apply endRegulation_kept
        | apply forAll_kept

theorem stopGo_kept {a0 : List Nat} (h : Kept s t) : Kept s (stopGo a0 t) := by
  cases a0 with
  | nil => exact stopComplete_kept h
  | cons d r =>
    refine startHeldAll_kept (upd_kept (forAll_kept h fun _ _ k => ?_))
    exact ite_kept (rampPlane_kept k) (fun _ => k)

theorem execDomainShutdown_goes (h : Kept s t) :
    Goes s (execDomainShutdown t) := by
  unfold execDomainShutdown
  repeat' with_reducible first
    | assumption | apply next_goes | apply ite_goes | apply ite_kept | apply assertHostReset_kept
    | apply stopGo_kept

theorem stopAdvance_kept (h : Kept s t) :
    Kept s (stopAdvance t) := by
  unfold stopAdvance
  repeat' first
    | with_reducible first
        | assumption | apply ite_kept | apply stopComplete_kept | apply stopGo_kept
    | intro _
    | decide
    | split

theorem execPlaneDischarged_goes {a0 : Nat} (h : Kept s t) :
    Goes s (execPlaneDischarged a0 t) := by
  unfold execPlaneDischarged
  repeat' with_reducible first
    | assumption | apply next_goes | apply ite_goes | apply ite_kept | apply planeIsOff_kept
    | apply sdAdvance_kept | apply startHeldAll_kept | apply stopAdvance_kept

theorem execSheddingEnd_goes {a0 : Nat} (h : Kept s t) :
    Goes s (execSheddingEnd a0 t) := by
  unfold execSheddingEnd
  repeat' with_reducible first
    | assumption | apply next_goes | apply ite_goes | apply sdAdvance_kept | apply sheddingEnd_kept
    | apply startHeldAll_kept

theorem execRefStep_goes {a0 : Nat} (h : Kept s t) :
    Goes s (execRefStep a0 t) := by
  unfold execRefStep
  dsimp only
  repeat' first
    | with_reducible first
        | assumption | apply next_goes | apply ite_goes | apply ite_kept | apply refStep_kept
        | apply sdAdvance_kept | apply startHeldAll_kept
    | intro _

theorem issueShutdown_kept {a1 : Nat} (h : Kept s t) :
    Kept s (issueShutdown t a1) := by
  unfold issueShutdown
  dsimp only
  repeat' first
    | with_reducible first
        | assumption | apply ite_kept | apply cancelPower_kept | apply forAll_kept | apply onPlane_kept
        | apply withdrawStand_kept
    | intro _

theorem execFaultShutdown_goes {a0 : Nat} (h : Kept s t) :
    Goes s (execFaultShutdown a0 t) := by
  unfold execFaultShutdown
  repeat' with_reducible first
    | assumption | apply next_goes | apply ite_goes | apply ite_kept | apply onPlane_kept
    | apply rampPlane_kept | apply sdAdvance_kept | apply startHeldAll_kept

theorem logEvent_kept {a0 : Event} {a1 : Bool} (h : Kept s t) :
    Kept s (logEvent a0 a1 t) := by
  unfold logEvent
  repeat' first
    | with_reducible first
        | assumption | apply ite_kept | apply bump_kept | apply showLog_kept
    | intro _
    | decide
    | split
    | (with_reducible apply upd_kept); with_reducible first
        | assumption

theorem flashPut_kept {a0 : Bool} {a1 : Nat} {a2 : List Byte} (h : Kept s t) : Kept s (flashPut a0 a1 a2 t) :=
  flash_kept h msetList_wf

theorem execLogRecord_goes {a0 : Bool} (h : Kept s t) :
    Goes s (execLogRecord a0 t) := by
  unfold execLogRecord
  dsimp only
  repeat' first
    | with_reducible first
        | assumption | apply next_goes | apply ite_goes | apply ite_kept | apply flashPut_kept | apply put_kept
        | apply raise_kept | apply setOver_kept | apply showLog_kept
    | intro _
    | decide
    | split
    | (with_reducible apply upd_kept); with_reducible first
        | assumption | apply next_goes | apply ite_goes | apply ite_kept | apply flashPut_kept | apply put_kept

theorem execRingSectorErase_goes (h : Kept s t) : Goes s (execRingSectorErase t) := by
  unfold execRingSectorErase
  split
  · exact next_goes h
  · rename_i k _
    exact ite_goes (next_goes h) (next_goes ((flash_kept
      (m := mclear t.flash (ringOfs (8 * k)) (ringOfs (8 * k) + 0x1000)) h mclear_wf).congr rfl rfl rfl rfl rfl))

end Sys2Proof.Machine
end

