-- ==== Sys2Proof/Laws/KeptFaults.lean ====
section
/-! SUPPORT. What the operations of Machine/Faults.lean keep. -/

namespace Sys2Proof.Machine

open Sys2Proof

variable {s t : State}

theorem scopeAction_kept {a0 : Event} (h : Kept s t) :
    Kept s (scopeAction a0 t) := by
  unfold scopeAction
  repeat' first
    | with_reducible first
        | assumption | apply ite_kept | apply forAll_kept | apply issueShutdown_kept | apply startCritical_kept
        | apply startHeldAll_kept
    | intro _

theorem fc3Action_kept {a0 : Event} (h : Kept s t) :
    Kept s (fc3Action a0 t) := by
  unfold fc3Action
  dsimp only
  repeat' first
    | with_reducible first
        | assumption | apply ite_kept | apply forAll_kept | apply latchStatus_kept | apply logEvent_kept
        | apply put_kept | apply startControlled_kept | apply startCritical_kept | apply stopLanes_kept
    | intro _
    | decide
    | split
    | (with_reducible apply upd_kept); with_reducible first
        | assumption | apply ite_kept | apply forAll_kept | apply latchStatus_kept | apply logEvent_kept
        | apply put_kept | apply startControlled_kept | apply startCritical_kept | apply stopLanes_kept

theorem fc3InSafe_kept {a0 : Event} (h : Kept s t) :
    Kept s (fc3InSafe a0 t) := by
  unfold fc3InSafe
  dsimp only
  repeat' with_reducible first
    | assumption | apply ite_kept | apply logEvent_kept | apply startCritical_kept

theorem classify_kept {a0 : Event} (h : Kept s t) :
    Kept s (classify a0 t) := by
  unfold classify
  dsimp only
  repeat' first
    | with_reducible first
        | assumption | apply ite_kept | apply ite_fst_kept | apply collect_kept | apply fc3Action_kept
        | apply fc3InSafe_kept | apply raise_kept | apply recurrence_kept | apply scopeAction_kept
        | apply setOver_kept | apply undoClear_kept
    | intro _
    | decide

theorem classifyNext_kept (h : Kept s t) :
    Kept s (classifyNext t) := by
  unfold classifyNext
  dsimp only
  repeat' first
    | with_reducible first
        | assumption | apply ite_kept | apply classify_kept | apply sdAdvance_kept
    | intro _
    | decide
    | split
    | (with_reducible apply upd_kept); with_reducible first
        | assumption

theorem clearOne_kept {a1 : Nat} (h : Kept s t) :
    Kept s (clearOne t a1) := by
  unfold clearOne
  dsimp only
  repeat' first
    | with_reducible first
        | assumption | apply ite_kept | apply raise_kept
    | intro _
    | decide
    | split
    | (with_reducible apply upd_kept); with_reducible first
        | assumption

theorem fltClear_kept {a0 : Bool} {a1 : Nat} (h : Kept s t) :
    Kept s (fltClear a0 a1 t) := by
  unfold fltClear
  dsimp only
  repeat' first
    | with_reducible first
        | assumption | apply ite_kept | apply clearOne_kept | apply forAll_kept | apply put_kept
    | intro _
    | decide

theorem inject_kept (h : Kept s t) :
    Kept s (inject t) := by
  unfold inject
  dsimp only
  repeat' first
    | with_reducible first
        | assumption | apply ite_kept | apply raiseEv_kept | apply setOver_kept
    | intro _
    | decide
    | split

theorem selfFault_kept {a0 : Bool} (h : Kept s t) :
    Kept s (selfFault a0 t) := by
  unfold selfFault
  dsimp only
  repeat' first
    | with_reducible first
        | assumption | apply ite_kept | apply assertHostReset_kept | apply logEvent_kept | apply put_kept
        | apply startCritical_kept
    | intro _
    | decide

theorem recAdvance_kept (h : Kept s t) :
    Kept s (recAdvance t) := by
  unfold recAdvance
  repeat' first
    | with_reducible first
        | assumption | apply put_kept
    | intro _
    | decide

end Sys2Proof.Machine
end

