-- ==== Sys2Proof/Laws/KeptThermal.lean ====
section
/-! SUPPORT. What the operations of Machine/Thermal.lean keep. -/

namespace Sys2Proof.Machine

open Sys2Proof

variable {s t : State}

theorem onSensor_kept {a1 : Nat} {a2 : Sensor → Sensor} (h : Kept s t) :
    Kept s (State.onSensor t a1 a2) := by
  unfold State.onSensor
  repeat' first
    | with_reducible first
        | assumption | apply Kept.refl
    | intro _
    | decide
    | split
    | (with_reducible apply upd_kept); with_reducible first
        | assumption

theorem onRegn_kept {a1 : Nat} {a2 : Region → Region} (h : Kept s t) :
    Kept s (State.onRegn t a1 a2) := by
  unfold State.onRegn
  repeat' first
    | with_reducible first
        | assumption | apply Kept.refl
    | intro _
    | decide
    | split
    | (with_reducible apply upd_kept); with_reducible first
        | assumption

theorem showCeil_kept {a1 : Nat} (h : Kept s t) :
    Kept s (showCeil t a1) := by
  unfold showCeil
  repeat' first
    | with_reducible first
        | assumption | apply put_kept
    | intro _
    | decide
    | split

theorem ceilCheck_kept {a1 : Nat} (h : Kept s t) :
    Kept s (ceilCheck t a1) := by
  unfold ceilCheck
  repeat' first
    | with_reducible first
        | assumption | apply ite_kept | apply onPlane_kept | apply showCeil_kept
    | intro _

theorem execThermalCeilingStep_goes {a0 : Nat} (h : Kept s t) :
    Goes s (execThermalCeilingStep a0 t) := by
  unfold execThermalCeilingStep
  repeat' with_reducible first
    | assumption | apply next_goes | apply ite_goes | apply ite_kept | apply onPlane_kept
    | apply showCeil_kept

theorem enterThrottle_kept {a0 : Nat} (h : Kept s t) :
    Kept s (enterThrottle a0 t) := by
  unfold enterThrottle
  dsimp only
  repeat' first
    | with_reducible first
        | assumption | apply ite_kept | apply forAll_kept | apply latchStatus_kept | apply notice_kept
        | apply putBit_kept | apply put_kept | apply raise_kept | apply sigLanes_kept
    | intro _
    | decide

theorem regionCheck_kept {a0 : Nat} (h : Kept s t) :
    Kept s (regionCheck a0 t) := by
  unfold regionCheck
  dsimp only
  repeat' first
    | with_reducible first
        | assumption | apply ite_kept | apply enterThrottle_kept | apply mark_kept | apply putI_kept
        | apply put_kept | apply raise_kept
    | intro _
    | decide
    | split

theorem regionChecks_kept (h : Kept s t) :
    Kept s (regionChecks t) := by
  unfold regionChecks
  repeat' with_reducible first
    | assumption | apply forAll_kept | apply regionCheck_kept

theorem enforce_kept {a0 : Nat} (h : Kept s t) :
    Kept s (enforce a0 t) := by
  unfold enforce
  dsimp only
  repeat' first
    | with_reducible first
        | assumption | apply ite_kept | apply ceilCheck_kept | apply forAll_kept | apply onRegn_kept
        | apply put_kept | apply sendRate_kept
    | intro _
    | decide

theorem graceEnd_kept {a0 : Nat} (h : Kept s t) :
    Kept s (graceEnd a0 t) := by
  unfold graceEnd
  dsimp only
  repeat' first
    | with_reducible first
        | assumption | apply ite_kept | apply enforce_kept | apply onRegn_kept | apply put_kept
        | apply raise_kept
    | intro _
    | decide

theorem enforcementStep_kept {a0 : Nat} (h : Kept s t) :
    Kept s (enforcementStep a0 t) := by
  unfold enforcementStep
  repeat' first
    | with_reducible first
        | assumption | apply ite_kept | apply enforce_kept | apply put_kept | apply sendRate_kept
    | intro _
    | decide

theorem throttleEnd_kept {a0 : Nat} (h : Kept s t) :
    Kept s (throttleEnd a0 t) := by
  unfold throttleEnd
  dsimp only
  repeat' first
    | with_reducible first
        | assumption | apply ite_kept | apply ceilCheck_kept | apply forAll_kept | apply notice_kept
        | apply onRegn_kept | apply putBit_kept | apply put_kept | apply raise_kept | apply sendRate_kept
    | intro _
    | decide

theorem showSensor_kept {a1 : Nat} (h : Kept s t) :
    Kept s (showSensor t a1) := by
  unfold showSensor
  repeat' first
    | with_reducible first
        | assumption | apply putI_kept
    | intro _
    | decide

theorem sensorChanged_kept {a0 : Nat} (h : Kept s t) :
    Kept s (sensorChanged a0 t) := by
  unfold sensorChanged
  dsimp only
  repeat' with_reducible first
    | assumption | apply forAll_kept | apply regionCheck_kept | apply showSensor_kept

theorem substEnd_kept {a0 : Nat} {a1 : Nat} (h : Kept s t) :
    Kept s (substEnd a0 a1 t) := by
  unfold substEnd
  repeat' first
    | with_reducible first
        | assumption | apply put_kept
    | intro _
    | decide

theorem breakSensor_kept {a0 : Nat} {a1 : Nat} (h : Kept s t) :
    Kept s (breakSensor a0 a1 t) := by
  unfold breakSensor
  dsimp only
  repeat' first
    | with_reducible first
        | assumption | apply ite_kept | apply forAll_kept | apply onSensor_kept | apply put_kept
        | apply raise_kept | apply sensorChanged_kept | apply substEnd_kept
    | intro _
    | decide

theorem criterion_kept {a0 : Nat} {a1 : Nat} (h : Kept s t) :
    Kept s (criterion a0 a1 t) := by
  unfold criterion
  repeat' first
    | with_reducible first
        | assumption | apply ite_kept | apply breakSensor_kept | apply onSensor_kept | apply put_kept
    | intro _
    | decide

theorem retestCheck_kept {a0 : Nat} (h : Kept s t) :
    Kept s (retestCheck a0 t) := by
  unfold retestCheck
  dsimp only
  repeat' first
    | with_reducible first
        | assumption | apply ite_kept | apply onSensor_kept | apply put_kept | apply sensorChanged_kept
        | apply substEnd_kept
    | intro _
    | decide
    | split

theorem execBiasCheck_goes {a0 : Nat} {a1 : Int} (h : Kept s t) :
    Goes s (execBiasCheck a0 a1 t) := by
  unfold execBiasCheck
  dsimp only
  repeat' first
    | with_reducible first
        | assumption | apply next_goes | apply ite_goes | apply ite_kept | apply criterion_kept
        | apply onSensor_kept | apply retestCheck_kept
    | intro _
    | decide
    | split

theorem execStale_goes {a0 : Nat} (h : Kept s t) :
    Goes s (execStale a0 t) := by
  unfold execStale
  repeat' first
    | with_reducible first
        | assumption | apply next_goes | apply ite_goes | apply ite_kept | apply criterion_kept
    | intro _

theorem retestWrite_kept {a0 : Nat} (h : Kept s t) :
    Kept s (retestWrite a0 t) := by
  unfold retestWrite
  repeat' with_reducible first
    | assumption | apply ite_kept | apply onSensor_kept

theorem substWrite_kept {a0 : Nat} {a1 : Nat} (h : Kept s t) :
    Kept s (substWrite a0 a1 t) := by
  unfold substWrite
  dsimp only
  repeat' first
    | with_reducible first
        | assumption | apply ite_kept | apply put_kept | apply sensorChanged_kept
    | intro _
    | decide

theorem limitChecks_kept {a0 : Nat} {a1 : Int} (h : Kept s t) :
    Kept s (limitChecks a0 a1 t) := by
  unfold limitChecks
  dsimp only
  repeat' first
    | with_reducible first
        | assumption | apply ite_kept | apply onSensor_kept | apply put_kept | apply raise_kept
        | apply startCritical_kept
    | intro _
    | decide

theorem confirm_kept {a0 : Nat} {a1 : Int} {a2 : Nat} (h : Kept s t) :
    Kept s (confirm a0 a1 a2 t) := by
  unfold confirm
  dsimp only
  repeat' first
    | with_reducible first
        | assumption | apply ite_kept | apply criterion_kept | apply limitChecks_kept | apply onSensor_kept
        | apply put_kept | apply retestCheck_kept | apply sensorChanged_kept
    | intro _
    | decide

theorem sensorSample_kept {a0 : Nat} {a1 : Int} (h : Kept s t) :
    Kept s (sensorSample a0 a1 t) := by
  unfold sensorSample
  dsimp only
  repeat' first
    | with_reducible first
        | assumption | apply ite_kept | apply confirm_kept | apply criterion_kept | apply onSensor_kept
    | intro _
    | decide
    | split

theorem execCoolantOkPinChange_goes {a0 : Bool} (h : Kept s t) :
    Goes s (execCoolantOkPinChange a0 t) := by
  unfold execCoolantOkPinChange
  repeat' first
    | with_reducible first
        | assumption | apply next_goes | apply ite_goes
    | intro _
    | decide
    | split
    | (with_reducible apply upd_kept); with_reducible first
        | assumption

theorem coolantDebounce_kept (h : Kept s t) :
    Kept s (coolantDebounce t) := by
  unfold coolantDebounce
  dsimp only
  repeat' first
    | with_reducible first
        | assumption | apply ite_kept | apply mark_kept | apply put_kept | apply raise_kept
        | apply startControlled_kept
    | intro _
    | decide

end Sys2Proof.Machine
end

