-- ==== Sys2Proof/Laws/KeptRegatta.lean ====
section
/-! SUPPORT. What the operations of Machine/Regatta.lean keep. -/

namespace Sys2Proof.Machine

open Sys2Proof

variable {s t : State}

theorem onUmp_kept {a1 : Nat} {a2 : Umpire → Umpire} (h : Kept s t) :
    Kept s (State.onUmp t a1 a2) := by
  unfold State.onUmp
  repeat' first
    | with_reducible first
        | assumption | apply Kept.refl
    | intro _
    | decide
    | split
    | (with_reducible apply upd_kept); with_reducible first
        | assumption

theorem rgtSend_kept {a0 : Nat} {a1 : Nat} {a2 : Nat} {a3 : Nat} {a4 : List Nat} (h : Kept s t) :
    Kept s (rgtSend a0 a1 a2 a3 a4 t) := by
  unfold rgtSend
  dsimp only
  repeat' first
    | with_reducible first
        | assumption | apply Kept.refl
    | intro _
    | decide
    | split
    | (with_reducible apply upd_kept); with_reducible first
        | assumption

theorem onMessage_kept {a0 : Nat} {a1 : List Nat} {f : Nat → Nat → State → State} (h : Kept s t)
    (hf : ∀ x y u, Kept s u → Kept s (f x y u)) : Kept s (onMessage a0 a1 f t) := by
  unfold onMessage
  exact ite_kept (ite_kept (ite_kept (hf _ _ _ h) fun _ => h) fun _ => h) fun _ => bump_kept h (by decide)

theorem rgtDown_kept {a0 a1 a5 : Nat} {a2 : List Nat} {f : State → State} (h : Kept s t)
    (hf : ∀ u, Kept s u → Kept s (f u)) : Kept s (rgtDown a0 a1 a2 f a5 t) := by
  induction a5 generalizing t with
  | zero => exact hf _ h
  | succ n ih => exact ih (forAll_kept h fun _ _ k => rgtSend_kept k)

theorem showFollow_kept (h : Kept s t) :
    Kept s (showFollow t) := by
  unfold showFollow
  repeat' first
    | with_reducible first
        | assumption | apply mark_kept
    | intro _
    | decide

theorem liftFollow_kept (h : Kept s t) :
    Kept s (liftFollow t) := by
  unfold liftFollow
  repeat' first
    | with_reducible first
        | assumption | apply forAll_kept | apply onPlane_kept | apply showFollow_kept
    | intro _

theorem noticeMember_kept {a0 : Nat} {a1 : Nat} (h : Kept s t) :
    Kept s (noticeMember a0 a1 t) := by
  unfold noticeMember
  dsimp only
  repeat' first
    | with_reducible first
        | assumption | apply ite_kept | apply forAll_kept | apply liftFollow_kept | apply onPlane_kept
        | apply put_kept | apply setSig_kept | apply showFollow_kept | apply sigSupers_kept
    | intro _
    | decide

theorem noticeUp_kept {a0 a1 a2 a3 : Nat} (h : Kept s t) : Kept s (noticeUp a0 a1 a2 a3 t) := by
  induction a0 generalizing t a1 a2 a3 with
  | zero => exact h
  | succ n ih =>
    unfold noticeUp
    exact ite_kept (ite_kept (ite_kept (ih (onUmp_kept (onUmp_kept h))) fun _ => onUmp_kept h) fun _ => rgtSend_kept h)
      fun _ => rgtDown_kept h fun _ k => noticeMember_kept k

theorem nodeSlow_kept {a0 : Nat} (h : Kept s t) :
    Kept s (nodeSlow a0 t) := by
  unfold nodeSlow
  dsimp only
  repeat' first
    | with_reducible first
        | assumption | apply ite_kept | apply noticeUp_kept | apply onUmp_kept
    | intro _

theorem execNotice_goes {a0 : List Nat} (h : Kept s t) :
    Goes s (execNotice a0 t) := by
  unfold execNotice
  repeat' first
    | with_reducible first
        | assumption | apply next_goes | apply ite_goes | apply ite_kept | apply nodeSlow_kept
        | apply onMessage_kept | apply onUmp_kept
    | intro _

theorem execNoticeAll_goes {a0 : List Nat} (h : Kept s t) :
    Goes s (execNoticeAll a0 t) := by
  unfold execNoticeAll
  dsimp only
  repeat' first
    | with_reducible first
        | assumption | apply next_goes | apply ite_goes | apply noticeMember_kept | apply onMessage_kept
        | apply rgtDown_kept
    | intro _

theorem barMetLane_kept {a1 : Nat} (h : Kept s t) :
    Kept s (barMetLane t a1) := by
  unfold barMetLane
  dsimp only
  repeat' first
    | with_reducible first
        | assumption | apply endWait_kept | apply put_kept
    | intro _
    | decide
    | split
    | (with_reducible apply upd_kept); with_reducible first
        | assumption | apply endWait_kept | apply put_kept

theorem doneMember_kept {a0 : Nat} (h : Kept s t) :
    Kept s (doneMember a0 t) := by
  unfold doneMember
  repeat' with_reducible first
    | assumption | apply barMetLane_kept | apply forAll_kept

theorem joinUp_kept {a0 a1 a2 : Nat} (h : Kept s t) : Kept s (joinUp a0 a1 a2 t) := by
  induction a0 generalizing t a1 a2 with
  | zero => exact h
  | succ n ih =>
    unfold joinUp
    refine ite_kept (ite_kept ?_ fun _ => rgtSend_kept h) fun _ => rgtDown_kept h fun _ k => doneMember_kept k
    dsimp only
    split
    · exact raise_kept (bump_kept h (by decide))
    · exact ite_kept (onUmp_kept h) fun _ => ih (onUmp_kept h)

theorem nodeJoin_kept {a0 : Nat} {a1 : Nat} {a2 : Nat} (h : Kept s t) :
    Kept s (nodeJoin a0 a1 a2 t) := by
  unfold nodeJoin
  dsimp only
  repeat' first
    | with_reducible first
        | assumption | apply ite_kept | apply bump_kept | apply joinUp_kept | apply onUmp_kept
        | apply raise_kept
    | intro _
    | decide
    | split

theorem barsRecheck_kept {a0 : Nat} (h : Kept s t) :
    Kept s (barsRecheck a0 t) := by
  unfold barsRecheck
  dsimp only
  repeat' first
    | with_reducible first
        | assumption | apply forAll_kept | apply joinUp_kept | apply onUmp_kept
    | intro _

theorem execJoin_goes {a0 : List Nat} (h : Kept s t) :
    Goes s (execJoin a0 t) := by
  unfold execJoin
  repeat' first
    | with_reducible first
        | assumption | apply next_goes | apply ite_goes | apply ite_kept | apply nodeJoin_kept
        | apply onMessage_kept
    | intro _

theorem execDone_goes {a0 : List Nat} (h : Kept s t) :
    Goes s (execDone a0 t) := by
  unfold execDone
  dsimp only
  repeat' first
    | with_reducible first
        | assumption | apply next_goes | apply ite_goes | apply doneMember_kept | apply onMessage_kept
        | apply rgtDown_kept
    | intro _

theorem execBarx_goes {a0 : Nat} (h : Kept s t) :
    Goes s (execBarx a0 t) := by
  unfold execBarx
  dsimp only
  repeat' first
    | with_reducible first
        | assumption | apply next_goes | apply ite_goes | apply ite_kept | apply fall_kept | apply issue_kept
        | apply joinUp_kept | apply laneOnlyWait_kept | apply onCtx_kept | apply raise_kept | apply setLst_kept
        | apply setV_kept
    | intro _

theorem execSlack_goes {a0 : Nat} (h : Kept s t) :
    Goes s (execSlack a0 t) := by
  unfold execSlack
  repeat' first
    | with_reducible first
        | assumption | apply next_goes | apply ite_goes | apply ite_kept | apply fall_kept | apply issue_kept
        | apply supRefused_kept
    | intro _
    | decide
    | split
    | (with_reducible apply upd_kept); with_reducible first
        | assumption

theorem keepReport_kept {a0 : Nat} {a1 : Nat} {a2 : Report} (h : Kept s t) :
    Kept s (keepReport a0 a1 a2 t) := by
  unfold keepReport
  dsimp only
  repeat' with_reducible first
    | assumption | apply ite_kept | apply nodeSlow_kept | apply onUmp_kept

theorem execReport_goes {a0 : List Nat} (h : Kept s t) :
    Goes s (execReport a0 t) := by
  unfold execReport
  repeat' first
    | with_reducible first
        | assumption | apply next_goes | apply ite_goes | apply ite_kept | apply keepReport_kept
        | apply onMessage_kept
    | intro _

theorem ageKids_kept {a0 : Nat} (h : Kept s t) :
    Kept s (ageKids a0 t) := by
  unfold ageKids
  dsimp only
  repeat' first
    | with_reducible first
        | assumption | apply ite_kept | apply barsRecheck_kept | apply forAll_kept | apply nodeSlow_kept
        | apply onUmp_kept | apply raise_kept
    | intro _

theorem grantMember_kept {a0 : List Nat} {a1 : Nat} {a2 : Bool} (h : Kept s t) :
    Kept s (grantMember a0 a1 a2 t) := by
  unfold grantMember
  dsimp only
  repeat' first
    | with_reducible first
        | assumption | apply mark_kept | apply put_kept
    | intro _
    | decide
    | split
    | (with_reducible apply upd_kept); with_reducible first
        | assumption | apply mark_kept

theorem execRegattaGrant_goes {a0 : List Nat} (h : Kept s t) :
    Goes s (execRegattaGrant a0 t) := by
  unfold execRegattaGrant
  dsimp only
  repeat' first
    | with_reducible first
        | assumption | apply next_goes | apply ite_goes | apply grantMember_kept | apply onMessage_kept
        | apply rgtDown_kept
    | intro _

theorem rootGrant_kept {a0 : Report} (h : Kept s t) :
    Kept s (rootGrant a0 t) := by
  unfold rootGrant
  dsimp only
  repeat' first
    | with_reducible first
        | assumption | apply ite_kept | apply grantMember_kept | apply raise_kept | apply rgtDown_kept
    | intro _
    | decide
    | split
    | (with_reducible apply upd_kept); with_reducible first
        | assumption | apply ite_kept | apply grantMember_kept | apply raise_kept

theorem nodeReport_kept {a1 : Nat} (h : Kept s t) :
    Kept s (nodeReport t a1) := by
  unfold nodeReport
  dsimp only
  repeat' first
    | with_reducible first
        | assumption | apply ite_kept | apply ageKids_kept | apply keepReport_kept | apply rgtSend_kept
        | apply rootGrant_kept
    | intro _

theorem contactCheck_kept (h : Kept s t) :
    Kept s (contactCheck t) := by
  unfold contactCheck
  dsimp only
  repeat' first
    | with_reducible first
        | assumption | apply ite_kept | apply liftFollow_kept | apply put_kept | apply raise_kept
    | intro _
    | decide
    | split
    | (with_reducible apply upd_kept); with_reducible first
        | assumption

theorem nodesReport_kept (h : Kept s t) :
    Kept s (nodesReport t) := by
  unfold nodesReport
  dsimp only
  repeat' first
    | with_reducible first
        | assumption | apply ite_kept | apply forAll_kept | apply nodeReport_kept | apply put_kept
    | intro _
    | decide
    | split
    | (with_reducible apply upd_kept); with_reducible first
        | assumption | apply ite_kept | apply forAll_kept

theorem execReportPeriod_goes (h : Kept s t) :
    Goes s (execReportPeriod t) := by
  unfold execReportPeriod
  dsimp only
  repeat' first
    | with_reducible first
        | assumption | apply next_goes | apply ite_goes | apply ite_kept | apply contactCheck_kept
        | apply keepReport_kept | apply mark_kept | apply nodesReport_kept | apply put_kept
        | apply rgtSend_kept | apply rootGrant_kept
    | intro _
    | decide
    | split
    | (with_reducible apply upd_kept); with_reducible first
        | assumption | apply next_goes | apply ite_goes | apply ite_kept | apply contactCheck_kept
        | apply keepReport_kept | apply mark_kept | apply nodesReport_kept | apply put_kept

theorem rgtJoin_kept (h : Kept s t) :
    Kept s (rgtJoin t) := by
  unfold rgtJoin
  dsimp only
  repeat' first
    | with_reducible first
        | assumption | apply ite_kept | apply mark_kept | apply put_kept | apply setOver_kept
    | intro _
    | decide
    | split
    | (with_reducible apply upd_kept); with_reducible first
        | assumption

theorem rgtLeave_kept (h : Kept s t) :
    Kept s (rgtLeave t) := by
  unfold rgtLeave
  dsimp only
  repeat' first
    | with_reducible first
        | assumption | apply liftFollow_kept | apply put_kept
    | intro _
    | decide
    | split
    | (with_reducible apply upd_kept); with_reducible first
        | assumption | apply liftFollow_kept | apply put_kept

end Sys2Proof.Machine
end

