-- ==== Sys2Proof/Laws/KeptCapping.lean ====
section
/-! SUPPORT. What the operations of Machine/Capping.lean keep. -/

namespace Sys2Proof.Machine

open Sys2Proof

variable {s t : State}

theorem measureCrew_kept {a1 : Nat} (h : Kept s t) :
    Kept s (measureCrew t a1) := by
  unfold measureCrew
  dsimp only
  repeat' first
    | with_reducible first
        | assumption | apply onCrew_kept | apply put_kept
    | intro _
    | decide

theorem measure_kept (h : Kept s t) :
    Kept s (measure t) := by
  unfold measure
  dsimp only
  repeat' first
    | with_reducible first
        | assumption | apply ite_kept | apply forAll_kept | apply measureCrew_kept | apply onPlane_kept
        | apply put_kept
    | intro _
    | decide
    | split
    | (with_reducible apply upd_kept); with_reducible first
        | assumption | apply ite_kept | apply forAll_kept

theorem heatBudgetOf_kept {a1 : Nat} (h : Kept s t) :
    Kept s (heatBudgetOf t a1) := by
  unfold heatBudgetOf
  dsimp only
  repeat' first
    | with_reducible first
        | assumption | apply ite_kept | apply put_kept
    | intro _
    | decide

theorem rateStep_kept {a0 : List Nat} {a1 : Tab Rat} {a3 : Nat} (h : Kept s t) :
    Kept s (rateStep a0 a1 t a3) := by
  unfold rateStep
  dsimp only
  repeat' first
    | with_reducible first
        | assumption | apply ite_kept | apply put_kept | apply sendRate_kept
    | intro _
    | decide
    | split
    | (with_reducible apply upd_kept); with_reducible first
        | assumption | apply ite_kept | apply put_kept

theorem throttlePlane_kept {a0 : List Nat} {a2 : Nat} (h : Kept s t) :
    Kept s (throttlePlane a0 t a2) := by
  unfold throttlePlane
  dsimp only
  repeat' first
    | with_reducible first
        | assumption | apply ite_kept | apply notice_kept | apply putBit_kept | apply raisePlane_kept
    | intro _
    | decide
    | split
    | (with_reducible apply upd_kept); with_reducible first
        | assumption

theorem throttleField_kept {a0 : Tab Rat} {a2 : Nat} (h : Kept s t) :
    Kept s (throttleField a0 t a2) := by
  unfold throttleField
  dsimp only
  repeat' first
    | with_reducible first
        | assumption | apply ite_kept | apply notice_kept | apply putBit_kept
    | intro _
    | decide
    | split
    | (with_reducible apply upd_kept); with_reducible first
        | assumption

theorem overrun_kept {a0 : Bool} {f : Fld} {a2 a3 : Nat} (h : Kept s t) (hf : f.mapped) : Kept s (overrun a0 f a2 a3 t) := by
  unfold overrun
  exact ite_kept (ite_kept (raise_kept (upd_kept (bump_kept h hf))) fun _ => bump_kept h hf) fun _ => h

theorem overruns_kept (h : Kept s t) :
    Kept s (overruns t) := by
  unfold overruns
  dsimp only
  repeat' first
    | with_reducible first
        | assumption | apply ite_kept | apply overrun_kept | apply raise_kept
    | intro _
    | decide
    | split
    | (with_reducible apply upd_kept); with_reducible first
        | assumption | apply ite_kept | apply overrun_kept

theorem binding_kept (h : Kept s t) :
    Kept s (binding t).1 := by
  unfold binding
  dsimp only
  repeat' first
    | with_reducible first
        | assumption | apply ite_kept | apply ite_fst_kept | apply mark_kept | apply put_kept
        | apply raise_kept | apply sigSupers_kept
    | intro _
    | decide
    | split
    | (with_reducible apply upd_kept); with_reducible first
        | assumption | apply ite_kept | apply ite_fst_kept | apply mark_kept | apply put_kept
        | apply raise_kept | apply sigSupers_kept

theorem allowances_kept {a0 : Rat} (h : Kept s t) :
    Kept s (allowances a0 t) := by
  unfold allowances
  dsimp only
  repeat' first
    | with_reducible first
        | assumption | apply forAll_kept | apply mark_kept | apply putBit_kept | apply put_kept
        | apply sigLanes_kept
    | intro _
    | decide
    | split
    | (with_reducible apply upd_kept); with_reducible first
        | assumption | apply forAll_kept | apply mark_kept

theorem slowPass_kept (h : Kept s t) :
    Kept s (slowPass t) := by
  unfold slowPass
  dsimp only
  repeat' first
    | with_reducible first
        | assumption | apply ite_kept | apply noticeUp_kept | apply put_kept
    | intro _
    | decide
    | split
    | (with_reducible apply upd_kept); with_reducible first
        | assumption | apply ite_kept | apply noticeUp_kept | apply put_kept

theorem cappingPass_kept (h : Kept s t) :
    Kept s (cappingPass t) := by
  unfold cappingPass
  dsimp only
  repeat' first
    | with_reducible first
        | assumption | apply allowances_kept | apply binding_kept | apply calibrateCrew_kept
        | apply forAll_kept | apply heatBudgetOf_kept | apply measure_kept | apply overruns_kept
        | apply rateStep_kept | apply showMode_kept | apply slowPass_kept | apply throttleField_kept
        | apply throttlePlane_kept
    | intro _
    | decide
    | split
    | (with_reducible apply upd_kept); with_reducible first
        | assumption | apply allowances_kept | apply binding_kept | apply calibrateCrew_kept
        | apply forAll_kept

theorem execSharingPass_goes (h : Kept s t) :
    Goes s (execSharingPass t) := by
  unfold execSharingPass
  repeat' with_reducible first
    | assumption | apply next_goes | apply ite_goes | apply cappingPass_kept | apply forAll_kept
    | apply sharePlane_kept | apply standGrant_kept

theorem derateNotice_kept {a0 : Nat} (h : Kept s t) :
    Kept s (derateNotice a0 t) := by
  unfold derateNotice
  dsimp only
  repeat' with_reducible first
    | assumption | apply notice_kept | apply onPlane_kept | apply sigLanes_kept

theorem derate_kept {a0 : Nat} (h : Kept s t) :
    Kept s (derate a0 t) := by
  unfold derate
  dsimp only
  repeat' first
    | with_reducible first
        | assumption | apply ite_kept | apply derateNotice_kept | apply latchStatus_kept | apply onPlane_kept
        | apply raisePlane_kept
    | intro _

theorem execDerate_goes {a0 : Nat} (h : Kept s t) :
    Goes s (execDerate a0 t) := by
  unfold execDerate
  repeat' with_reducible first
    | assumption | apply next_goes | apply ite_goes | apply derate_kept | apply slowPass_kept

theorem execEnforcementStep_goes {a0 : Nat} (h : Kept s t) :
    Goes s (execEnforcementStep a0 t) := by
  unfold execEnforcementStep
  repeat' with_reducible first
    | assumption | apply next_goes | apply ite_goes | apply enforcementStep_kept | apply slowPass_kept

theorem execGraceEnd_goes {a0 : Nat} (h : Kept s t) :
    Goes s (execGraceEnd a0 t) := by
  unfold execGraceEnd
  repeat' with_reducible first
    | assumption | apply next_goes | apply ite_goes | apply graceEnd_kept | apply slowPass_kept

theorem execThrottleEnd_goes {a0 : Nat} (h : Kept s t) :
    Goes s (execThrottleEnd a0 t) := by
  unfold execThrottleEnd
  repeat' with_reducible first
    | assumption | apply next_goes | apply ite_goes | apply slowPass_kept | apply throttleEnd_kept

theorem execClassification_goes (h : Kept s t) :
    Goes s (execClassification t) := by
  unfold execClassification
  repeat' with_reducible first
    | assumption | apply next_goes | apply ite_goes | apply classifyNext_kept | apply slowPass_kept

theorem execSelfFault_goes {a0 : Bool} (h : Kept s t) :
    Goes s (execSelfFault a0 t) := by
  unfold execSelfFault
  repeat' with_reducible first
    | assumption | apply next_goes | apply ite_goes | apply selfFault_kept | apply slowPass_kept

theorem execSensorSample_goes {a0 : Nat} {a1 : Int} (h : Kept s t) :
    Goes s (execSensorSample a0 a1 t) := by
  unfold execSensorSample
  repeat' with_reducible first
    | assumption | apply next_goes | apply ite_goes | apply sensorSample_kept | apply slowPass_kept

theorem execCoolantDebounce_goes (h : Kept s t) :
    Goes s (execCoolantDebounce t) := by
  unfold execCoolantDebounce
  repeat' with_reducible first
    | assumption | apply next_goes | apply ite_goes | apply coolantDebounce_kept | apply slowPass_kept

end Sys2Proof.Machine
end

