-- ==== Sys2Proof/Laws/KeptCoord.lean ====
section
/-! SUPPORT. What the operations of Machine/Coord.lean keep. -/

namespace Sys2Proof.Machine

open Sys2Proof

variable {s t : State}

theorem execScrub_goes {a0 : Nat} {a1 : Nat} (h : Kept s t) :
    Goes s (execScrub a0 a1 t) := by
  unfold execScrub
  dsimp only
  repeat' first
    | with_reducible first
        | assumption | apply next_goes | apply ite_goes | apply ite_kept | apply ite_fst_kept
        | apply readCheck_kept
    | intro _
    | decide
    | split
    | (with_reducible apply upd_kept); with_reducible first
        | assumption

theorem marchStart_kept {a0 : Nat} {a1 : Bool} (h : Kept s t) :
    Kept s (marchStart a0 a1 t) := by
  unfold marchStart
  dsimp only
  repeat' first
    | with_reducible first
        | assumption | apply ite_kept | apply forAll_kept | apply laneUnload_kept | apply loadReport_kept
        | apply put_kept | apply setBank_kept
    | intro _
    | decide
    | split
    | (with_reducible apply upd_kept); with_reducible first
        | assumption | apply ite_kept | apply forAll_kept | apply laneUnload_kept | apply loadReport_kept
        | apply put_kept

theorem marchGo_kept {a0 : Bool} {a1 : Nat} {a2 : Bool} (h : Kept s t) :
    Kept s (marchGo a0 a1 a2 t) := by
  unfold marchGo
  dsimp only
  repeat' first
    | with_reducible first
        | assumption | apply ite_kept | apply marchStart_kept | apply put_kept
    | intro _
    | decide

theorem goodWords_kept {a0 : Nat} (h : Kept s t) :
    Kept s (goodWords a0 t) := by
  unfold goodWords
  repeat' with_reducible first
    | assumption | apply renew_kept

theorem execMarchComplete_goes {a0 : Option Mismatch} {a1 : Nat} (h : Kept s t) : Goes s (execMarchComplete a0 a1 t) := by
  unfold execMarchComplete
  split
  · exact next_goes h
  · rename_i bank preserve _
    have k : Kept s (if preserve then { t.put ID_MARCH_STAT.ELAPSED 0 (min a1 (2 ^ 20 - 1)) with march := none } else
        { goodWords bank { t.put ID_MARCH_STAT.ELAPSED 0 (min a1 (2 ^ 20 - 1)) with march := none } with
          mem := mclear t.mem (bankLo bank) (bankHi bank) }) := by
      have k0 : Kept s { t.put ID_MARCH_STAT.ELAPSED 0 (min a1 (2 ^ 20 - 1)) with march := none } :=
        upd_kept (put_kept h (by decide))
      exact ite_kept (mem_kept (goodWords_kept k0) mclear_wf) fun _ => k0
    dsimp only
    split
    · exact next_goes (setBank_kept (put_kept k (by decide)))
    · exact next_goes (raise_kept (setBank_kept (put_kept (put_kept (put_kept (put_kept k (by decide)) (by decide))
        (by decide)) (by decide))))

theorem execSafetyCrcCheck_goes (h : Kept s t) :
    Goes s (execSafetyCrcCheck t) := by
  unfold execSafetyCrcCheck
  repeat' first
    | with_reducible first
        | assumption | apply next_goes | apply ite_goes | apply ite_kept | apply raise_kept
    | intro _

theorem mbxAction_kept {a0 : Bool} {a1 : Nat} {a3 : Nat} (h : Kept s t) :
    Kept s (mbxAction a0 a1 t a3) := by
  unfold mbxAction
  dsimp only
  repeat' first
    | with_reducible first
        | assumption | apply ite_kept | apply put_kept | apply setOver_kept | apply setSig_kept
        | apply wrap_kept
    | intro _
    | decide
    | split

theorem mbxActions_kept {a0 : Bool} {a1 : Nat} {a2 : Nat} (h : Kept s t) :
    Kept s (mbxActions a0 a1 a2 t) := by
  unfold mbxActions
  repeat' first
    | with_reducible first
        | assumption | apply mbxAction_kept | apply setOver_kept
    | intro _
    | decide
    | split

theorem recoveryAnswer_kept {a0 : Nat} (h : Kept s t) :
    Kept s (recoveryAnswer a0 t) := by
  unfold recoveryAnswer
  repeat' first
    | with_reducible first
        | assumption | apply put_kept
    | intro _
    | decide

theorem recoveryCheck_kept {a0 : Nat} {a1 : Nat} (h : Kept s t) :
    Kept s (recoveryCheck a0 a1 t).1 := by
  unfold recoveryCheck
  dsimp only
  repeat' first
    | with_reducible first
        | assumption | apply ite_kept | apply ite_fst_kept | apply readChecks_kept
    | intro _

theorem execRecoverBoot_goes (h : Kept s t) :
    Goes s (execRecoverBoot t) := by
  unfold execRecoverBoot
  dsimp only
  repeat' first
    | with_reducible first
        | assumption | apply next_goes | apply ite_goes | apply ite_kept | apply ite_fst_kept
        | apply fwCopy_kept | apply fwStart_kept | apply put_kept | apply recoveryAnswer_kept
        | apply recoveryCheck_kept
    | intro _
    | decide

theorem execRecoveryReport_goes (h : Kept s t) :
    Goes s (execRecoveryReport t) := by
  unfold execRecoveryReport
  repeat' first
    | with_reducible first
        | assumption | apply next_goes | apply ite_goes | apply ite_kept | apply put_kept
        | apply recoveryAnswer_kept
    | intro _
    | decide

end Sys2Proof.Machine
end

