-- ==== Sys2Proof/Laws/KeptStartup.lean ====
section
/-! SUPPORT. What the operations of Machine/Startup.lean keep. -/

namespace Sys2Proof.Machine

open Sys2Proof

variable {s t : State}

theorem showDies_kept (h : Kept s t) :
    Kept s (showDies t) := by
  unfold showDies
  dsimp only
  repeat' first
    | with_reducible first
        | assumption | apply put_kept
    | intro _
    | decide

theorem fsStart_kept (h : Kept s t) :
    Kept s (fsStart t) := by
  unfold fsStart
  dsimp only
  repeat' first
    | with_reducible first
        | assumption | apply forAll_kept | apply put_kept | apply showDies_kept | apply stgSend_kept
    | intro _
    | decide
    | split
    | (with_reducible apply upd_kept); with_reducible first
        | assumption | apply forAll_kept | apply put_kept

theorem fsWrite_kept {a0 : Bool} (h : Kept s t) :
    Kept s (fsWrite a0 t) := by
  unfold fsWrite
  repeat' first
    | with_reducible first
        | assumption | apply ite_kept | apply fsStart_kept | apply fsStop_kept | apply setOver_kept
    | intro _
    | decide

theorem execVibGood_goes (h : Kept s t) :
    Goes s (execVibGood t) := by
  unfold execVibGood
  dsimp only
  repeat' first
    | with_reducible first
        | assumption | apply next_goes | apply ite_goes | apply ite_kept | apply put_kept
    | intro _
    | decide
    | split
    | (with_reducible apply upd_kept); with_reducible first
        | assumption | apply next_goes | apply ite_goes | apply ite_kept | apply put_kept

theorem execVibStartFailed_goes (h : Kept s t) :
    Goes s (execVibStartFailed t) := by
  unfold execVibStartFailed
  repeat' with_reducible first
    | assumption | apply next_goes | apply ite_goes | apply ite_kept | apply fsStop_kept | apply raise_kept

theorem execPwrEnPinChange_goes {a0 : Bool} (h : Kept s t) :
    Goes s (execPwrEnPinChange a0 t) := by
  unfold execPwrEnPinChange
  repeat' first
    | with_reducible first
        | assumption | apply next_goes | apply ite_goes
    | intro _
    | decide
    | split
    | (with_reducible apply upd_kept); with_reducible first
        | assumption

theorem execPwrEnDebounce_goes (h : Kept s t) :
    Goes s (execPwrEnDebounce t) := by
  unfold execPwrEnDebounce
  dsimp only
  repeat' first
    | with_reducible first
        | assumption | apply next_goes | apply ite_goes | apply ite_kept | apply mark_kept | apply raise_kept
        | apply startOrderly_kept
    | intro _
    | decide

theorem hostWrite_kept {a0 : Bool} (h : Kept s t) :
    Kept s (hostWrite a0 t) := by
  unfold hostWrite
  repeat' first
    | with_reducible first
        | assumption | apply ite_kept | apply assertHostReset_kept | apply put_kept | apply setOver_kept
    | intro _
    | decide
    | split
    | (with_reducible apply upd_kept); with_reducible first
        | assumption | apply ite_kept | apply assertHostReset_kept | apply put_kept

theorem pwrCtlWrite_kept {a0 : Nat} (h : Kept s t) :
    Kept s (pwrCtlWrite a0 t) := by
  unfold pwrCtlWrite
  dsimp only
  repeat' first
    | with_reducible first
        | assumption | apply ite_kept | apply fsWrite_kept | apply hostWrite_kept | apply put_kept
        | apply startOrderly_kept
    | intro _
    | decide

theorem execXcalReq_goes (h : Kept s t) :
    Goes s (execXcalReq t) := by
  unfold execXcalReq
  repeat' first
    | with_reducible first
        | assumption | apply next_goes | apply ite_goes | apply ite_kept | apply put_kept
        | apply sendRates_kept
    | intro _
    | decide
    | split
    | (with_reducible apply upd_kept); with_reducible first
        | assumption | apply next_goes | apply ite_goes | apply ite_kept | apply put_kept

theorem execXcalDone_goes (h : Kept s t) :
    Goes s (execXcalDone t) := by
  unfold execXcalDone
  dsimp only
  repeat' first
    | with_reducible first
        | assumption | apply next_goes | apply ite_goes | apply ite_kept | apply endXcal_kept
        | apply forAll_kept | apply put_kept
    | intro _
    | decide
    | split
    | (with_reducible apply upd_kept); with_reducible first
        | assumption

theorem undoDone_kept (h : Kept s t) :
    Kept s (undoDone t) := by
  unfold undoDone
  repeat' first
    | with_reducible first
        | assumption | apply ite_kept | apply forAll_kept | apply put_kept
    | intro _
    | decide
    | split
    | (with_reducible apply upd_kept); with_reducible first
        | assumption | apply ite_kept | apply forAll_kept

theorem xcalFailed_kept (h : Kept s t) :
    Kept s (xcalFailed t) := by
  unfold xcalFailed
  repeat' first
    | with_reducible first
        | assumption | apply ite_kept | apply assertHostReset_kept | apply endXcal_kept | apply raise_kept
    | intro _

theorem execXcalFail_goes (h : Kept s t) :
    Goes s (execXcalFail t) := by
  unfold execXcalFail
  repeat' with_reducible first
    | assumption | apply next_goes | apply ite_goes | apply undoDone_kept | apply xcalFailed_kept

theorem execXcalTimeout_goes (h : Kept s t) :
    Goes s (execXcalTimeout t) := by
  unfold execXcalTimeout
  repeat' with_reducible first
    | assumption | apply next_goes | apply ite_goes | apply xcalFailed_kept

theorem engineLane_kept {a1 : Nat} (h : Kept s t) :
    Kept s (engineLane t a1) := by
  unfold engineLane
  dsimp only
  repeat' first
    | with_reducible first
        | assumption | apply ite_kept | apply laneHalt_kept | apply laneUnload_kept | apply setGrant_kept
        | apply setLst_kept
    | intro _
    | decide
    | split
    | (with_reducible apply upd_kept); with_reducible first
        | assumption | apply ite_kept | apply laneHalt_kept | apply laneUnload_kept | apply setGrant_kept
        | apply setLst_kept

theorem engineReset_kept (h : Kept s t) :
    Kept s (engineReset t) := by
  unfold engineReset
  dsimp only
  repeat' first
    | with_reducible first
        | assumption | apply ite_kept | apply engineLane_kept | apply forAll_kept | apply put_kept
        | apply setCtx_kept | apply setLst_kept | apply startSupers_kept | apply windowClose_kept
    | intro _
    | decide
    | split
    | (with_reducible apply upd_kept); with_reducible first
        | assumption | apply ite_kept | apply engineLane_kept | apply forAll_kept | apply put_kept

theorem resetAccepted_kept {a0 : Nat} {a1 : Nat} (h : Kept s t) :
    Kept s (resetAccepted a0 a1 t) := by
  unfold resetAccepted
  repeat' first
    | with_reducible first
        | assumption | apply bump_kept | apply put_kept | apply raise_kept
    | intro _
    | decide

theorem fullRequest_kept {a0 : BootIn} (h : Kept s t) :
    Kept s (fullRequest a0 t) := by
  unfold fullRequest
  repeat' first
    | with_reducible first
        | assumption | apply ite_kept | apply fullReset_kept | apply put_kept | apply startOrderly_kept
    | intro _
    | decide
    | split
    | (with_reducible apply upd_kept); with_reducible first
        | assumption | apply ite_kept | apply fullReset_kept | apply put_kept

theorem rstWrite_kept {a0 : Nat} {a1 : Nat} {a2 : BootIn} (h : Kept s t) :
    Kept s (rstWrite a0 a1 a2 t) := by
  unfold rstWrite
  dsimp only
  repeat' first
    | with_reducible first
        | assumption | apply ite_kept | apply engineReset_kept | apply fullRequest_kept
        | apply resetAccepted_kept | apply setOver_kept
    | intro _
    | decide

theorem execStandbySupplyLost_goes (h : Kept s t) :
    Goes s (execStandbySupplyLost t) := by
  unfold execStandbySupplyLost
  repeat' first
    | with_reducible first
        | assumption | apply next_goes | apply ite_goes | apply ite_kept | apply raise_kept
    | intro _
    | decide
    | split
    | (with_reducible apply upd_kept); with_reducible first
        | assumption

theorem execVaonLoss_goes (h : Kept s t) : Goes s (execVaonLoss t) := by
  unfold execVaonLoss
  refine next_goes (ite_kept ?_ (fun k => put_kept k (by decide)))
  exact ⟨h.1, fun i => let j := h.2 i; ⟨Memory.wf_nil, j.2, fitList_filter j.3, fitList_nil⟩⟩

theorem execFc3LatchClear_goes (h : Kept s t) :
    Goes s (execFc3LatchClear t) := by
  unfold execFc3LatchClear
  repeat' first
    | with_reducible first
        | assumption | apply next_goes | apply ite_goes | apply ite_kept | apply put_kept
    | intro _
    | decide

end Sys2Proof.Machine
end

