-- ==== Sys2Proof/Laws/KeptPins.lean ====
section
/-! SUPPORT. What the operations of Machine/Pins.lean keep. -/

namespace Sys2Proof.Machine

open Sys2Proof

variable {s t : State}

theorem cml_kept {a0 : Nat} (h : Kept s t) :
    Kept s (cml a0 t) := by
  unfold cml
  repeat' first
    | with_reducible first
        | assumption | apply Kept.refl
    | intro _
    | decide
    | split
    | (with_reducible apply upd_kept); with_reducible first
        | assumption

theorem pmbRead_kept {a0 : Nat} {a1 : Nat → List Nat} (h : Kept s t) :
    Kept s (pmbRead a0 a1 t) := by
  unfold pmbRead
  dsimp only
  repeat' first
    | with_reducible first
        | assumption | apply ite_kept | apply cml_kept
    | intro _
    | decide
    | split
    | (with_reducible apply upd_kept); with_reducible first
        | assumption

theorem clearStatus_kept (h : Kept s t) :
    Kept s (clearStatus t) := by
  unfold clearStatus
  dsimp only
  repeat' first
    | with_reducible first
        | assumption | apply clearBits_kept
    | intro _
    | decide
    | split
    | (with_reducible apply upd_kept); with_reducible first
        | assumption

theorem pmbWrite_kept {a0 : Bool} {f : State → State} (h : Kept s t) (hf : ∀ u, Kept s u → Kept s (f u)) :
    Kept s (pmbWrite a0 f t) := by
  unfold pmbWrite
  exact ite_kept (cml_kept (upd_kept h)) fun _ => hf _ (upd_kept h)

theorem pmbRefused_kept (h : Kept s t) :
    Kept s (pmbRefused t) := by
  unfold pmbRefused
  repeat' first
    | with_reducible first
        | assumption | apply bump_kept | apply cml_kept | apply raise_kept
    | intro _
    | decide

theorem pmbNoWrite_kept {a0 : Bool} (h : Kept s t) :
    Kept s (pmbNoWrite a0 t) := by
  unfold pmbNoWrite
  repeat' first
    | with_reducible first
        | assumption | apply ite_kept | apply cml_kept | apply pmbRefused_kept | apply pmbWrite_kept
    | intro _

theorem pmbReadOnly_goes {a0 : Nat} {a1 : Bool} {a2 : Bool} {a3 : Nat → List Nat} (h : Kept s t) :
    Goes s (pmbReadOnly a0 a1 a2 a3 t) := by
  unfold pmbReadOnly
  repeat' first
    | with_reducible first
        | assumption | apply next_goes | apply ite_goes | apply ite_kept | apply pmbNoWrite_kept
        | apply pmbRead_kept
    | intro _

theorem writePage_kept {a0 : Nat} (h : Kept s t) :
    Kept s (writePage a0 t) := by
  unfold writePage
  repeat' first
    | with_reducible first
        | assumption | apply ite_kept | apply cml_kept | apply put_kept
    | intro _
    | decide

theorem execPage_goes {a0 : Bool} {a1 : Nat} {a2 : Bool} (h : Kept s t) :
    Goes s (execPage a0 a1 a2 t) := by
  unfold execPage
  repeat' first
    | with_reducible first
        | assumption | apply next_goes | apply ite_goes | apply ite_kept | apply pmbRead_kept
        | apply pmbWrite_kept | apply writePage_kept
    | intro _

theorem execClearFaults_goes {a0 : Bool} (h : Kept s t) :
    Goes s (execClearFaults a0 t) := by
  unfold execClearFaults
  repeat' with_reducible first
    | assumption | apply next_goes | apply ite_goes | apply clearStatus_kept | apply pmbWrite_kept

theorem execWriteProtect_goes {a0 : Bool} {a1 : Bool} (h : Kept s t) :
    Goes s (execWriteProtect a0 a1 t) := by
  unfold execWriteProtect
  repeat' with_reducible first
    | assumption | apply next_goes | apply ite_goes | apply ite_kept | apply pmbReadOnly_goes

theorem execCapability_goes {a0 : Bool} {a1 : Bool} (h : Kept s t) :
    Goes s (execCapability a0 a1 t) := by
  unfold execCapability
  repeat' with_reducible first
    | assumption | apply next_goes | apply ite_goes | apply pmbReadOnly_goes

theorem execVoutMode_goes {a0 : Bool} {a1 : Bool} (h : Kept s t) :
    Goes s (execVoutMode a0 a1 t) := by
  unfold execVoutMode
  repeat' with_reducible first
    | assumption | apply next_goes | apply ite_goes | apply pmbReadOnly_goes

theorem pmbSetpoint_kept {a0 : Nat} {a2 : Nat} (h : Kept s t) :
    Kept s (pmbSetpoint a0 t a2) := by
  unfold pmbSetpoint
  dsimp only
  repeat' first
    | with_reducible first
        | assumption | apply put_kept
    | intro _
    | decide
    | split
    | (with_reducible apply upd_kept); with_reducible first
        | assumption | apply put_kept

theorem writeVout_kept {a0 : Nat} (h : Kept s t) :
    Kept s (writeVout a0 t) := by
  unfold writeVout
  repeat' first
    | with_reducible first
        | assumption | apply ite_kept | apply forAll_kept | apply pmbRefused_kept | apply pmbSetpoint_kept
    | intro _

theorem execVoutCommand_goes {a0 : Bool} {a1 : Nat} {a2 : Bool} (h : Kept s t) :
    Goes s (execVoutCommand a0 a1 a2 t) := by
  unfold execVoutCommand
  repeat' first
    | with_reducible first
        | assumption | apply next_goes | apply ite_goes | apply ite_kept | apply pmbRead_kept
        | apply pmbWrite_kept | apply writeVout_kept
    | intro _

theorem execStatusByte_goes {a0 : Bool} {a1 : Bool} (h : Kept s t) :
    Goes s (execStatusByte a0 a1 t) := by
  unfold execStatusByte
  repeat' with_reducible first
    | assumption | apply next_goes | apply ite_goes | apply pmbReadOnly_goes

theorem execStatusWord_goes {a0 : Bool} {a1 : Bool} (h : Kept s t) :
    Goes s (execStatusWord a0 a1 t) := by
  unfold execStatusWord
  repeat' with_reducible first
    | assumption | apply next_goes | apply ite_goes | apply pmbReadOnly_goes

theorem execStatusVout_goes {a0 : Bool} {a1 : Bool} (h : Kept s t) :
    Goes s (execStatusVout a0 a1 t) := by
  unfold execStatusVout
  repeat' with_reducible first
    | assumption | apply next_goes | apply ite_goes | apply pmbReadOnly_goes

theorem execStatusIout_goes {a0 : Bool} {a1 : Bool} (h : Kept s t) :
    Goes s (execStatusIout a0 a1 t) := by
  unfold execStatusIout
  repeat' with_reducible first
    | assumption | apply next_goes | apply ite_goes | apply pmbReadOnly_goes

theorem execStatusTemperature_goes {a0 : Bool} {a1 : Bool} (h : Kept s t) :
    Goes s (execStatusTemperature a0 a1 t) := by
  unfold execStatusTemperature
  repeat' with_reducible first
    | assumption | apply next_goes | apply ite_goes | apply pmbReadOnly_goes

theorem execStatusCml_goes {a0 : Bool} {a1 : Bool} (h : Kept s t) :
    Goes s (execStatusCml a0 a1 t) := by
  unfold execStatusCml
  repeat' with_reducible first
    | assumption | apply next_goes | apply ite_goes | apply pmbReadOnly_goes

theorem execReadVin_goes {a0 : Bool} {a1 : Bool} (h : Kept s t) :
    Goes s (execReadVin a0 a1 t) := by
  unfold execReadVin
  repeat' with_reducible first
    | assumption | apply next_goes | apply ite_goes | apply pmbReadOnly_goes

theorem execReadVout_goes {a0 : Bool} {a1 : Bool} (h : Kept s t) :
    Goes s (execReadVout a0 a1 t) := by
  unfold execReadVout
  repeat' with_reducible first
    | assumption | apply next_goes | apply ite_goes | apply pmbReadOnly_goes

theorem execReadIout_goes {a0 : Bool} {a1 : Bool} (h : Kept s t) :
    Goes s (execReadIout a0 a1 t) := by
  unfold execReadIout
  repeat' with_reducible first
    | assumption | apply next_goes | apply ite_goes | apply pmbReadOnly_goes

theorem execReadTemperature1_goes {a0 : Bool} {a1 : Bool} (h : Kept s t) :
    Goes s (execReadTemperature1 a0 a1 t) := by
  unfold execReadTemperature1
  repeat' with_reducible first
    | assumption | apply next_goes | apply ite_goes | apply pmbReadOnly_goes

theorem execReadPout_goes {a0 : Bool} {a1 : Bool} (h : Kept s t) :
    Goes s (execReadPout a0 a1 t) := by
  unfold execReadPout
  repeat' with_reducible first
    | assumption | apply next_goes | apply ite_goes | apply pmbReadOnly_goes

theorem execPmbusRevision_goes {a0 : Bool} {a1 : Bool} (h : Kept s t) :
    Goes s (execPmbusRevision a0 a1 t) := by
  unfold execPmbusRevision
  repeat' with_reducible first
    | assumption | apply next_goes | apply ite_goes | apply pmbReadOnly_goes

theorem execMfrId_goes {a0 : Bool} {a1 : Bool} (h : Kept s t) :
    Goes s (execMfrId a0 a1 t) := by
  unfold execMfrId
  repeat' with_reducible first
    | assumption | apply next_goes | apply ite_goes | apply pmbReadOnly_goes

theorem execMfrModel_goes {a0 : Bool} {a1 : Bool} (h : Kept s t) :
    Goes s (execMfrModel a0 a1 t) := by
  unfold execMfrModel
  repeat' with_reducible first
    | assumption | apply next_goes | apply ite_goes | apply pmbReadOnly_goes

theorem execUnsupportedCommand_goes {a0 : Nat} {a1 : Bool} {a2 : Nat} {a3 : Bool} (h : Kept s t) :
    Goes s (execUnsupportedCommand a0 a1 a2 a3 t) := by
  unfold execUnsupportedCommand
  repeat' first
    | with_reducible first
        | assumption | apply next_goes | apply ite_goes | apply ite_kept | apply cml_kept
        | apply pmbNoWrite_kept | apply pmbRead_kept
    | intro _

theorem execAlertResponse_goes (h : Kept s t) :
    Goes s (execAlertResponse t) := by
  unfold execAlertResponse
  repeat' first
    | with_reducible first
        | assumption | apply next_goes | apply ite_goes | apply ite_kept
    | intro _
    | decide
    | split
    | (with_reducible apply upd_kept); with_reducible first
        | assumption

theorem flashEnd_kept {a0 : Nat} {a1 : Nat} (h : Kept s t) :
    Kept s (flashEnd a0 a1 t) := by
  unfold flashEnd
  dsimp only
  repeat' first
    | with_reducible first
        | assumption | apply ite_kept | apply put_kept | apply raise_kept
    | intro _
    | decide
    | split
    | (with_reducible apply upd_kept); with_reducible first
        | assumption | apply ite_kept | apply put_kept

theorem flashCtlWrite_kept {a0 : Nat} (h : Kept s t) :
    Kept s (flashCtlWrite a0 t) := by
  unfold flashCtlWrite
  dsimp only
  repeat' first
    | with_reducible first
        | assumption | apply ite_kept | apply put_kept
    | intro _
    | decide
    | split
    | (with_reducible apply upd_kept); with_reducible first
        | assumption | apply ite_kept | apply put_kept

theorem flashMove_kept {a0 a1 a2 a3 a4 : Nat} (h : Kept s t) : Kept s (flashMove a0 a1 a2 a3 a4 t) := by
  unfold flashMove
  refine ite_kept (ite_kept (ite_kept (ite_kept ?_ fun _ => ?_) fun _ => ?_) fun _ => ?_) fun _ => ?_
  · exact flashEnd_kept (flashPut_kept h)
  · exact flashEnd_kept (flash_kept h mclear_wf)
  · dsimp only
    exact ite_kept (flashEnd_kept (readChecks_kept h)) fun _ => flashEnd_kept (flashPut_kept (readChecks_kept h))
  · exact flashEnd_kept (wrBytes_kept h)
  · exact flashEnd_kept h

theorem execFlashOperationEnd_goes {a0 : Nat} (h : Kept s t) :
    Goes s (execFlashOperationEnd a0 t) := by
  unfold execFlashOperationEnd
  repeat' first
    | with_reducible first
        | assumption | apply next_goes | apply ite_goes | apply ite_kept | apply flashEnd_kept
        | apply flashMove_kept
    | intro _
    | decide
    | split

theorem tap_kept {a0 : Nat} {f : State → State} (h : Kept s t) (hf : ∀ u, Kept s u → Kept s (f u)) :
    Kept s (tap a0 f t) := by
  unfold tap
  exact ite_kept h fun _ => hf _ (upd_kept h)

theorem execExtest_goes {a0 : Nat} (h : Kept s t) :
    Goes s (execExtest a0 t) := by
  unfold execExtest
  repeat' first
    | with_reducible first
        | assumption | apply next_goes | apply ite_goes | apply ite_kept | apply tap_kept
    | intro _
    | decide
    | split
    | (with_reducible apply upd_kept); with_reducible first
        | assumption

theorem execSamplePreload_goes {a0 : Nat} {a1 : Nat} (h : Kept s t) :
    Goes s (execSamplePreload a0 a1 t) := by
  unfold execSamplePreload
  repeat' first
    | with_reducible first
        | assumption | apply next_goes | apply ite_goes | apply tap_kept
    | intro _
    | decide
    | split
    | (with_reducible apply upd_kept); with_reducible first
        | assumption

theorem execJtagClamp_goes (h : Kept s t) :
    Goes s (execJtagClamp t) := by
  unfold execJtagClamp
  repeat' first
    | with_reducible first
        | assumption | apply next_goes | apply ite_goes | apply tap_kept
    | intro _

theorem execHighz_goes (h : Kept s t) :
    Goes s (execHighz t) := by
  unfold execHighz
  repeat' first
    | with_reducible first
        | assumption | apply next_goes | apply ite_goes | apply tap_kept
    | intro _

theorem execIdcode_goes (h : Kept s t) :
    Goes s (execIdcode t) := by
  unfold execIdcode
  repeat' first
    | with_reducible first
        | assumption | apply next_goes | apply ite_goes | apply tap_kept
    | intro _
    | decide
    | split
    | (with_reducible apply upd_kept); with_reducible first
        | assumption

theorem execBypass_goes (h : Kept s t) :
    Goes s (execBypass t) := by
  unfold execBypass
  repeat' first
    | with_reducible first
        | assumption | apply next_goes | apply ite_goes | apply tap_kept
    | intro _

theorem execTrst_goes {a0 : Bool} (h : Kept s t) :
    Goes s (execTrst a0 t) := by
  unfold execTrst
  repeat' first
    | with_reducible first
        | assumption | apply next_goes | apply ite_goes | apply ite_kept
    | intro _
    | decide
    | split
    | (with_reducible apply upd_kept); with_reducible first
        | assumption

theorem pollDie_kept {a1 : Nat} (h : Kept s t) :
    Kept s (pollDie t a1) := by
  unfold pollDie
  dsimp only
  repeat' first
    | with_reducible first
        | assumption | apply sendFrames_kept
    | intro _
    | decide
    | split
    | (with_reducible apply upd_kept); with_reducible first
        | assumption | apply sendFrames_kept

theorem execPoll_goes (h : Kept s t) :
    Goes s (execPoll t) := by
  unfold execPoll
  repeat' with_reducible first
    | assumption | apply next_goes | apply ite_goes | apply forAll_kept | apply pollDie_kept

theorem frameOver_kept {a0 : Nat} (h : Kept s t) :
    Kept s (frameOver a0 t) := by
  unfold frameOver
  repeat' first
    | with_reducible first
        | assumption | apply Kept.refl
    | intro _
    | decide
    | split
    | (with_reducible apply upd_kept); with_reducible first
        | assumption

theorem dieMissed_kept {a0 : Nat} (h : Kept s t) :
    Kept s (dieMissed a0 t) := by
  unfold dieMissed
  dsimp only
  repeat' first
    | with_reducible first
        | assumption | apply ite_kept | apply frameOver_kept | apply put_kept | apply raise_kept
        | apply showDies_kept
    | intro _
    | decide
    | split
    | (with_reducible apply upd_kept); with_reducible first
        | assumption | apply ite_kept | apply frameOver_kept

theorem dieVin_kept {a0 : Nat} {a1 : Nat} (h : Kept s t) :
    Kept s (dieVin a0 a1 t) := by
  unfold dieVin
  repeat' first
    | with_reducible first
        | assumption | apply ite_kept | apply raise_kept
    | intro _
    | decide
    | split
    | (with_reducible apply upd_kept); with_reducible first
        | assumption

theorem dieAnswer_kept {a0 : Nat} {a1 : Bool} {a2 : Bool} {a3 : Nat} {a4 : Nat} {a5 : Nat} {a6 : Int} (h : Kept s t) :
    Kept s (dieAnswer a0 a1 a2 a3 a4 a5 a6 t) := by
  unfold dieAnswer
  dsimp only
  repeat' first
    | with_reducible first
        | assumption | apply ite_kept | apply dieVin_kept | apply mark_kept | apply putI_kept | apply put_kept
        | apply raise_kept | apply showDies_kept
    | intro _
    | decide

theorem execFsAnswer_goes {a0 : Nat} {a1 : Bool} {a2 : Bool} {a3 : Bool} {a4 : Nat} {a5 : Nat} {a6 : Nat} {a7 : Int} (h : Kept s t) :
    Goes s (execFsAnswer a0 a1 a2 a3 a4 a5 a6 a7 t) := by
  unfold execFsAnswer
  dsimp only
  repeat' first
    | with_reducible first
        | assumption | apply next_goes | apply ite_goes | apply ite_kept | apply bump_kept
        | apply dieAnswer_kept | apply dieMissed_kept | apply frameOver_kept
    | intro _
    | decide
    | split
    | (with_reducible apply upd_kept); with_reducible first
        | assumption | apply next_goes | apply ite_goes | apply ite_kept | apply bump_kept
        | apply dieAnswer_kept | apply dieMissed_kept | apply frameOver_kept

theorem execFrameTimeout_goes {a0 : Nat} (h : Kept s t) :
    Goes s (execFrameTimeout a0 t) := by
  unfold execFrameTimeout
  repeat' first
    | with_reducible first
        | assumption | apply next_goes | apply ite_goes | apply ite_kept | apply bump_kept
        | apply dieMissed_kept
    | intro _
    | decide

theorem stgCtlWrite_kept {a0 : Nat} (h : Kept s t) :
    Kept s (stgCtlWrite a0 t) := by
  unfold stgCtlWrite
  dsimp only
  repeat' first
    | with_reducible first
        | assumption | apply ite_kept | apply forAll_kept | apply put_kept | apply showDies_kept
        | apply stgSend_kept
    | intro _
    | decide

theorem execVibLost_goes (h : Kept s t) :
    Goes s (execVibLost t) := by
  unfold execVibLost
  dsimp only
  repeat' first
    | with_reducible first
        | assumption | apply next_goes | apply ite_goes | apply ite_kept | apply ite_fst_kept
        | apply foldl_kept | apply foldl_fst_kept | apply put_kept | apply raise_kept
    | intro _
    | decide

theorem execNoticeSend_goes (h : Kept s t) :
    Goes s (execNoticeSend t) := by
  unfold execNoticeSend
  dsimp only
  repeat' first
    | with_reducible first
        | assumption | apply next_goes | apply ite_goes | apply ite_kept | apply passCycle_kept
    | intro _
    | decide
    | split
    | (with_reducible apply upd_kept); with_reducible first
        | assumption | apply next_goes | apply ite_goes | apply ite_kept | apply passCycle_kept

end Sys2Proof.Machine
end

