-- ==== Sys2Proof/Laws/KeptBus.lean ====
section
/-! SUPPORT. What the operations of Machine/Bus.lean keep. -/

namespace Sys2Proof.Machine

open Sys2Proof

variable {s t : State}

/-- Every field in a register's table is a field of that register and mapped. -/
theorem fields_mapped (r : Reg) : ∀ f ∈ r.fields, f.mapped := by
  intro f hf
  have e : f.reg = r := by
    have : ∀ f ∈ r.fields, f.reg = r := by cases r <;> simp [Reg.fields] <;> decide
    exact this f hf
  simp only [Fld.mapped, e, List.any_eq_true]
  exact ⟨f, hf, by simp⟩

/-- Folding a change of mapped fields over the fields of a register keeps it. -/
theorem fields_kept {l : List Fld} {f : State → Fld → State} (hl : ∀ g ∈ l, g.mapped) (h : Kept s t)
    (hf : ∀ u g, g.mapped → Kept s u → Kept s (f u g)) : Kept s (l.foldl f t) := by
  induction l generalizing t with
  | nil => exact h
  | cons g r ih => exact ih (fun x hx => hl x (by simp [hx])) (hf _ _ (hl g (by simp)) h)

theorem afterRead_kept {r : Reg} {i : Nat} (h : Kept s t) : Kept s (afterRead r i t) := by
  have k : Kept s ((r.fields.filter (fun f => f.acc == .RC)).foldl (fun s f => s.clearRipe f i) t) :=
    fields_kept (fun g hg => fields_mapped r g (List.mem_of_mem_filter hg)) h fun _ _ m k => clearRipe_kept k m
  unfold afterRead
  dsimp only
  split
  · exact takeOnRead_kept k
  · exact ite_kept k fun _ => recAdvance_kept k
  · exact k

theorem readPlace_kept {a0 : Nat} (h : Kept s t) :
    Kept s (readPlace a0 t).1 := by
  unfold readPlace
  repeat' first
    | with_reducible first
        | assumption | apply afterRead_kept
    | intro _
    | decide
    | split

theorem readReg32_kept {a0 : Nat} (h : Kept s t) :
    Kept s (readReg32 a0 t).1 := by
  unfold readReg32
  repeat' first
    | with_reducible first
        | assumption | apply ite_kept | apply ite_fst_kept | apply readPlace_kept
    | intro _
    | decide
    | split
    | (with_reducible apply upd_kept); with_reducible first
        | assumption

theorem writeCM_kept {a0 : Nat} {a1 : Nat} {a2 : Nat} {a3 : Nat} (h : Kept s t) :
    Kept s (writeCM a0 a1 a2 a3 t).1 := by
  unfold writeCM
  dsimp only
  repeat' first
    | with_reducible first
        | assumption | apply ite_kept | apply ite_fst_kept | apply readCheck_kept | apply wrBytes_kept
        | apply wr_kept
    | intro _

theorem busAtomic_kept {a0 : Bool} {a1 : Nat} {a2 : Nat} {a3 : Nat} {a4 : Nat} (h : Kept s t) :
    Kept s (busAtomic a0 a1 a2 a3 a4 t).1 := by
  unfold busAtomic
  dsimp only
  repeat' first
    | with_reducible first
        | assumption | apply ite_kept | apply ite_fst_kept | apply readCheck_kept | apply wr_kept
    | intro _

theorem busRead_kept {a0 : Master} {a1 : Nat} {a2 : Nat} {a3 : Nat} (h : Kept s t) :
    Kept s (busRead a0 a1 a2 a3 t).1 := by
  unfold busRead
  dsimp only
  repeat' first
    | with_reducible first
        | assumption | apply ite_kept | apply ite_fst_kept | apply readCheck_kept | apply readPlace_kept
        | apply readReg32_kept
    | intro _

theorem storeFields_kept {r : Reg} {i v : Nat} (h : Kept s t) : Kept s (storeFields r i v t) := by
  refine fields_kept (fields_mapped r) h fun u g m k => ?_
  split
  · exact put_kept k m
  · exact put_kept k m
  · exact clearBits_kept k m
  · exact k

theorem fscWrite_kept {a0 : Nat} {a1 : Nat} (h : Kept s t) :
    Kept s (fscWrite a0 a1 t) := by
  unfold fscWrite
  repeat' with_reducible first
    | assumption | apply ite_kept | apply raiseCrew_kept

theorem abCtlWrite_kept {a0 : Nat} {a1 : Nat} (h : Kept s t) :
    Kept s (abCtlWrite a0 a1 t) := by
  unfold abCtlWrite
  dsimp only
  repeat' first
    | with_reducible first
        | assumption | apply ite_kept | apply abModeWrite_kept
    | intro _

theorem abTrigWrite_kept {a0 : Nat} {a1 : Nat} (h : Kept s t) :
    Kept s (abTrigWrite a0 a1 t) := by
  unfold abTrigWrite
  dsimp only
  repeat' with_reducible first
    | assumption | apply ite_kept | apply onCrew_kept | apply trigger_kept

theorem hCtlWrite_kept {a0 : Nat} {a1 : Nat} {a2 : Bool} (h : Kept s t) :
    Kept s (hCtlWrite a0 a1 a2 t) := by
  unfold hCtlWrite
  repeat' first
    | with_reducible first
        | assumption | apply ite_kept | apply onCrew_kept | apply put_kept | apply raiseCrew_kept
        | apply setOver_kept
    | intro _
    | decide

theorem owCtlWrite_kept {a0 : Nat} {a1 : Nat} (h : Kept s t) :
    Kept s (owCtlWrite a0 a1 t) := by
  unfold owCtlWrite
  repeat' first
    | with_reducible first
        | assumption | apply ite_kept | apply startConfirm_kept
    | intro _

theorem crewPwrWrite_kept {a0 : Nat} {a1 : Nat} (h : Kept s t) :
    Kept s (crewPwrWrite a0 a1 t) := by
  unfold crewPwrWrite
  dsimp only
  repeat' with_reducible first
    | assumption | apply ite_kept | apply onCrew_kept | apply rejoinPark_kept | apply unlock_kept

theorem estCtlWrite_kept {a0 : Nat} (h : Kept s t) :
    Kept s (estCtlWrite a0 t) := by
  unfold estCtlWrite
  dsimp only
  repeat' with_reducible first
    | assumption | apply ite_kept | apply fwLoadModel_kept | apply setSrc_kept

theorem rgtEnWrite_kept {a0 : Nat} {a1 : Nat} (h : Kept s t) :
    Kept s (rgtEnWrite a0 a1 t) := by
  unfold rgtEnWrite
  dsimp only
  repeat' first
    | with_reducible first
        | assumption | apply ite_kept | apply put_kept | apply rgtJoin_kept | apply rgtLeave_kept
        | apply showFollow_kept
    | intro _
    | decide

theorem tbCtlWrite_kept {a0 : Nat} (h : Kept s t) :
    Kept s (tbCtlWrite a0 t) := by
  unfold tbCtlWrite
  dsimp only
  repeat' first
    | with_reducible first
        | assumption | apply ite_kept | apply forAll_kept | apply histClear_kept | apply tbWrite_kept
    | intro _

theorem sctlWrite_kept {a0 : Nat} {a1 : Nat} (h : Kept s t) :
    Kept s (sctlWrite a0 a1 t) := by
  unfold sctlWrite
  dsimp only
  repeat' first
    | with_reducible first
        | assumption | apply ite_kept | apply armStream_kept | apply put_kept | apply setOver_kept
        | apply stopStream_kept | apply storeFields_kept
    | intro _
    | decide

theorem sbufWrite_kept {a0 : Nat} {a1 : Nat} (h : Kept s t) :
    Kept s (sbufWrite a0 a1 t) := by
  unfold sbufWrite
  repeat' first
    | with_reducible first
        | assumption | apply ite_kept | apply setOver_kept | apply storeFields_kept
    | intro _
    | decide

theorem strigWrite_kept {a0 : Nat} {a1 : Nat} (h : Kept s t) :
    Kept s (strigWrite a0 a1 t) := by
  unfold strigWrite
  repeat' first
    | with_reducible first
        | assumption | apply ite_kept | apply fireStream_kept | apply setOver_kept | apply storeFields_kept
    | intro _
    | decide

theorem setLockWrite_kept {a0 : Nat} (h : Kept s t) :
    Kept s (setLockWrite a0 t) := by
  unfold setLockWrite
  repeat' first
    | with_reducible first
        | assumption | apply ite_kept | apply put_kept
    | intro _
    | decide
    | split
    | (with_reducible apply upd_kept); with_reducible first
        | assumption | apply ite_kept | apply put_kept

theorem afterWrite_kept {a0 : Bool} {a1 : Reg} {a2 : Nat} {a3 : Nat} {a4 : State} (h : Kept s t) :
    Kept s (afterWrite a0 a1 a2 a3 a4 t) := by
  unfold afterWrite
  repeat' first
    | with_reducible first
        | assumption | apply ite_kept | apply abCtlWrite_kept | apply abTrigWrite_kept | apply commitWrite_kept
        | apply crewPwrWrite_kept | apply fltClear_kept | apply fscWrite_kept | apply hCtlWrite_kept
        | apply histClear_kept | apply inject_kept | apply loadSeed_kept | apply mbxActions_kept
        | apply owCtlWrite_kept | apply put_kept | apply refSel_kept | apply regionChecks_kept
        | apply restore_kept | apply resumeWrite_kept | apply retestWrite_kept | apply rgtEnWrite_kept
        | apply sendRate_kept | apply setLockWrite_kept | apply snapReq_kept | apply vminRearm_kept
        | apply zeroTrims_kept
    | intro _
    | decide
    | split

/-- The flag of a refused write is a field of the map. -/
theorem refuses_mapped {r : Reg} {i v : Nat} {f : Fld} (h : t.refuses r i v = some f) : f.mapped := by
  unfold State.refuses at h
  split at h
  all_goals first
    | cases h
    | (split at h
       · cases h; decide
       · cases h)

theorem writeReg_kept {inp : BootIn} {host : Bool} {r : Reg} {i v : Nat} (h : Kept s t) :
    Kept s (writeReg inp host r i v t) := by
  unfold writeReg
  split
  all_goals first
    | with_reducible first
        | exact descWrite_kept h | exact shadowWrite_kept h | exact fcwCfg_kept h | exact fcwRing_kept h
        | exact ringRelease_kept h | exact laneCtl_kept h | exact estCtlWrite_kept h | exact substWrite_kept h
        | exact tbCtlWrite_kept h | exact calRequest_kept h | exact marchGo_kept h | exact sctlWrite_kept h
        | exact sbufWrite_kept h | exact strigWrite_kept h
        | exact rstWrite_kept h | exact pwrCtlWrite_kept h | exact flashCtlWrite_kept h | exact stgCtlWrite_kept h
    | skip
  dsimp only
  split
  · rename_i e
    exact setOver_kept h (refuses_mapped e)
  · exact afterWrite_kept (storeFields_kept h)

theorem writePlace_kept {a0 : BootIn} {a1 : Bool} {a2 : Nat} {a3 : Nat} (h : Kept s t) :
    Kept s (writePlace a0 a1 a2 a3 t) := by
  unfold writePlace
  repeat' first
    | with_reducible first
        | assumption | apply writeReg_kept
    | intro _
    | decide
    | split

theorem lockViolation_kept {a0 : Master} {a1 : Nat} (h : Kept s t) :
    Kept s (lockViolation a0 a1 t) := by
  unfold lockViolation
  repeat' first
    | with_reducible first
        | assumption | apply bump_kept | apply put_kept
    | intro _
    | decide

theorem writeRegs_kept {a0 : BootIn} {a1 : Master} {a2 : Nat} {a3 : Nat} {a4 : Nat} (h : Kept s t) :
    Kept s (writeRegs a0 a1 a2 a3 a4 t).1 := by
  unfold writeRegs
  dsimp only
  repeat' first
    | with_reducible first
        | assumption | apply ite_kept | apply ite_fst_kept | apply foldl_kept | apply foldl_fst_kept
        | apply lockViolation_kept | apply uopGo_kept | apply writePlace_kept
    | intro _

theorem busWrite_kept {a0 : BootIn} {a1 : Master} {a2 : Nat} {a3 : Nat} {a4 : Nat} {a5 : Nat} (h : Kept s t) :
    Kept s (busWrite a0 a1 a2 a3 a4 a5 t).1 := by
  unfold busWrite
  repeat' first
    | with_reducible first
        | assumption | apply ite_kept | apply ite_fst_kept | apply writeCM_kept | apply writeRegs_kept
    | intro _

theorem failAccess_kept {a0 : Master} {a1 : Nat} {a2 : Nat} (h : Kept s t) :
    Kept s (failAccess a0 a1 a2 t) := by
  unfold failAccess
  dsimp only
  repeat' first
    | with_reducible first
        | assumption | apply bump_kept | apply put_kept | apply raise_kept
    | intro _
    | decide
    | split
    | (with_reducible apply upd_kept); with_reducible first
        | assumption

theorem portRead_kept {m : Master} {a n ecc : Nat} (h : Kept s t) : Kept s (portRead m a n ecc t) := by
  unfold portRead
  refine ite_kept ?_ fun _ => upd_kept h
  split
  · rename_i u d e
    have k : Kept s u := by simpa [e] using busRead_kept (a0 := m) (a1 := a) (a2 := n) (a3 := ecc) h
    exact upd_kept k
  · rename_i u d e
    have k : Kept s u := by simpa [e] using busRead_kept (a0 := m) (a1 := a) (a2 := n) (a3 := ecc) h
    exact failAccess_kept k

theorem portWrite_kept {a0 : BootIn} {a1 : Master} {a2 : Nat} {a3 : Nat} {a4 : Nat} {a5 : Nat} (h : Kept s t) :
    Kept s (portWrite a0 a1 a2 a3 a4 a5 t) := by
  unfold portWrite
  dsimp only
  repeat' first
    | with_reducible first
        | assumption | apply ite_kept | apply ite_fst_kept | apply busWrite_kept | apply failAccess_kept
        | apply setOver_kept
    | intro _
    | decide
    | split
    | (with_reducible apply upd_kept); with_reducible first
        | assumption | apply ite_kept | apply ite_fst_kept | apply busWrite_kept | apply failAccess_kept
        | apply setOver_kept

theorem regWrite_kept {a0 : Master} {a1 : Reg} {a2 : Nat} {a3 : Nat} (h : Kept s t) :
    Kept s (regWrite a0 a1 a2 a3 t) := by
  unfold regWrite
  repeat' with_reducible first
    | assumption | apply portWrite_kept

end Sys2Proof.Machine
end

