-- ==== Sys2Proof/Laws/KeptDma.lean ====
section
/-! SUPPORT. What the operations of Machine/Dma.lean keep. -/

namespace Sys2Proof.Machine

open Sys2Proof

variable {s t : State}

theorem setData_kept {a0 : Nat} {a1 : Nat} {a2 : Bool} {a3 : Nat} (h : Kept s t) :
    Kept s (setData a0 a1 a2 a3 t) := by
  unfold setData
  dsimp only
  repeat' with_reducible first
    | assumption | apply ite_kept | apply setV_kept

theorem accessFault_kept {a0 : Nat} {a1 : Nat} (h : Kept s t) :
    Kept s (accessFault a0 a1 t) := by
  unfold accessFault
  repeat' with_reducible first
    | assumption | apply raise_kept

theorem doAccess_kept {n kind a data rd ecc : Nat} {wide : Bool} (h : Kept s t) :
    Kept s (doAccess n kind a wide data rd ecc t) := by
  rcases kind with _ | _ | kind
  · have k := busRead_kept (a0 := .sup (n - 8)) (a1 := a) (a2 := if wide then 8 else 4) (a3 := ecc) h
    rcases e : busRead (.sup (n - 8)) a (if wide then 8 else 4) ecc t with ⟨u, d | d⟩ <;> rw [e] at k <;>
      simp only [doAccess, e]
    · exact setData_kept (accessFault_kept k)
    · exact setData_kept k
  · have k := busWrite_kept (a0 := t.openBoot) (a1 := .sup (n - 8)) (a2 := a) (a3 := if wide then 8 else 4) (a4 := data)
      (a5 := ecc) h
    rcases e : busWrite t.openBoot (.sup (n - 8)) a (if wide then 8 else 4) data ecc t with ⟨u, _ | d⟩ <;> rw [e] at k <;>
      simp only [doAccess, e]
    · exact k
    · exact accessFault_kept k
  · have k := busAtomic_kept (a0 := kind + 2 == 3) (a1 := a) (a2 := if wide then 8 else 4) (a3 := data) (a4 := ecc) h
    rcases e : busAtomic (kind + 2 == 3) a (if wide then 8 else 4) data ecc t with ⟨u, _ | d⟩ <;> rw [e] at k <;>
      simp only [doAccess, e]
    · exact setData_kept (accessFault_kept k)
    · exact setData_kept k

theorem execAccessComplete_goes {a0 : Nat} {a1 : Nat} (h : Kept s t) :
    Goes s (execAccessComplete a0 a1 t) := by
  unfold execAccessComplete
  dsimp only
  repeat' first
    | with_reducible first
        | assumption | apply next_goes | apply ite_goes | apply ite_kept | apply doAccess_kept
        | apply fall_kept | apply onCtx_kept | apply unstalled_kept
    | intro _
    | decide
    | split

theorem dmaWord_kept {m : Nat} {e : State × Bool} {w : Nat × List Byte} (h : Kept s e.1) : Kept s (dmaWord m e w).1 := by
  unfold dmaWord
  exact ite_fst_kept h fun _ => wrBytes_kept h

theorem execSnapshotCopy_goes (h : Kept s t) :
    Goes s (execSnapshotCopy t) := by
  unfold execSnapshotCopy
  dsimp only
  repeat' first
    | with_reducible first
        | assumption | apply next_goes | apply ite_goes | apply ite_kept | apply ite_fst_kept
        | apply foldl_kept | apply foldl_fst_kept | apply dmaWord_kept | apply put_kept | apply setOver_kept
    | intro _
    | decide
    | split
    | (with_reducible apply upd_kept); with_reducible first
        | assumption

theorem pageDone_kept {a0 : Nat} {a1 : Nat} {a2 : Stream} (h : Kept s t) :
    Kept s (pageDone a0 a1 a2 t) := by
  unfold pageDone
  dsimp only
  repeat' first
    | with_reducible first
        | assumption | apply ite_kept | apply put_kept | apply setStream_kept
    | intro _
    | decide

theorem pageRefused_kept {a0 : Nat} {a1 : Nat} (h : Kept s t) :
    Kept s (pageRefused a0 a1 t) := by
  unfold pageRefused
  repeat' first
    | with_reducible first
        | assumption | apply put_kept | apply raise_kept
    | intro _
    | decide

theorem execCapturePage_goes {a0 : Nat} (h : Kept s t) :
    Goes s (execCapturePage a0 t) := by
  unfold execCapturePage
  dsimp only
  repeat' with_reducible first
    | assumption | apply next_goes | apply ite_goes | apply ite_kept | apply pageDone_kept
    | apply pageRefused_kept | apply wrBytes_kept

theorem execMarkBegin_goes {a0 : List (Nat × Nat)} (h : Kept s t) :
    Goes s (execMarkBegin a0 t) := by
  unfold execMarkBegin
  repeat' first
    | with_reducible first
        | assumption | apply next_goes | apply ite_goes | apply beginMark_kept | apply evtMark_kept
        | apply fcMark_kept
    | intro _
    | decide
    | split

theorem powerOn_kept {a0 : Op} {a1 : Nat} (h : Kept s t) :
    Kept s (powerOn a0 a1 t) := by
  unfold powerOn
  dsimp only
  repeat' first
    | with_reducible first
        | assumption | apply ite_kept | apply forAll_kept | apply onPlane_kept | apply put_kept
        | apply raisePlane_kept | apply raise_kept | apply tryAdmit_kept
    | intro _
    | decide

theorem execPwronDelivery_goes (h : Kept s t) :
    Goes s (execPwronDelivery t) := by
  unfold execPwronDelivery
  dsimp only
  repeat' first
    | with_reducible first
        | assumption | apply next_goes | apply ite_goes | apply ite_kept | apply forAll_kept
        | apply holdOp_kept | apply powerOn_kept
    | intro _
    | decide
    | split
    | (with_reducible apply upd_kept); with_reducible first
        | assumption

theorem execPwroffDelivery_goes (h : Kept s t) :
    Goes s (execPwroffDelivery t) := by
  unfold execPwroffDelivery
  dsimp only
  repeat' first
    | with_reducible first
        | assumption | apply next_goes | apply ite_goes | apply ite_kept | apply forAll_kept
        | apply holdOp_kept | apply powerOff_kept | apply startHeldAll_kept
    | intro _
    | decide
    | split
    | (with_reducible apply upd_kept); with_reducible first
        | assumption

end Sys2Proof.Machine
end

