-- ==== Sys2Proof/Laws/KeptActions.lean ====
section
/-! SUPPORT. What the operations of Machine/Actions.lean keep. -/

namespace Sys2Proof.Machine

open Sys2Proof

variable {s t : State}

theorem execRegisterWrite_goes {a0 : Master} {a1 : Nat} {a2 : Nat} {a3 : Nat} {a4 : Nat} (h : Kept s t) :
    Goes s (execRegisterWrite a0 a1 a2 a3 a4 t) := by
  unfold execRegisterWrite
  repeat' with_reducible first
    | assumption | apply next_goes | apply ite_goes | apply portWrite_kept

theorem execRegisterRead_goes {a0 : Master} {a1 : Nat} {a2 : Nat} {a3 : Nat} (h : Kept s t) :
    Goes s (execRegisterRead a0 a1 a2 a3 t) := by
  unfold execRegisterRead
  repeat' with_reducible first
    | assumption | apply next_goes | apply ite_goes | apply portRead_kept

theorem execAbRead_goes {a0 : Master} {a1 : Nat} {a2 : Bool} {a3 : Nat} (h : Kept s t) :
    Goes s (execAbRead a0 a1 a2 a3 t) := by
  unfold execAbRead
  repeat' with_reducible first
    | assumption | apply next_goes | apply ite_goes | apply portRead_kept

theorem execRecWin7Read_goes {a0 : Master} {a1 : Nat} (h : Kept s t) :
    Goes s (execRecWin7Read a0 a1 t) := by
  unfold execRecWin7Read
  repeat' with_reducible first
    | assumption | apply next_goes | apply ite_goes | apply ite_kept | apply portRead_kept

theorem execDbg_goes {a0 : Bool} {a1 : Nat} {a2 : Nat} {a3 : Nat} (h : Kept s t) :
    Goes s (execDbg a0 a1 a2 a3 t) := by
  unfold execDbg
  dsimp only
  repeat' first
    | with_reducible first
        | assumption | apply next_goes | apply ite_goes | apply ite_kept | apply portRead_kept
        | apply portWrite_kept | apply tap_kept
    | intro _
    | decide
    | split
    | (with_reducible apply upd_kept); with_reducible first
        | assumption | apply next_goes | apply ite_goes | apply ite_kept | apply portRead_kept
        | apply portWrite_kept

theorem execDescriptorWrite_goes {a0 : Master} {a1 : Nat} {a2 : Nat} {a3 : Nat} (h : Kept s t) :
    Goes s (execDescriptorWrite a0 a1 a2 a3 t) := by
  unfold execDescriptorWrite
  repeat' with_reducible first
    | assumption | apply next_goes | apply ite_goes | apply portWrite_kept

theorem execRestore_goes {a0 : Master} {a1 : Nat} {a2 : Nat} (h : Kept s t) :
    Goes s (execRestore a0 a1 a2 t) := by
  unfold execRestore
  repeat' with_reducible first
    | assumption | apply next_goes | apply ite_goes | apply regWrite_kept

theorem execFull_goes {a0 : Master} {a1 : Nat} {a2 : BootIn} (h : Kept s t) :
    Goes s (execFull a0 a1 a2 t) := by
  unfold execFull
  repeat' with_reducible first
    | assumption | apply next_goes | apply ite_goes | apply portWrite_kept

theorem execSetLock_goes {a0 : Master} {a1 : Nat} (h : Kept s t) :
    Goes s (execSetLock a0 a1 t) := by
  unfold execSetLock
  repeat' with_reducible first
    | assumption | apply next_goes | apply ite_goes | apply regWrite_kept

theorem execDitherSeed_goes {a0 : Master} {a1 : Nat} {a2 : Nat} (h : Kept s t) :
    Goes s (execDitherSeed a0 a1 a2 t) := by
  unfold execDitherSeed
  repeat' with_reducible first
    | assumption | apply next_goes | apply ite_goes | apply regWrite_kept

theorem execAbFire_goes {a0 : Master} {a1 : Nat} {a2 : Nat} (h : Kept s t) :
    Goes s (execAbFire a0 a1 a2 t) := by
  unfold execAbFire
  repeat' with_reducible first
    | assumption | apply next_goes | apply ite_goes | apply regWrite_kept

theorem execAbMode_goes {a0 : Master} {a1 : Nat} {a2 : Nat} (h : Kept s t) :
    Goes s (execAbMode a0 a1 a2 t) := by
  unfold execAbMode
  repeat' with_reducible first
    | assumption | apply next_goes | apply ite_goes | apply regWrite_kept

theorem execHMode_goes {a0 : Master} {a1 : Nat} {a2 : Nat} (h : Kept s t) :
    Goes s (execHMode a0 a1 a2 t) := by
  unfold execHMode
  repeat' with_reducible first
    | assumption | apply next_goes | apply ite_goes | apply regWrite_kept

theorem execRefSel_goes {a0 : Master} {a1 : Nat} {a2 : Nat} (h : Kept s t) :
    Goes s (execRefSel a0 a1 a2 t) := by
  unfold execRefSel
  repeat' with_reducible first
    | assumption | apply next_goes | apply ite_goes | apply regWrite_kept

theorem execConfirm_goes {a0 : Master} {a1 : Nat} {a2 : Nat} (h : Kept s t) :
    Goes s (execConfirm a0 a1 a2 t) := by
  unfold execConfirm
  repeat' with_reducible first
    | assumption | apply next_goes | apply ite_goes | apply regWrite_kept

theorem execRetry_goes {a0 : Master} {a1 : Nat} {a2 : Nat} (h : Kept s t) :
    Goes s (execRetry a0 a1 a2 t) := by
  unfold execRetry
  repeat' with_reducible first
    | assumption | apply next_goes | apply ite_goes | apply regWrite_kept

theorem execResume_goes {a0 : Master} {a1 : Nat} {a2 : Nat} (h : Kept s t) :
    Goes s (execResume a0 a1 a2 t) := by
  unfold execResume
  repeat' with_reducible first
    | assumption | apply next_goes | apply ite_goes | apply regWrite_kept

theorem execCommit_goes {a0 : Master} {a1 : Nat} {a2 : Nat} (h : Kept s t) :
    Goes s (execCommit a0 a1 a2 t) := by
  unfold execCommit
  repeat' with_reducible first
    | assumption | apply next_goes | apply ite_goes | apply regWrite_kept

theorem execStandWrite_goes {a0 : Master} {a1 : Nat} {a2 : Nat} (h : Kept s t) :
    Goes s (execStandWrite a0 a1 a2 t) := by
  unfold execStandWrite
  repeat' with_reducible first
    | assumption | apply next_goes | apply ite_goes | apply regWrite_kept

theorem execRejoin_goes {a0 : Master} {a1 : Nat} {a2 : Nat} (h : Kept s t) :
    Goes s (execRejoin a0 a1 a2 t) := by
  unfold execRejoin
  repeat' with_reducible first
    | assumption | apply next_goes | apply ite_goes | apply regWrite_kept

theorem execUnlock_goes {a0 : Master} {a1 : Nat} {a2 : Nat} (h : Kept s t) :
    Goes s (execUnlock a0 a1 a2 t) := by
  unfold execUnlock
  repeat' with_reducible first
    | assumption | apply next_goes | apply ite_goes | apply regWrite_kept

theorem execVminRearm_goes {a0 : Master} {a1 : Nat} {a2 : Nat} (h : Kept s t) :
    Goes s (execVminRearm a0 a1 a2 t) := by
  unfold execVminRearm
  repeat' with_reducible first
    | assumption | apply next_goes | apply ite_goes | apply regWrite_kept

theorem execDieRearm_goes {a0 : Master} {a1 : Nat} (h : Kept s t) :
    Goes s (execDieRearm a0 a1 t) := by
  unfold execDieRearm
  repeat' with_reducible first
    | assumption | apply next_goes | apply ite_goes | apply regWrite_kept

theorem execFcwCfgWrite_goes {a0 : Master} {a1 : Nat} {a2 : Nat} (h : Kept s t) :
    Goes s (execFcwCfgWrite a0 a1 a2 t) := by
  unfold execFcwCfgWrite
  repeat' with_reducible first
    | assumption | apply next_goes | apply ite_goes | apply regWrite_kept

theorem execRingRelease_goes {a0 : Master} {a1 : Nat} {a2 : Nat} (h : Kept s t) :
    Goes s (execRingRelease a0 a1 a2 t) := by
  unfold execRingRelease
  repeat' with_reducible first
    | assumption | apply next_goes | apply ite_goes | apply regWrite_kept

theorem execStart_goes {a0 : Master} {a1 : Nat} {a2 : Nat} (h : Kept s t) :
    Goes s (execStart a0 a1 a2 t) := by
  unfold execStart
  repeat' with_reducible first
    | assumption | apply next_goes | apply ite_goes | apply regWrite_kept

theorem execStop_goes {a0 : Master} {a1 : Nat} {a2 : Nat} (h : Kept s t) :
    Goes s (execStop a0 a1 a2 t) := by
  unfold execStop
  repeat' with_reducible first
    | assumption | apply next_goes | apply ite_goes | apply regWrite_kept

theorem execUnload_goes {a0 : Master} {a1 : Nat} {a2 : Nat} (h : Kept s t) :
    Goes s (execUnload a0 a1 a2 t) := by
  unfold execUnload
  repeat' with_reducible first
    | assumption | apply next_goes | apply ite_goes | apply regWrite_kept

theorem execFwLoad_goes {a0 : Master} {a1 : Nat} (h : Kept s t) :
    Goes s (execFwLoad a0 a1 t) := by
  unfold execFwLoad
  repeat' with_reducible first
    | assumption | apply next_goes | apply ite_goes | apply regWrite_kept

theorem execEstSrc_goes {a0 : Master} {a1 : Nat} (h : Kept s t) :
    Goes s (execEstSrc a0 a1 t) := by
  unfold execEstSrc
  repeat' with_reducible first
    | assumption | apply next_goes | apply ite_goes | apply regWrite_kept

theorem execSubstitution_goes {a0 : Master} {a1 : Nat} {a2 : Nat} (h : Kept s t) :
    Goes s (execSubstitution a0 a1 a2 t) := by
  unfold execSubstitution
  repeat' with_reducible first
    | assumption | apply next_goes | apply ite_goes | apply regWrite_kept

theorem execRetest_goes {a0 : Master} {a1 : Nat} {a2 : Nat} (h : Kept s t) :
    Goes s (execRetest a0 a1 a2 t) := by
  unfold execRetest
  repeat' with_reducible first
    | assumption | apply next_goes | apply ite_goes | apply regWrite_kept

theorem execFc2Clear_goes {a0 : Master} {a1 : Nat} (h : Kept s t) :
    Goes s (execFc2Clear a0 a1 t) := by
  unfold execFc2Clear
  repeat' with_reducible first
    | assumption | apply next_goes | apply ite_goes | apply regWrite_kept

theorem execFc2ClearAll_goes {a0 : Master} {a1 : Nat} (h : Kept s t) :
    Goes s (execFc2ClearAll a0 a1 t) := by
  unfold execFc2ClearAll
  repeat' with_reducible first
    | assumption | apply next_goes | apply ite_goes | apply regWrite_kept

theorem execAlertClear_goes {a0 : Master} {a1 : Nat} (h : Kept s t) :
    Goes s (execAlertClear a0 a1 t) := by
  unfold execAlertClear
  repeat' with_reducible first
    | assumption | apply next_goes | apply ite_goes | apply regWrite_kept

theorem execInjection_goes {a0 : Master} {a1 : Nat} (h : Kept s t) :
    Goes s (execInjection a0 a1 t) := by
  unfold execInjection
  repeat' with_reducible first
    | assumption | apply next_goes | apply ite_goes | apply regWrite_kept

theorem execSnapshotReq_goes {a0 : Master} {a1 : Nat} (h : Kept s t) :
    Goes s (execSnapshotReq a0 a1 t) := by
  unfold execSnapshotReq
  repeat' with_reducible first
    | assumption | apply next_goes | apply ite_goes | apply regWrite_kept

theorem execHistClr_goes {a0 : Master} {a1 : Nat} (h : Kept s t) :
    Goes s (execHistClr a0 a1 t) := by
  unfold execHistClr
  repeat' with_reducible first
    | assumption | apply next_goes | apply ite_goes | apply regWrite_kept

theorem execHistClear_goes {a0 : Master} {a1 : Nat} {a2 : Nat} (h : Kept s t) :
    Goes s (execHistClear a0 a1 a2 t) := by
  unfold execHistClear
  repeat' with_reducible first
    | assumption | apply next_goes | apply ite_goes | apply regWrite_kept

theorem execCalAll_goes {a0 : Master} {a1 : Nat} (h : Kept s t) :
    Goes s (execCalAll a0 a1 t) := by
  unfold execCalAll
  repeat' with_reducible first
    | assumption | apply next_goes | apply ite_goes | apply regWrite_kept

theorem execCalOne_goes {a0 : Master} {a1 : Nat} (h : Kept s t) :
    Goes s (execCalOne a0 a1 t) := by
  unfold execCalOne
  repeat' with_reducible first
    | assumption | apply next_goes | apply ite_goes | apply regWrite_kept

theorem execVmaxRearm_goes {a0 : Master} {a1 : Nat} {a2 : Nat} (h : Kept s t) :
    Goes s (execVmaxRearm a0 a1 a2 t) := by
  unfold execVmaxRearm
  repeat' with_reducible first
    | assumption | apply next_goes | apply ite_goes | apply regWrite_kept

theorem execCaptureArm_goes {a0 : Master} {a1 : Nat} {a2 : Nat} (h : Kept s t) :
    Goes s (execCaptureArm a0 a1 a2 t) := by
  unfold execCaptureArm
  repeat' with_reducible first
    | assumption | apply next_goes | apply ite_goes | apply regWrite_kept

theorem execCaptureStop_goes {a0 : Master} {a1 : Nat} {a2 : Nat} (h : Kept s t) :
    Goes s (execCaptureStop a0 a1 a2 t) := by
  unfold execCaptureStop
  repeat' with_reducible first
    | assumption | apply next_goes | apply ite_goes | apply regWrite_kept

theorem execCaptureFire_goes {a0 : Master} {a1 : Nat} {a2 : Nat} (h : Kept s t) :
    Goes s (execCaptureFire a0 a1 a2 t) := by
  unfold execCaptureFire
  repeat' with_reducible first
    | assumption | apply next_goes | apply ite_goes | apply regWrite_kept

theorem execMarchGo_goes {a0 : Master} {a1 : Nat} (h : Kept s t) :
    Goes s (execMarchGo a0 a1 t) := by
  unfold execMarchGo
  repeat' with_reducible first
    | assumption | apply next_goes | apply ite_goes | apply regWrite_kept

theorem execPost_goes {a0 : Master} {a1 : Nat} {a2 : Nat} (h : Kept s t) :
    Goes s (execPost a0 a1 a2 t) := by
  unfold execPost
  repeat' with_reducible first
    | assumption | apply next_goes | apply ite_goes | apply regWrite_kept

theorem execTake_goes {a0 : Master} {a1 : Nat} {a2 : Nat} (h : Kept s t) :
    Goes s (execTake a0 a1 a2 t) := by
  unfold execTake
  repeat' with_reducible first
    | assumption | apply next_goes | apply ite_goes | apply regWrite_kept

theorem execMailboxDone_goes {a0 : Master} {a1 : Nat} {a2 : Nat} (h : Kept s t) :
    Goes s (execMailboxDone a0 a1 a2 t) := by
  unfold execMailboxDone
  repeat' with_reducible first
    | assumption | apply next_goes | apply ite_goes | apply regWrite_kept

theorem execRelease_goes {a0 : Master} {a1 : Nat} {a2 : Nat} (h : Kept s t) :
    Goes s (execRelease a0 a1 a2 t) := by
  unfold execRelease
  repeat' with_reducible first
    | assumption | apply next_goes | apply ite_goes | apply regWrite_kept

theorem execFsEn_goes {a0 : Master} {a1 : Nat} (h : Kept s t) :
    Goes s (execFsEn a0 a1 t) := by
  unfold execFsEn
  repeat' with_reducible first
    | assumption | apply next_goes | apply ite_goes | apply regWrite_kept

theorem execHostRun_goes {a0 : Master} {a1 : Nat} (h : Kept s t) :
    Goes s (execHostRun a0 a1 t) := by
  unfold execHostRun
  repeat' with_reducible first
    | assumption | apply next_goes | apply ite_goes | apply regWrite_kept

theorem execShutdown_goes {a0 : Master} {a1 : Nat} (h : Kept s t) :
    Goes s (execShutdown a0 a1 t) := by
  unfold execShutdown
  repeat' with_reducible first
    | assumption | apply next_goes | apply ite_goes | apply regWrite_kept

theorem execEngine_goes {a0 : Master} {a1 : Nat} (h : Kept s t) :
    Goes s (execEngine a0 a1 t) := by
  unfold execEngine
  repeat' with_reducible first
    | assumption | apply next_goes | apply ite_goes | apply regWrite_kept

theorem execRead_goes {a0 : Master} {a1 : Nat} (h : Kept s t) :
    Goes s (execRead a0 a1 t) := by
  unfold execRead
  repeat' with_reducible first
    | assumption | apply next_goes | apply ite_goes | apply regWrite_kept

theorem execProgram_goes {a0 : Master} {a1 : Nat} (h : Kept s t) :
    Goes s (execProgram a0 a1 t) := by
  unfold execProgram
  repeat' with_reducible first
    | assumption | apply next_goes | apply ite_goes | apply regWrite_kept

theorem execErase4Kib_goes {a0 : Master} {a1 : Nat} (h : Kept s t) :
    Goes s (execErase4Kib a0 a1 t) := by
  unfold execErase4Kib
  repeat' with_reducible first
    | assumption | apply next_goes | apply ite_goes | apply regWrite_kept

theorem execErase64Kib_goes {a0 : Master} {a1 : Nat} (h : Kept s t) :
    Goes s (execErase64Kib a0 a1 t) := by
  unfold execErase64Kib
  repeat' with_reducible first
    | assumption | apply next_goes | apply ite_goes | apply regWrite_kept

theorem execVibSet_goes {a0 : Master} {a1 : Nat} (h : Kept s t) :
    Goes s (execVibSet a0 a1 t) := by
  unfold execVibSet
  repeat' with_reducible first
    | assumption | apply next_goes | apply ite_goes | apply regWrite_kept

theorem execValidation_goes {a0 : Master} {a1 : Nat} {a2 : Nat} (h : Kept s t) :
    Goes s (execValidation a0 a1 a2 t) := by
  unfold execValidation
  repeat' with_reducible first
    | assumption | apply next_goes | apply ite_goes | apply regWrite_kept

theorem execRemoval_goes {a0 : Master} {a1 : Nat} {a2 : Nat} (h : Kept s t) :
    Goes s (execRemoval a0 a1 a2 t) := by
  unfold execRemoval
  repeat' with_reducible first
    | assumption | apply next_goes | apply ite_goes | apply regWrite_kept

theorem execUopGo_goes {a0 : Master} {a1 : Nat} (h : Kept s t) :
    Goes s (execUopGo a0 a1 t) := by
  unfold execUopGo
  repeat' with_reducible first
    | assumption | apply next_goes | apply ite_goes | apply regWrite_kept

end Sys2Proof.Machine
end

