-- ==== Sys2Proof/Laws/Takes.lean ====
section
/-! SUPPORT. What a taken write to each register that acts stores, and what then acts: the fields of the word under their
access codes, in one equation a register. -/

namespace Sys2Proof.Machine

open Sys2Proof

variable {m : Master} {i v : Nat} {s : State}

theorem takes_CREW_PH_RESTORE (h : s.Takes m .CREW_PH_RESTORE i v) : regWrite m .CREW_PH_RESTORE i v s =
    (afterWrite (isHost m) .CREW_PH_RESTORE i (v % 2 ^ 32) s
      s).answered 0 := by
  rw [regWrite_takes h (by decide)]
  simp only [writeReg, lockWord_plain (r := .CREW_PH_RESTORE) rfl, ite_self]
  rfl

theorem takes_CREW_DITHER_SEED (h : s.Takes m .CREW_DITHER_SEED i v) : regWrite m .CREW_DITHER_SEED i v s =
    (afterWrite (isHost m) .CREW_DITHER_SEED i (v % 2 ^ 32) s
      (s.put CREW_DITHER_SEED.SEED i (CREW_DITHER_SEED.SEED.ofWord (v % 2 ^ 32)))).answered 0 := by
  rw [regWrite_takes h (by decide)]
  simp only [writeReg, lockWord_plain (r := .CREW_DITHER_SEED) rfl, ite_self]
  rfl

theorem takes_CREW_AB_TRIG (h : s.Takes m .CREW_AB_TRIG i v) : regWrite m .CREW_AB_TRIG i v s =
    (afterWrite (isHost m) .CREW_AB_TRIG i (v % 2 ^ 32) s
      (((s.put CREW_AB_TRIG.DELAY i (CREW_AB_TRIG.DELAY.ofWord (v % 2 ^ 32))).put CREW_AB_TRIG.PDIV i (CREW_AB_TRIG.PDIV.ofWord (v % 2 ^ 32))).put CREW_AB_TRIG.SRC i (CREW_AB_TRIG.SRC.ofWord (v % 2 ^ 32)))).answered 0 := by
  rw [regWrite_takes h (by decide)]
  simp only [writeReg, lockWord_plain (r := .CREW_AB_TRIG) rfl, ite_self]
  rfl

theorem takes_CREW_AB_CTL (h : s.Takes m .CREW_AB_CTL i v) : regWrite m .CREW_AB_CTL i v s =
    (afterWrite (isHost m) .CREW_AB_CTL i (v % 2 ^ 32) s
      ((((s.put CREW_AB_CTL.PHASE i (CREW_AB_CTL.PHASE.ofWord (v % 2 ^ 32))).put CREW_AB_CTL.B_SEL i (CREW_AB_CTL.B_SEL.ofWord (v % 2 ^ 32))).put CREW_AB_CTL.A_SEL i (CREW_AB_CTL.A_SEL.ofWord (v % 2 ^ 32))).put CREW_AB_CTL.MODE i (CREW_AB_CTL.MODE.ofWord (v % 2 ^ 32)))).answered 0 := by
  rw [regWrite_takes h (by decide)]
  simp only [writeReg, lockWord_plain (r := .CREW_AB_CTL) rfl, ite_self]
  rfl

theorem takes_CREW_H_CTL (h : s.Takes m .CREW_H_CTL i v) : regWrite m .CREW_H_CTL i v s =
    (afterWrite (isHost m) .CREW_H_CTL i (v % 2 ^ 32) s
      ((((((s.put CREW_H_CTL.GAIN i (CREW_H_CTL.GAIN.ofWord (s.adjust .CREW_H_CTL i (v % 2 ^ 32)))).put CREW_H_CTL.STIME i (CREW_H_CTL.STIME.ofWord (s.adjust .CREW_H_CTL i (v % 2 ^ 32)))).put CREW_H_CTL.CH i (CREW_H_CTL.CH.ofWord (s.adjust .CREW_H_CTL i (v % 2 ^ 32)))).put CREW_H_CTL.ALIGN i (CREW_H_CTL.ALIGN.ofWord (s.adjust .CREW_H_CTL i (v % 2 ^ 32)))).put CREW_H_CTL.SEQ_LEN i (CREW_H_CTL.SEQ_LEN.ofWord (s.adjust .CREW_H_CTL i (v % 2 ^ 32)))).put CREW_H_CTL.MODE i (CREW_H_CTL.MODE.ofWord (s.adjust .CREW_H_CTL i (v % 2 ^ 32))))).answered 0 := by
  rw [regWrite_takes h (by decide)]
  simp only [writeReg, lockWord_plain (r := .CREW_H_CTL) rfl, ite_self]
  rfl

theorem takes_CREW_H_REF (h : s.Takes m .CREW_H_REF i v) : regWrite m .CREW_H_REF i v s =
    (afterWrite (isHost m) .CREW_H_REF i (v % 2 ^ 32) s
      (s.put CREW_H_REF.REF_SEL i (CREW_H_REF.REF_SEL.ofWord (v % 2 ^ 32)))).answered 0 := by
  rw [regWrite_takes h (by decide)]
  simp only [writeReg, lockWord_plain (r := .CREW_H_REF) rfl, ite_self]
  rfl

theorem takes_CREW_OW_CTL (h : s.Takes m .CREW_OW_CTL i v) : regWrite m .CREW_OW_CTL i v s =
    (afterWrite (isHost m) .CREW_OW_CTL i (v % 2 ^ 32) s
      (s.put CREW_OW_CTL.BG_EN i (CREW_OW_CTL.BG_EN.ofWord (v % 2 ^ 32)))).answered 0 := by
  rw [regWrite_takes h (by decide)]
  simp only [writeReg, lockWord_plain (r := .CREW_OW_CTL) rfl, ite_self]
  rfl

theorem takes_CREW_DP_CTL (h : s.Takes m .CREW_DP_CTL i v) : regWrite m .CREW_DP_CTL i v s =
    (afterWrite (isHost m) .CREW_DP_CTL i (v % 2 ^ 32) s
      ((s.put CREW_DP_CTL.WARN_TH i (CREW_DP_CTL.WARN_TH.ofWord (v % 2 ^ 32))).put CREW_DP_CTL.IFILT_K i (CREW_DP_CTL.IFILT_K.ofWord (v % 2 ^ 32)))).answered 0 := by
  rw [regWrite_takes h (by decide)]
  simp only [writeReg, lockWord_plain (r := .CREW_DP_CTL) rfl, ite_self]
  rfl

theorem takes_CREW_DP_COMMIT (h : s.Takes m .CREW_DP_COMMIT i v) : regWrite m .CREW_DP_COMMIT i v s =
    (afterWrite (isHost m) .CREW_DP_COMMIT i (v % 2 ^ 32) s
      s).answered 0 := by
  rw [regWrite_takes h (by decide)]
  simp only [writeReg, lockWord_plain (r := .CREW_DP_COMMIT) rfl, ite_self]
  rfl

theorem takes_CREW_PWR_CTL (h : s.Takes m .CREW_PWR_CTL i v) : regWrite m .CREW_PWR_CTL i v s =
    (afterWrite (isHost m) .CREW_PWR_CTL i (v % 2 ^ 32) s
      (((s.put CREW_PWR_CTL.IDLE i (CREW_PWR_CTL.IDLE.ofWord (CREW_PWR_CTL.SS_SLEW.hold 4 s.slewMax (v % 2 ^ 32)))).put CREW_PWR_CTL.SS_SLEW i (CREW_PWR_CTL.SS_SLEW.ofWord (CREW_PWR_CTL.SS_SLEW.hold 4 s.slewMax (v % 2 ^ 32)))).put CREW_PWR_CTL.STAND_KIND i (CREW_PWR_CTL.STAND_KIND.ofWord (CREW_PWR_CTL.SS_SLEW.hold 4 s.slewMax (v % 2 ^ 32))))).answered 0 := by
  rw [regWrite_takes h (by decide)]
  simp only [writeReg, lockWord_plain (r := .CREW_PWR_CTL) rfl, ite_self]
  rfl

theorem takes_CREW_VMIN (h : s.Takes m .CREW_VMIN i v) : regWrite m .CREW_VMIN i v s =
    (afterWrite (isHost m) .CREW_VMIN i (v % 2 ^ 32) s
      s).answered 0 := by
  rw [regWrite_takes h (by decide)]
  simp only [writeReg, lockWord_plain (r := .CREW_VMIN) rfl, ite_self]
  rfl

theorem takes_CREW_VMAX (h : s.Takes m .CREW_VMAX i v) : regWrite m .CREW_VMAX i v s =
    (afterWrite (isHost m) .CREW_VMAX i (v % 2 ^ 32) s
      s).answered 0 := by
  rw [regWrite_takes h (by decide)]
  simp only [writeReg, lockWord_plain (r := .CREW_VMAX) rfl, ite_self]
  rfl

theorem takes_CREW_HIST_CTL (h : s.Takes m .CREW_HIST_CTL i v) : regWrite m .CREW_HIST_CTL i v s =
    (afterWrite (isHost m) .CREW_HIST_CTL i (v % 2 ^ 32) s
      ((s.put CREW_HIST_CTL.V_EN i (CREW_HIST_CTL.V_EN.ofWord (v % 2 ^ 32))).put CREW_HIST_CTL.T_EN i (CREW_HIST_CTL.T_EN.ofWord (v % 2 ^ 32)))).answered 0 := by
  rw [regWrite_takes h (by decide)]
  simp only [writeReg, lockWord_plain (r := .CREW_HIST_CTL) rfl, ite_self]
  rfl

theorem takes_CAP_MON_AGE_CTL (h : s.Takes m .CAP_MON_AGE_CTL i v) : regWrite m .CAP_MON_AGE_CTL i v s =
    (afterWrite (isHost m) .CAP_MON_AGE_CTL i (v % 2 ^ 32) s
      (s.put CAP_MON_AGE_CTL.VALID i (CAP_MON_AGE_CTL.VALID.ofWord (v % 2 ^ 32)))).answered 0 := by
  rw [regWrite_takes h (by decide)]
  simp only [writeReg, lockWord_plain (r := .CAP_MON_AGE_CTL) rfl, ite_self]
  rfl

theorem takes_THM_SENS (h : s.Takes m .THM_SENS i v) : regWrite m .THM_SENS i v s =
    (afterWrite (isHost m) .THM_SENS i (v % 2 ^ 32) s
      s).answered 0 := by
  rw [regWrite_takes h (by decide)]
  simp only [writeReg, lockWord_plain (r := .THM_SENS) rfl, ite_self]
  rfl

theorem takes_FLT_CLEAR (h : s.Takes m .FLT_CLEAR i v) : regWrite m .FLT_CLEAR i v s =
    (afterWrite (isHost m) .FLT_CLEAR i (v % 2 ^ 32) s
      s).answered 0 := by
  rw [regWrite_takes h (by decide)]
  simp only [writeReg, lockWord_plain (r := .FLT_CLEAR) rfl, ite_self]
  rfl

theorem takes_FLT_STAT (h : s.Takes m .FLT_STAT i v) : regWrite m .FLT_STAT i v s =
    (afterWrite (isHost m) .FLT_STAT i (v % 2 ^ 32) s
      (s.clearBits FLT_STAT.ALERT_PEND i (FLT_STAT.ALERT_PEND.ofWord (v % 2 ^ 32)))).answered 0 := by
  rw [regWrite_takes h (by decide)]
  simp only [writeReg, lockWord_plain (r := .FLT_STAT) rfl, ite_self]
  rfl

theorem takes_FLT_INJECT1 (h : s.Takes m .FLT_INJECT1 i v) : regWrite m .FLT_INJECT1 i v s =
    (afterWrite (isHost m) .FLT_INJECT1 i (v % 2 ^ 32) s
      (s.clearBits FLT_INJECT1.INJ_ERR i (FLT_INJECT1.INJ_ERR.ofWord (v % 2 ^ 32)))).answered 0 := by
  rw [regWrite_takes h (by decide)]
  simp only [writeReg, lockWord_plain (r := .FLT_INJECT1) rfl, ite_self]
  rfl

theorem takes_TB_SNAP_CTL (h : s.Takes m .TB_SNAP_CTL i v) : regWrite m .TB_SNAP_CTL i v s =
    (afterWrite (isHost m) .TB_SNAP_CTL i (v % 2 ^ 32) s
      ((s.clearBits TB_SNAP_CTL.ERR i (TB_SNAP_CTL.ERR.ofWord (v % 2 ^ 32))).put TB_SNAP_CTL.PTR i (TB_SNAP_CTL.PTR.ofWord (v % 2 ^ 32)))).answered 0 := by
  rw [regWrite_takes h (by decide)]
  simp only [writeReg, lockWord_plain (r := .TB_SNAP_CTL) rfl, ite_self]
  rfl

theorem takes_TB_CAL_CTL (h : s.Takes m .TB_CAL_CTL i v) : regWrite m .TB_CAL_CTL i v s =
    (calRequest (TB_CAL_CTL.ALL.ofWord (v % 2 ^ 32) == 1) (TB_CAL_CTL.ONE.ofWord (v % 2 ^ 32) == 1)
      (TB_CAL_CTL.CREW.ofWord (v % 2 ^ 32)) s).answered 0 := by
  rw [regWrite_takes h (by decide)]
  rfl

theorem takes_ID_MARCH_CTL (h : s.Takes m .ID_MARCH_CTL i v) : regWrite m .ID_MARCH_CTL i v s =
    (marchGo (ID_MARCH_CTL.GO.ofWord (v % 2 ^ 32) == 1) (ID_MARCH_CTL.BANK.ofWord (v % 2 ^ 32))
      (ID_MARCH_CTL.PRESERVE.ofWord (v % 2 ^ 32) == 1) s).answered 0 := by
  rw [regWrite_takes h (by decide)]
  rfl

theorem takes_ID_MBX_CTL (h : s.Takes m .ID_MBX_CTL i v) : regWrite m .ID_MBX_CTL i v s =
    (afterWrite (isHost m) .ID_MBX_CTL i (v % 2 ^ 32) s
      (s.clearBits ID_MBX_CTL.REFUSED i (ID_MBX_CTL.REFUSED.ofWord (v % 2 ^ 32)))).answered 0 := by
  rw [regWrite_takes h (by decide)]
  simp only [writeReg, lockWord_plain (r := .ID_MBX_CTL) rfl, ite_self]
  rfl

theorem takes_ID_LOCK (h : s.Takes m .ID_LOCK i v) : regWrite m .ID_LOCK i v s =
    (afterWrite (isHost m) .ID_LOCK i (v % 2 ^ 32) s
      s).answered 0 := by
  rw [regWrite_takes h (by decide)]
  simp only [writeReg, lockWord_plain (r := .ID_LOCK) rfl, ite_self]
  rfl

end Sys2Proof.Machine
end

