-- ==== Sys2Proof/WellFormed.lean ====
section
/-! DEFINITION. Well-formed commands: every index names an instance that the block has, and every word fits its width.
The environment issues only such commands. -/

namespace Sys2Proof

/-- The master is the management port, the test access port, or one of S0 to S3 (R276). -/
def okMaster : Master → Bool
  | .mgmt => true
  | .jtag => true
  | .sup k => decide (k < 4)

/-- The context is a supervisor context (R208). -/
def okSup (n : Nat) : Bool := decide (8 ≤ n ∧ n < 12)

/-- The indices and words of a command lie in their ranges. -/
def wellFormed : Instr → Bool
  | .registerWrite m addr size data ecc => okMaster m && decide (addr < 2 ^ 32) && decide (size < 65) && decide (data < 2 ^ 64) && decide (ecc < 3)
  | .setLock m data => okMaster m && decide (data < 2 ^ 32)
  | .descriptorWrite m u w data => okMaster m && decide (u < 2048) && decide (w < 8) && decide (data < 2 ^ 32)
  | .validation m u data => okMaster m && decide (u < 2048) && decide (data < 2 ^ 32)
  | .validationComplete u => decide (u < 2048)
  | .removal m u data => okMaster m && decide (u < 2048) && decide (data < 2 ^ 32)
  | .removalComplete u => decide (u < 2048)
  | .capabilityRecompute phase => decide (phase < 1536)
  | .grantUpdate lane => decide (lane < 8)
  | .uopGo m data => okMaster m && decide (data < 2 ^ 32)
  | .uopIssue => true
  | .pulse c _ _ _ _ => decide (c < 192)
  | .endOfOnTime ph _ => decide (ph < 1536)
  | .minimumOffTimeEnd ph => decide (ph < 1536)
  | .fastLimitTrip ph => decide (ph < 1536)
  | .blankEnd ph => decide (ph < 1536)
  | .tripWindow c => decide (c < 192)
  | .overTemp ph _ _ => decide (ph < 1536)
  | .restore m c data => okMaster m && decide (c < 192) && decide (data < 2 ^ 32)
  | .balanceTrim c => decide (c < 192)
  | .crewOverload c => decide (c < 192)
  | .foldOffset c => decide (c < 192)
  | .overloadUnresolved c => decide (c < 192)
  | .testPulse ph _ _ => decide (ph < 1536)
  | .ditherSeed m c data => okMaster m && decide (c < 192) && decide (data < 2 ^ 32)
  | .abSampleLand c _ _ _ => decide (c < 192)
  | .abRead m c _ size => m.all okMaster && decide (c < 192) && decide (size < 65)
  | .abFire m c data => m.all okMaster && decide (c < 192) && decide (data < 2 ^ 32)
  | .abMode m c data => okMaster m && decide (c < 192) && decide (data < 2 ^ 32)
  | .modeChange c => decide (c < 192)
  | .hSlotEnd c => decide (c < 192)
  | .hResult c _ => decide (c < 192)
  | .urgentRequest c _ _ => decide (c < 192)
  | .hMode m c data => okMaster m && decide (c < 192) && decide (data < 2 ^ 32)
  | .refSel m c data => okMaster m && decide (c < 192) && decide (data < 2 ^ 32)
  | .refSettled c => decide (c < 192)
  | .localOvervoltage c _ => decide (c < 192)
  | .confirm m c data => m.all okMaster && decide (c < 192) && decide (data < 2 ^ 32)
  | .retry m c data => okMaster m && decide (c < 192) && decide (data < 2 ^ 32)
  | .pullEnd c => decide (c < 192)
  | .senseSwitch c => decide (c < 192)
  | .datapathUpdate c => decide (c < 192)
  | .updateCompletion c _ => decide (c < 192)
  | .missWindow c => decide (c < 192)
  | .resume m c data => okMaster m && decide (c < 192) && decide (data < 2 ^ 32)
  | .commit m c data => okMaster m && decide (c < 192) && decide (data < 2 ^ 32)
  | .commitCopy c => decide (c < 192)
  | .setpointCommand => true
  | .refStep c => decide (c < 192)
  | .llsDelivery => true
  | .gselDelivery => true
  | .sharingPass => true
  | .trimTake => true
  | .droop c _ _ => decide (c < 192)
  | .droopRearm c _ _ => decide (c < 192)
  | .reservoirReady c => decide (c < 192)
  | .armDelivery => true
  | .armedFiring c => decide (c < 192)
  | .overshootClamp c _ _ => decide (c < 192)
  | .clampOff c _ _ => decide (c < 192)
  | .clampWindow c => decide (c < 192)
  | .planeFloor p => decide (p < 32)
  | .coverDelivery => true
  | .coverExpiry c => decide (c < 192)
  | .ageSlack mon _ => decide (mon < 96)
  | .standWrite m c data => okMaster m && decide (c < 192) && decide (data < 2 ^ 32)
  | .standDelivery => true
  | .sheddingEnd c => decide (c < 192)
  | .crewCalibrationEnd c _ _ _ => decide (c < 192)
  | .rejoin m c data => okMaster m && decide (c < 192) && decide (data < 2 ^ 32)
  | .derate p => decide (p < 32)
  | .pwronDelivery => true
  | .queueReevaluation => true
  | .softStartAbort c _ _ => decide (c < 192)
  | .powerOnRetry p => decide (p < 32)
  | .unlock m c data => okMaster m && decide (c < 192) && decide (data < 2 ^ 32)
  | .pwroffDelivery => true
  | .vminRearm m c data => okMaster m && decide (c < 192) && decide (data < 2 ^ 32)
  | .dieRearm m data => okMaster m && decide (data < 2 ^ 32)
  | .forecastWrite tile w _ _ => decide (tile < 9216) && decide (w < 64)
  | .intake f => decide (f < 8)
  | .arrival => true
  | .creditReturn => true
  | .fcwCfgWrite m w data => okMaster m && decide (w < 64) && decide (data < 2 ^ 32)
  | .ringRelease m w data => okMaster m && decide (w < 64) && decide (data < 2 ^ 32)
  | .startRequest tile cls => decide (tile < 9216) && decide (cls < 8)
  | .heatOpen f => decide (f < 8)
  | .heatGrant f => decide (f < 8)
  | .startStalled f => decide (f < 8)
  | .stretch r => decide (r < 24)
  | .realignment r => decide (r < 24)
  | .start m n data => okMaster m && decide (n < 8) && decide (data < 2 ^ 32)
  | .stop m n data => okMaster m && decide (n < 8) && decide (data < 2 ^ 32)
  | .unload m n data => okMaster m && decide (n < 8) && decide (data < 2 ^ 32)
  | .watchdog n => decide (n < 8)
  | .waitEnd n => decide (n < 12)
  | .loadComplete => true
  | .nop n => decide (n < 12)
  | .halt n => decide (n < 12)
  | .yield n => decide (n < 12)
  | .br n => decide (n < 12)
  | .brc n => decide (n < 12)
  | .call n => decide (n < 12)
  | .ret n => decide (n < 12)
  | .loop n => decide (n < 12)
  | .movi n => decide (n < 12)
  | .mov n => decide (n < 12)
  | .add n => decide (n < 12)
  | .sub n => decide (n < 12)
  | .mulq n => decide (n < 12)
  | .shr n => decide (n < 12)
  | .shl n => decide (n < 12)
  | .and n => decide (n < 12)
  | .or n => decide (n < 12)
  | .cmp n => decide (n < 12)
  | .min n => decide (n < 12)
  | .max n => decide (n < 12)
  | .clamp n => decide (n < 12)
  | .setv n => decide (n < 12)
  | .setvr n => decide (n < 12)
  | .ramp n => decide (n < 12)
  | .lls n => decide (n < 12)
  | .gsel n => decide (n < 12)
  | .arm n => decide (n < 12)
  | .stand n => decide (n < 12)
  | .pwron n => decide (n < 12)
  | .pwroff n => decide (n < 12)
  | .rdt n => decide (n < 12)
  | .rdtResult => true
  | .waitt n => decide (n < 12)
  | .waitm n => decide (n < 12)
  | .waits n => decide (n < 12)
  | .waita n => decide (n < 12)
  | .barl n => decide (n < 12)
  | .barx n => decide (n < 12)
  | .markq n => decide (n < 12)
  | .waite n => decide (n < 12)
  | .wopen n => decide (n < 12)
  | .wclose n => decide (n < 12)
  | .fcst n => decide (n < 12)
  | .heat n => decide (n < 12)
  | .capq n => decide (n < 12)
  | .slack n => decide (n < 12)
  | .evt n => decide (n < 12)
  | .ld n => okSup n
  | .st n => okSup n
  | .aadd n => okSup n
  | .swap n => okSup n
  | .accessComplete n ecc => okSup n && decide (ecc < 3)
  | .grant n => okSup n
  | .loadp n => okSup n
  | .signal n => okSup n
  | .estimatorUpdate _ => true
  | .fwLoad m data => okMaster m && decide (data < 2 ^ 32)
  | .modelCheckComplete => true
  | .estSrc m data => okMaster m && decide (data < 2 ^ 32)
  | .sensorSample k _ => decide (k < 960)
  | .biasCheck k _ => decide (k < 960)
  | .stale k => decide (k < 960)
  | .graceEnd r => decide (r < 24)
  | .enforcementStep r => decide (r < 24)
  | .thermalCeilingStep p => decide (p < 32)
  | .throttleEnd r => decide (r < 24)
  | .substitution m k data => okMaster m && decide (k < 960) && decide (data < 2 ^ 32)
  | .retest m k data => okMaster m && decide (k < 960) && decide (data < 2 ^ 32)
  | .coolantDebounce => true
  | .domainShutdown => true
  | .stopAtCrews => true
  | .planeDischarged p => decide (p < 32)
  | .logRecord _ => true
  | .reportPeriod => true
  | .report msg => decide (msg.length = 16)
  | .regattaGrant msg => decide (msg.length = 16)
  | .join msg => decide (msg.length = 16)
  | .done msg => decide (msg.length = 16)
  | .notice msg => decide (msg.length = 16)
  | .noticeAll msg => decide (msg.length = 16)
  | .classification => true
  | .faultShutdown p => decide (p < 32)
  | .fc2Clear m data => okMaster m && decide (data < 2 ^ 32)
  | .fc2ClearAll m data => okMaster m && decide (data < 2 ^ 32)
  | .alertClear m data => okMaster m && decide (data < 2 ^ 32)
  | .selfFault _ => true
  | .injection m data => okMaster m && decide (data < 2 ^ 32)
  | .markStrobe => true
  | .markBegin _ => true
  | .snapshotComplete _ => true
  | .snapshotReq m data => okMaster m && decide (data < 2 ^ 32)
  | .snapshotCopy => true
  | .histClr m data => okMaster m && decide (data < 2 ^ 32)
  | .histClear m c data => okMaster m && decide (c < 192) && decide (data < 2 ^ 32)
  | .calAll m data => okMaster m && decide (data < 2 ^ 32)
  | .calOne m data => okMaster m && decide (data < 2 ^ 32)
  | .deliveryCalibrationEnd c _ _ => decide (c < 192)
  | .vmaxRearm m c data => okMaster m && decide (c < 192) && decide (data < 2 ^ 32)
  | .captureArm m st data => okMaster m && decide (st < 4) && decide (data < 2 ^ 32)
  | .captureStop m st data => okMaster m && decide (st < 4) && decide (data < 2 ^ 32)
  | .captureFire m st data => okMaster m && decide (st < 4) && decide (data < 2 ^ 32)
  | .captureTrigger st => decide (st < 4)
  | .captureBlock st => decide (st < 4)
  | .capturePage st => decide (st < 4)
  | .recWin7Read m size => okMaster m && decide (size < 65)
  | .scrub bank ecc => decide (bank < 12) && decide (ecc < 3)
  | .marchGo m data => okMaster m && decide (data < 2 ^ 32)
  | .marchComplete _ _ => true
  | .safetyCrcCheck => true
  | .post m slot data => okMaster m && decide (slot < 16) && decide (data < 2 ^ 32)
  | .take m slot data => okMaster m && decide (slot < 16) && decide (data < 2 ^ 32)
  | .mailboxDone m slot data => okMaster m && decide (slot < 16) && decide (data < 2 ^ 32)
  | .release m slot data => okMaster m && decide (slot < 16) && decide (data < 2 ^ 32)
  | .recoverBoot => true
  | .recoveryReport => true
  | .powerOn _ _ _ => true
  | .pwrEnDebounce => true
  | .fsEn m data => okMaster m && decide (data < 2 ^ 32)
  | .vibGood => true
  | .vibStartFailed => true
  | .hostRun m data => okMaster m && decide (data < 2 ^ 32)
  | .xcalReq => true
  | .xcalDone => true
  | .xcalFail => true
  | .xcalTimeout => true
  | .full m data _ => okMaster m && decide (data < 2 ^ 32)
  | .engine m data => okMaster m && decide (data < 2 ^ 32)
  | .shutdown m data => okMaster m && decide (data < 2 ^ 32)
  | .sdWait => true
  | .standbySupplyLost => true
  | .vaonLoss => true
  | .page _ _ _ => true
  | .clearFaults _ => true
  | .writeProtect _ _ => true
  | .capability _ _ => true
  | .voutMode _ _ => true
  | .voutCommand _ _ _ => true
  | .statusByte _ _ => true
  | .statusWord _ _ => true
  | .statusVout _ _ => true
  | .statusIout _ _ => true
  | .statusTemperature _ _ => true
  | .statusCml _ _ => true
  | .readVin _ _ => true
  | .readVout _ _ => true
  | .readIout _ _ => true
  | .readTemperature1 _ _ => true
  | .readPout _ _ => true
  | .pmbusRevision _ _ => true
  | .mfrId _ _ => true
  | .mfrModel _ _ => true
  | .unsupportedCommand code _ _ _ => decide (code < 256)
  | .alertResponse => true
  | .read m data => okMaster m && decide (data < 2 ^ 32)
  | .program m data => okMaster m && decide (data < 2 ^ 32)
  | .erase4Kib m data => okMaster m && decide (data < 2 ^ 32)
  | .erase64Kib m data => okMaster m && decide (data < 2 ^ 32)
  | .flashOperationEnd _ => true
  | .extest _ => true
  | .samplePreload _ _ => true
  | .jtagClamp => true
  | .highz => true
  | .dbg _ addr data ecc => decide (addr < 2 ^ 32) && decide (data < 2 ^ 32) && decide (ecc < 3)
  | .idcode => true
  | .bypass => true
  | .trst _ => true
  | .poll => true
  | .fsAnswer d _ _ _ _ _ _ _ => decide (d < 16)
  | .frameTimeout d => decide (d < 16)
  | .vibSet m data => okMaster m && decide (data < 2 ^ 32)
  | .vibLost => true
  | .noticeSend => true
  | .registerRead m addr size ecc => okMaster m && decide (addr < 2 ^ 32) && decide (size < 65) && decide (ecc < 3)
  | .phaseCurrentReachesZero ph => decide (ph < 1536)
  | .pwrEnPinChange _ => true
  | .coolantOkPinChange _ => true
  | .fc3LatchClear => true
  | .ringSectorErase => true

end Sys2Proof
end

