-- ==== Sys2Proof/Tests/Slice0.lean ====
section
/-! SUPPORT. Tests: small states, the well-formedness smoke test, values that the spec works out, and for each statement
with hypotheses states and operands that meet them. -/

namespace Sys2Proof.Tests

open Sys2Proof Sys2Proof.Machine

set_option Elab.async false
set_option linter.unusedVariables false

/-! ## Small states -/

/-- A released block. -/
def up : State := releaseRegions ((State.put {} ID_BOOT_STAT.STEP 0 7).put ID_FW_STAT.MODE 0 1)

/-- crew c ON and regulating, eight phases READY -/
def onCrewSt (c : Nat) : State := forAll (List.range 8) (fun s k => s.setPhase (8 * c + k) {st := .ready})

  ((up.setCst c 3).onCrew c (fun k => { k with reg := true }))

/-- An operation of a kind to unit u with leaf crews cs. -/
def opOf (k : OpKind) (u : Nat) (cs : List Nat) : Op := ⟨7, k, u, cs, 8, 3⟩

/-- A set of coefficients. -/
def cf : Coef := ⟨(30,0),(200,0),(3,0),(1,0),(1,0),(1,0),(1,0),(1,0),(1,0),(2,0),100,60,-50⟩

/-- An instruction word from its fields. -/
def wd (op unit rd rs imm : Nat) (pred : Nat := 0) : Nat := op * 2^56 + pred * 2^52 + unit * 2^40 + rd * 2^36 + rs * 2^32 + imm

/-- context n about to issue word w at index 5 -/
def run (n w : Nat) : State := let s := (up.setLst n 3).setPc n 5; s.wr 8 (s.fetchAddr n) w

/-- Registers of context n set. -/
def regv (n : Nat) (l : List (Nat × Nat)) (s : State) : State := l.foldl (fun s e => s.setV n e.1 e.2) s

/-- A held VIB reading at each crew of a list. -/
def vibs (l : List Nat) (s : State) : State := forAll l (fun s c => s.onCrew c (fun k => {k with hHeld := [(9,(2458,0,4))]})) s

/-- Supply, coolant and die capability in order. -/
def fed (s : State) : State := ((s.put ID_PWR_STAT.VIB_GOOD 0 1).put THM_STAT.COOLANT 0 1).put STG_SUM.CAP_A 0 8000

/-- A snapshot of mark 5. -/
def snap0 : Snap := {current := 5, noData := false}

/-- Region register 48 opened. -/
def rgn3 (s : State) : State := putRegion 48 0xE7FF0400 s

/-- n little-endian bytes. -/
def wle (n v : Nat) : List Byte := (List.range n).map fun k => BitVec.ofNat 8 (v / 256 ^ k)

/-- A program image with words, unit table, entry and watchdog (R227). -/
def mkImg (crcOk : Bool) (ws : List Nat) (us : List (List Nat)) (entry wdog : Nat) : List Byte :=

  let body := us.flatMap (fun u => u.flatMap (wle 4)) ++ ws.flatMap (wle 8)

  let len := 0x40 + body.length

  [0x50534955, 0x00400001, ws.length, us.length, entry, wdog, 0, 0, len, (crc32 body + (if crcOk then 0 else 1)) % 2^32, 77, 0,0,0,0,0].flatMap (wle 4) ++ body

/-- A program image of three words and one unit. -/
def img1 := mkImg true [wd 0x12 0 3 4 5, wd 0x20 0x603 0 0 0x38406400, wd 1 0 0 0 0] [[0x603, 20 * 2^16 + 14, 1000 * 2^12 + 800, 0]] 1 100

/-- A running load of an image for lane 2. -/
def ld1 (img : List Byte) (base : Nat := 500) : Load := ⟨2, base, img, true⟩

/-- Crew c granted to lane l. -/
def crewGrant (l c : Nat) (s : State) : State := s.put LANE_GRANT.CREWS (6*l + c/32) (2^(c%32))

/-- A group entry that awaits validation. -/
def grp (u first stride count : Nat) (s : State) : State := {((((((s.put DESC_W0.VALID u 1).put DESC_W0.KIND u 6).put DESC_W6.STATUS u 1).put DESC_W1.FIRST u first).put DESC_W1.STRIDE u stride).put DESC_W1.COUNT u count) with unitPend := [(u,false)]}

/-- A forecast record. -/
def sfr (w : Nat) : FRec := ⟨0,70,w,[0x00000001 ,500,0,0,0,0,0,0,0,0,0,0],16,⟨0,5⟩,64,500,true,0,0⟩

/-- Sensor k changed. -/
def snr (k : Nat) (f : Sensor → Sensor) (s : State) : State := s.onSensor k f

/-- A state whose stop is not done. -/
def cleanUp : State := {up with stopDone := false}

/-- A regatta message. -/
def msg (t lvl src gid : Nat) (flags : Nat) (body : List Nat) : List Nat := rgtWords ([t*2^28 + lvl*2^24+flags*2^16+gid, src*2^16, 5] ++ body)

/-- A member of a regatta group. -/
def rgt (idx size : Nat) (s : State) : State := ((s.put RGT_CTL.EN 0 1).put RGT_GROUP.SIZE 0 size).put RGT_MEMBER.INDEX 0 idx

/-- An estimator model image. -/
def est1 : List Byte := [0x4553544D, 0x00200001, 0x01010001, 0, 9216*8, 0, 9216*8, 24].flatMap (wle 4) ++ (List.range 16).map (fun k => BitVec.ofNat 8 (k+1)) ++ wle 4 77 ++ wle 4 0

/-- An event. -/
def ev (code kind src : Nat) : Event := ⟨code, kind, src, ⟨0,5⟩, 1, 2, 0, false⟩

/-- Events in the intake. -/
def fin (l : List Event) (s : State) : State := {s with fltInit := true, intake := l}

/-- A reading of the first sensor of a region. -/
def rgnHot (r : Nat) (s : State) : State := snr ((regionSensors r).headD 0) (fun x => {x with conf := [(460,5)]}) s

/-- A report. -/
def rep1 : Report := {members := 1, power := 5, pmin := 100, spare := 7, want := [1,2,3,4,5,6,7,8]}

/-- A grant message. -/
def grantMsg (gid : Nat) : List Nat := msg 2 1 0 gid 1 [1000+2000*2^16, 3000+4000*2^16,5,6, 7*2^16, 0]

/-- A context in a BARX wait. -/
def barx1 (n num at_ : Nat) (s : State) : State := (s.setLst n 4).onCtx n (fun k => {k with wait := some ⟨.barx num, 5, at_, 0⟩})

/-- An entry of the FC2 table. -/
def fc2e (k : Nat) (live : Bool) (e : Event) (s : State) : State := {s with fc2 := tset s.fc2 k ⟨3, e, live, false, false, 0⟩}

/-- What an operator of power-on gives. -/
def bin : BootIn := ⟨0, [], 0, none, false, [], 900, []⟩

/-- FS_EN set. -/
def alld (s : State) : State := s.put ID_PWR_CTL.FS_EN 0 1

/-- A mailbox slot in a state. -/
def mbx (slot st : Nat) (s : State) : State := s.put ID_MBX_CTL.STATE slot st

/-- The test access port open. -/
def tap (s : State) : State := {(s.put ID_FUSE.JTAG_DBG 0 1) with trstPin := true}

/-- The crews of plane 0 ON, regulating and sharing, with trims that differ. -/
def regSh : State :=
  forAll (planeCrews 0) (fun s c => ((((((forAll (List.range 8) (fun s k => s.setPhase (8 * c + k) {st := .ready}) s).put
    CREW_SH_CTL.PART c 1).put CREW_DP_LLS.LLS c 40).put CREW_SH_CTL.TRIM_MAX c 6).put CREW_SH_CTL.DB c 2).put
    CREW_DP_TRIM.TRIM c c).setCst c 3 |>.onCrew c (fun k => { k with reg := true, ifValid := true })) up

/-- Region registers opened to every master. -/
def rgnOpen (s : State) : State := (List.range 12).foldl (fun s k => putRegion (16*k+1) 0xFFFFFFFF s) s

/-- The delivery calibration of every crew of plane p valid. -/
def heard (p : Nat) (s : State) : State := forAll (planeCrews p) (fun s c => s.put TB_CAL.VALID c 1) s

/-! ## What a closed check says -/

/-- The conditions of State.Takes, checked. -/
def takesB (s : State) (m : Master) (r : Reg) (i v : Nat) : Bool :=
  decide (placeAt (r.addr i) = .reg r i) && !s.closed m && s.permitted (masterCode m) (r.addr i) 4 false true &&
  !s.bars (isHost m) (r.addr i) && !s.violates (r.addr i) (v % 2 ^ 32)

theorem takes_ok {s : State} {m : Master} {r : Reg} {i v : Nat} (h : takesB s m r i v = true) : s.Takes m r i v := by
  simp only [takesB, Bool.and_eq_true, decide_eq_true_eq, Bool.not_eq_true'] at h
  exact ⟨h.1.1.1.1, h.1.1.1.2, h.1.1.2, h.1.2, h.2⟩

/-- The conditions of State.Reads, checked. -/
def readsB (s : State) (m : Master) (r : Reg) (i : Nat) : Bool :=
  decide (placeAt (r.addr i) = .reg r i) && !s.closed m && s.permitted (masterCode m) (r.addr i) 4 true false &&
  !thas s.hiLatch (r.addr i) && !pairLows.contains (r.addr i)

theorem reads_ok {s : State} {m : Master} {r : Reg} {i : Nat} (h : readsB s m r i = true) : s.Reads m r i := by
  simp only [readsB, Bool.and_eq_true, decide_eq_true_eq, Bool.not_eq_true'] at h
  exact ⟨h.1.1.1.1, h.1.1.1.2, h.1.1.2, h.1.2, h.2⟩

/-- The conditions of State.Issues, checked. -/
def issuesB (s : State) (n op : Nat) : Bool :=
  s.canIssue n && decide (s.fetch n = (s, true)) && decide ((s.word n).op = op) && !(s.word n).predBad && (s.word n).acts (s.ctx n).preds

theorem issues_ok {s : State} {n op : Nat} (h : issuesB s n op = true) : s.Issues n op := by
  simp only [issuesB, Bool.and_eq_true, decide_eq_true_eq, Bool.not_eq_true'] at h
  exact ⟨h.1.1.1.1, h.1.1.1.2, h.1.1.2, h.1.2, h.2⟩

/-- The entries of a table of fields, checked. -/
def fitB (l : List (FKey × Nat)) : Bool :=
  l.all fun e => e.1.reg.fields.any fun f => decide (f.lo = e.1.lo) && decide (e.2 < 2 ^ f.width)

theorem fit_ok {l : List (FKey × Nat)} (h : fitB l = true) : fitList l := by
  intro e he
  have h2 := List.all_eq_true.mp h e he
  obtain ⟨f, hf, h3⟩ := List.any_eq_true.mp h2
  simp only [Bool.and_eq_true, decide_eq_true_eq] at h3
  exact ⟨f, hf, h3⟩

/-- The invariant, checked. -/
def invB (s : State) : Bool :=
  decide (Memory.wf 0 s.mem) && decide (Memory.wf 0xFF#8 s.flash) && fitB s.fld && fitB s.fuse

theorem inv_ok {s : State} (h : invB s = true) : s.Inv := by
  simp only [invB, Bool.and_eq_true, decide_eq_true_eq] at h
  exact ⟨h.1.1.1, h.1.1.2, fit_ok h.1.2, fit_ok h.2⟩

theorem optAll_ok {α : Type} {P : α → Prop} {o : Option α} [DecidablePred P] (h : o.all (fun x => decide (P x)) = true) :
    ∀ x, o = some x → P x := by
  intro x hx; subst hx; simpa using h

theorem noneAll_ok {α : Type} {P : α → Prop} {o : Option α} (h : o.isNone = true) : ∀ x, o = some x → P x := by
  intro x hx; subst hx; cases h

theorem heads_ok {α : Type} {P : α → Prop} [DecidablePred P] {f : Nat → List α} {n : Nat}
    (h : (List.range n).all (fun k => (f k).head?.all fun x => decide (P x)) = true) :
    ∀ k, k < n → ∀ x l, f k = x :: l → P x := by
  intro k hk x l hx
  have h2 := List.all_eq_true.mp h k (List.mem_range.mpr hk)
  rw [hx] at h2
  simpa using h2

theorem between_ok {P : Nat → Prop} [DecidablePred P] {m n : Nat} (h : ∀ k, k < n → P (m + k)) :
    ∀ x, m ≤ x → x < m + n → P x := by
  intro x h1 h2
  have h3 := h (x - m) (by omega)
  rwa [Nat.add_sub_cancel' h1] at h3

/-! ## Well-formedness: for each check of each command, a term that breaks it alone, and a term at the ends of its ranges -/

theorem test_refused_0 : ([
    .registerWrite (.sup 4) 0xFFFFFFFF 64 0xFFFFFFFFFFFFFFFF 2,
    .registerWrite .mgmt 0x100000000 64 0xFFFFFFFFFFFFFFFF 2,
    .registerWrite .mgmt 0xFFFFFFFF 65 0xFFFFFFFFFFFFFFFF 2,
    .registerWrite .mgmt 0xFFFFFFFF 64 0x10000000000000000 2,
    .registerWrite .mgmt 0xFFFFFFFF 64 0xFFFFFFFFFFFFFFFF 3, .setLock (.sup 4) 0xFFFFFFFF,
    .setLock .mgmt 0x100000000, .descriptorWrite (.sup 4) 2047 7 0xFFFFFFFF,
    .descriptorWrite .mgmt 2048 7 0xFFFFFFFF, .descriptorWrite .mgmt 2047 8 0xFFFFFFFF,
    .descriptorWrite .mgmt 2047 7 0x100000000, .validation (.sup 4) 2047 0xFFFFFFFF,
    .validation .mgmt 2048 0xFFFFFFFF, .validation .mgmt 2047 0x100000000, .validationComplete 2048,
    .removal (.sup 4) 2047 0xFFFFFFFF, .removal .mgmt 2048 0xFFFFFFFF, .removal .mgmt 2047 0x100000000,
    .removalComplete 2048, .capabilityRecompute 1536, .grantUpdate 8, .uopGo (.sup 4) 0xFFFFFFFF,
    .uopGo .mgmt 0x100000000, .pulse 192 0 0 0 0, .endOfOnTime 1536 0, .minimumOffTimeEnd 1536, .fastLimitTrip 1536,
    .blankEnd 1536, .tripWindow 192, .overTemp 1536 true true, .restore (.sup 4) 191 0xFFFFFFFF,
    .restore .mgmt 192 0xFFFFFFFF, .restore .mgmt 191 0x100000000,
    .balanceTrim 192, .crewOverload 192, .foldOffset 192, .overloadUnresolved 192, .testPulse 1536 0 0,
    .ditherSeed (.sup 4) 191 0xFFFFFFFF, .ditherSeed .mgmt 192 0xFFFFFFFF, .ditherSeed .mgmt 191 0x100000000,
    .abSampleLand 192 false 0 0, .abRead (some (.sup 4)) 191 false 64, .abRead (some .mgmt) 192 false 64,
    .abRead (some .mgmt) 191 false 65, .abFire (some (.sup 4)) 191 0xFFFFFFFF, .abFire (some .mgmt) 192 0xFFFFFFFF,
    .abFire (some .mgmt) 191 0x100000000, .abMode (.sup 4) 191 0xFFFFFFFF, .abMode .mgmt 192 0xFFFFFFFF,
    .abMode .mgmt 191 0x100000000, .modeChange 192, .hSlotEnd 192, .hResult 192 0,
    .urgentRequest 192 false false, .hMode (.sup 4) 191 0xFFFFFFFF, .hMode .mgmt 192 0xFFFFFFFF,
    .hMode .mgmt 191 0x100000000, .refSel (.sup 4) 191 0xFFFFFFFF] : List Instr).all (fun i => !wellFormed i) = true := by
  decide +kernel

theorem test_refused_1 : ([
    .refSel .mgmt 192 0xFFFFFFFF, .refSel .mgmt 191 0x100000000, .refSettled 192, .localOvervoltage 192 false,
    .confirm (some (.sup 4)) 191 0xFFFFFFFF, .confirm (some .mgmt) 192 0xFFFFFFFF, .confirm (some .mgmt) 191 0x100000000,
    .retry (.sup 4) 191 0xFFFFFFFF, .retry .mgmt 192 0xFFFFFFFF, .retry .mgmt 191 0x100000000, .pullEnd 192,
    .senseSwitch 192, .datapathUpdate 192, .updateCompletion 192 0, .missWindow 192,
    .resume (.sup 4) 191 0xFFFFFFFF, .resume .mgmt 192 0xFFFFFFFF, .resume .mgmt 191 0x100000000,
    .commit (.sup 4) 191 0xFFFFFFFF, .commit .mgmt 192 0xFFFFFFFF, .commit .mgmt 191 0x100000000, .commitCopy 192,
    .refStep 192, .droop 192 0 0, .droopRearm 192 0 0, .reservoirReady 192, .armedFiring 192, .overshootClamp 192 0 0,
    .clampOff 192 0 0, .clampWindow 192, .planeFloor 32, .coverExpiry 192, .ageSlack 96 0,
    .standWrite (.sup 4) 191 0xFFFFFFFF, .standWrite .mgmt 192 0xFFFFFFFF, .standWrite .mgmt 191 0x100000000,
    .sheddingEnd 192, .crewCalibrationEnd 192 0 0 [], .rejoin (.sup 4) 191 0xFFFFFFFF, .rejoin .mgmt 192 0xFFFFFFFF,
    .rejoin .mgmt 191 0x100000000, .derate 32, .softStartAbort 192 0 0, .powerOnRetry 32,
    .unlock (.sup 4) 191 0xFFFFFFFF, .unlock .mgmt 192 0xFFFFFFFF, .unlock .mgmt 191 0x100000000,
    .vminRearm (.sup 4) 191 0xFFFFFFFF, .vminRearm .mgmt 192 0xFFFFFFFF, .vminRearm .mgmt 191 0x100000000,
    .dieRearm (.sup 4) 0xFFFFFFFF, .dieRearm .mgmt 0x100000000, .forecastWrite 9216 63 [] 0,
    .forecastWrite 9215 64 [] 0, .intake 8, .fcwCfgWrite (.sup 4) 63 0xFFFFFFFF, .fcwCfgWrite .mgmt 64 0xFFFFFFFF,
    .fcwCfgWrite .mgmt 63 0x100000000, .ringRelease (.sup 4) 63 0xFFFFFFFF, .ringRelease .mgmt 64 0xFFFFFFFF] : List Instr).all (fun i => !wellFormed i) = true := by
  decide +kernel

theorem test_refused_2 : ([
    .ringRelease .mgmt 63 0x100000000, .startRequest 9216 7, .startRequest 9215 8, .heatOpen 8, .heatGrant 8,
    .startStalled 8, .stretch 24, .realignment 24, .start (.sup 4) 7 0xFFFFFFFF, .start .mgmt 8 0xFFFFFFFF,
    .start .mgmt 7 0x100000000, .stop (.sup 4) 7 0xFFFFFFFF, .stop .mgmt 8 0xFFFFFFFF, .stop .mgmt 7 0x100000000,
    .unload (.sup 4) 7 0xFFFFFFFF, .unload .mgmt 8 0xFFFFFFFF, .unload .mgmt 7 0x100000000, .watchdog 8,
    .waitEnd 12, .nop 12, .halt 12, .yield 12, .br 12, .brc 12, .call 12, .ret 12, .loop 12, .movi 12, .mov 12,
    .add 12, .sub 12, .mulq 12, .shr 12, .shl 12, .and 12, .or 12, .cmp 12, .min 12, .max 12, .clamp 12, .setv 12,
    .setvr 12, .ramp 12, .lls 12, .gsel 12, .arm 12, .stand 12, .pwron 12, .pwroff 12, .rdt 12, .waitt 12,
    .waitm 12, .waits 12, .waita 12, .barl 12, .barx 12, .markq 12, .waite 12, .wopen 12, .wclose 12] : List Instr).all (fun i => !wellFormed i) = true := by
  decide +kernel

theorem test_refused_3 : ([
    .fcst 12, .heat 12, .capq 12, .slack 12, .evt 12, .ld 7, .ld 12, .st 7, .st 12, .aadd 7, .aadd 12, .swap 7,
    .swap 12, .accessComplete 7 2, .accessComplete 12 2, .accessComplete 8 3, .grant 7, .grant 12, .loadp 7,
    .loadp 12, .signal 7, .signal 12, .fwLoad (.sup 4) 0xFFFFFFFF, .fwLoad .mgmt 0x100000000,
    .estSrc (.sup 4) 0xFFFFFFFF, .estSrc .mgmt 0x100000000, .sensorSample 960 0, .biasCheck 960 0, .stale 960,
    .graceEnd 24, .enforcementStep 24, .thermalCeilingStep 32, .throttleEnd 24,
    .substitution (.sup 4) 959 0xFFFFFFFF, .substitution .mgmt 960 0xFFFFFFFF, .substitution .mgmt 959 0x100000000,
    .retest (.sup 4) 959 0xFFFFFFFF, .retest .mgmt 960 0xFFFFFFFF, .retest .mgmt 959 0x100000000,
    .planeDischarged 32, .report [], .regattaGrant [], .join [], .done [], .notice [], .noticeAll [],
    .faultShutdown 32, .fc2Clear (.sup 4) 0xFFFFFFFF, .fc2Clear .mgmt 0x100000000, .fc2ClearAll (.sup 4) 0xFFFFFFFF,
    .fc2ClearAll .mgmt 0x100000000, .alertClear (.sup 4) 0xFFFFFFFF, .alertClear .mgmt 0x100000000,
    .injection (.sup 4) 0xFFFFFFFF, .injection .mgmt 0x100000000, .snapshotReq (.sup 4) 0xFFFFFFFF,
    .snapshotReq .mgmt 0x100000000, .histClr (.sup 4) 0xFFFFFFFF, .histClr .mgmt 0x100000000,
    .histClear (.sup 4) 191 0xFFFFFFFF] : List Instr).all (fun i => !wellFormed i) = true := by
  decide +kernel

theorem test_refused_4 : ([
    .histClear .mgmt 192 0xFFFFFFFF, .histClear .mgmt 191 0x100000000, .calAll (.sup 4) 0xFFFFFFFF,
    .calAll .mgmt 0x100000000, .calOne (.sup 4) 0xFFFFFFFF, .calOne .mgmt 0x100000000,
    .deliveryCalibrationEnd 192 [] 0, .vmaxRearm (.sup 4) 191 0xFFFFFFFF, .vmaxRearm .mgmt 192 0xFFFFFFFF,
    .vmaxRearm .mgmt 191 0x100000000, .captureArm (.sup 4) 3 0xFFFFFFFF, .captureArm .mgmt 4 0xFFFFFFFF,
    .captureArm .mgmt 3 0x100000000, .captureStop (.sup 4) 3 0xFFFFFFFF, .captureStop .mgmt 4 0xFFFFFFFF,
    .captureStop .mgmt 3 0x100000000, .captureFire (.sup 4) 3 0xFFFFFFFF, .captureFire .mgmt 4 0xFFFFFFFF,
    .captureFire .mgmt 3 0x100000000, .captureTrigger 4, .captureBlock 4, .capturePage 4,
    .recWin7Read (.sup 4) 64, .recWin7Read .mgmt 65, .scrub 12 2, .scrub 11 3, .marchGo (.sup 4) 0xFFFFFFFF,
    .marchGo .mgmt 0x100000000, .post (.sup 4) 15 0xFFFFFFFF, .post .mgmt 16 0xFFFFFFFF, .post .mgmt 15 0x100000000,
    .take (.sup 4) 15 0xFFFFFFFF, .take .mgmt 16 0xFFFFFFFF, .take .mgmt 15 0x100000000,
    .mailboxDone (.sup 4) 15 0xFFFFFFFF, .mailboxDone .mgmt 16 0xFFFFFFFF, .mailboxDone .mgmt 15 0x100000000,
    .release (.sup 4) 15 0xFFFFFFFF, .release .mgmt 16 0xFFFFFFFF, .release .mgmt 15 0x100000000,
    .fsEn (.sup 4) 0xFFFFFFFF, .fsEn .mgmt 0x100000000, .hostRun (.sup 4) 0xFFFFFFFF, .hostRun .mgmt 0x100000000,
    .full (.sup 4) 0xFFFFFFFF bin, .full .mgmt 0x100000000 bin, .engine (.sup 4) 0xFFFFFFFF,
    .engine .mgmt 0x100000000, .shutdown (.sup 4) 0xFFFFFFFF, .shutdown .mgmt 0x100000000,
    .read (.sup 4) 0xFFFFFFFF, .read .mgmt 0x100000000, .program (.sup 4) 0xFFFFFFFF, .program .mgmt 0x100000000,
    .erase4Kib (.sup 4) 0xFFFFFFFF, .erase4Kib .mgmt 0x100000000, .erase64Kib (.sup 4) 0xFFFFFFFF,
    .erase64Kib .mgmt 0x100000000, .dbg false 0x100000000 0xFFFFFFFF 2, .dbg false 0xFFFFFFFF 0x100000000 2] : List Instr).all (fun i => !wellFormed i) = true := by
  decide +kernel

theorem test_refused_5 : ([
    .dbg false 0xFFFFFFFF 0xFFFFFFFF 3, .fsAnswer 16 false false false 0 0 0 0, .frameTimeout 16,
    .vibSet (.sup 4) 0xFFFFFFFF, .vibSet .mgmt 0x100000000, .registerRead (.sup 4) 0xFFFFFFFF 64 2,
    .registerRead .mgmt 0x100000000 64 2, .registerRead .mgmt 0xFFFFFFFF 65 2, .registerRead .mgmt 0xFFFFFFFF 64 3,
    .phaseCurrentReachesZero 1536, .unsupportedCommand 256 false 0 true] : List Instr).all (fun i => !wellFormed i) = true := by
  decide +kernel

theorem test_accepted_0 : ([
    .registerWrite .mgmt 0xFFFFFFFF 64 0xFFFFFFFFFFFFFFFF 2, .setLock .mgmt 0xFFFFFFFF,
    .descriptorWrite .mgmt 2047 7 0xFFFFFFFF, .validation .mgmt 2047 0xFFFFFFFF, .validationComplete 2047,
    .removal .mgmt 2047 0xFFFFFFFF, .removalComplete 2047, .capabilityRecompute 1535, .grantUpdate 7,
    .uopGo .mgmt 0xFFFFFFFF, .uopIssue, .pulse 191 0 0 0 0, .endOfOnTime 1535 0, .minimumOffTimeEnd 1535,
    .fastLimitTrip 1535, .blankEnd 1535, .tripWindow 191, .overTemp 1535 true true, .restore .mgmt 191 0xFFFFFFFF,
    .balanceTrim 191, .crewOverload 191, .foldOffset 191, .overloadUnresolved 191, .testPulse 1535 0 0,
    .ditherSeed .mgmt 191 0xFFFFFFFF, .abSampleLand 191 false 0 0, .abRead (some .mgmt) 191 false 64,
    .abFire (some .mgmt) 191 0xFFFFFFFF, .abMode .mgmt 191 0xFFFFFFFF, .modeChange 191, .hSlotEnd 191,
    .hResult 191 0, .urgentRequest 191 false false, .hMode .mgmt 191 0xFFFFFFFF, .refSel .mgmt 191 0xFFFFFFFF,
    .refSettled 191, .localOvervoltage 191 false, .confirm (some .mgmt) 191 0xFFFFFFFF, .retry .mgmt 191 0xFFFFFFFF,
    .pullEnd 191, .senseSwitch 191, .datapathUpdate 191, .updateCompletion 191 0, .missWindow 191,
    .resume .mgmt 191 0xFFFFFFFF, .commit .mgmt 191 0xFFFFFFFF, .commitCopy 191, .setpointCommand, .refStep 191,
    .llsDelivery, .gselDelivery, .sharingPass, .trimTake, .droop 191 0 0, .droopRearm 191 0 0, .reservoirReady 191,
    .armDelivery, .armedFiring 191, .overshootClamp 191 0 0, .clampOff 191 0 0] : List Instr).all wellFormed = true := by
  decide +kernel

theorem test_accepted_1 : ([
    .clampWindow 191, .planeFloor 31, .coverDelivery, .coverExpiry 191, .ageSlack 95 0,
    .standWrite .mgmt 191 0xFFFFFFFF, .standDelivery, .sheddingEnd 191, .crewCalibrationEnd 191 0 0 [],
    .rejoin .mgmt 191 0xFFFFFFFF, .derate 31, .pwronDelivery, .queueReevaluation, .softStartAbort 191 0 0,
    .powerOnRetry 31, .unlock .mgmt 191 0xFFFFFFFF, .pwroffDelivery, .vminRearm .mgmt 191 0xFFFFFFFF,
    .dieRearm .mgmt 0xFFFFFFFF, .forecastWrite 9215 63 [] 0, .intake 7, .arrival, .creditReturn,
    .fcwCfgWrite .mgmt 63 0xFFFFFFFF, .ringRelease .mgmt 63 0xFFFFFFFF, .startRequest 9215 7, .heatOpen 7,
    .heatGrant 7, .startStalled 7, .stretch 23, .realignment 23, .start .mgmt 7 0xFFFFFFFF,
    .stop .mgmt 7 0xFFFFFFFF, .unload .mgmt 7 0xFFFFFFFF, .watchdog 7, .waitEnd 11, .loadComplete, .nop 11,
    .halt 11, .yield 11, .br 11, .brc 11, .call 11, .ret 11, .loop 11, .movi 11, .mov 11, .add 11, .sub 11,
    .mulq 11, .shr 11, .shl 11, .and 11, .or 11, .cmp 11, .min 11, .max 11, .clamp 11, .setv 11, .setvr 11] : List Instr).all wellFormed = true := by
  decide +kernel

theorem test_accepted_2 : ([
    .ramp 11, .lls 11, .gsel 11, .arm 11, .stand 11, .pwron 11, .pwroff 11, .rdt 11, .rdtResult, .waitt 11,
    .waitm 11, .waits 11, .waita 11, .barl 11, .barx 11, .markq 11, .waite 11, .wopen 11, .wclose 11, .fcst 11,
    .heat 11, .capq 11, .slack 11, .evt 11, .ld 8, .st 8, .aadd 8, .swap 8, .accessComplete 8 2, .grant 8, .loadp 8,
    .signal 8, .estimatorUpdate [], .fwLoad .mgmt 0xFFFFFFFF, .modelCheckComplete, .estSrc .mgmt 0xFFFFFFFF,
    .sensorSample 959 0, .biasCheck 959 0, .stale 959, .graceEnd 23, .enforcementStep 23,
    .thermalCeilingStep 31, .throttleEnd 23, .substitution .mgmt 959 0xFFFFFFFF, .retest .mgmt 959 0xFFFFFFFF,
    .coolantDebounce, .domainShutdown, .stopAtCrews, .planeDischarged 31, .logRecord false, .reportPeriod,
    .report (List.replicate 16 0), .regattaGrant (List.replicate 16 0), .join (List.replicate 16 0),
    .done (List.replicate 16 0), .notice (List.replicate 16 0), .noticeAll (List.replicate 16 0), .classification,
    .faultShutdown 31, .fc2Clear .mgmt 0xFFFFFFFF] : List Instr).all wellFormed = true := by
  decide +kernel

theorem test_accepted_3 : ([
    .fc2ClearAll .mgmt 0xFFFFFFFF, .alertClear .mgmt 0xFFFFFFFF, .selfFault false, .injection .mgmt 0xFFFFFFFF,
    .markStrobe, .markBegin [], .snapshotComplete [], .snapshotReq .mgmt 0xFFFFFFFF, .snapshotCopy,
    .histClr .mgmt 0xFFFFFFFF, .histClear .mgmt 191 0xFFFFFFFF, .calAll .mgmt 0xFFFFFFFF, .calOne .mgmt 0xFFFFFFFF,
    .deliveryCalibrationEnd 191 [] 0, .vmaxRearm .mgmt 191 0xFFFFFFFF, .captureArm .mgmt 3 0xFFFFFFFF,
    .captureStop .mgmt 3 0xFFFFFFFF, .captureFire .mgmt 3 0xFFFFFFFF, .captureTrigger 3,
    .captureBlock 3, .capturePage 3, .recWin7Read .mgmt 64, .scrub 11 2,
    .marchGo .mgmt 0xFFFFFFFF, .marchComplete none 0, .safetyCrcCheck, .post .mgmt 15 0xFFFFFFFF,
    .take .mgmt 15 0xFFFFFFFF, .mailboxDone .mgmt 15 0xFFFFFFFF, .release .mgmt 15 0xFFFFFFFF, .recoverBoot,
    .recoveryReport, .powerOn [] [] bin, .pwrEnDebounce, .fsEn .mgmt 0xFFFFFFFF, .vibGood, .vibStartFailed,
    .hostRun .mgmt 0xFFFFFFFF, .xcalReq, .xcalDone, .xcalFail, .xcalTimeout, .full .mgmt 0xFFFFFFFF bin,
    .engine .mgmt 0xFFFFFFFF, .shutdown .mgmt 0xFFFFFFFF, .sdWait, .standbySupplyLost, .vaonLoss,
    .page false 0 false, .clearFaults false, .writeProtect false false, .capability true true, .voutMode true true,
    .voutCommand false 0 false, .statusByte true true, .statusWord true true, .statusVout true true, .statusIout true true, .statusTemperature true true, .statusCml true true] : List Instr).all wellFormed = true := by
  decide +kernel

theorem test_accepted_4 : ([
    .readVin true true, .readVout true true, .readIout true true, .readTemperature1 true true, .readPout true true, .pmbusRevision true true, .mfrId true true, .mfrModel true true,
    .unsupportedCommand 255 false 0 true, .alertResponse, .read .mgmt 0xFFFFFFFF, .program .mgmt 0xFFFFFFFF,
    .erase4Kib .mgmt 0xFFFFFFFF, .erase64Kib .mgmt 0xFFFFFFFF, .flashOperationEnd 0, .extest 0, .samplePreload 0 0,
    .jtagClamp, .highz, .dbg false 0xFFFFFFFF 0xFFFFFFFF 2, .idcode, .bypass, .trst false, .poll,
    .fsAnswer 15 false false false 0 0 0 0, .frameTimeout 15, .vibSet .mgmt 0xFFFFFFFF, .vibLost, .noticeSend,
    .registerRead .mgmt 0xFFFFFFFF 64 2, .phaseCurrentReachesZero 1535, .pwrEnPinChange false,
    .coolantOkPinChange false, .fc3LatchClear, .ringSectorErase] : List Instr).all wellFormed = true := by
  decide +kernel

/-! ## Values that the spec works out -/

/-- The next state of an outcome. -/
def nxt (o : Out) : State := match o with | .next t => t | _ => {}

theorem nxt_ok {o : Out} (h : (match o with | .next _ => true | _ => false) = true) : o = .next (nxt o) := by
  cases o <;> simp_all [nxt]

/-- Crews of a list ON and regulating. -/
def regL (l : List Nat) (s : State) : State :=
  forAll l (fun s c => (s.setCst c 3).onCrew c (fun k => { k with reg := true })) s

/-- Eight phases of each crew of a list READY. -/
def readyL (l : List Nat) (s : State) : State :=
  forAll l (fun s c => forAll (List.range 8) (fun s k => s.setPhase (8 * c + k) { st := .ready }) s) s

/-- A 32-bit write by the management port. -/
def pw (a v : Nat) (s : State) : State := nxt (execRegisterWrite .mgmt a 4 v 0 s)

/-- R36: CREW[93] lies on PLANE[VMA.F3], unit 0x6CD, in region F3.CM; R18: its block starts at 0x0015D000. -/
theorem test_crew_indices : planeOf 93 = 13 ∧ planeUnit 13 = 0x6CD ∧ (planeCrews 13) = [90, 91, 92, 93] ∧
    (up.get DESC_W3.CONT_RATING 0x6CD) = 896 ∧ placeAt 0x15D014 = .reg .CREW_FSC_CTL 93 := by
  decide +kernel

/-- R45's example: the entry of group 0x700 with CREW[72] and CREW[93]. -/
def groupUp : State :=
  let w (a v : Nat) (s : State) : State :=
    nxt (execDescriptorWrite (.sup 0) ((a - 0x900000) / 32) (a / 4 % 8) v s)
  let s := w (0x900000 + 0x700 * 32 + 4) 0x80002000 (w (0x900000 + 0x700 * 32 + 8) 0x1000 (up.wr 4 0x401000 0x065D0648))
  nxt (execValidationComplete 0x700 (nxt (execValidation (.sup 0) 0x700 0x68000000 s)))

/-- R45's example: what validation writes. -/
theorem test_group_entry : groupUp.get DESC_W6.STATUS 0x700 = 0 ∧ groupUp.get DESC_W7.DEPTH 0x700 = 2 ∧
    groupUp.get DESC_W4.VMIN_CODE 0x700 = 800 ∧ groupUp.get DESC_W4.VMAX_CODE 0x700 = 1200 ∧
    groupUp.get DESC_W3.CONT_RATING 0x700 = 448 ∧ groupUp.get DESC_W3.PEAK_RATING 0x700 = 640 ∧
    groupUp.get DESC_W5.ACTIVE_PHASES 0x700 = 16 ∧ groupUp.get DESC_W5.DOMAIN_MASK 0x700 = 3 ∧
    groupUp.get DESC_W5.FIELD_MASK 0x700 = 8 ∧ groupUp.get DESC_W5.REGION 0x700 = 3 := by
  decide +kernel

/-- R45's example: the members' references rise, and a group of the plane and group 0x700 fails with 0x12. -/
theorem test_group_refs : groupUp.get DESC_W7.GROUP_REFS 0x648 = 1 ∧ groupUp.get DESC_W7.GROUP_REFS 0x65D = 1 ∧
    groupUp.groupCode [0x6CC, 0x700] = 0x12 := by
  decide +kernel

/-- R50's example: the host sets PLANE[VLG.F3]; the operation is queued. -/
def uopUp : State :=
  nxt (execUopGo .mgmt (ID_UOP_CTL.GO.inWord 0 1) (pw (Reg.ID_UOP_HI.addr 0) 0x2006CC00 (pw (Reg.ID_UOP_LO.addr 0) 0x35219000 up)))

/-- R50's example: RESULT and BUSY, then the operation to the 18 crews. -/
theorem test_uop : uopUp.get ID_UOP_STAT.RESULT 0 = 1 ∧ uopUp.get ID_UOP_STAT.BUSY 0 = 1 ∧
    (nxt (execUopIssue uopUp)).get ID_UOP_STAT.BUSY 0 = 0 ∧
    (nxt (execUopIssue uopUp)).flight.map (fun o => (o.kind, o.crews)) =
      [(.setp 850 400 false, (List.range 18).map (72 + ·))] := by
  decide +kernel

/-- R59's example: T_ON of a VLG crew is 2.142 ns. -/
theorem test_on_time : OnTerms.onTime { kOn := 914, vref := 7200000, vib := 24000000 } = 1371 / 640 := by
  decide +kernel

/-- R64's example: the ring of CREW[72] before the load step. -/
def ringUp : State := ((onCrewSt 72).put CREW_RING_STAT.POINTER 72 6).put CREW_RING_STAT.STROKE 72 7

/-- n pulses of CREW[72] at minimum spacing with an overdrive of 9 mV: the phase that each takes, and STEP_EVENT. -/
def ringRun : Nat → State → List (List Nat × Nat)
  | 0, _ => []
  | n + 1, s =>
    let t := pulse 72 9000 0 500 24000000 s
    let l := (List.range 8).filter (fun k => (t.phase (576 + k)).st == .on)
    (l, t.get CREW_RING_STAT.STEP_EVENT 72) ::
      ringRun n (forAll l (fun t k => t.setPhase (576 + k) { t.phase (576 + k) with st := .offMin }) t)

/-- "Firing ring over a load step": the stroke pulse is phase 7's, the next go round the ring, and the third pulse at
minimum spacing begins the step event. -/
theorem test_ring :
    ringRun 8 ringUp = [([7], 0), ([0], 0), ([1], 1), ([2], 1), ([3], 1), ([4], 1), ([5], 1), ([6], 1)] := by
  decide +kernel

/-- R120 and the example "One update on CREW[72]": the error. -/
theorem test_error :
    ((((up.put CREW_DP_LLS.LLS 72 100).putI CREW_DP_IFILT.I_F 72 61100).put CREW_SP_REF.REF 72 7200000).putI
      CREW_DP_TRIM.TRIM 72 1).errorOf 72 (-32) = -16384 := by
  decide +kernel

/-- "One update on CREW[72]": the notch output, the filtered difference and the output of region 2. -/
theorem test_update :
    let r := lawStep (up.coef 72 2) ⟨-15360, -14080, -14944, -13824, -2560, 480 * 4294967296, 0, 0⟩ (-16384) 0 false
    r.2 = 413 ∧ r.1.w1 = -16338 ∧ r.1.d1 = -4068 ∧ r.1.iacc = 2048735576064 := by
  decide +kernel

/-- R131's example: the transfer to region 3 keeps the output and sets IACC to 477.04 VU. -/
theorem test_transfer :
    let r := (lawStep (up.coef 72 2) ⟨-15360, -14080, -14944, -13824, -2560, 480 * 4294967296, 0, 0⟩ (-16384) 0 false).1
    (lawStep (up.coef 72 3) { r with w2 := r.w1 } (-16384) 0 true).2 = 413 ∧ (up.coef 72 3).kp = (14680064, 0) := by
  decide +kernel

/-- R144's example: PLANE[VMA.F3] with 380 A, and six active phases at CREW[91]. -/
def shareUp : State :=
  forAll (planeCrews 13)
    (fun s c => ((s.put CREW_DP_LLS.LLS c 100).putI CREW_DP_IFILT.I_F c (if c = 91 then 79000 else 100300)).onCrew c
      (fun k => { k with ifValid := true }))
    (forAll [6, 7] (fun s k => s.setPhase (728 + k) { st := .fused }) (readyL (planeCrews 13) (regL (planeCrews 13) up)))

/-- R144's example: one LSB down at CREW[91], no trim elsewhere. -/
theorem test_sharing :
    (planeCrews 13).map (fun c => (nxt (execTrimTake (sharePlane shareUp 13))).getI CREW_DP_TRIM.TRIM c) = [0, -1, 0, 0] := by
  decide +kernel

/-- R159's example: PLANE[VLG.F3] with the margin registers of its crews. -/
def marginUp : State :=
  ((forAll (planeCrews 12)
      (fun s c => (s.put CREW_GB_CTL.HMIN c (if c < 81 then 730 else 740)).put CREW_DP_LLS.LLS c 100)
      (regL (planeCrews 12) up)).putI CAP_MON_AGE_TRIM.TRIM 9 (-1)).put CAP_MON_AGE_CTL.VALID 0 0xFFFFFF

/-- Covers of a coming end at some crews of the plane. -/
def covered (f : Nat → Bool) (s : State) : State :=
  forAll ((planeCrews 12).filter f) (fun s c => coverCrew c none (some 1000000) s) s

/-- R159's example: the plane's floor without covers, with covers of all crews, and with covers of the CW crews. -/
theorem test_margin_floor : marginUp.planeFloor 12 = 843 ∧ (covered (fun _ => true) marginUp).planeFloor 12 = 793 ∧
    (covered (fun c => decide (c < 81)) marginUp).planeFloor 12 = 843 := by
  decide +kernel

/-- R174's example: the predicted current of PLANE[VLG.F5] is 76.2 A. -/
theorem test_predicted :
    ((((forAll (planeCrews 20)
      (fun s c => ((s.put CREW_SP_STAT.TARGET c 840).put CREW_PWR_CTL.IDLE c 12).onCrew c
        (fun k => { k with hHeld := [(9, (2458, 0, 4))] })) up).predicted 20).getD 0) * 10).floor = 762 := by
  decide +kernel

/-- R180's example: tile 3,456 uses port 48 and lies in region F3.CW; 8,000 cycles at 500 ps are 500 ticks, 667 at rate
12, and 40,000 cycles are 2,500. -/
theorem test_forecast_times : tilePort 3456 = 48 ∧ tileRegion 0xD80 = 9 ∧ cyclesToTicks 8000 500 16 = 500 ∧
    cyclesToTicks 8000 500 12 = 667 ∧ cyclesToTicks 0x9C40 500 16 = 2500 := by
  decide +kernel

/-- R197's example: a heat admits 134 requests of 1.2 A. -/
theorem test_heat : heatTake 1600 (List.replicate 200 ⟨1, 6, 0, 0⟩) 0 = 134 := by
  decide +kernel

/-- R290's example: the class allocations of 13,800 W. -/
theorem test_allocation :
    ((({ up with capDem := [(0, 9200000), (1, 2400000), (2, 700000), (3, 900000), (12, 1400000)] } : State).allocate
      13800000).1.map fun e => (e.1, e.2.floor)) = [(0, 9800000), (1, 2400000), (2, 700000), (3, 900000)] := by
  decide +kernel

/-- R290's example: the allowance of PLANE[VLG.F3] is 1,294 W. -/
theorem test_allowance :
    (({ up with capDem := [(0, 9200000), (1, 2400000), (2, 700000), (3, 900000), (12, 1400000)] } : State).allowance
      [(0, 9800000), (1, 2400000), (2, 700000), (3, 900000)] 12).floor = 1294000 := by
  decide +kernel

/-- "Pool division for four members": the fill words of the bands. -/
theorem test_division : (divide 40000 { pmin := 20000, want := [7500, 0, 7100, 0, 0, 6000, 0, 4900], spare := 4500 }).1 =
    [65535, 65535, 65535, 65535, 65535, 58981, 65535, 0] := by
  decide +kernel

/-- The published check value of the CRC-8 of SMBus: the digits 1 to 9 give 0xF4. -/
theorem test_pec : crc8 [0x31, 0x32, 0x33, 0x34, 0x35, 0x36, 0x37, 0x38, 0x39] = 0xF4 := by
  decide +kernel

/-- R467's example: READ_IOUT of 1,100 A and READ_VOUT of 0.7215 V. -/
theorem test_pmbus_formats : linear11 1100 = 0x0A26 ∧ ulinear16 7215000 = 0x0B8B := by
  decide +kernel

/-- R495's example, with LOCK set. -/
def lockUp : State := { up.put ID_LOCK.LOCK 0 1 with now := 5 }

/-- R495's example: LIMIT stays, BLANK becomes 2, and the violation is recorded. -/
theorem test_lock :
    let t := nxt (execRegisterWrite (.sup 0) 0x15D014 4 0x8232 0 lockUp)
    t.regWord .CREW_FSC_CTL 93 = 0x823C ∧ t.resp.err = false ∧ t.get ID_LOCK_VIOL.COUNT 0 = 1 ∧
      t.get ID_LOCK_VIOL.MASTER 0 = 0 ∧ t.get ID_LOCK_ADDR.ADDR 0 = 0x15D014 := by
  decide +kernel

/-- "Encoded instructions of lane L2": fields of four words of the stage program. -/
theorem test_instruction_words :
    ([0x3300052100 * 2 ^ 24 + 0x03D090, 0x0400008000000015, 0x2006CC0035532000, 0x3206CC20000009C4].map PWord.ofNat).map
      (fun w => (w.op, w.pred, w.unit, w.rd, w.rs, w.imm)) =
    [(0x33, 0, 0x005, 2, 1, 0x3D090), (0x04, 0, 0, 8, 0, 0x15), (0x20, 0, 0x6CC, 0, 0, 0x35532000),
      (0x32, 0, 0x6CC, 2, 0, 0x9C4)] := by
  decide +kernel

/-- R256's example: MULQ of 1,000 by 0x6000 >> 14 is 1,500. -/
theorem test_mulq :
    (nxt (execMulq 0 (regv 0 [(2, 1000)] (run 0 (wd 0x14 0 3 2 0x60000E))))).vreg 0 3 = 1500 := by
  decide +kernel

/-- The table gives its rows no bits, so no word spells a command. -/
theorem test_decode : decodeTableWord 32 0 = none ∧ (up.withFetchWord 32 0).pending = up.pending := by
  decide +kernel

/-- An empty queue: time goes on by one coordinator cycle. -/
theorem test_idle : (nxt (step State.reset)).now = State.reset.now + 1 := by
  decide +kernel

/-- A queued command runs first, with the queue's rest. -/
theorem test_front : (nxt (step { up with pending := [.capability true true, .voutMode true true] })).pending = [.voutMode true true] := by
  decide +kernel

/-- R21, R362: a clear of ALERT_PEND in the cycle that sets it leaves it set, and one a cycle later clears it. -/
theorem test_same_cycle :
    let s := (idleCycle up).setOver FLT_STAT.ALERT_PEND 0
    let clear := fun s => (nxt (execAlertClear .mgmt (FLT_STAT.ALERT_PEND.inWord 0 1) s)).get FLT_STAT.ALERT_PEND 0
    clear s = 1 ∧ clear (idleCycle s) = 0 := by
  decide +kernel

/-- R82, R83: a restore in the tick of a strike is not requested, and one in a later tick is accepted. -/
theorem test_same_tick :
    let s := strike 3 2 1 (idleCycle (onCrewSt 3))
    restoreResult s.tickView 3 2 = 0 ∧ restoreResult (passCycles 4 s).tickView 3 2 = 1 := by
  decide +kernel

/-! ## An image that passes the firmware check (R430, R431), signed outside with the key 0x1234567 on P-384 -/

/-- 48 big-endian bytes. -/
def be48 (v : Nat) : List Byte := (leBytes 48 v).reverse

/-- The public key. -/
def fwKey : List Byte :=
  be48 0x7ae9e1db1160794c70c1ef071be5191f6c66240f4608fbe8a44ecd36c3ed5db97500f2e4d84e3fb45850fd6f4303302b ++
  be48 0xd8ac21444cd80d241538d8034b399a0dee3636eb5cb00b9499d061a571db0f14bb47ed79453948ed63f3a6ccbbf6e74f

/-- The signature of the image's header and body. -/
def fwSig : List Byte :=
  be48 0x8568a35a879b0d506132993c6d911d3136a731409ab8c5d26fd7a01e81425281453a6c6adf4cd2f38c77a5042815ea48 ++
  be48 0x7e996c81958f8d3ac0acb24100ee66ec89faf3bfed8dd2a8527f0b2946d02c363d8ecd351b446324ee631dc98e26d586

/-- SHA-384 of the key, as the fuses hold it. -/
def fwHash : List Nat := [73, 56, 179, 9, 239, 202, 14, 80, 202, 185, 249, 73, 171, 132, 157, 4, 92, 90, 103, 106, 192, 22, 54, 144] ++
  [171, 130, 42, 122, 78, 25, 217, 6, 80, 121, 44, 41, 53, 60, 91, 244, 70, 31, 51, 20, 149, 99, 2, 112]

/-- SHA-384 of the signed bytes. -/
def fwDigest : Nat :=
  0x425a901eb092cff4353c63b2359156b1d76125e588e3440328e8d5babb7988dc23dc7a771a7de6c86aef709a32178c5f

/-- The image: code of eight bytes, no data, SVN 3, start mask 1. -/
def fwImg : List Byte := [0x4657494D, 0x02000001, 3, 8, 0, 0x400000, 0, 0, 0, 0, 1, 0x208].flatMap (wle 4) ++
  fwKey ++ fwSig ++ List.replicate 0x110 0#8 ++ [1, 2, 3, 4, 5, 6, 7, 8]

/-- Its bytes in coordinator memory. -/
def fwMem : List Host.Cell :=
  ((List.range 0x208).zip fwImg).filterMap fun e => if e.2 = 0#8 then none else some (0x400000 + e.1, e.2)

/-- Recovery, with the command that names the image posted in slot 0 (R433). -/
def fwSt : State :=
  {(State.put {} ID_FW_STAT.MODE 0 2 |>.put ID_MBX_CTL.STATE 0 1 |>.put ID_MBX_DATA.DATA 0 0x0100
    |>.put ID_MBX_DATA.DATA 1 0x400000 |>.put ID_MBX_DATA.DATA 2 0x208) with mem := fwMem, keyHash := fwHash}

theorem fw_key : (sha384 fwKey).map (·.toNat) = fwHash := by decide +kernel

theorem fw_digest : sha384 (fwImg.take 0x90 ++ fwImg.drop 0xF0) = be48 fwDigest := by decide +kernel

set_option maxHeartbeats 4000000 in
theorem fw_signature : ecdsaVerifies fwKey fwSig (be48 fwDigest) = true := by decide +kernel

theorem fw_parts : fwBadFormat (fun x => mget 0 fwMem (0x400000 + x)) 0x208 = false ∧
    imgBytes (fun x => mget 0 fwMem (0x400000 + x)) 0x30 96 = fwKey ∧
    imgBytes (fun x => mget 0 fwMem (0x400000 + x)) 0x90 96 = fwSig ∧
    fwSigned (fun x => mget 0 fwMem (0x400000 + x)) = fwImg.take 0x90 ++ fwImg.drop 0xF0 := by
  decide +kernel

/-- The image passes. -/
theorem fw_passes : fwSt.fwCheck (fun x => mget 0 fwSt.mem (0x400000 + x)) 0x208 = 0 := by
  have h1 : imgVal (fun x => mget 0 fwMem (0x400000 + x)) 0 4 = 0x4657494D := by decide +kernel
  have h2 : ¬ imgVal (fun x => mget 0 fwMem (0x400000 + x)) 0x08 2 < fwSt.get ID_FW_SVN.SVN_MIN 0 := by decide +kernel
  have h3 : fwSt.keyHash = fwHash := by simp only [fwSt]
  have h4 : fwSt.mem = fwMem := by simp only [fwSt]
  rw [h4]
  unfold State.fwCheck
  rw [if_neg (by rw [h1]; decide), if_neg (by rw [fw_parts.1]; decide), if_neg (by rw [fw_parts.2.1, fw_key, h3]; decide),
    if_neg h2, fw_parts.2.1, fw_parts.2.2.1, fw_parts.2.2.2, fw_digest, fw_signature]
  rfl

/-! ## States and operands that meet the hypotheses of each statement, clause by clause -/

theorem witness_PhaseTimersAndTrips :
    (∃ (ph : Nat) (s : State), (s.phase ph).st = .offMin) ∧
    (∃ (ph : Nat) (s : State), (s.phase ph).st = .blanked) ∧
    (∃ (ph : Nat) (s : State), (s.phase ph).st ≠ .offMin ∧ (s.phase ph).testWait = true) ∧
    (∃ (ph : Nat) (rise : Nat) (s : State), (s.phase ph).testOn = true) ∧
    (∃ (ph : Nat) (s : State), (s.phase ph).st = .struck) ∧
    (∃ (ph : Nat) (s : State), (s.phase ph).st = .stopping) ∧
    (∃ (ph : Nat) (s : State), (s.phase ph).st = .on ∧
       (s.phase ph).winTrips + 1 < s.get CREW_FSC_CTL.TRIP_MAX (ph / 8)) ∧
    (∃ (ph : Nat) (s : State), (s.phase ph).st = .on ∧
       s.get CREW_FSC_CTL.TRIP_MAX (ph / 8) ≤ (s.phase ph).winTrips + 1) ∧
    (∃ (ph : Nat) (rise : Nat) (s : State), (s.phase ph).st = .on ∧ (s.phase ph).testOn = false ∧
       1 ≤ s.get CREW_DEAD_CTL.NC_MAX (ph / 8) ∧
       ¬ ((rise * 88000 : Nat) : Rat) < ((s.phase ph).terms.vib - (s.phase ph).terms.vref : Rat) * (s.phase ph).terms.onTime) ∧
    (∃ (ph : Nat) (live : Bool) (held : Bool) (s : State), (s.phase ph).st ≠ .fused ∧ (live && held) = false) ∧
    (∃ (ph : Nat) (s : State), inRing (s.phase ph) = true) :=
  ⟨
    ⟨5, up.setPhase 5 {st := .offMin}, by decide +kernel⟩,
    ⟨5, up.setPhase 5 {st := .blanked, inTest := true}, by decide +kernel⟩,
    ⟨9, (up.setCst 1 6).setPhase 9 {st := .test, testWait := true, inTest := true}, by decide +kernel⟩,
    ⟨9, 1000, (up.setCst 1 6).setPhase 9 {st := .on, testOn := true, inTest := true}, by decide +kernel⟩,
    ⟨9, up.setPhase 9 {st := .struck, lowSide := true}, by decide +kernel⟩,
    ⟨9, up.setPhase 9 {st := .stopping, lowSide := true}, by decide +kernel⟩,
    ⟨9, up.setPhase 9 {st := .on}, by decide +kernel⟩,
    ⟨9, (onCrewSt 1).setPhase 9 {st := .on, winTrips := 15}, by decide +kernel⟩,
    ⟨9, 5000000, up.setPhase 9 {st := .on, terms := {vib := 24000000, vref := 8000000, kOn := 914}},
       by decide +kernel⟩,
    ⟨9, true, false, (onCrewSt 1), by decide +kernel⟩,
    ⟨9, onCrewSt 1, by decide +kernel⟩⟩

theorem witness_PulseIssue :
    (∃ (c : Nat) (od : Nat) (dem : Nat) (gap : Nat) (vib : Nat) (s : State), gap < 125 * s.get CREW_RING_CTL.SPACING c) ∧
    (∃ (c : Nat) (od : Nat) (dem : Nat) (gap : Nat) (vib : Nat) (s : State), (s.crew c).reg = true ∧
       (s.crew c).ovInhibit = false ∧ s.tSp c ≤ gap ∧ gap < dem) ∧
    (∃ (c : Nat) (od : Nat) (dem : Nat) (gap : Nat) (vib : Nat) (s : State), dem ≤ gap ∧ gap < dem + s.firstDelay c) ∧
    (∃ (c : Nat) (od : Nat) (dem : Nat) (gap : Nat) (vib : Nat) (s : State), (s.crew c).reg = true ∧
       (s.crew c).ovInhibit = false ∧ max (dem + s.firstDelay c) (s.tSp c) ≤ gap ∧
       (∀ k, k < 8 → (s.phase (8 * c + k)).st ≠ .ready)) ∧
    (∃ (c : Nat) (od : Nat) (dem : Nat) (gap : Nat) (vib : Nat) (k : Nat) (s : State), (s.crew c).reg = true ∧
       (s.crew c).ovInhibit = false ∧ max (dem + s.firstDelay c) (s.tSp c) ≤ gap ∧
       (ringFrom (s.ringOf c) (if s.get CREW_RING_CTL.STROKE_OD c ≠ 0 ∧
         (s.get CREW_RING_CTL.STROKE_OD c + 1) * 1000 < od ∧
         s.flag CREW_RING_STAT.STEP_EVENT c = false then s.get CREW_RING_STAT.STROKE c else s.get CREW_RING_STAT.POINTER c)).find? (fun j => (s.phase (8 * c + j)).st == .ready) = some k) :=
  ⟨
    ⟨1, 0, 0, 0, 24000000, onCrewSt 1, by decide +kernel⟩,
    ⟨1, 0, 9000, 8999, 24000000, (onCrewSt 1).put CREW_RING_STAT.HOLD 1 1, by decide +kernel⟩,
    ⟨1, 0, 500, 500, 24000000,
       ((onCrewSt 1).onCrew 1 (fun k => {k with firstPulse := true})).put CREW_MOD_CTL.K_ON 1 914, by decide +kernel⟩,
    ⟨1, 0, 500, 1000, 24000000, (up.onCrew 1 (fun k => {k with reg := true})), by decide +kernel⟩,
    ⟨1, 0, 500, 1000, 24000000, 0, onCrewSt 1, by decide +kernel⟩⟩

theorem witness_RestoreOverloadAndTrims :
    (∃ (m : Master) (c : Nat) (data : Nat) (s : State), s.Takes m .CREW_PH_RESTORE c data) ∧
    (∃ (m : Master) (c : Nat) (data : Nat) (s : State), s.Takes m .CREW_DITHER_SEED c data) ∧
    (∃ (c : Nat) (s : State), (s.crew c).reg = true ∧ s.flag CREW_OVL_STAT.FOLD c = false ∧
       115 * s.foldRating c ≤ 100 * s.get CREW_OVL_FILT.FILT_MA c) ∧
    (∃ (c : Nat) (s : State), (s.crew c).reg = true ∧ s.cst c ≠ 4) ∧
    (∃ (c : Nat) (s : State), s.flag CREW_OVL_STAT.FLOOR c = true ∧ (s.foldLevel c : Int) < s.sumMa c) ∧
    (∃ (c : Nat) (s : State), s.flag CREW_MOD_CTL.BAL_EN c = true) ∧
    (∃ (ph : Nat) (vPlane : Nat) (vib : Nat) (s : State), s.cst (ph / 8) = 6 ∧ (s.crew (ph / 8)).calOw = 0 ∧
       ((s.phase ph).st = .idle ∨ ((s.phase ph).st = .test ∧ (s.phase ph).testOn = false ∧
         (s.phase ph).testWait = false))) :=
  ⟨
    ⟨.sup 0, 2, 0x3F,
       (((((onCrewSt 2).setPhase 16 {st := .struck}).setPhase 17 {st := .fused}).setPhase 18 {st := .struck, restoredAt := some 0}).setPhase 21 {st := .struck}),
       takes_ok (by decide +kernel)⟩,
    ⟨.mgmt, 3, 0, up, takes_ok (by decide +kernel)⟩,
    ⟨1, (onCrewSt 1).put CREW_OVL_FILT.FILT_MA 1 128800, by decide +kernel⟩,
    ⟨1, (onCrewSt 1).put CREW_OVL_STAT.FOLD 1 1, by decide +kernel⟩,
    ⟨1,
       ((((onCrewSt 1).put CREW_OVL_STAT.FLOOR 1 1).put CREW_OVL_STAT.FOLD 1 1).onCrew 1 (fun k => {k with hHeld := [(8, (32000, 0, 4))]})),
       by decide +kernel⟩,
    ⟨1, onCrewSt 1, by decide +kernel⟩,
    ⟨9, 8000000, 24000000, (up.setCst 1 6), by decide +kernel⟩⟩

theorem witness_SamplesAndModes :
    (∃ (c : Nat) (b : Bool) (raw : Int) (back : Nat) (s : State), s.abInput c b back = none) ∧
    (∃ (c : Nat) (b : Bool) (raw : Int) (back : Nat) (input : Nat) (s : State), s.abInput c b back = some input) ∧
    (∃ (m : Master) (c : Nat) (b : Bool) (s : State), s.Reads m .CREW_AB (abI c b)) ∧
    (∃ (m : Master) (c : Nat) (data : Nat) (s : State), s.Takes m .CREW_AB_TRIG c data ∧
       (∀ u, (s.crew c).lastTrig = some u → 2000 * s.now < u ∨ u + 8000 ≤ 2000 * s.now) ∧
       CREW_AB_TRIG.FIRE.ofWord data = 1 ∧ CREW_AB_TRIG.SRC.ofWord data = 2 ∧ s.flag CREW_AB_STAT.MODE_ACT c = true) ∧
    (∃ (m : Master) (c : Nat) (data : Nat) (u : Nat) (s : State), s.Takes m .CREW_AB_TRIG c data ∧
       CREW_AB_TRIG.FIRE.ofWord data = 1 ∧ CREW_AB_TRIG.SRC.ofWord data = 2 ∧ s.flag CREW_AB_STAT.MODE_ACT c = true ∧
       (s.crew c).lastTrig = some u ∧ u ≤ 2000 * s.now ∧ 2000 * s.now < u + 8000) ∧
    (∃ (c : Nat) (data : Nat) (s : State), (∀ u, (s.crew c).lastTrig = some u → 2000 * s.now < u ∨
      u + 8000 ≤ 2000 * s.now) ∧
       s.get CREW_AB_TRIG.SRC c = 3 ∧ s.flag CREW_AB_STAT.MODE_ACT c = true) ∧
    (∃ (m : Master) (c : Nat) (data : Nat) (s : State), s.Takes m .CREW_AB_CTL c data ∧
       CREW_AB_CTL.MODE.ofWord data ≠ s.get CREW_AB_STAT.MODE_ACT c ∧
       (CREW_AB_CTL.MODE.ofWord data = 0 ∨ s.simAllowed c = true)) ∧
    (∃ (m : Master) (c : Nat) (data : Nat) (s : State), s.Takes m .CREW_AB_CTL c data ∧ s.room ∧
       CREW_AB_CTL.MODE.ofWord data = 1 ∧ s.get CREW_AB_STAT.MODE_ACT c = 0 ∧ s.simAllowed c = false) ∧
    (∃ (c : Nat) (v : Nat) (s : State), (s.crew c).modeReq = some v) ∧
    (∃ (m : Master) (c : Nat) (data : Nat) (s : State), s.Takes m .CREW_H_CTL c data ∧
       (CREW_H_CTL.MODE.ofWord data = 0 ∨ s.simAllowed c = true)) ∧
    (∃ (m : Master) (c : Nat) (data : Nat) (s : State), s.Takes m .CREW_H_CTL c data ∧ s.room ∧
       CREW_H_CTL.MODE.ofWord data = 1 ∧ s.simAllowed c = false) :=
  ⟨
    ⟨3, true, 100, 0, (onCrewSt 3).put CREW_AB_STAT.MODE_ACT 3 1, by decide +kernel⟩,
    ⟨3, false, 100, 0, 0, onCrewSt 3, by decide +kernel⟩,
    ⟨.mgmt, 3, true, (((onCrewSt 3).put CREW_AB.NEW 7 1).put CREW_AB.SAMPLE 7 0x7A).put CREW_AB_STAT.MODE_ACT 3 1,
       reads_ok (by decide +kernel)⟩,
    ⟨.sup 0, 3, CREW_AB_TRIG.FIRE.inWord (CREW_AB_TRIG.SRC.inWord 0 2) 1,
       {(((onCrewSt 3).put CREW_AB_STAT.MODE_ACT 3 1).put CREW_AB_CTL.B_SEL 3 2).onCrew 3 (fun k => {k with lastTrig := some 2000, trigA := [1]}) with now := 5},
       takes_ok (by decide +kernel), optAll_ok (by decide +kernel), by decide +kernel⟩,
    ⟨.sup 0, 3, CREW_AB_TRIG.FIRE.inWord (CREW_AB_TRIG.SRC.inWord 0 2) 1, 2001,
       {(((onCrewSt 3).put CREW_AB_STAT.MODE_ACT 3 1).put CREW_AB_TRIG.SRC 3 2).onCrew 3 (fun k => {k with lastTrig := some 2001}) with now := 5},
       takes_ok (by decide +kernel), by decide +kernel⟩,
    ⟨3, 7,
       {(((onCrewSt 3).put CREW_AB_STAT.MODE_ACT 3 1).put CREW_AB_TRIG.SRC 3 3).onCrew 3 (fun k => {k with lastTrig := some 2000}) with now := 5},
       optAll_ok (by decide +kernel), by decide +kernel⟩,
    ⟨.mgmt, 3, CREW_AB_CTL.MODE.inWord 0 1, up, takes_ok (by decide +kernel), by decide +kernel⟩,
    ⟨.mgmt, 3, CREW_AB_CTL.MODE.inWord 0 1, onCrewSt 3, takes_ok (by decide +kernel),
       by unfold State.room; decide +kernel, by decide +kernel⟩,
    ⟨3, 1, up.onCrew 3 (fun k => {k with modeReq := some 1}), by decide +kernel⟩,
    ⟨.mgmt, 3, 0x01F00012, (onCrewSt 3).put CREW_H_CTL.MODE 3 1, takes_ok (by decide +kernel), by decide +kernel⟩,
    ⟨.mgmt, 3, CREW_H_CTL.MODE.inWord 0 1, onCrewSt 3, takes_ok (by decide +kernel),
       by unfold State.room; decide +kernel, by decide +kernel⟩⟩

theorem witness_SlotsReferencesAndOpenWire :
    (∃ (c : Nat) (u : HSlot) (s : State), (s.crew c).urgFault = some u) ∧
    (∃ (c : Nat) (e : Nat) (s : State), (s.crew c).urgFault = none ∧ (s.crew c).urgRdt = none ∧
       (s.crew c).slot.src = .seq e) ∧
    (∃ (c : Nat) (raw : Int) (sl : HSlot) (rest : List HSlot) (s : State), (s.crew c).hDone = sl :: rest) ∧
    (∃ (c : Nat) (ch : Nat) (rest : List Nat) (s : State), (s.crew c).faultWant = ch :: rest ∧ s.faultBusy c = false) ∧
    (∃ (c : Nat) (ch : Nat) (rest : List Nat) (s : State), ((s.crew c).slot.src = .single ∨ ∃ e,
      (s.crew c).slot.src = .seq e) ∧
       (s.crew c).faultWant = ch :: rest ∧ s.faultBusy c = false) ∧
    (∃ (c : Nat) (ctx : Nat) (ch : Nat) (rest : List (Nat × Nat)) (s : State), (s.crew c).rdtWant = (ctx, ch) :: rest ∧
       s.rdtBusy c = false) ∧
    (∃ (c : Nat) (b : Bool) (ctx : Nat) (ch : Nat) (rest : List (Nat × Nat)) (s : State), (s.crew c).rdtWant = (ctx,
      ch) :: rest ∧
       s.rdtBusy c = true) ∧
    (∃ (m : Master) (c : Nat) (data : Nat) (s : State), s.Takes m .CREW_H_REF c data) ∧
    (∃ (c : Nat) (s : State), (s.crew c).ow = none) ∧
    (∃ (m : Master) (c : Nat) (data : Nat) (s : State), s.Takes m .CREW_OW_CTL c data ∧
       CREW_OW_CTL.CONFIRM.ofWord data = 1 ∧ CREW_OW_CTL.RETRY.ofWord data = 0 ∧ (s.crew c).ow = none) ∧
    (∃ (m : Master) (c : Nat) (data : Nat) (s : State), s.Takes m .CREW_OW_CTL c data ∧
       CREW_OW_CTL.RETRY.ofWord data = 1 ∧ (s.crew c).ow = none) ∧
    (∃ (m : Master) (c : Nat) (data : Nat) (o : OwTest) (s : State), s.Takes m .CREW_OW_CTL c data ∧
       CREW_OW_CTL.RETRY.ofWord data = 1 ∧ (s.crew c).ow = some o) ∧
    (∃ (c : Nat) (data : Nat) (s : State), (s.crew c).seqCal = true ∧ (s.crew c).calOw = 0 ∧ (s.crew c).ow = none) ∧
    (∃ (c : Nat) (o : OwTest) (s : State), (s.crew c).ow = some o ∧ o.first.isSome = true ∧ o.pulled = false) ∧
    (∃ (c : Nat) (s : State), (s.crew c).senseReq = some true) ∧
    (∃ (c : Nat) (s : State), (s.crew c).senseReq = some false) :=
  ⟨
    ⟨3, ⟨.fault, 9, 0, 7, 0, true, 4⟩,
       (onCrewSt 3).onCrew 3 (fun k => {k with urgFault := some ⟨.fault, 9, 0, 7, 0, true, 4⟩}), by decide +kernel⟩,
    ⟨3, 0, onCrewSt 3, by decide +kernel⟩,
    ⟨3, 500, ⟨.seq 1, 3, 0, 16, 1, true, 4⟩, [],
       (onCrewSt 3).onCrew 3 (fun k => {k with hDone := [⟨.seq 1, 3, 0, 16, 1, true, 4⟩]}), by decide +kernel⟩,
    ⟨3, 9, [10], (onCrewSt 3).onCrew 3 (fun k => {k with faultWant := [9,10]}), by decide +kernel⟩,
    ⟨3, 9, [10], (onCrewSt 3).onCrew 3 (fun k => {k with faultWant := [9,10]}), .inr ⟨0, by decide +kernel⟩,
       by decide +kernel⟩,
    ⟨3, 2, 9, [], (onCrewSt 3).onCrew 3 (fun k => {k with rdtWant := [(2,9)]}), by decide +kernel⟩,
    ⟨3, true, 2, 9, [],
       (onCrewSt 3).onCrew 3 (fun k => {k with rdtWant := [(2,9)], urgRdt := some ⟨.rdt 1, 8, 0, 7, 0, true, 4⟩}),
       by decide +kernel⟩,
    ⟨.mgmt, 3, 3, onCrewSt 3, takes_ok (by decide +kernel)⟩,
    ⟨3, onCrewSt 3, by decide +kernel⟩,
    ⟨.mgmt, 3, CREW_OW_CTL.CONFIRM.inWord 0 1, onCrewSt 3, takes_ok (by decide +kernel), by decide +kernel⟩,
    ⟨.mgmt, 3, CREW_OW_CTL.RETRY.inWord 0 1, onCrewSt 3, takes_ok (by decide +kernel), by decide +kernel⟩,
    ⟨.mgmt, 3, CREW_OW_CTL.RETRY.inWord 0 1, ⟨false,1,some 500,false,true⟩,
       (onCrewSt 3).onCrew 3 (fun k => {k with ow := some ⟨false,1,some 500,false,true⟩}),
       takes_ok (by decide +kernel), by decide +kernel⟩,
    ⟨3, 0, (onCrewSt 3).onCrew 3 (fun k => {k with seqCal := true}), by decide +kernel⟩,
    ⟨3, ⟨false,1,some 500,false,true⟩,
       (onCrewSt 3).onCrew 3 (fun k => {k with ow := some ⟨false,1,some 500,false,true⟩}), by decide +kernel⟩,
    ⟨3, (onCrewSt 3).onCrew 3 (fun k => {k with senseReq := some true}), by decide +kernel⟩,
    ⟨3, ((onCrewSt 3).onCrew 3 (fun k => {k with senseReq := some false})).put CREW_AB_STAT.SENSE 3 1,
       by decide +kernel⟩⟩

theorem witness_LawLimits :
    ∃ (k : Coef) (l : Law) (e : Int) (ff : Int) (transfer : Bool), 0 ≤ k.iLim ∧ k.outMin ≤ k.outMax ∧
      -(k.iLim * 2 ^ 32) ≤ l.iacc ∧ l.iacc ≤ k.iLim * 2 ^ 32 :=
    ⟨cf, {iacc := 100 * 2^32, clip := 1}, 5, 3, false, by decide +kernel⟩

theorem witness_DatapathUpdates :
    (∃ (c : Nat) (s : State), s.flag CREW_AB_STAT.MODE_ACT c = false ∧ (s.crew c).busy = false ∧
       s.flag CREW_AB.NEW (abI c false) = true ∧ s.flag CREW_AB.NEW (abI c true) = true) ∧
    (∃ (c : Nat) (s : State), s.flag CREW_AB_STAT.MODE_ACT c = false ∧ (s.crew c).busy = false ∧
       s.flag CREW_AB.NEW (abI c false) = true ∧ s.flag CREW_AB.NEW (abI c true) = true ∧ (s.crew c).reg = true ∧
       (s.crew c).firstPair = false ∧ (s.crew c).transfer = false ∧ (s.crew c).resumeNow = false ∧
       (s.crew c).fbDue = false ∧ s.flag CREW_DP_STAT.LAW c = false ∧ s.get CREW_DP_GS.FORCE_REGION c < 16) ∧
    (∃ (c : Nat) (t8 : Nat) (s : State), (s.crew c).busy = true) ∧
    (∃ (op : Op) (rest : List Op) (v : Nat) (s : State), s.flight = op :: rest ∧ op.kind = .lls v ∧
       (∀ c ∈ op.crews, (s.crew c).calRun = false ∧ s.flag TB_CAL.VALID c = true)) ∧
    (∃ (op : Op) (rest : List Op) (f : Nat) (r : Nat) (s : State), s.flight = op :: rest ∧ op.kind = .gsel f r ∧
       (∀ c ∈ op.crews, (s.crew c).calRun = false ∧ s.flag TB_CAL.VALID c = true)) :=
  ⟨
    ⟨3, ((onCrewSt 3).put CREW_AB.NEW 6 1).put CREW_AB.NEW 7 1, by decide +kernel⟩,
    ⟨3, (((onCrewSt 3).put CREW_AB.NEW 6 1).put CREW_AB.NEW 7 1).put CREW_AB.SAMPLE 6 30, by decide +kernel⟩,
    ⟨3, 70, (onCrewSt 3).onCrew 3 (fun k => {k with busy := true, uNext := 5000}), by decide +kernel⟩,
    ⟨opOf (.lls 77) 0x603 [3,4], [], 77,
       {(up.put TB_CAL.VALID 3 1).put TB_CAL.VALID 4 1 with flight := [opOf (.lls 77) 0x603 [3,4]]},
       by decide +kernel⟩,
    ⟨opOf (.gsel 1 5) 0x603 [3,4], [], 1, 5,
       {(up.put TB_CAL.VALID 3 1).put TB_CAL.VALID 4 1 with flight := [opOf (.gsel 1 5) 0x603 [3,4]]},
       by decide +kernel⟩⟩

theorem witness_CommitAndResume :
    (∃ (m : Master) (c : Nat) (data : Nat) (s : State), s.Takes m .CREW_DP_COMMIT c data ∧ s.crewDown c = false) ∧
    (∃ (c : Nat) (s : State), s.flag CREW_DP_STAT.COMMIT_PEND c = true ∧ (s.crew c).busy = false) ∧
    (∃ (m : Master) (c : Nat) (data : Nat) (s : State), s.Takes m .CREW_DP_COMMIT c data ∧ s.crewDown c = true) ∧
    (∃ (m : Master) (c : Nat) (data : Nat) (s : State), s.Takes m .CREW_DP_CTL c data ∧
       CREW_DP_CTL.RESUME.ofWord data = 1) :=
  ⟨
    ⟨.mgmt, 3, 0x8003, onCrewSt 3, takes_ok (by decide +kernel), by decide +kernel⟩,
    ⟨3, ((onCrewSt 3).put CREW_DP_STAT.COMMIT_PEND 3 1).onCrew 3 (fun k => {k with commit := 3}), by decide +kernel⟩,
    ⟨.sup 0, 3, 0x5,
       ((up.put SLOT_SHADOW.W 770 5).put SLOT_SHADOW.W 768 0x10).onCrew 3 (fun k => {k with commit := 2, heldSlots := [(770,9),(771,3),(770,2^33+4)]}),
       takes_ok (by decide +kernel), by decide +kernel⟩,
    ⟨.mgmt, 3, CREW_DP_CTL.RESUME.inWord 0 1, onCrewSt 3, takes_ok (by decide +kernel), by decide +kernel⟩⟩

theorem witness_SlewAndSetpoint :
    (∃ (op : Op) (rest : List Op) (code : Nat) (slew : Nat) (quiet : Bool) (s : State), s.flight = op :: rest ∧
       op.kind = .setp code slew quiet ∧ op.crews.Nodup ∧ (∀ c ∈ op.crews, (s.crew c).calRun = false)) ∧
    (∃ (c : Nat) (s : State), (s.crew c).reg = true ∧ (s.plane (planeOf c)).ramp = .none ∧
       (s.crew c).softStart = false ∧ s.flag CREW_GB_STAT.RAISED c = false ∧ s.target c < 2 ^ 32 ∧
       s.get CREW_SP_REF.REF c < 2 ^ 32) :=
  ⟨
    ⟨opOf (.setp 900 100 false) 0x603 [3,4], [], 900, 100, false,
       {up with flight := [opOf (.setp 900 100 false) 0x603 [3,4]]}, by decide +kernel⟩,
    ⟨3, (((onCrewSt 3).put CREW_SP_STAT.TARGET 3 900).put CREW_SP_REF.REF 3 1000).put CREW_SP_STAT.SLEW 3 100,
       by decide +kernel⟩⟩

theorem witness_SharingFloorsAndMonitors :
    (∃ (p : Nat) (cs : List Nat) (total : Int) (n : Nat) (new : Nat → Int) (mean : Int) (z : Nat → Int) (s : State),
      (new = fun c => clampI (s.getI CREW_DP_TRIM.TRIM c + (if ((250 * s.get CREW_SH_CTL.DB c * n : Nat) : Int) < s.iF c * n - total * s.activeCount c then -1 else if s.iF c * n - total * s.activeCount c < -((250 * s.get CREW_SH_CTL.DB c * n : Nat) : Int) then 1 else 0)) (-(s.get CREW_SH_CTL.TRIM_MAX c : Int)) (s.get CREW_SH_CTL.TRIM_MAX c)) ∧
       mean = (sumI (cs.map new)).tdiv cs.length ∧
       (z = fun c => clampI (new c - mean) (-(s.get CREW_SH_CTL.TRIM_MAX c : Int)) (s.get CREW_SH_CTL.TRIM_MAX c)) ∧
       p < 32 ∧ cs = (planeCrews p).filter s.shares ∧ total = sumI (cs.map s.iF) ∧ n = sumN (cs.map s.activeCount)) ∧
    (∃ (p : Nat) (s : State), p < 32) ∧
    (∃ (m : Master) (c : Nat) (data : Nat) (s : State), s.Takes m .CREW_VMIN c data ∧ CREW_VMIN.REARM.ofWord data = 1) ∧
    (∃ (m : Master) (c : Nat) (data : Nat) (s : State), s.Takes m .CREW_VMAX c data ∧ CREW_VMAX.REARM.ofWord data = 1) ∧
    (∃ (m : Master) (data : Nat) (s : State), s.Takes m .CAP_MON_AGE_CTL 0 data ∧
       CAP_MON_AGE_CTL.DIE_REARM.ofWord data = 1) :=
  ⟨
    ⟨0, planeCrews 0, 0, 144,
       fun c => clampI ((regSh.getI CREW_DP_TRIM.TRIM c) + (if ((250 * regSh.get CREW_SH_CTL.DB c * 144 : Nat) : Int) < regSh.iF c * (144 : Nat) - 0 * regSh.activeCount c then -1 else if regSh.iF c * (144 : Nat) - 0 * regSh.activeCount c < -((250 * regSh.get CREW_SH_CTL.DB c * 144 : Nat) : Int) then 1 else 0)) (-(regSh.get CREW_SH_CTL.TRIM_MAX c : Int)) (regSh.get CREW_SH_CTL.TRIM_MAX c),
       _, _, regSh, rfl, rfl, rfl, by decide +kernel⟩,
    ⟨0, onCrewSt 3, by decide +kernel⟩,
    ⟨.mgmt, 3, CREW_VMIN.REARM.inWord 0 1, up.put CREW_VMIN.VMIN 3 50, takes_ok (by decide +kernel),
       by decide +kernel⟩,
    ⟨.mgmt, 3, CREW_VMAX.REARM.inWord 0 1, up.put CREW_VMAX.VMAX 3 50, takes_ok (by decide +kernel),
       by decide +kernel⟩,
    ⟨.sup 0, CAP_MON_AGE_CTL.DIE_REARM.inWord 0 1, up, takes_ok (by decide +kernel), by decide +kernel⟩⟩

theorem witness_TransientAids :
    (∃ (c : Nat) (remote : Nat) (loc : Nat) (s : State), s.aidsOn c = true ∧ s.flag CREW_TR_CTL.DROOP_EN c = true ∧
       (s.crew c).droopArmed = true ∧
       s.sensed c remote loc < s.regTarget c - ((80000 + 20000 * s.get CREW_TR_CTL.DROOP_TH c : Nat) : Int)) ∧
    (∃ (c : Nat) (remote : Nat) (loc : Nat) (s : State), s.droopLevel c ≤ s.sensed c remote loc) ∧
    (∃ (c : Nat) (remote : Nat) (loc : Nat) (s : State), s.sensed c remote loc ≤ s.droopLevel c + 40000) ∧
    (∃ (c : Nat) (remote : Nat) (loc : Nat) (s : State), s.droopLevel c + 40000 < s.sensed c remote loc) ∧
    (∃ (c : Nat) (remote : Nat) (loc : Nat) (s : State), (s.crew c).reg = true ∧ (s.crew c).stopClamp = false ∧
       s.flag CREW_TR_CTL.CLAMP_EN c = true ∧ s.flag CREW_TR_STAT.CLAMP_ON c = false ∧ (s.crew c).clampWin < 4 ∧
       s.regTarget c + ((80000 + 20000 * s.get CREW_TR_CTL.OV_TH c : Nat) : Int) < s.sensed c remote loc) ∧
    (∃ (c : Nat) (remote : Nat) (loc : Nat) (s : State), (4 ≤ (s.crew c).clampWin ∨
      s.sensed c remote loc ≤ s.regTarget c + (s.ovTh c : Int))) ∧
    (∃ (c : Nat) (remote : Nat) (loc : Nat) (s : State),
      s.regTarget c + ((s.ovTh c / 2 : Nat) : Int) ≤ s.sensed c remote loc ∧
       s.now < (s.crew c).clampAt + 100) ∧
    (∃ (c : Nat) (remote : Nat) (loc : Nat) (s : State), (s.crew c).stopClamp = false ∧
       (s.sensed c remote loc < s.regTarget c + ((s.ovTh c / 2 : Nat) : Int) ∨ (s.crew c).clampAt + 100 ≤ s.now)) :=
  ⟨
    ⟨3, 0, 0, ((onCrewSt 3).put CREW_SP_REF.REF 3 7200000).put CREW_TR_STAT.RES_READY 3 1, by decide +kernel⟩,
    ⟨3, 300, 200, up, by decide +kernel⟩,
    ⟨3, 0, 0, (((onCrewSt 3).put CREW_SP_REF.REF 3 8000000)).put CREW_TR_STAT.DROOP 3 1, by decide +kernel⟩,
    ⟨3, 7060001, 0,
       ((((onCrewSt 3).put CREW_SP_REF.REF 3 7200000).put CREW_TR_CTL.DROOP_TH 3 5).put CREW_TR_STAT.DROOP 3 1).onCrew 3 (fun k => {k with droopArmed := false}),
       by decide +kernel⟩,
    ⟨3, 9000000, 0, (onCrewSt 3).put CREW_SP_REF.REF 3 7200000, by decide +kernel⟩,
    ⟨3, 9000000, 0, ((onCrewSt 3).put CREW_SP_REF.REF 3 7200000).onCrew 3 (fun k => {k with clampWin := 4}),
       by decide +kernel⟩,
    ⟨3, 7270000, 0,
       {(((onCrewSt 3).put CREW_SP_REF.REF 3 7200000).put CREW_TR_CTL.OV_TH 3 3).put CREW_TR_STAT.CLAMP_ON 3 1 with now := 99},
       by decide +kernel⟩,
    ⟨3, 7269999, 0,
       {(((onCrewSt 3).put CREW_SP_REF.REF 3 7200000).put CREW_TR_CTL.OV_TH 3 3).put CREW_TR_STAT.CLAMP_ON 3 1 with now := 99},
       by decide +kernel⟩⟩

theorem witness_ArmsAndCovers :
    (∃ (op : Op) (rest : List Op) (st : Stamp) (b : Bool) (s : State), s.flight = op :: rest ∧ op.kind = .arm st b ∧
       op.crews.Nodup ∧ (∀ c ∈ op.crews, (s.crew c).calRun = false ∧ s.flag TB_CAL.VALID c = true)) ∧
    (∃ (c : Nat) (a : Held) (s : State), (s.crew c).arm = some a ∧ s.aidsOn c = true ∧
       s.flag CREW_TR_CTL.RES_EN c = true ∧ s.flag CREW_TR_STAT.RES_READY c = true) ∧
    (∃ (c : Nat) (a : Held) (s : State), s.room ∧ (s.crew c).arm = some a ∧
       (s.aidsOn c = false ∨ s.flag CREW_TR_CTL.RES_EN c = false ∨ s.flag CREW_TR_STAT.RES_READY c = false)) ∧
    (∃ (op : Op) (rest : List Op) (e : Option Stamp) (m : Option Nat) (s : State), (∀ x c,
      e = some x → c ∈ op.crews → s.crewReached c x = false) ∧
       (∀ n, m = some n → s.now < n) ∧ s.flight = op :: rest ∧ op.kind = .cover e m ∧
       (∀ c ∈ op.crews, (s.crew c).calRun = false ∧ s.flag TB_CAL.VALID c = true)) ∧
    (∃ (op : Op) (rest : List Op) (e : Option Stamp) (m : Option Nat) (s : State), s.flight = op :: rest ∧
       op.kind = .cover e m ∧ (∀ c ∈ op.crews, (s.crew c).calRun = false ∧ s.flag TB_CAL.VALID c = true) ∧
       ((∃ n, m = some n ∧ n ≤ s.now) ∨ ∃ x, e = some x ∧ ∀ c ∈ op.crews, s.crewReached c x = true)) ∧
    (∃ (op : Op) (rest : List Op) (k : Nat) (s : State), s.flight = op :: rest ∧ op.kind = .stand k ∧ k < 2 ∧
       (∀ c ∈ op.crews, (s.crew c).calRun = false ∧ s.flag TB_CAL.VALID c = true)) ∧
    (∃ (op : Op) (rest : List Op) (s : State), s.flight = op :: rest ∧ op.kind = .stand 2 ∧ op.crews.Nodup ∧
       (∀ c ∈ op.crews, (s.crew c).calRun = false ∧ s.flag TB_CAL.VALID c = true ∧ s.cst c = 5 ∧
         (s.crew c).standKind = 0 ∧ s.flag CREW_PWR_STAT.FORCED c = false ∧ (s.plane (planeOf c)).powered = true ∧
         s.ramping c = false)) :=
  ⟨
    ⟨opOf (.arm ⟨1,0⟩ true) 0x603 [3,4], [], ⟨1,0⟩, true,
       {(((onCrewSt 3).setCst 4 2).put TB_CAL.VALID 3 1).put TB_CAL.VALID 4 1 with flight := [opOf (.arm ⟨1,0⟩ true) 0x603 [3,4]]},
       by decide +kernel⟩,
    ⟨3, ⟨⟨0,0⟩,false,0,false,0⟩,
       ((onCrewSt 3).put CREW_TR_STAT.RES_READY 3 1).onCrew 3 (fun k => {k with arm := some ⟨⟨0,0⟩,false,0,false,0⟩}),
       by decide +kernel⟩,
    ⟨3, ⟨⟨0,4⟩,true,3,false,7⟩, (onCrewSt 3).onCrew 3 (fun k => {k with arm := some ⟨⟨0,4⟩,true,3,false,7⟩}),
       by unfold State.room; decide +kernel, by decide +kernel⟩,
    ⟨opOf (.cover (some ⟨1,3⟩) (some 7)) 0x603 [3,4], [], some ⟨1,3⟩, some 7,
       {((onCrewSt 3).put TB_CAL.VALID 3 1).put TB_CAL.VALID 4 1 with flight := [opOf (.cover (some ⟨1,3⟩) (some 7)) 0x603 [3,4]]},
       (by intro x c hx hc; cases hx; revert hc; revert c; decide +kernel), optAll_ok (by decide +kernel),
       by decide +kernel⟩,
    ⟨opOf (.cover (some ⟨0,3⟩) (some 4)) 0x603 [3], [], some ⟨0,3⟩, some 4,
       {(onCrewSt 3).put TB_CAL.VALID 3 1 with now := 4, flight := [opOf (.cover (some ⟨0,3⟩) (some 4)) 0x603 [3]]},
       by decide +kernel⟩,
    ⟨opOf (.stand 1) 0x603 [3,4], [], 1,
       {((onCrewSt 3).put TB_CAL.VALID 3 1).put TB_CAL.VALID 4 1 with flight := [opOf (.stand 1) 0x603 [3,4]]},
       by decide +kernel⟩,
    ⟨opOf (.stand 2) 0x603 [3,4], [],
       {((((up.put TB_CAL.VALID 3 1).put TB_CAL.VALID 4 1).setCst 3 5).setCst 4 5).onPlane 0 (fun q => {q with powered := true}) with flight := [opOf (.stand 2) 0x603 [3,4]]},
       by decide +kernel⟩⟩

theorem witness_StandDowns :
    (∃ (m : Master) (c : Nat) (data : Nat) (s : State), s.Takes m .CREW_PWR_CTL c data ∧
       CREW_PWR_CTL.STAND.ofWord data = 1 ∧ CREW_PWR_CTL.REJOIN.ofWord data = 0 ∧ CREW_PWR_CTL.UNLOCK.ofWord data = 0) ∧
    (∃ (m : Master) (c : Nat) (data : Nat) (s : State), s.Takes m .CREW_PWR_CTL c data ∧
       CREW_PWR_CTL.STAND.ofWord data = 0 ∧ CREW_PWR_CTL.REJOIN.ofWord data = 1 ∧
       CREW_PWR_CTL.UNLOCK.ofWord data = 0 ∧ s.cst c = 5 ∧ (s.crew c).standKind = 0 ∧
       s.flag CREW_PWR_STAT.FORCED c = false ∧ (s.plane (planeOf c)).powered = true ∧ s.ramping c = false ∧
       (s.crew c).calRun = false ∧ s.flag TB_CAL.VALID c = true) ∧
    (∃ (m : Master) (c : Nat) (data : Nat) (s : State), s.Takes m .CREW_PWR_CTL c data ∧
       CREW_PWR_CTL.STAND.ofWord data = 0 ∧ CREW_PWR_CTL.REJOIN.ofWord data = 1 ∧
       CREW_PWR_CTL.UNLOCK.ofWord data = 0 ∧ s.cst c = 5 ∧ (s.crew c).standKind = 0 ∧
       s.flag CREW_PWR_STAT.FORCED c = false ∧ (s.plane (planeOf c)).powered = true ∧ s.ramping c = false ∧
       ((s.crew c).calRun = true ∨ s.flag TB_CAL.VALID c = false)) ∧
    (∃ (c : Nat) (s : State), s.shedOver c = false ∧ s.orderly = false) ∧
    (∃ (c : Nat) (s : State), s.cst c = 4 ∧ s.shedOver c = true ∧ s.ramping c = false ∧ s.orderly = false ∧
       s.flag CREW_PWR_STAT.FORCED c = false ∧ (s.crew c).standKind = 0) ∧
    (∃ (c : Nat) (s : State), s.cst c = 4 ∧ s.shedOver c = true ∧ s.ramping c = false ∧ s.orderly = false ∧
       s.flag CREW_PWR_STAT.FORCED c = false ∧ (s.crew c).standKind = 1) ∧
    (∃ (c : Nat) (a : Int) (b : Int) (ind : List Nat) (s : State), ((s.crew c).seqCal = false ∨ (s.crew c).calOw ≠ 2)) ∧
    (∃ (c : Nat) (a : Int) (b : Int) (ind : List Nat) (s : State), (s.crew c).seqCal = true ∧ (s.crew c).calOw = 2 ∧
       s.cst c = 2) ∧
    (∃ (c : Nat) (a : Int) (b : Int) (ind : List Nat) (s : State), (s.crew c).seqCal = true ∧ (s.crew c).calOw = 2 ∧
       s.cst c = 6 ∧ s.flag CREW_PWR_STAT.FORCED c = false) ∧
    (∃ (p : Nat) (s : State), (s.plane p).powered = true ∧ s.capacity p ≠ (s.plane p).capSent ∧
       s.planeDemand p ≤ 1000 * s.capacity p) :=
  ⟨
    ⟨.mgmt, 3, CREW_PWR_CTL.STAND.inWord 0 1, onCrewSt 3, takes_ok (by decide +kernel), by decide +kernel⟩,
    ⟨.mgmt, 3, CREW_PWR_CTL.REJOIN.inWord 0 1,
       ((up.put TB_CAL.VALID 3 1).setCst 3 5).onPlane 0 (fun q => {q with powered := true}),
       takes_ok (by decide +kernel), by decide +kernel⟩,
    ⟨.mgmt, 3, CREW_PWR_CTL.REJOIN.inWord 0 1, (up.setCst 3 5).onPlane 0 (fun q => {q with powered := true}),
       takes_ok (by decide +kernel), by decide +kernel⟩,
    ⟨3, {((onCrewSt 3).setCst 3 4).putI CREW_DP_IFILT.I_F 3 50000 with now := 24999}, by decide +kernel⟩,
    ⟨3, (onCrewSt 3).setCst 3 4, by decide +kernel⟩,
    ⟨3, {((onCrewSt 3).setCst 3 4).onCrew 3 (fun k => {k with standKind := 1}) with now := 25000}, by decide +kernel⟩,
    ⟨3, 100, -50, [2200], (up.setCst 3 6), by decide +kernel⟩,
    ⟨3, 63, -64, [2200,2201,2202,2203,2204,2205,2206,2207],
       (up.setCst 3 2).onCrew 3 (fun k => {k with seqCal := true, calOw := 2}), by decide +kernel⟩,
    ⟨3, 100, -50, [2200,2201,2202,2203,2204,2205,2206,2207],
       (up.setCst 3 6).onCrew 3 (fun k => {k with seqCal := true, calOw := 2, standKind := 1}), by decide +kernel⟩,
    ⟨0, (onCrewSt 3).onPlane 0 (fun q => {q with powered := true}), by decide +kernel⟩⟩

theorem witness_PowerOnAndOff :
    (∃ (op : Op) (rest : List Op) (p : Nat) (s : State), s.flight = op :: rest ∧ op.kind = .pwron ∧
       op.unit = 0x6C0 + p ∧ p < 32 ∧ s.opsStopped = false ∧ s.get ID_FW_STAT.MODE 0 ≠ 2 ∧
       (s.fc2.any fun e => (scopeOf e.2.ev).contains p) = false ∧ s.planeOff p = true ∧ s.outOfOrder p = false ∧
       (s.plane p).heldOff = false ∧ (∀ c ∈ planeCrews p, s.hearsPower c = true)) ∧
    (∃ (p : Nat) (rest : List Nat) (s : State), s.powerQ = p :: rest ∧ p ∉ rest ∧
       (∀ c ∈ planeCrews p, s.hearsPower c = true)) ∧
    (∃ (c : Nat) (remote : Nat) (loc : Nat) (d : Nat) (k : Nat) (u : Nat) (s : State), (s.crew c).softStart = true ∧
       1000000 < s.get CREW_SP_REF.REF c ∧ 2 * s.sensed c remote loc < (s.get CREW_SP_REF.REF c : Int) ∧
       (s.plane (planeOf c)).shutIssued = false ∧ s.ramping c = false ∧ d ∈ planeCrews (planeOf c) ∧ k < 8 ∧
       (s.phase (8 * d + k)).tripAt = some u ∧ s.now ≤ u + 5000) ∧
    (∃ (c : Nat) (remote : Nat) (loc : Nat) (s : State),
      ((s.get CREW_SP_REF.REF c : Int) ≤ 2 * s.sensed c remote loc ∨ (s.plane (planeOf c)).shutIssued = true ∨
      s.ramping c = true)) ∧
    (∃ (p : Nat) (s : State), (s.plane p).retry = true ∧ (s.admits p 0).isSome = true ∧
       (∀ c ∈ planeCrews p, s.hearsPower c = true)) ∧
    (∃ (p : Nat) (s : State), (s.plane p).retry = true ∧ s.admits p 0 = none ∧
       (∀ c ∈ planeCrews p, s.hearsPower c = true)) ∧
    (∃ (m : Master) (c : Nat) (data : Nat) (s : State), s.Takes m .CREW_PWR_CTL c data ∧
       CREW_PWR_CTL.STAND.ofWord data = 0 ∧ CREW_PWR_CTL.REJOIN.ofWord data = 0 ∧
       CREW_PWR_CTL.UNLOCK.ofWord data = 1 ∧ s.cst c = 9) ∧
    (∃ (op : Op) (rest : List Op) (p : Nat) (s : State), s.flight = op :: rest ∧ op.kind = .pwroff ∧
       op.unit = 0x6C0 + p ∧ p < 32 ∧ (∀ c ∈ planeCrews p, s.cst c = 1 ∧ s.hearsPower c = true)) ∧
    (∃ (op : Op) (rest : List Op) (p : Nat) (s : State), s.flight = op :: rest ∧ op.kind = .pwroff ∧
       op.unit = 0x6C0 + p ∧ p < 32 ∧ (s.plane p).powered = true ∧ (s.plane p).ramp = .none ∧
       (∀ c ∈ planeCrews p, s.cst c = 3 ∧ (s.crew c).reg = true)) ∧
    (∃ (op : Op) (rest : List Op) (p : Nat) (c : Nat) (s : State), s.flight = op :: rest ∧ op.kind = .pwron ∧
       op.unit = 0x6C0 + p ∧ p < 32 ∧ c ∈ planeCrews p ∧ s.hearsPower c = false) ∧
    (∃ (op : Op) (rest : List Op) (p : Nat) (c : Nat) (s : State), s.flight = op :: rest ∧ op.kind = .pwroff ∧
       op.unit = 0x6C0 + p ∧ p < 32 ∧ c ∈ planeCrews p ∧ s.hearsPower c = false) :=
  ⟨
    ⟨opOf .pwron 0x6C0 (planeCrews 0), [], 0,
       {(((heard 0 up).put ID_PWR_STAT.VIB_GOOD 0 1).put THM_STAT.COOLANT 0 1).put STG_SUM.CAP_A 0 8000 with flight := [opOf .pwron 0x6C0 (planeCrews 0)]},
       by decide +kernel⟩,
    ⟨0, [4],
       {(((heard 0 up).put ID_PWR_STAT.VIB_GOOD 0 1).put THM_STAT.COOLANT 0 1).put STG_SUM.CAP_A 0 8000 with powerQ := [0,4]},
       by decide +kernel⟩,
    ⟨3, 5, 2, 5, 2, 0,
       ((forAll (planeCrews 0) (fun s c => s.setCst c 2) up).onCrew 3 (fun k => {k with softStart := true})).put CREW_SP_REF.REF 3 1000001 |>.setPhase 42 {st := .on, tripAt := some 0},
       by decide +kernel⟩,
    ⟨3, 5, 2, up, by decide +kernel⟩,
    ⟨0, (fed (vibs (planeCrews 0) (heard 0 up))).onPlane 0 (fun q => {q with retry := true, tries := 2}),
       by decide +kernel⟩,
    ⟨0, (heard 0 up).onPlane 0 (fun q => {q with retry := true, tries := 2}), by decide +kernel⟩,
    ⟨.mgmt, 3, CREW_PWR_CTL.UNLOCK.inWord 0 1, forAll (planeCrews 0) (fun s c => s.setCst c 9) up,
       takes_ok (by decide +kernel), by decide +kernel⟩,
    ⟨opOf .pwroff 0x6C0 (planeCrews 0), [], 0,
       {forAll (planeCrews 0) (fun s c => s.setCst c 1) (heard 0 up) with flight := [opOf .pwroff 0x6C0 (planeCrews 0)], powerQ := [4,0]},
       by decide +kernel⟩,
    ⟨opOf .pwroff 0x6C0 (planeCrews 0), [], 0,
       {(forAll (planeCrews 0) (fun s c => (s.setCst c 3).onCrew c (fun k => {k with reg := true})) up).onPlane 0 (fun q => {q with powered := true}) with flight := [opOf .pwroff 0x6C0 (planeCrews 0)]},
       by decide +kernel⟩,
    ⟨opOf .pwron 0x6C0 (planeCrews 0), [], 0, 3,
       {(up.put TB_CAL.VALID 3 1).onCrew 3 (fun k => {k with calRun := true}) with flight := [opOf .pwron 0x6C0 (planeCrews 0)]},
       by decide +kernel⟩,
    ⟨opOf .pwroff 0x6C0 (planeCrews 0), [], 0, 3,
       {forAll (planeCrews 0) (fun s c => s.setCst c 3) up with flight := [opOf .pwroff 0x6C0 (planeCrews 0)], powerQ := [4,0]},
       by decide +kernel⟩⟩

theorem witness_MarksRecorderAndCopies :
    (∃ (s : State), s.strobe = none) ∧
    (∃ (slips : List (Nat × Nat)) (m : Nat) (len : Nat) (nb : Bool) (s : State), s.strobe = some (m, len, nb)) ∧
    (∃ (slips : List (Nat × Nat)) (m : Nat) (len : Nat) (nb : Bool) (c : Nat) (s : State), s.strobe = some (m, len, nb) ∧
       c ∈ s.histDue ∧
       (∀ b, b < 64 → flook s.fuse (CREW_HIST_V.COUNT.key (64 * c + b)) = none ∧
         flook s.fuse (CREW_HIST_T.COUNT.key (64 * c + b)) = none)) ∧
    (∃ (m : Master) (s : State), s.Reads m .REC_WIN 7) ∧
    (∃ (missing : List Nat) (m : Nat) (len : Nat) (recs : List Snap) (rest : List (Nat × Nat × List Snap)) (s : State), s.snaps = (m, len, recs) :: rest) ∧
    (∃ (m : Master) (data : Nat) (s : State), s.Takes m .TB_SNAP_CTL 0 data ∧ TB_SNAP_CTL.REQ.ofWord data = 1) ∧
    (∃ (m : Nat) (len : Nat) (recs : List Snap) (s : State), s.Inv ∧ s.snapData = some (m, len, recs) ∧
       recs.length = 192 ∧ s.offline (0x400000 + 8 * s.get TB_SNAP_CTL.PTR 0) = false ∧
       s.offline (0x400000 + 8 * s.get TB_SNAP_CTL.PTR 0 + 3087) = false ∧
       (∀ k, k < 386 → inCM (0x400000 + 8 * s.get TB_SNAP_CTL.PTR 0 + 8 * k) = true ∧
         s.permitted 3 (0x400000 + 8 * s.get TB_SNAP_CTL.PTR 0 + 8 * k) 8 false true = true)) :=
  ⟨
    ⟨up, by decide +kernel⟩,
    ⟨[], 7, 125, true,
       {up with strobe := some (7,125,true), now := 500, histDue := [3], pastLens := [100,101,102,103]},
       by decide +kernel⟩,
    ⟨[(3,9)], 7, 125, false, 3,
       {(up.put CREW_HIST_V.COUNT 195 8).put CREW_HIST_T.COUNT 200 4 with strobe := some (7,125,false), histDue := [3]},
       by decide +kernel⟩,
    ⟨.sup 0, up.put REC_CTL.AUTO 0 1, reads_ok (by decide +kernel)⟩,
    ⟨[2], 7, 125, List.replicate 192 snap0, [], {up with snaps := [(7,125,List.replicate 192 snap0)]},
       by decide +kernel⟩,
    ⟨.sup 1, TB_SNAP_CTL.REQ.inWord 5 1, up, takes_ok (by decide +kernel), by decide +kernel⟩,
    ⟨7, 125, List.replicate 192 snap0, rgn3 {up with snapData := some (7,125,List.replicate 192 snap0)},
       inv_ok (by decide +kernel), by decide +kernel⟩⟩

theorem witness_CalibrationRequests :
    (∃ (m : Master) (data : Nat) (s : State), s.Takes m .TB_CTL 0 data ∧ TB_CTL.HIST_CLR.ofWord data = 1) ∧
    (∃ (m : Master) (c : Nat) (data : Nat) (s : State), s.Takes m .CREW_HIST_CTL c data ∧
       CREW_HIST_CTL.CLEAR.ofWord data = 1) ∧
    (∃ (m : Master) (data : Nat) (s : State), s.Takes m .TB_CAL_CTL 0 data ∧ TB_CAL_CTL.ALL.ofWord data = 1) ∧
    (∃ (m : Master) (data : Nat) (s : State), s.Takes m .TB_CAL_CTL 0 data ∧ TB_CAL_CTL.ALL.ofWord data = 0 ∧
       TB_CAL_CTL.ONE.ofWord data = 1) ∧
    (∃ (c : Nat) (rtts : List Nat) (ph : Nat) (s : State), (s.crew c).calRun = true ∧ (s.crew c).heldOps = [] ∧
       rtts.length = 8 ∧ ceilDiv (ceilDiv (sumN rtts) 8) 2 ≤ 56 ∧ maxN rtts - (minN rtts).getD 0 ≤ 4 ∧
       maxN rtts ≤ 255) ∧
    (∃ (c : Nat) (rtts : List Nat) (ph : Nat) (s : State), (s.crew c).calRun = true ∧ (s.crew c).heldOps = [] ∧
       (rtts.length ≠ 8 ∨ 56 < ceilDiv (ceilDiv (sumN rtts) 8) 2 ∨ 4 < maxN rtts - (minN rtts).getD 0 ∨
         255 < maxN rtts)) ∧
    (∃ (c : Nat) (rtts : List Nat) (ph : Nat) (s : State), (s.crew c).calRun = true ∧ (s.crew c).heldOps = [] ∧
       (s.crew c).rejoinDue = true ∧ s.cst c = 5 ∧ s.flag CREW_PWR_STAT.FORCED c = false ∧
       (s.plane (planeOf c)).powered = true ∧ s.ramping c = false ∧ rtts.length = 8 ∧
       ceilDiv (ceilDiv (sumN rtts) 8) 2 ≤ 56 ∧ maxN rtts - (minN rtts).getD 0 ≤ 4 ∧ maxN rtts ≤ 255) :=
  ⟨
    ⟨.sup 0, TB_CTL.HIST_CLR.inWord 125 1, up, takes_ok (by decide +kernel), by decide +kernel⟩,
    ⟨.mgmt, 3, CREW_HIST_CTL.CLEAR.inWord 0 1, up, takes_ok (by decide +kernel), by decide +kernel⟩,
    ⟨.sup 0, TB_CAL_CTL.ALL.inWord 0 1, up, takes_ok (by decide +kernel), by decide +kernel⟩,
    ⟨.sup 0, TB_CAL_CTL.ONE.inWord 3 1, onCrewSt 3, takes_ok (by decide +kernel), by decide +kernel⟩,
    ⟨3, [100,101,102,103,104,100,100,100], 5, {up.onCrew 3 (fun k => {k with calRun := true}) with calQ := [3]},
       by decide +kernel⟩,
    ⟨3, [100,101,102,103,105,100,100,100], 5, {up.onCrew 3 (fun k => {k with calRun := true}) with calQ := [3]},
       by decide +kernel⟩,
    ⟨3, [4,4,4,4,4,4,4,5], 7,
       ((up.setCst 3 5).onPlane 0 (fun q => {q with powered := true})).onCrew 3 (fun k => {k with calRun := true, rejoinDue := true}),
       by decide +kernel⟩⟩

theorem witness_CaptureStreams :
    (∃ (m : Master) (st : Nat) (data : Nat) (s : State), s.Takes m .CAP_MON_SCTL st data ∧
       CAP_MON_SCTL.ARM.ofWord data = 1 ∧ s.streaming st = false ∧
       (storeFields .CAP_MON_SCTL st (data % 2 ^ 32) s).armRefused st = false) ∧
    (∃ (m : Master) (st : Nat) (data : Nat) (s : State), s.Takes m .CAP_MON_SCTL st data ∧
       CAP_MON_SCTL.ARM.ofWord data = 1 ∧ s.streaming st = false ∧
       (storeFields .CAP_MON_SCTL st (data % 2 ^ 32) s).armRefused st = true) ∧
    (∃ (m : Master) (st : Nat) (data : Nat) (s : State), s.Takes m .CAP_MON_SCTL st data ∧
       CAP_MON_SCTL.ARM.ofWord data = 0 ∧ s.streaming st = true) ∧
    (∃ (m : Master) (st : Nat) (data : Nat) (s : State), s.Takes m .CAP_MON_STRIG st data ∧
       CAP_MON_STRIG.FIRE.ofWord data = 1 ∧ s.get CAP_MON_SSTAT.STATE st = 1 ∧ s.get CAP_MON_STRIG.TSRC st = 0) ∧
    (∃ (st : Nat) (s : State), s.get CAP_MON_SSTAT.STATE st = 1 ∧ (s.stream st).trigged = false ∧
       (s.stream st).trigReq = true) ∧
    (∃ (st : Nat) (xs : List (Int × Stamp × Bool × Bool)) (rest : List CapSlot) (s : State), s.streaming st = true ∧
       (s.stream st).ended = false ∧ (s.stream st).closing = false ∧
       frontSamples 64 (s.stream st).slots = (xs, rest) ∧ xs.length = 64) ∧
    (∃ (st : Nat) (x : Int × Stamp × Bool × Bool) (xs : List (Int × Stamp × Bool × Bool)) (n : Nat) (g : Bool) (e : CapSlot) (l : List CapSlot) (s : State), s.streaming st = true ∧
       (s.stream st).ended = false ∧ (s.stream st).closing = false ∧
       frontSamples 64 (s.stream st).slots = (x :: xs, .missed n g :: e :: l) ∧ xs.length < 63) ∧
    (∃ (st : Nat) (s : State), s.Inv ∧ s.streaming st = true ∧ 8064 ≤ (s.stream st).bits.length ∧
       s.offline (0x400000 + 1024 * (s.get CAP_MON_SBUF.BASE st + s.get CAP_MON_SSTAT.NEXT st)) = false ∧
       s.permitted 3 (0x400000 + 1024 * (s.get CAP_MON_SBUF.BASE st + s.get CAP_MON_SSTAT.NEXT st) + 16) 8 false true = true) ∧
    (∃ (st : Nat) (a : Nat) (o : Nat) (m : Stamp) (h : Bool) (s : State), s.Inv ∧ s.streaming st = true ∧
       8064 ≤ (s.stream st).bits.length ∧
       a = 0x400000 + 1024 * (s.get CAP_MON_SBUF.BASE st + s.get CAP_MON_SSTAT.NEXT st) ∧ s.offline a = false ∧
       s.permitted 3 (a + 16) 8 false true = true ∧
       (s.stream st).starts.find? (fun x => decide (x.1 < (s.stream st).paged + 8064)) = some (o, some (m, h))) ∧
    (∃ (st : Nat) (s : State), s.room ∧ s.streaming st = true ∧ 8064 ≤ (s.stream st).bits.length ∧
       s.offline (0x400000 + 1024 * (s.get CAP_MON_SBUF.BASE st + s.get CAP_MON_SSTAT.NEXT st)) = false ∧
       s.permitted 3 (0x400000 + 1024 * (s.get CAP_MON_SBUF.BASE st + s.get CAP_MON_SSTAT.NEXT st) + 16) 8 false true = false) :=
  ⟨
    ⟨.sup 0, 1, CAP_MON_SCTL.ARM.inWord 0 1, up, takes_ok (by decide +kernel), by decide +kernel⟩,
    ⟨.sup 0, 1, CAP_MON_SCTL.MODE.inWord (CAP_MON_SCTL.ARM.inWord 0 1) 3, up, takes_ok (by decide +kernel),
       by decide +kernel⟩,
    ⟨.sup 0, 1, 0, up.put CAP_MON_SSTAT.STATE 1 1, takes_ok (by decide +kernel), by decide +kernel⟩,
    ⟨.sup 0, 1, CAP_MON_STRIG.FIRE.inWord 0 1, up.put CAP_MON_SSTAT.STATE 1 1, takes_ok (by decide +kernel),
       by decide +kernel⟩,
    ⟨1, (up.put CAP_MON_SSTAT.STATE 1 1).setStream 1 {trigReq := true}, by decide +kernel⟩,
    ⟨1, (List.range 64).map (fun (k:Nat) => ((k : Int) - 32, ⟨0,5⟩, false, false)), [],
       (up.put CAP_MON_SSTAT.STATE 1 1).setStream 1 {slots := (List.range 64).map (fun (k:Nat) => .sample ((k : Int) - 32) ⟨0,5⟩ false false)},
       by decide +kernel⟩,
    ⟨1, (7, ⟨0,5⟩, false, false), [(8, ⟨0,6⟩, false, true)], 3, false, .sample 1 ⟨1,1⟩ true false, [],
       (up.put CAP_MON_SSTAT.STATE 1 1).setStream 1 {slots := [.sample 7 ⟨0,5⟩ false false, .sample 8 ⟨0,6⟩ false true, .missed 3 false, .sample 1 ⟨1,1⟩ true false]},
       by decide +kernel⟩,
    ⟨1, rgn3 ((up.put CAP_MON_SSTAT.STATE 1 1).setStream 1 {bits := List.replicate 8100 true}),
       inv_ok (by decide +kernel), by decide +kernel⟩,
    ⟨1, 0x400000, 8065, ⟨1,2⟩, true,
       rgn3 ((up.put CAP_MON_SSTAT.STATE 1 1).setStream 1 {bits := List.replicate 8064 true, paged := 8064, starts := [(8065, some (⟨1,2⟩, true)), (17000, none)], trigSeq := some 1}),
       inv_ok (by decide +kernel), by decide +kernel⟩,
    ⟨1, (up.put CAP_MON_SSTAT.STATE 1 1).setStream 1 {bits := List.replicate 8100 true},
       by unfold State.room; decide +kernel, by decide +kernel⟩⟩

theorem witness_ArithmeticResults :
    (∃ (n : Nat) (s : State), s.Issues n 0x10) ∧
    (∃ (n : Nat) (s : State), s.Issues n 0x11) ∧
    (∃ (n : Nat) (s : State), s.Issues n 0x12) ∧
    (∃ (n : Nat) (s : State), s.Issues n 0x13) ∧
    (∃ (n : Nat) (s : State), s.Issues n 0x14) ∧
    (∃ (n : Nat) (s : State), s.Issues n 0x15) ∧
    (∃ (n : Nat) (s : State), s.Issues n 0x16) ∧
    (∃ (n : Nat) (s : State), s.Issues n 0x17) ∧
    (∃ (n : Nat) (s : State), s.Issues n 0x18) ∧
    (∃ (n : Nat) (s : State), s.Issues n 0x1A) ∧
    (∃ (n : Nat) (s : State), s.Issues n 0x1B) ∧
    (∃ (n : Nat) (s : State), s.Issues n 0x1C) :=
  ⟨
    ⟨0, run 0 (wd 0x10 0 3 0 0x12345678), issues_ok (by decide +kernel)⟩,
    ⟨9, regv 9 [(4,7)] (run 9 (wd 0x11 0 3 4 0)), issues_ok (by decide +kernel)⟩,
    ⟨9, regv 9 [(4,0xFFFFFFFF)] (run 9 (wd 0x12 0 3 4 5)), issues_ok (by decide +kernel)⟩,
    ⟨9, regv 9 [(4,2)] (run 9 (wd 0x13 0 4 4 5)), issues_ok (by decide +kernel)⟩,
    ⟨9, regv 9 [(4,0x7FFFFFFF)] (run 9 (wd 0x14 0 3 4 0x7FFFFF00)), issues_ok (by decide +kernel)⟩,
    ⟨2, regv 2 [(4,0x80000000)] (run 2 (wd 0x15 0 3 4 31)), issues_ok (by decide +kernel)⟩,
    ⟨2, regv 2 [(4,0x80000001)] (run 2 (wd 0x16 0 3 4 33)), issues_ok (by decide +kernel)⟩,
    ⟨2, regv 2 [(4,0x80000001)] (run 2 (wd 0x17 0 3 4 33)), issues_ok (by decide +kernel)⟩,
    ⟨2, regv 2 [(4,0x80000001)] (run 2 (wd 0x18 0 3 4 33)), issues_ok (by decide +kernel)⟩,
    ⟨2, regv 2 [(4,50)] (run 2 (wd 0x1A 0 3 4 33)), issues_ok (by decide +kernel)⟩,
    ⟨2, regv 2 [(4,0x80000001)] (run 2 (wd 0x1B 0 3 4 33)), issues_ok (by decide +kernel)⟩,
    ⟨2, regv 2 [(4,0x80000001)] (run 2 (wd 0x1C 0 3 4 0xFFF00005)), issues_ok (by decide +kernel)⟩⟩

theorem witness_CompareConditions :
    ∃ (n : Nat) (s : State), s.Issues n 0x19 :=
    ⟨2, regv 2 [(4,0x80000001)] (run 2 (wd 0x19 (6*2) 3 4 5)), issues_ok (by decide +kernel)⟩

theorem witness_HaltYieldNop :
    (∃ (n : Nat) (s : State), s.Issues n 0x01 ∧ n < 8) ∧
    (∃ (n : Nat) (s : State), s.Issues n 0x01 ∧ 8 ≤ n) ∧
    (∃ (n : Nat) (s : State), s.Issues n 0x02) ∧
    (∃ (n : Nat) (s : State), s.Issues n 0x00) ∧
    (∃ (i : Instr) (n : Nat) (op : Nat) (s : State), issueOf i = some (n, op) ∧ s.canIssue n = true ∧
       s.fetch n = (s, true) ∧ (s.word n).op = op ∧ (n < 8 → op < 0x60) ∧ (s.word n).predBad = false ∧
       (s.word n).acts (s.ctx n).preds = false) :=
  ⟨
    ⟨0, run 0 (wd 1 0 0 0 0), issues_ok (by decide +kernel), by decide +kernel⟩,
    ⟨11, run 11 (wd 1 0 0 0 0), issues_ok (by decide +kernel), by decide +kernel⟩,
    ⟨0, run 0 (wd 2 0 0 0 0), issues_ok (by decide +kernel)⟩,
    ⟨11, run 11 (wd 0 0 0 0 0), issues_ok (by decide +kernel)⟩,
    ⟨.add 9, 9, 0x12, (run 9 (wd 0x12 0 3 4 5 1)), by decide +kernel⟩⟩

theorem witness_BranchesAndCalls :
    (∃ (n : Nat) (s : State), s.Issues n 0x03 ∧ (s.word n).imm < 2 ^ 15) ∧
    (∃ (n : Nat) (s : State), s.Issues n 0x03 ∧ 8 ≤ n ∧ 2 ^ 15 ≤ (s.word n).imm) ∧
    (∃ (n : Nat) (s : State), s.Issues n 0x04 ∧ (s.word n).imm < 2 ^ 15 ∧
       (s.ctx n).p ((s.word n).rd % 4) ≠ bitAt (s.word n).rd 3) ∧
    (∃ (n : Nat) (s : State), s.Issues n 0x04 ∧ (s.ctx n).p ((s.word n).rd % 4) = bitAt (s.word n).rd 3) ∧
    (∃ (n : Nat) (s : State), s.Issues n 0x04 ∧ 8 ≤ n ∧ 2 ^ 15 ≤ (s.word n).imm ∧
       (s.ctx n).p ((s.word n).rd % 4) ≠ bitAt (s.word n).rd 3) ∧
    (∃ (n : Nat) (s : State), s.Issues n 0x05 ∧ 8 ≤ n ∧ (s.ctx n).ret.length < 8 ∧ 2 ^ 15 ≤ (s.word n).imm) ∧
    (∃ (n : Nat) (s : State), s.Issues n 0x05 ∧ (s.word n).imm < 2 ^ 15 ∧ (s.ctx n).ret.length < 8) ∧
    (∃ (n : Nat) (s : State), s.Issues n 0x05 ∧ 8 ≤ n ∧ 8 ≤ (s.ctx n).ret.length) ∧
    (∃ (n : Nat) (i : Nat) (rest : List Nat) (s : State), s.Issues n 0x06 ∧ (s.ctx n).ret = i :: rest ∧ i < 2 ^ 15) ∧
    (∃ (n : Nat) (s : State), s.Issues n 0x06 ∧ 8 ≤ n ∧ (s.ctx n).ret = []) ∧
    (∃ (n : Nat) (s : State), s.Issues n 0x06 ∧ n < 8 ∧ (s.ctx n).ret = []) ∧
    (∃ (n : Nat) (s : State), s.Issues n 0x07 ∧ s.pc n < bits (s.word n).imm 14 0 ∧ bits (s.word n).imm 31 16 = 0) ∧
    (∃ (n : Nat) (s : State), s.Issues n 0x07 ∧ s.pc n < bits (s.word n).imm 14 0 ∧ bits (s.word n).imm 31 16 ≠ 0 ∧
       (s.ctx n).loops.length < 4) ∧
    (∃ (n : Nat) (s : State), s.Issues n 0x07 ∧ 8 ≤ n ∧ s.pc n < bits (s.word n).imm 14 0 ∧
       bits (s.word n).imm 31 16 ≠ 0 ∧ 4 ≤ (s.ctx n).loops.length) ∧
    (∃ (n : Nat) (s : State), s.Issues n 0x07 ∧ 8 ≤ n ∧ bits (s.word n).imm 14 0 ≤ s.pc n) :=
  ⟨
    ⟨9, run 9 (wd 3 0 0 0 77), issues_ok (by decide +kernel), by decide +kernel⟩,
    ⟨9, run 9 (wd 3 0 0 0 32768), issues_ok (by decide +kernel), by decide +kernel⟩,
    ⟨9, (run 9 (wd 4 0 9 0 32767)).onCtx 9 (fun k => {k with preds := 0}), issues_ok (by decide +kernel),
       by decide +kernel⟩,
    ⟨9, (run 9 (wd 4 0 1 0 32767)).onCtx 9 (fun k => {k with preds := 0}), issues_ok (by decide +kernel),
       by decide +kernel⟩,
    ⟨9, (run 9 (wd 4 0 1 0 32768)).onCtx 9 (fun k => {k with preds := 3}), issues_ok (by decide +kernel),
       by decide +kernel⟩,
    ⟨9, (run 9 (wd 5 0 1 0 0x80000000)).onCtx 9 (fun k => {k with ret := [1,2,3,4,5,6,7]}),
       issues_ok (by decide +kernel), by decide +kernel⟩,
    ⟨9, (run 9 (wd 5 0 1 0 32767)).onCtx 9 (fun k => {k with ret := [1,2,3,4,5,6,7]}), issues_ok (by decide +kernel),
       by decide +kernel⟩,
    ⟨9, (run 9 (wd 5 0 1 0 32767)).onCtx 9 (fun k => {k with ret := [1,2,3,4,5,6,7,8]}),
       issues_ok (by decide +kernel), by decide +kernel⟩,
    ⟨9, 32767, [2], (run 9 (wd 6 0 1 0 0)).onCtx 9 (fun k => {k with ret := [32767,2], loops := [(32767,3,8)]}),
       issues_ok (by decide +kernel), by decide +kernel⟩,
    ⟨9, (run 9 (wd 6 0 1 0 0)), issues_ok (by decide +kernel), by decide +kernel⟩,
    ⟨7, (run 7 (wd 6 0 1 0 0)), issues_ok (by decide +kernel), by decide +kernel⟩,
    ⟨7, (run 7 (wd 7 0 1 0 32767)), issues_ok (by decide +kernel), by decide +kernel⟩,
    ⟨7, (run 7 (wd 7 0 1 0 (0x10000 + 6))), issues_ok (by decide +kernel), by decide +kernel⟩,
    ⟨9, (run 9 (wd 7 0 1 0 (0x10000 + 6))).onCtx 9 (fun k => {k with loops := [(1,1,1),(2,2,2),(3,3,3),(4,4,4)]}),
       issues_ok (by decide +kernel), by decide +kernel⟩,
    ⟨8, (run 8 (wd 7 0 1 0 (0x10000 + 5))), issues_ok (by decide +kernel), by decide +kernel⟩⟩

theorem witness_WaitsMarksAndBarriers :
    (∃ (n : Nat) (s : State), s.Issues n 0x30) ∧
    (∃ (n : Nat) (s : State), s.Issues n 0x31) ∧
    (∃ (n : Nat) (s : State), s.Issues n 0x32) ∧
    (∃ (n : Nat) (s : State), s.Issues n 0x33) ∧
    (∃ (n : Nat) (s : State), s.Issues n 0x37 ∧ Nat.land (s.get LANE_SIG.SIG n) (bits (s.word n).imm 31 20) = 0) ∧
    (∃ (n : Nat) (s : State), s.Issues n 0x37 ∧ Nat.land (s.get LANE_SIG.SIG n) (bits (s.word n).imm 31 20) ≠ 0) ∧
    (∃ (n : Nat) (s : State), s.Issues n 0x36) ∧
    (∃ (n : Nat) (s : State), (s.ctx n).wait = none) ∧
    (∃ (n : Nat) (m : Nat) (r : Nat) (at_ : Nat) (tm : Nat) (s : State), s.lst n = 4 ∧ r < 16 ∧
       (s.ctx n).wait = some ⟨.mark m, r, at_, tm⟩ ∧ markLater m s.markNo = false) ∧
    (∃ (n : Nat) (w : Nat) (g : Nat) (r : Nat) (at_ : Nat) (tm : Nat) (s : State), s.lst n = 4 ∧ r < 16 ∧
       (s.ctx n).wait = some ⟨.arrive w g, r, at_, tm⟩ ∧
       sgn 32 (unsg 32 ((s.get FCW_ARRIVALS.ARRIVALS w : Int) - g)) < 0 ∧ tm ≠ 0 ∧ at_ + 4 * tm ≤ s.now) ∧
    (∃ (n : Nat) (s : State), s.Issues n 0x34 ∧ n < 8 ∧
       (∀ k, k < 8 → bitAt (bits (s.word n).imm 31 24) k = true → k ≠ n → k ∈ s.joined (bits (s.word n).imm 23 20))) ∧
    (∃ (n : Nat) (k : Nat) (s : State), s.Issues n 0x34 ∧ n < 8 ∧ k < 8 ∧
       bitAt (bits (s.word n).imm 31 24) k = true ∧ k ≠ n ∧ k ∉ s.joined (bits (s.word n).imm 23 20)) ∧
    (∃ (n : Nat) (s : State), s.Issues n 0x34 ∧ s.room ∧ 8 ≤ n) :=
  ⟨
    ⟨9, run 9 (wd 0x30 0 3 4 0xC0000000), issues_ok (by decide +kernel)⟩,
    ⟨9, run 9 (wd 0x31 0 3 4 0), issues_ok (by decide +kernel)⟩,
    ⟨9, run 9 (wd 0x32 0x603 3 4 9), issues_ok (by decide +kernel)⟩,
    ⟨9, regv 9 [(4,5)] (run 9 (wd 0x33 0x3 3 4 0)), issues_ok (by decide +kernel)⟩,
    ⟨9, run 9 (wd 0x37 0 3 4 0x00F00009), issues_ok (by decide +kernel), by decide +kernel⟩,
    ⟨9, (run 9 (wd 0x37 0 3 4 0x00F00009)).put LANE_SIG.SIG 9 0x13, issues_ok (by decide +kernel), by decide +kernel⟩,
    ⟨9, run 9 (wd 0x36 0 4 4 0), issues_ok (by decide +kernel)⟩,
    ⟨9, run 9 0, by decide +kernel⟩,
    ⟨9, 0, 5, 0, 0, ((run 9 0).setLst 9 4).onCtx 9 (fun k => {k with wait := some ⟨.mark 0, 5, 0, 0⟩}),
       by decide +kernel⟩,
    ⟨9, 3, 7, 5, 0, 1,
       {((run 9 0).setLst 9 4).onCtx 9 (fun k => {k with wait := some ⟨.arrive 3 7, 5, 0, 1⟩}) with now := 4},
       by decide +kernel⟩,
    ⟨3, run 3 (wd 0x34 0 3 4 0x08200009), issues_ok (by decide +kernel), by decide +kernel⟩,
    ⟨3, 7, run 3 (wd 0x34 0 3 4 0x88200009), issues_ok (by decide +kernel), by decide +kernel⟩,
    ⟨11, run 11 (wd 0x34 0 3 4 0x88200009), issues_ok (by decide +kernel), by unfold State.room; decide +kernel,
       by decide +kernel⟩⟩

theorem witness_UnitOperations :
    (∃ (n : Nat) (s : State), s.Issues n 0x20 ∧ s.mayDeliver n 0x20 (s.word n).unit) ∧
    (∃ (n : Nat) (s : State), s.Issues n 0x21 ∧ s.mayDeliver n 0x21 (s.word n).unit ∧
       (n < 8 → s.inRange n (s.word n).unit (s.vreg n (s.word n).rs) (s.vreg n (bits (s.word n).imm 31 28)) = true)) ∧
    (∃ (n : Nat) (s : State), s.Issues n 0x21 ∧ n < 8 ∧
       s.inRange n (s.word n).unit (s.vreg n (s.word n).rs) (s.vreg n (bits (s.word n).imm 31 28)) = false) ∧
    (∃ (n : Nat) (s : State), s.Issues n 0x22 ∧ s.mayDeliver n 0x22 (s.word n).unit ∧ bits (s.word n).imm 19 0 ≠ 0) ∧
    (∃ (n : Nat) (s : State), s.Issues n 0x23 ∧ s.mayDeliver n 0x23 (s.word n).unit) ∧
    (∃ (n : Nat) (s : State), s.Issues n 0x24 ∧ s.mayDeliver n 0x24 (s.word n).unit) ∧
    (∃ (n : Nat) (s : State), s.Issues n 0x26 ∧ s.mayDeliver n 0x26 (s.word n).unit ∧ bits (s.word n).imm 1 0 ≠ 3) ∧
    (∃ (n : Nat) (s : State), s.Issues n 0x27 ∧ s.mayDeliver n 0x27 (s.word n).unit) ∧
    (∃ (n : Nat) (s : State), s.Issues n 0x28 ∧ s.mayDeliver n 0x28 (s.word n).unit) ∧
    (∃ (n : Nat) (s : State), s.Issues n 0x20 ∧ s.room ∧ 8 ≤ n ∧ s.unitOk 0x20 (s.word n).unit = false) ∧
    (∃ (m : Master) (data : Nat) (s : State), s.Takes m .ID_UOP_CTL 0 data ∧ data % 2 = 1 ∧ s.uopResult s.uopWord = 1) ∧
    (∃ (m : Master) (data : Nat) (s : State), s.Takes m .ID_UOP_CTL 0 data ∧ data % 2 = 1 ∧ s.uopResult s.uopWord ≠ 1) ∧
    (∃ (op : Op) (s : State), (∀ code ticks, op.kind ≠ .ramp code ticks) ∧ s.uop = some op ∧ s.uopTurn = false) ∧
    (∃ (op : Op) (s : State), (∀ code ticks, op.kind ≠ .ramp code ticks) ∧ s.uop = some op ∧ s.uopTurn = true) ∧
    (∃ (s : State), s.uop = none) :=
  ⟨
    ⟨9, run 9 (wd 0x20 0x603 0 0 0x38406411), issues_ok (by decide +kernel),
       by unfold State.mayDeliver; decide +kernel⟩,
    ⟨9, regv 9 [(4,5000),(5,100)] (run 9 (wd 0x21 0x603 0 4 0x50000001)), issues_ok (by decide +kernel),
       by unfold State.mayDeliver; decide +kernel, by decide +kernel⟩,
    ⟨2,
       (regv 2 [(4,1001),(5,100)] (run 2 (wd 0x21 0x603 0 4 0x50000000))).setLane 2 {decls := [⟨0x603,20,14,1000,800⟩]},
       issues_ok (by decide +kernel), by decide +kernel⟩,
    ⟨9, run 9 (wd 0x22 0x603 0 0 (900*2^20+100)), issues_ok (by decide +kernel),
       by unfold State.mayDeliver; decide +kernel, by decide +kernel⟩,
    ⟨9, run 9 (wd 0x23 0x603 0 0 77), issues_ok (by decide +kernel), by unfold State.mayDeliver; decide +kernel⟩,
    ⟨9, run 9 (wd 0x24 0x603 0 0 0x15), issues_ok (by decide +kernel), by unfold State.mayDeliver; decide +kernel⟩,
    ⟨9, run 9 (wd 0x26 0x603 0 0 2), issues_ok (by decide +kernel), by unfold State.mayDeliver; decide +kernel,
       by decide +kernel⟩,
    ⟨9, run 9 (wd 0x27 0x6C0 0 0 0), issues_ok (by decide +kernel), by unfold State.mayDeliver; decide +kernel⟩,
    ⟨9, run 9 (wd 0x28 0x6DF 0 0 0), issues_ok (by decide +kernel), by unfold State.mayDeliver; decide +kernel⟩,
    ⟨9, run 9 (wd 0x20 0x5FF 0 0 0x38406411), issues_ok (by decide +kernel), by unfold State.room; decide +kernel,
       by decide +kernel⟩,
    ⟨.mgmt, 1, ((up.put ID_UOP_HI.OPCODE 0 0x27).put ID_UOP_HI.UNIT 0 0x6C0), takes_ok (by decide +kernel),
       by decide +kernel⟩,
    ⟨.mgmt, 1, ((up.put ID_UOP_HI.OPCODE 0 0x27).put ID_UOP_HI.UNIT 0 0x6E0), takes_ok (by decide +kernel),
       by decide +kernel⟩,
    ⟨⟨0,.pwron,0x6C0,[],15,0⟩,
       {up.put ID_UOP_STAT.BUSY 0 1 with uop := some ⟨0,.pwron,0x6C0,[],15,0⟩, now := 7, eng := {uopAt := 7}, cyc := {on := true}},
       (fun _ _ h => by cases h), by decide +kernel⟩,
    ⟨⟨0,.pwron,0x6C0,[],15,0⟩, {up.put ID_UOP_STAT.BUSY 0 1 with uop := some ⟨0,.pwron,0x6C0,[],15,0⟩},
       (fun _ _ h => by cases h), by decide +kernel⟩,
    ⟨up, by decide +kernel⟩⟩

theorem witness_WindowsArmsAndHeats :
    (∃ (n : Nat) (st : Stamp) (s : State), s.Issues n 0x25 ∧ s.mayDeliver n 0x25 (s.word n).unit ∧
       s.selected n (s.word n) = some st) ∧
    (∃ (n : Nat) (s : State), s.Issues n 0x25 ∧ s.room ∧ s.selected n (s.word n) = none) ∧
    (∃ (n : Nat) (st : Stamp) (s : State), s.Issues n 0x42 ∧ s.mayDeliver n 0x42 (s.word n).unit ∧
       s.winStamp (bits (s.word n).imm 29 24) 2 = some st) ∧
    (∃ (n : Nat) (s : State), s.Issues n 0x42 ∧ s.mayDeliver n 0x42 (s.word n).unit ∧
       s.winStamp (bits (s.word n).imm 29 24) 2 = none ∧ bits (s.word n).imm 15 0 ≠ 0) ∧
    (∃ (n : Nat) (s : State), s.Issues n 0x42 ∧ s.room ∧ s.winStamp (bits (s.word n).imm 29 24) 2 = none ∧
       bits (s.word n).imm 15 0 = 0) ∧
    (∃ (n : Nat) (f : Nat) (st : Stamp) (s : State), s.Issues n 0x43 ∧ (s.word n).unit = 0x6E0 + f ∧ f < 8 ∧
       s.selected n (s.word n) = some st) ∧
    (∃ (n : Nat) (w : Nat) (s : State), s.Issues n 0x40 ∧ w = (s.word n).unit % 64 ∧ (n < 8 ∨ s.supWindow w = true) ∧
       s.get FCW_STAT.STATE w ≠ 0) ∧
    (∃ (n : Nat) (w : Nat) (s : State), s.Issues n 0x40 ∧ w = (s.word n).unit % 64 ∧ (n < 8 ∨ s.supWindow w = true) ∧
       s.get FCW_STAT.STATE w = 0) ∧
    (∃ (n : Nat) (w : Nat) (s : State), s.Issues n 0x41 ∧ w = (s.word n).unit % 64 ∧ (n < 8 ∨ s.supWindow w = true) ∧
       s.get FCW_STAT.STATE w ≠ 0) ∧
    (∃ (n : Nat) (w : Nat) (s : State), s.Issues n 0x41 ∧ w = (s.word n).unit % 64 ∧ (n < 8 ∨ s.supWindow w = true) ∧
       s.get FCW_STAT.STATE w = 0) ∧
    (∃ (n : Nat) (w : Nat) (s : State), s.Issues n 0x40 ∧ s.room ∧ w = (s.word n).unit % 64 ∧ 8 ≤ n ∧
       s.supWindow w = false) ∧
    (∃ (n : Nat) (w : Nat) (s : State), s.Issues n 0x41 ∧ s.room ∧ w = (s.word n).unit % 64 ∧ 8 ≤ n ∧
       s.supWindow w = false) :=
  ⟨
    ⟨9, ⟨0,4⟩, run 9 (wd 0x25 0x603 0 4 0x80000004), issues_ok (by decide +kernel),
       by unfold State.mayDeliver; decide +kernel, by decide +kernel⟩,
    ⟨9, run 9 (wd 0x25 0x603 0 4 0x00000004), issues_ok (by decide +kernel), by unfold State.room; decide +kernel,
       by decide +kernel⟩,
    ⟨9, ⟨5,6⟩,
       {(((run 9 (wd 0x42 0x603 0 4 0x03000004)).put FCW_STAT.STAMPS_VALID 3 1).put FCW_END.MARK 3 5).put FCW_TICKS.END 3 6 with fcEnd := [3]},
       issues_ok (by decide +kernel), by unfold State.mayDeliver; decide +kernel, by decide +kernel⟩,
    ⟨9, run 9 (wd 0x42 0x603 0 4 0x03000004), issues_ok (by decide +kernel),
       by unfold State.mayDeliver; decide +kernel, by decide +kernel⟩,
    ⟨9, run 9 (wd 0x42 0x603 0 4 0x03000000), issues_ok (by decide +kernel), by unfold State.room; decide +kernel,
       by decide +kernel⟩,
    ⟨9, 2, ⟨0,4⟩, run 9 (wd 0x43 0x6E2 0 4 0x80000004), issues_ok (by decide +kernel), by decide +kernel⟩,
    ⟨9, 3, (run 9 (wd 0x40 3 0 4 0)).put FCW_STAT.STATE 3 1, issues_ok (by decide +kernel), by decide +kernel⟩,
    ⟨9, 3, (run 9 (wd 0x40 3 0 4 0)), issues_ok (by decide +kernel), by decide +kernel⟩,
    ⟨9, 3, (run 9 (wd 0x41 3 0 4 0)).put FCW_STAT.STATE 3 2, issues_ok (by decide +kernel), by decide +kernel⟩,
    ⟨9, 3, (run 9 (wd 0x41 3 0 4 0)), issues_ok (by decide +kernel), by decide +kernel⟩,
    ⟨9, 3, ((run 9 (wd 0x40 3 0 4 0)).put FCW_STAT.STATE 3 2).setLst 0 2, issues_ok (by decide +kernel),
       by unfold State.room; decide +kernel, by decide +kernel⟩,
    ⟨9, 3, ((run 9 (wd 0x41 3 0 4 0)).put FCW_STAT.STATE 3 2).setLst 0 2, issues_ok (by decide +kernel),
       by unfold State.room; decide +kernel, by decide +kernel⟩⟩

theorem witness_TelemetryReads :
    (∃ (n : Nat) (c : Nat) (s : State), s.Issues n 0x29 ∧ bitAt (s.word n).imm 31 = false ∧
       (s.word n).unit = 0x600 + c ∧ c < 192) ∧
    (∃ (n : Nat) (c : Nat) (s : State), s.Issues n 0x29 ∧ bitAt (s.word n).imm 31 = true ∧
       (s.word n).unit = 0x600 + c ∧ c < 192 ∧ bits (s.word n).imm 4 0 < 18) ∧
    (∃ (n : Nat) (v : Nat) (rest : List (Nat × Nat)) (r : Nat) (at_ : Nat) (tm : Nat) (s : State), s.rdtAns = (n,
      v) :: rest ∧
       (s.ctx n).wait = some ⟨.rdt, r, at_, tm⟩ ∧ r < 16 ∧ (s.ctx n).stopPend = false) ∧
    (∃ (n : Nat) (s : State), s.Issues n 0x44 ∧ (n < 8 ∨ bits (s.word n).imm 3 0 ≠ 4)) ∧
    (∃ (n : Nat) (s : State), s.Issues n 0x50 ∧ s.room ∧ (s.ctx n).evts < 16) ∧
    (∃ (n : Nat) (s : State), s.Issues n 0x50 ∧ 16 ≤ (s.ctx n).evts) :=
  ⟨
    ⟨2, 5, {run 2 (wd 0x29 0x605 3 0 0) with snapDone := List.replicate 192 snap0}, issues_ok (by decide +kernel),
       by decide +kernel⟩,
    ⟨9, 5, run 9 (wd 0x29 0x605 3 0 0x80000011), issues_ok (by decide +kernel), by decide +kernel⟩,
    ⟨9, 0x123456789, [(3,4)], 5, 0, 7,
       {((run 9 0).setLst 9 3).onCtx 9 (fun k => {k with wait := some ⟨.rdt, 5, 0, 7⟩}) with rdtAns := [(9,0x123456789),(3,4)]},
       by decide +kernel⟩,
    ⟨9, run 9 (wd 0x44 0 3 0 0), issues_ok (by decide +kernel), by decide +kernel⟩,
    ⟨9, (run 9 (wd 0x50 0 3 4 0x77)), issues_ok (by decide +kernel), by unfold State.room; decide +kernel,
       by decide +kernel⟩,
    ⟨2, (run 2 (wd 0x50 0 3 4 0x77)).onCtx 2 (fun k => {k with dropped := 300, evts := 16}),
       issues_ok (by decide +kernel), by decide +kernel⟩⟩

theorem witness_SupervisorAccesses :
    (∃ (n : Nat) (s : State), s.Issues n 0x60 ∧ 8 ≤ n) ∧
    (∃ (n : Nat) (s : State), s.Issues n 0x61 ∧ 8 ≤ n) ∧
    (∃ (n : Nat) (s : State), s.Issues n 0x62 ∧ 8 ≤ n) ∧
    (∃ (n : Nat) (s : State), s.Issues n 0x63 ∧ 8 ≤ n) ∧
    (∃ (n : Nat) (a : Nat) (wide : Bool) (d : Nat) (r : Nat) (at_ : Nat) (tm : Nat) (s : State), s.goodAt a ∧ 8 ≤ n ∧
       (s.ctx n).wait = some ⟨.access 0 a wide d, r, at_, tm⟩ ∧ r + 1 < 16 ∧ inCM a = true ∧
       formOk a (if wide then 8 else 4) = true ∧ s.permitted 0 a (if wide then 8 else 4) true false = true ∧
       s.offline a = false) ∧
    (∃ (n : Nat) (a : Nat) (wide : Bool) (d : Nat) (r : Nat) (at_ : Nat) (tm : Nat) (s : State), s.Inv ∧ s.goodAt a ∧
       8 ≤ n ∧ (s.ctx n).wait = some ⟨.access 1 a wide d, r, at_, tm⟩ ∧ inCM a = true ∧
       formOk a (if wide then 8 else 4) = true ∧ s.permitted 0 a (if wide then 8 else 4) false true = true ∧
       s.offline a = false) ∧
    (∃ (n : Nat) (kind : Nat) (a : Nat) (d : Nat) (r : Nat) (at_ : Nat) (tm : Nat) (s : State), s.Inv ∧ s.goodAt a ∧
       8 ≤ n ∧ (kind = 2 ∨ kind = 3) ∧ (s.ctx n).wait = some ⟨.access kind a false d, r, at_, tm⟩ ∧ r < 16 ∧
       inCM a = true ∧ formOk a 4 = true ∧ s.permitted 0 a 4 true true = true ∧ s.offline a = false) ∧
    (∃ (nb : Nat) (a : Nat) (s : State), (s.cyc.on = false ∨ s.pending = [])) ∧
    (∃ (m : Master) (a : Nat) (v : Nat) (ecc : Nat) (l : List Instr) (s : State), s.cyc.on = true ∧
       s.pending = .registerWrite m a 8 v ecc :: l ∧ s.closed m = false ∧ inCM a = true ∧ a % 8 = 0 ∧
       s.permitted (masterCode m) a 8 false true = true ∧ s.offline a = false) ∧
    (∃ (n : Nat) (q : Reg) (i : Nat) (d : Nat) (r : Nat) (at_ : Nat) (tm : Nat) (ecc : Nat) (s : State),
      s.Reads (.sup (n - 8)) q i ∧
       8 ≤ n ∧ (s.ctx n).wait = some ⟨.access 0 (q.addr i) false d, r, at_, tm⟩ ∧ r < 16 ∧ inMem (q.addr i) = false) ∧
    (∃ (n : Nat) (kind : Nat) (a : Nat) (wide : Bool) (d : Nat) (r : Nat) (at_ : Nat) (tm : Nat) (ecc : Nat) (s : State), s.room ∧
       8 ≤ n ∧ (s.ctx n).wait = some ⟨.access kind a wide d, r, at_, tm⟩ ∧ r + 1 < 16 ∧ kind ≠ 1 ∧
       formOk a (if wide then 8 else 4) = false) :=
  ⟨
    ⟨9, regv 9 [(4,0x400000)] (run 9 (wd 0x60 0 3 4 8)), issues_ok (by decide +kernel), by decide +kernel⟩,
    ⟨9, regv 9 [(4,0x400000),(3,77)] (run 9 (wd 0x61 0 3 4 8)), issues_ok (by decide +kernel), by decide +kernel⟩,
    ⟨9, regv 9 [(4,0x400000),(3,77)] (run 9 (wd 0x62 0 3 4 8)), issues_ok (by decide +kernel), by decide +kernel⟩,
    ⟨8, regv 8 [(4,0x400000),(3,77)] (run 8 (wd 0x63 0 3 4 8)), issues_ok (by decide +kernel), by decide +kernel⟩,
    ⟨9, 0x400010, true, 5, 14, 2, 2,
       ((run 9 0).wr 8 0x400010 0x123456789A).onCtx 9 (fun k => {k with wait := some ⟨.access 0 0x400010 true 5, 14, 2, 2⟩}),
       by unfold State.goodAt; decide +kernel, by decide +kernel⟩,
    ⟨9, 0x400010, true, 0x1122334455667788, 14, 2, 2,
       ((run 9 0).wr 8 0x400010 0x123456789A).onCtx 9 (fun k => {k with wait := some ⟨.access 1 0x400010 true 0x1122334455667788, 14, 2, 2⟩}),
       inv_ok (by decide +kernel), by unfold State.goodAt; decide +kernel, by decide +kernel⟩,
    ⟨9, 3, 0x400010, 0x55667788, 14, 2, 2,
       ((run 9 0).wr 8 0x400010 0x123456789A).onCtx 9 (fun k => {k with wait := some ⟨.access 3 0x400010 false 0x55667788, 14, 2, 2⟩}),
       inv_ok (by decide +kernel), by unfold State.goodAt; decide +kernel, by decide +kernel⟩,
    ⟨8, 0x400000, {up with cyc := {on := true}}, by decide +kernel⟩,
    ⟨.sup 0, 0x400000, 0x1FFFFFFFFFFFFFFFF, 0, [],
       {up with cyc := {on := true}, pending := [.registerWrite (.sup 0) 0x400000 8 0x1FFFFFFFFFFFFFFFF 0]},
       by decide +kernel⟩,
    ⟨9, .CAP_LIM, 1, 0, 3, 2, 2, 0,
       (run 9 0).onCtx 9 (fun k => {k with wait := some ⟨.access 0 (Reg.CAP_LIM.addr 1) false 0, 3, 2, 2⟩}),
       reads_ok (by decide +kernel), by decide +kernel⟩,
    ⟨9, 2, 0x400013, true, 0, 3, 2, 2, 0,
       (run 9 0).onCtx 9 (fun k => {k with wait := some ⟨.access 2 0x400013 true 0, 3, 2, 2⟩}),
       by unfold State.room; decide +kernel, by decide +kernel⟩⟩

theorem witness_SupervisorControl :
    (∃ (n : Nat) (s : State), s.Issues n 0x64 ∧ 8 ≤ n) ∧
    (∃ (n : Nat) (l : Nat) (a : Nat) (s : State), s.Issues n 0x65 ∧ s.clean ∧ 8 ≤ n ∧ l = bits (s.word n).unit 2 0 ∧
       a = s.vreg n (s.word n).rs ∧ s.loadBar l = 0 ∧ a % 8 = 0 ∧ s.get ID_MEM_STAT.BANKS 0 = 0 ∧
       s.loaderMay a 64 = true ∧ s.loaderMay a (min (max 64 (s.rd 4 (a + 0x20))) 0x100000) = true) ∧
    (∃ (n : Nat) (l : Nat) (s : State), s.Issues n 0x65 ∧ 8 ≤ n ∧ l = bits (s.word n).unit 2 0 ∧ s.loadBar l ≠ 0) ∧
    (∃ (n : Nat) (c : Nat) (s : State), s.Issues n 0x66 ∧ 8 ≤ n ∧ c = bits (s.word n).unit 3 0 ∧ c < 12) :=
  ⟨
    ⟨9, regv 9 [(3,2),(9,1)] (run 9 (wd 0x64 2 5 3 0)), issues_ok (by decide +kernel), by decide +kernel⟩,
    ⟨9, 2, 0x400000, (State.wrBytes (regv 9 [(3,0x400000)] (run 9 (wd 0x65 2 5 3 500))) 0x400000 img1),
       issues_ok (by decide +kernel), by unfold State.clean; decide +kernel, by decide +kernel⟩,
    ⟨9, 2, ((regv 9 [(3,0x400000)] (run 9 (wd 0x65 2 5 3 500))).setLst 2 4), issues_ok (by decide +kernel),
       by decide +kernel⟩,
    ⟨9, 11, (run 9 (wd 0x66 11 5 3 0x15)), issues_ok (by decide +kernel), by decide +kernel⟩⟩

theorem witness_LaneControl :
    (∃ (m : Master) (n : Nat) (data : Nat) (s : State), s.Takes m .LANE_CTL n data ∧ data % 8 = 1 ∧
       (s.lst n = 2 ∨ s.lst n = 5) ∧ s.startBarred = false ∧ (s.lane n).entry < 2 ^ 15) ∧
    (∃ (m : Master) (n : Nat) (data : Nat) (s : State), s.Takes m .LANE_CTL n data ∧ data % 8 = 1 ∧
       (s.lst n ∉ [2, 5] ∨ s.startBarred = true)) ∧
    (∃ (m : Master) (n : Nat) (data : Nat) (s : State), s.Takes m .LANE_CTL n data ∧ data % 8 = 2 ∧ s.lst n = 3 ∧
       (s.ctx n).wait = none) ∧
    (∃ (m : Master) (n : Nat) (data : Nat) (w : Wait) (s : State), s.Takes m .LANE_CTL n data ∧ data % 8 = 2 ∧
       s.lst n = 4 ∧ (s.ctx n).wait = some w ∧ w.cond ≠ .rdt) ∧
    (∃ (m : Master) (n : Nat) (data : Nat) (s : State), s.Takes m .LANE_CTL n data ∧ data % 8 = 2 ∧ s.lst n ∉ [3, 4]) ∧
    (∃ (m : Master) (n : Nat) (data : Nat) (s : State), s.Takes m .LANE_CTL n data ∧ data % 8 = 4 ∧
       s.lst n ∉ [2, 5, 6]) ∧
    (∃ (m : Master) (n : Nat) (data : Nat) (s : State) (c : Instr), s.Takes m .LANE_CTL n data ∧
       data % 8 ∈ [3, 5, 6, 7]) ∧
    (∃ (m : Master) (n : Nat) (data : Nat) (w : Wait) (s : State), s.Takes m .LANE_CTL n data ∧ data % 8 = 2 ∧
       s.lst n = 3 ∧ (s.ctx n).wait = some w ∧ w.cond = .rdt) ∧
    (∃ (m : Master) (n : Nat) (data : Nat) (s : State), s.Takes m .LANE_CTL n data ∧ data % 8 = 4 ∧
       s.lst n ∈ [2, 5, 6] ∧ (s.lane n).refs.Nodup ∧ thas s.models n = false) ∧
    (∃ (n : Nat) (s : State), (∀ w, (s.ctx n).wait = some w → w.cond ≠ .rdt ∧ ∀ k a b d, w.cond ≠ .access k a b d) ∧
       n < 8 ∧ (s.lane n).wdog ≠ 0 ∧ (s.lst n = 3 ∨ s.lst n = 4) ∧ (s.lane n).wdogAt + 500 * (s.lane n).wdog ≤ s.now) ∧
    (∃ (n : Nat) (w : Wait) (s : State), n < 8 ∧ (s.lane n).wdog ≠ 0 ∧ s.lst n = 3 ∧
       (s.lane n).wdogAt + 500 * (s.lane n).wdog ≤ s.now ∧ (s.ctx n).wait = some w ∧ w.cond = .rdt) ∧
    (∃ (n : Nat) (s : State), (s.lane n).wdog = 0) :=
  ⟨
    ⟨.sup 1, 2, 1, ((up.setLst 2 2).setLane 2 {entry := 7}).put LANE_ARG.ARG 2 88, takes_ok (by decide +kernel),
       by decide +kernel⟩,
    ⟨.sup 1, 2, 1, ((up.setLst 2 3).setLane 2 {entry := 7}).put LANE_ARG.ARG 2 88, takes_ok (by decide +kernel),
       by decide +kernel⟩,
    ⟨.sup 1, 2, 2, ((up.setLst 2 3).setLane 2 {entry := 7}).put LANE_ARG.ARG 2 88, takes_ok (by decide +kernel),
       by decide +kernel⟩,
    ⟨.sup 1, 2, 2, ⟨.tick ⟨1,2⟩, 3, 4, 5⟩,
       ((up.setLst 2 4).setLane 2 {entry := 7}).onCtx 2 (fun k => {k with wait := some ⟨.tick ⟨1,2⟩, 3, 4, 5⟩}),
       takes_ok (by decide +kernel), by decide +kernel⟩,
    ⟨.sup 1, 2, 2, ((up.setLst 2 2).setLane 2 {entry := 7}).put LANE_ARG.ARG 2 88, takes_ok (by decide +kernel),
       by decide +kernel⟩,
    ⟨.sup 1, 2, 4, ((up.setLst 2 3).setLane 2 {entry := 7}).put LANE_ARG.ARG 2 88, takes_ok (by decide +kernel),
       by decide +kernel⟩,
    ⟨.sup 1, 2, 3, ((up.setLst 2 2).setLane 2 {entry := 7}), .start (.sup 1) 2 3, takes_ok (by decide +kernel),
       by decide +kernel⟩,
    ⟨.sup 1, 2, 2, ⟨.rdt, 3, 4, 0⟩,
       ((run 2 (wd 0x29 0 0 0 0)).setLane 2 {entry := 7}).onCtx 2 (fun k => {k with wait := some ⟨.rdt, 3, 4, 0⟩}),
       takes_ok (by decide +kernel), by decide +kernel⟩,
    ⟨.sup 1, 2, 4, ((up.setLst 2 6).setLane 2 {entry := 7, refs := [0x603,0x6E0]}).put DESC_W7.PROG_REFS 0x603 4,
       takes_ok (by decide +kernel), by decide +kernel⟩,
    ⟨2, {((up.setLst 2 3).setLane 2 {entry := 7, wdog := 3, wdogAt := 10}) with now := 1510},
       noneAll_ok (by decide +kernel), by decide +kernel⟩,
    ⟨2, ⟨.rdt, 3, 4, 0⟩,
       {((run 2 (wd 0x29 0 0 0 0)).setLane 2 {entry := 7, wdog := 3, wdogAt := 10}).onCtx 2 (fun k => {k with wait := some ⟨.rdt, 3, 4, 0⟩}) with now := 1510},
       by decide +kernel⟩,
    ⟨2, up, by decide +kernel⟩⟩

theorem witness_LoaderOutcome :
    (∃ (x : Load) (s : State), s.load = some x ∧ headerBad x.img = true) ∧
    (∃ (x : Load) (s : State), s.load = some x ∧ headerBad x.img = false ∧ x.srcOk = true ∧
       s.noRoom x.lane x.base (hword x.img 2) = false ∧
       crc32 ((x.img.drop 0x40).take (hword x.img 8 - 0x40)) ≠ hword x.img 9) ∧
    (∃ (x : Load) (ws : List PWord) (decls : List UDecl) (s : State) (u : State), s.Inv ∧ s.load = some x ∧
       headerBad x.img = false ∧ x.srcOk = true ∧ s.noRoom x.lane x.base (hword x.img 2) = false ∧
       crc32 ((x.img.drop 0x40).take (hword x.img 8 - 0x40)) = hword x.img 9 ∧ x.img.length = hword x.img 8 ∧
       u = State.wrBytes { s with load := none } (0x840000 + 8 * x.base) ((x.img.drop (codeAt x.img)).take (8 * hword x.img 2)) ∧
       ws = (List.range (hword x.img 2)).map (fun k => PWord.ofNat (cval x.img (codeAt x.img + 8 * k) 8)) ∧
       decls = (unitTable x.img).map declOf ∧ u.tableCode x.lane (unitTable x.img) 0 [] = none ∧
       u.codeCode x.lane decls ws ws 0 = none ∧ flowCode ws (hword x.img 5) = none ∧ hword x.img 6 = 0) :=
  ⟨
    ⟨ld1 [], {up.setLst 2 1 with load := some (ld1 [])}, by decide +kernel⟩,
    ⟨ld1 (mkImg false [1] [] 0 0), {up.setLst 2 1 with load := some (ld1 (mkImg false [1] [] 0 0))},
       by decide +kernel⟩,
    ⟨ld1 img1, (List.range 3).map (fun k => PWord.ofNat (cval img1 (codeAt img1 + 8 * k) 8)),
       (unitTable img1).map declOf,
       ({((up.setLst 2 1).put DESC_W6.GRANTED 0x603 1).put DESC_W6.LANE 0x603 2 with load := some (ld1 img1)}),
       State.wrBytes { ({((up.setLst 2 1).put DESC_W6.GRANTED 0x603 1).put DESC_W6.LANE 0x603 2 with load := some (ld1 img1)} : State) with load := none } (0x840000 + 8 * 500) ((img1.drop (codeAt img1)).take 24),
       inv_ok (by decide +kernel), by decide +kernel⟩⟩

theorem witness_DescriptorWrites :
    (∃ (m : Master) (u : Nat) (data : Nat) (s : State), s.Takes m .DESC_W1 u data ∧ 0x700 ≤ u ∧ u < 0x800 ∧
       s.unitBusy u = false ∧ s.flag DESC_W0.VALID u = false) ∧
    (∃ (m : Master) (u : Nat) (data : Nat) (s : State), s.Takes m .DESC_W0 u data ∧ 0x700 ≤ u ∧ u < 0x800 ∧
       s.unitBusy u = false ∧ s.flag DESC_W0.VALID u = false ∧ bitAt data 27 = false) ∧
    (∃ (m : Master) (u : Nat) (data : Nat) (s : State), s.Takes m .DESC_W2 u data ∧ 0x700 ≤ u ∧ u < 0x800 ∧
       s.unitBusy u = false ∧ s.flag DESC_W0.VALID u = false) ∧
    (∃ (m : Master) (r : Reg) (w : Nat) (u : Nat) (data : Nat) (s : State), s.Takes m r u data ∧ s.room ∧
       (r, w) ∈ [(Reg.DESC_W0, 0), (.DESC_W1, 1), (.DESC_W2, 2), (.DESC_W3, 3), (.DESC_W4, 4), (.DESC_W5, 5),
         (.DESC_W6, 6), (.DESC_W7, 7)] ∧
       (u < 0x700 ∨ s.unitBusy u = true ∨ (s.flag DESC_W0.VALID u = false ∧ 3 ≤ w) ∨ (s.flag DESC_W0.VALID u = true ∧
         (w ≠ 0 ∨ bitAt data 27 = true)))) ∧
    (∃ (m : Master) (u : Nat) (data : Nat) (s : State), s.Takes m .DESC_W0 u data ∧ 0x700 ≤ u ∧ u < 0x800 ∧
       s.unitBusy u = false ∧ s.flag DESC_W0.VALID u = false ∧ bitAt data 27 = true) ∧
    (∃ (m : Master) (u : Nat) (data : Nat) (s : State), s.Takes m .DESC_W0 u data ∧ 0x700 ≤ u ∧ u < 0x800 ∧
       s.unitBusy u = false ∧ s.flag DESC_W0.VALID u = true ∧ bitAt data 27 = false) :=
  ⟨
    ⟨.sup 1, 0x705, 0x81005600, up, takes_ok (by decide +kernel), by decide +kernel⟩,
    ⟨.sup 1, 0x703, 0x60000000, up, takes_ok (by decide +kernel), by decide +kernel⟩,
    ⟨.sup 1, 0x705, 0x81405608, up, takes_ok (by decide +kernel), by decide +kernel⟩,
    ⟨.sup 1, .DESC_W3, 3, 0x605, 0x81405608, up, takes_ok (by decide +kernel), by unfold State.room; decide +kernel,
       by decide +kernel⟩,
    ⟨.sup 1, 0x705, 0x68000000, up, takes_ok (by decide +kernel), by decide +kernel⟩,
    ⟨.sup 1, 0x705, 0x60000000, up.put DESC_W0.VALID 0x705 1, takes_ok (by decide +kernel), by decide +kernel⟩⟩

theorem witness_GroupsCapabilityAndGrants :
    (∃ (u : Nat) (l : List Nat) (s : State), u < 0x800 ∧ s.unitPend.contains (u, false) = true ∧
       s.get DESC_W0.KIND u = 6 ∧ s.get DESC_W1.LIST u = 0 ∧ s.get DESC_W1.STRIDE u ≠ 0 ∧ 0 < s.get DESC_W1.COUNT u ∧
       s.get DESC_W1.COUNT u ≤ 256 ∧
       l = (List.range (s.get DESC_W1.COUNT u)).map (fun k => s.get DESC_W1.FIRST u + k * s.get DESC_W1.STRIDE u) ∧
       s.groupCode l = 0 ∧ u ∉ l) ∧
    (∃ (u : Nat) (l : List Nat) (s : State), s.unitPend.contains (u, false) = true ∧ s.get DESC_W0.KIND u = 6 ∧
       s.get DESC_W1.LIST u = 0 ∧ s.get DESC_W1.STRIDE u ≠ 0 ∧ 0 < s.get DESC_W1.COUNT u ∧
       s.get DESC_W1.COUNT u ≤ 256 ∧
       l = (List.range (s.get DESC_W1.COUNT u)).map (fun k => s.get DESC_W1.FIRST u + k * s.get DESC_W1.STRIDE u) ∧
       s.groupCode l ≠ 0) ∧
    (∃ (u : Nat) (s : State), s.unitPend.contains (u, false) = true ∧ s.get DESC_W0.KIND u ≠ 6) ∧
    (∃ (u : Nat) (s : State), s.unitPend.contains (u, true) = true ∧ (tget [] s.groupMembers u).Nodup ∧
       u ∉ tget [] s.groupMembers u) ∧
    (∃ (ph : Nat) (s : State), ph < 1536 ∧ s.flag DESC_W0.VALID ph = true ∧
       s.flag DESC_W0.VALID (0x600 + ph / 8) = true ∧
       ¬ (s.flag DESC_W5.STRUCK ph = ((s.phase ph).st == .struck) ∧
         s.flag DESC_W5.FUSED ph = ((s.phase ph).st == .fused))) ∧
    (∃ (ph : Nat) (s : State), ph < 1536 ∧ s.flag DESC_W5.STRUCK ph = ((s.phase ph).st == .struck) ∧
       s.flag DESC_W5.FUSED ph = ((s.phase ph).st == .fused)) ∧
    (∃ (lane : Nat) (u : Nat) (s : State), u < 0x800 ∧ s.flag DESC_W0.VALID u = true ∧ s.grantStale u = true ∧
       (s.grantOf u = some lane ∨ (s.flag DESC_W6.GRANTED u = true ∧ s.get DESC_W6.LANE u = lane))) :=
  ⟨
    ⟨0x705, [0x603,0x604,0x605], grp 0x705 0x603 1 3 up, by decide +kernel⟩,
    ⟨0x705, [0x706], grp 0x705 0x706 8 1 up, by decide +kernel⟩,
    ⟨0x705, {(grp 0x705 0x5FD 14 2 up).put DESC_W0.KIND 0x705 5 with unitPend := [(0x705,false),(0x706,true)]},
       by decide +kernel⟩,
    ⟨0x705,
       {(grp 0x705 0x603 1 2 up).put DESC_W7.GROUP_REFS 0x603 3 with unitPend := [(0x705,true),(0x706,true)], groupMembers := [(0x705,[0x603,0x604])]},
       by decide +kernel⟩,
    ⟨9, up.setPhase 9 {st := .struck}, by decide +kernel⟩,
    ⟨9, up, by decide +kernel⟩,
    ⟨2, 0x603, crewGrant 2 3 up, by decide +kernel⟩⟩

theorem witness_ForecastPortsAndWindows :
    (∃ (tile : Nat) (w : Nat) (words : List Nat) (width : Nat) (s : State), tile < 9216 ∧ w < 64 ∧
       width ∈ [8, 16, 32, 48, 64] ∧ s.fcHeld.any (fun r => r.tile == tile) = false ∧ s.get FCW_STAT.STATE w ≠ 0 ∧
       s.hasCredit (tilePort tile) w = true) ∧
    (∃ (tile : Nat) (w : Nat) (words : List Nat) (width : Nat) (s : State), tile < 9216 ∧ w < 64 ∧
       width ∈ [8, 16, 32, 48, 64] ∧ s.fcHeld.any (fun r => r.tile == tile) = false ∧ s.get FCW_STAT.STATE w = 0) ∧
    (∃ (tile : Nat) (w : Nat) (words : List Nat) (width : Nat) (s : State), tile < 9216 ∧ w < 64 ∧
       width ∈ [8, 16, 32, 48, 64] ∧ s.fcHeld.any (fun r => r.tile == tile) = false ∧ s.get FCW_STAT.STATE w ≠ 0 ∧
       s.hasCredit (tilePort tile) w = false ∧
       (∀ e ∈ tget [] s.fcPort (tilePort tile),
         e.win = w → e.credit = true → e.cyc = s.now → e.shown = s.now → e.tile ≤ tile)) ∧
    (∃ (tile : Nat) (w : Nat) (words : List Nat) (width : Nat) (q : List FRec) (e : FRec) (s : State), tile < 9216 ∧
       w < 64 ∧ width ∈ [8, 16, 32, 48, 64] ∧ s.fcHeld.any (fun r => r.tile == tile) = false ∧
       s.get FCW_STAT.STATE w ≠ 0 ∧ s.hasCredit (tilePort tile) w = false ∧
       tget [] s.fcPort (tilePort tile) = q ++ [e] ∧ e ∉ q ∧ e.win = w ∧ e.credit = true ∧ e.cyc = s.now ∧
       e.shown = s.now ∧ tile < e.tile) ∧
    (∃ (r : FRet) (rest : List FRet) (s : State), s.fcRet = r :: rest ∧ s.fcHeld = [] ∧ r.credit = true) ∧
    (∃ (w : Nat) (rest : List Nat) (s : State), s.fcArr = w :: rest) ∧
    (∃ (m : Master) (w : Nat) (data : Nat) (s : State), s.Takes m .FCW_CFG w data ∧
       s.cfgRefused w (data % 2 ^ 32) = true) ∧
    (∃ (m : Master) (w : Nat) (data : Nat) (s : State), s.Takes m .FCW_CFG w data ∧
       s.cfgRefused w (data % 2 ^ 32) = false ∧ s.fcHeld = []) ∧
    (∃ (w : Nat) (s : State), s.get FCW_STAT.STATE w = 2) ∧
    (∃ (m : Master) (w : Nat) (data : Nat) (rd : Nat) (n : Nat) (d : Nat) (s : State), s.Takes m .FCW_PTR w data ∧
       rd = FCW_PTR.RD.ofWord data ∧ n = 128 * (s.get FCW_CFG.CREDITS w + 1) ∧
       d = (rd + n - s.get FCW_PTR.RD w) % n ∧ s.flag FCW_CFG.KEEP w = true ∧ rd < n ∧
       d ≤ (tget [] s.fcUnread w).length) ∧
    (∃ (m : Master) (w : Nat) (data : Nat) (rd : Nat) (n : Nat) (s : State), s.Takes m .FCW_PTR w data ∧
       rd = FCW_PTR.RD.ofWord data ∧ n = 128 * (s.get FCW_CFG.CREDITS w + 1) ∧
       (n ≤ rd ∨ (tget [] s.fcUnread w).length < (rd + n - s.get FCW_PTR.RD w) % n)) ∧
    (∃ (m : Master) (w : Nat) (data : Nat) (s : State), s.Takes m .FCW_PTR w data ∧ s.flag FCW_CFG.KEEP w = false) :=
  ⟨
    ⟨64, 5, [7], 16,
       {((up.put FCW_CFG.EN 5 1).put FCW_STAT.STATE 5 1) with now := 9, fcPort := [(tilePort 70, [{sfr 5 with port := tilePort 70, cyc := 9, shown := 9}])]},
       by decide +kernel⟩,
    ⟨64, 5, [7], 16,
       {up with now := 9, fcPort := [(tilePort 70, [{sfr 5 with port := tilePort 70, cyc := 9, shown := 9}])]},
       by decide +kernel⟩,
    ⟨9215, 62, [1,2], 8, {up.put FCW_STAT.STATE 62 2 with fcOut := [(64*tilePort 9215+62, 600)]}, by decide +kernel⟩,
    ⟨64, 5, [7], 16, [], {sfr 5 with port := tilePort 70, cyc := 9, shown := 9},
       {((up.put FCW_CFG.EN 5 1).put FCW_STAT.STATE 5 1) with now := 9, fcOut := [(64 * tilePort 70 + 5, 128)], fcPort := [(tilePort 70, [{sfr 5 with port := tilePort 70, cyc := 9, shown := 9}])]},
       by decide +kernel⟩,
    ⟨⟨3,70,5,1,true⟩, [⟨3,70,5,2,true⟩],
       {up.put FCW_STAT.OUT 5 2 with fcOut := [(64*3+5,2)], fcRet := [⟨3,70,5,1,true⟩,⟨3,70,5,2,true⟩]},
       by decide +kernel⟩,
    ⟨5, [6], {up with fcArr := [5,6]}, by decide +kernel⟩,
    ⟨.sup 1, 5, 0x3, up.put FCW_STAT.STATE 5 2, takes_ok (by decide +kernel), by decide +kernel⟩,
    ⟨.sup 1, 5, 0x1, up, takes_ok (by decide +kernel), by decide +kernel⟩,
    ⟨5, (up.put FCW_CFG.EN 5 1).put FCW_STAT.STATE 5 2, by decide +kernel⟩,
    ⟨.sup 1, 5, FCW_PTR.RD.inWord 0 1, 1, 256, 2,
       {(((up.put FCW_CFG.CREDITS 5 1).put FCW_CFG.KEEP 5 1).put FCW_PTR.RD 5 255) with fcUnread := [(5,[⟨3,70,5,1,true⟩,⟨3,71,5,1,true⟩,⟨3,72,5,1,true⟩])]},
       takes_ok (by decide +kernel), by decide +kernel⟩,
    ⟨.sup 1, 5, FCW_PTR.RD.inWord 0 1, 1, 256,
       {(((up.put FCW_CFG.CREDITS 5 1).put FCW_CFG.KEEP 5 1).put FCW_PTR.RD 5 255) with fcUnread := [(5,[⟨3,70,5,1,true⟩])]},
       takes_ok (by decide +kernel), by decide +kernel⟩,
    ⟨.sup 1, 5, FCW_PTR.RD.inWord 0 1, ((up).put FCW_PTR.RD 5 127), takes_ok (by decide +kernel), by decide +kernel⟩⟩

theorem witness_ForecastIntake :
    (∃ (f : Nat) (s : State), (∀ k, k < 16 → ∀ r rest, tget [] s.fcPort (16 * f + k) = r :: rest → s.now ≤ r.cyc) ∧
       s.cyc.on = true) ∧
    (∃ (f : Nat) (k : Nat) (s : State), s.fcNext f = some k) ∧
    (∃ (f : Nat) (k : Nat) (r : FRec) (rest : List FRec) (st : Nat) (s : State), s.fcNext f = some k ∧
       tget [] s.fcPort (16 * f + k) = r :: rest ∧
       ((s.get FCW_STAT.STATE r.win = 0 ∧ st = 3) ∨ (s.get FCW_STAT.STATE r.win = 1 ∧ st = 2) ∨
         (s.get FCW_STAT.STATE r.win = 2 ∧ r.malformed = true ∧ st = 4))) ∧
    (∃ (f : Nat) (k : Nat) (r : FRec) (rest : List FRec) (s : State), s.fcNext f = some k ∧
       tget [] s.fcPort (16 * f + k) = r :: rest ∧ s.get FCW_STAT.STATE r.win = 2 ∧ r.malformed = false ∧
       s.get FCW_CFG.KEEP r.win = 0) ∧
    (∃ (f : Nat) (k : Nat) (r : FRec) (rest : List FRec) (s : State), s.Inv ∧ s.fcNext f = some k ∧
       tget [] s.fcPort (16 * f + k) = r :: rest ∧ s.get FCW_STAT.STATE r.win = 2 ∧ r.malformed = false ∧
       s.get FCW_CFG.KEEP r.win = 1) :=
  ⟨
    ⟨0, {up with now := 5, cyc := {on := true}, fcPort := [(0, [{sfr 5 with cyc := 5}])]},
       heads_ok (by decide +kernel), by decide +kernel⟩,
    ⟨0, 2,
       {up with now := 5, cyc := {on := true}, fcPort := [(1, [{sfr 5 with cyc := 5}]), (2, [{sfr 5 with cyc := 4}])]},
       by decide +kernel⟩,
    ⟨0, 0, ⟨0,70,5,[1,500],16,⟨0,5⟩,64,500,true,0,0⟩, [⟨0,71,5,[1,500],16,⟨0,5⟩,64,500,true,0,0⟩], 3,
       {up with fcPort := [(0, [⟨0,70,5,[1,500],16,⟨0,5⟩,64,500,true,0,0⟩, ⟨0,71,5,[1,500],16,⟨0,5⟩,64,500,true,0,0⟩])]},
       by decide +kernel⟩,
    ⟨0, 0, ⟨0,70,5,[0x20000001,500],16,⟨0,5⟩,64,500,true,0,0⟩, [],
       {(up.put FCW_STAT.STATE 5 2).put FCW_CFG.MIN_LEAD 5 3 with fcPort := [(0, [⟨0,70,5,[0x20000001,500],16,⟨0,5⟩,64,500,true,0,0⟩])]},
       by decide +kernel⟩,
    ⟨0, 0, ⟨0,70,5,[0x10800005,500,0,0xFFFE0003],16,⟨0,5⟩,64,500,true,0,0⟩, [],
       {((up.put FCW_STAT.STATE 5 2).put FCW_CFG.KEEP 5 1).put FCW_RING.BASE 5 0xFFF with fcPort := [(0, [⟨0,70,5,[0x10800005,500,0,0xFFFE0003],16,⟨0,5⟩,64,500,true,0,0⟩])]},
       inv_ok (by decide +kernel), by decide +kernel⟩⟩

theorem witness_HeatsAndStretches :
    (∃ (tile : Nat) (cls : Nat) (s : State), tile < 9216 ∧
       (s.mar (tileField tile)).queue.any (fun e => e.tile == tile) = true) ∧
    (∃ (tile : Nat) (cls : Nat) (s : State), tile < 9216 ∧
       (s.mar (tileField tile)).queue.any (fun e => e.tile == tile) = false ∧ s.vlgOn (tileField tile) = true ∧
       s.heatsHeld = false) ∧
    (∃ (f : Nat) (half : Bool) (n : Nat) (s : State), s.heatsHeld = false ∧ s.vlgOn f = true ∧
       (s.mar f).seq = .running half ∧ (s.mar f).arrived s.now ≠ [] ∧
       n = heatTake ((if half then 5 else 10) * min (s.get MSH_CTL.BUDGET f) (s.get CAP_HEAT.BUDGET f)) ((s.mar f).arrived s.now) 0 ∧
       n ≠ 0) ∧
    (∃ (f : Nat) (half : Bool) (s : State), s.heatsHeld = false ∧ s.vlgOn f = true ∧ (s.mar f).seq = .running half ∧
       (s.mar f).arrived s.now = []) ∧
    (∃ (f : Nat) (g : List Nat) (rest : List (List Nat)) (s : State), (s.mar f).grants = g :: rest) ∧
    (∃ (f : Nat) (s : State), s.room ∧ s.get MSH_CTL.MODE f ≠ 0 ∧ (s.mar f).arrived s.now ≠ [] ∧
       (s.mar f).seq = .none ∧ s.vlgOn f = true ∧ s.heatsHeld = false) ∧
    (∃ (r : Nat) (s : State), r < 24 ∧ s.strReq.contains r = true ∧ s.xcalHold = false) ∧
    (∃ (r : Nat) (s : State), s.xcalHold = true) ∧
    (∃ (r : Nat) (d : Int) (s : State), r < 24 ∧ s.alignLead r = some d ∧ s.flag MSH_ALIGN_CTL.ALIGN_EN 0 = true ∧
       s.xcalHold = false ∧ thas s.strTarget r = false) :=
  ⟨
    ⟨70, 4, {up with msh := [(0, {queue := [⟨70,3,0,0⟩]})]}, by decide +kernel⟩,
    ⟨70, 12,
       {forAll (planeCrews 0) (fun s c => s.setCst c 3) up with now := 9, msh := [(0, {queue := [⟨71,3,4,4⟩]})]},
       by decide +kernel⟩,
    ⟨0, false, 3,
       {(forAll (planeCrews 0) (fun s c => s.setCst c 3) up) with now := 9, msh := [(0, {queue := [⟨71,7,1,1⟩,⟨72,7,1,1⟩,⟨73,7,2,2⟩,⟨74,7,10,10⟩], seq := .running false})]},
       by decide +kernel⟩,
    ⟨0, true,
       {((forAll (planeCrews 0) (fun s c => s.setCst c 3) up).put MSH_CTL.BUDGET 0 4) with msh := [(0, {queue := [], seq := .running true, lastHeat := some 5})]},
       by decide +kernel⟩,
    ⟨3, [1,2], [[3]], {up with msh := [(3, {grants := [[1,2],[3]]})]}, by decide +kernel⟩,
    ⟨0,
       {((forAll (planeCrews 0) (fun s c => s.setCst c 3) up).put MSH_CTL.MODE 0 1) with now := 10, msh := [(0, {queue := [⟨71,7,1,1⟩]})]},
       by unfold State.room; decide +kernel, by decide +kernel⟩,
    ⟨3, {up with strReq := [3,4]}, by decide +kernel⟩,
    ⟨3, {up with xcalHold := true}, by decide +kernel⟩,
    ⟨3, 500,
       (((up.put MSH_XMAP.MAP 3 1).put MSH_STR_CNT.STRETCHES 0 500).put MSH_ALIGN_CTL.ALIGN_EN 0 1).put MSH_ALIGN_CTL.ALIGN_TH 0 4,
       by decide +kernel⟩⟩

theorem witness_EstimatorAndCapping :
    (∃ (counts : List (Nat × List Nat)) (b : List Byte) (s : State), s.get EST_CTL.SRC 0 ≠ 0 ∧
       b = tget [] s.models (s.get EST_CTL.SRC 0 - 1) ∧ (counts.map (·.1)).Nodup) ∧
    (∃ (m : Master) (data : Nat) (v : Nat) (s : State), s.Takes m .EST_CTL 0 data ∧ v = EST_CTL.SRC.ofWord data) ∧
    (∃ (m : Master) (data : Nat) (s : State), s.Takes m .EST_CTL 0 data ∧ EST_CTL.FW_LOAD.ofWord data = 1) ∧
    (∃ (a : Nat) (n : Nat) (b : List Byte) (s : State), s.clean ∧ s.estCheck = some a ∧
       s.get ID_MEM_STAT.BANKS 0 = 0 ∧ a % 8 = 0 ∧ 0x400000 ≤ a ∧ n = 32 + s.rd 4 (a + 28) ∧ a + n ≤ 0x800000 ∧
       s.permits 5 a n true false = true ∧ s.permits 5 a 32 true false = true ∧ b = mgetList 0 s.mem a n) ∧
    (∃ (a : Nat) (s : State), s.estCheck = some a ∧ (a % 8 ≠ 0 ∨ a < 0x400000 ∨ 0x800000 < a + 32)) ∧
    (∃ (s : State), s.Inv) :=
  ⟨
    ⟨[(3,[1,2,3,4,5,6,7,70000]),(9000,[1])], est1, {up.put EST_CTL.SRC 0 9 with models := [(8, est1)]},
       by decide +kernel⟩,
    ⟨.sup 1, 9, 9, {up with models := [(8, est1)]}, takes_ok (by decide +kernel), by decide +kernel⟩,
    ⟨.sup 1, EST_CTL.FW_LOAD.inWord 0 1, up.put EST_FW_ADDR.ADDR 0 0x400010, takes_ok (by decide +kernel),
       by decide +kernel⟩,
    ⟨0x400010, 56, est1, {(up.wrBytes 0x400010 est1) with estCheck := some 0x400010},
       by unfold State.clean; decide +kernel, by decide +kernel⟩,
    ⟨0x400011, {(up.wrBytes 0x400010 est1) with estCheck := some 0x400011}, by decide +kernel⟩,
    ⟨up, inv_ok (by decide +kernel)⟩⟩

theorem witness_SensorReadings :
    (∃ (k : Nat) (reading : Int) (v : Int) (s : State), k < 960 ∧ (192 ≤ k → -32768 ≤ reading ∧ reading < 32768) ∧
       v = (if k < 192 then (s.crew k).temp else reading) ∧ (s.sensor k).cur = none) ∧
    (∃ (k : Nat) (reading : Int) (v : Int) (w : Int) (u : Nat) (s : State), k < 960 ∧
       (192 ≤ k → -32768 ≤ reading ∧ reading < 32768) ∧ v = (if k < 192 then (s.crew k).temp else reading) ∧
       (s.sensor k).cur = some (w, u) ∧ isSpike (s.sensor k).pred w v = false ∧ s.flag THM_SENS.BROKEN k = false ∧
       (w < -220 ∨ 700 < w)) ∧
    (∃ (k : Nat) (reading : Int) (v : Int) (w : Int) (u : Nat) (s : State), k < 960 ∧
       (192 ≤ k → -32768 ≤ reading ∧ reading < 32768) ∧ v = (if k < 192 then (s.crew k).temp else reading) ∧
       (s.sensor k).cur = some (w, u) ∧ isSpike (s.sensor k).pred w v = false ∧ s.flag THM_SENS.BROKEN k = false ∧
       -220 ≤ w ∧ w ≤ 700 ∧ s.getI THM_THRESH1.T_CRIT 0 ≤ w ∧ (s.sensor k).crit = false ∧ s.stop ≠ .critical ∧
       (s.flag FLT_STAT.SAFE 0 = false ∨ s.stopDone = false)) ∧
    (∃ (k : Nat) (reading : Int) (v : Int) (w : Int) (u : Nat) (s : State), k < 960 ∧
       (192 ≤ k → -32768 ≤ reading ∧ reading < 32768) ∧ v = (if k < 192 then (s.crew k).temp else reading) ∧
       (s.sensor k).cur = some (w, u) ∧ isSpike (s.sensor k).pred w v = false ∧ s.flag THM_SENS.BROKEN k = false ∧
       -220 ≤ w ∧ w ≤ 700 ∧ s.getI THM_THRESH0.T_THROTTLE 0 ≤ w ∧ s.throttled (sensorRegion k) = false ∧
       s.flag THM_CTL.MODE 0 = false ∧ s.notices.length < 64) ∧
    (∃ (k : Nat) (reading : Int) (v : Int) (w : Int) (u : Nat) (s : State), k < 960 ∧
       (192 ≤ k → -32768 ≤ reading ∧ reading < 32768) ∧ v = (if k < 192 then (s.crew k).temp else reading) ∧
       (s.sensor k).cur = some (w, u) ∧ isSpike (s.sensor k).pred w v = true ∧ s.flag THM_SENS.BROKEN k = false ∧
       2 ≤ ((s.sensor k).spikes.filter fun v => decide (u ≤ v + 50000000)).length) ∧
    (∃ (k : Nat) (dv : Int) (v : Int) (u : Nat) (rest : List (Int × Nat)) (s : State), (s.sensor k).conf = (v,
      u) :: rest ∧
       biasOk dv v = false ∧ (s.sensor k).biasFails = 0) ∧
    (∃ (k : Nat) (dv : Int) (s : State), (s.sensor k).conf = []) ∧
    (∃ (k : Nat) (dv : Int) (v : Int) (u : Nat) (rest : List (Int × Nat)) (s : State), s.room ∧ k < 960 ∧
       (s.sensor k).conf = (v, u) :: rest ∧ biasOk dv v = false ∧ 1 ≤ (s.sensor k).biasFails ∧
       s.flag THM_SENS.BROKEN k = false) ∧
    (∃ (k : Nat) (n : Nat) (b : Bool) (dv : Int) (v : Int) (u : Nat) (rest : List (Int × Nat)) (s : State), k < 960 ∧
       s.flag THM_SENS.BROKEN k = true ∧ (s.sensor k).retest = some (n, b) ∧ 16 ≤ n ∧
       (s.sensor k).conf = (v, u) :: rest ∧ biasOk dv v = true) ∧
    (∃ (k : Nat) (s : State), s.room ∧ k < 192 ∧ s.flag THM_SENS.BROKEN k = false) ∧
    (∃ (m : Master) (k : Nat) (data : Nat) (s : State), s.Takes m .THM_SENS k data ∧ THM_SENS.RETEST.ofWord data = 1) ∧
    (∃ (m : Master) (k : Nat) (data : Nat) (sub : Nat) (ok : Bool) (s : State), s.Takes m .THM_SUBST k data ∧
       bitAt data 31 = true ∧ sub = bits data 9 0 ∧
       ok = (s.flag THM_SENS.BROKEN k && decide (sub < 960) && !s.flag THM_SENS.BROKEN sub && !s.flag THM_SENS.SUBST sub && decide (((s.get THM_POS.X k : Int) - s.get THM_POS.X sub) * ((s.get THM_POS.X k : Int) - s.get THM_POS.X sub) + ((s.get THM_POS.Y k : Int) - s.get THM_POS.Y sub) * ((s.get THM_POS.Y k : Int) - s.get THM_POS.Y sub) ≤ 200 * 200))) :=
  ⟨
    ⟨500, 300, 300, up, by decide +kernel⟩,
    ⟨500, 300, 300, -230, 7, snr 500 (fun x => {x with cur := some (-230,7)}) up, by decide +kernel⟩,
    ⟨500, 300, 300, 600, 7, snr 500 (fun x => {x with cur := some (600,7)}) up, by decide +kernel⟩,
    ⟨500, 300, 300, 450, 7, snr 500 (fun x => {x with cur := some (450,7)}) up, by decide +kernel⟩,
    ⟨500, 300, 300, 450, 7, snr 500 (fun x => {x with cur := some (450,7), pred := some 310, spikes := [3,4]}) up,
       by decide +kernel⟩,
    ⟨500, 1000000, 100, 5, [], snr 500 (fun x => {x with conf := [(100,5)]}) up, by decide +kernel⟩,
    ⟨500, 1000000, snr 500 (fun x => {x with biasFails := 1}) up, by decide +kernel⟩,
    ⟨500, 1000000, 100, 5, [], snr 500 (fun x => {x with conf := [(100,5)], biasFails := 1}) up,
       by unfold State.room; decide +kernel, by decide +kernel⟩,
    ⟨500, 16, false, 17800000, 100, 5, [],
       snr 500 (fun x => {x with conf := [(100,5)], retest := some (16,false)}) (up.put THM_SENS.BROKEN 500 1),
       by decide +kernel⟩,
    ⟨50, up, by unfold State.room; decide +kernel, by decide +kernel⟩,
    ⟨.sup 1, 50, THM_SENS.RETEST.inWord 0 1, up, takes_ok (by decide +kernel), by decide +kernel⟩,
    ⟨.sup 1, 500, 0x805001F5, 501, true,
       (snr 501 (fun x => {x with conf := [(300,5)]}) (up.put THM_SENS.BROKEN 500 1)), takes_ok (by decide +kernel),
       by decide +kernel⟩⟩

theorem witness_ThrottleCourse :
    (∃ (r : Nat) (s : State), s.room ∧ r < 24 ∧ s.throttled r = true ∧ s.flag THM_REG.GRACE r = true ∧
       (s.regionHot r || s.regionSlow r) = true ∧ s.get THM_CTL.RATE_MIN 0 < s.get CAP_RATE_REG.THM r ∧
       s.get CAP_RATE_REG.THM r ≤ 16) ∧
    (∃ (r : Nat) (s : State), (s.throttled r = false ∨ s.flag THM_REG.GRACE r = false)) ∧
    (∃ (r : Nat) (s : State), s.flag THM_CTL.MODE 0 = false ∧ s.throttled r = true ∧
       s.flag THM_REG.ENFORCE r = true ∧ (s.regionHot r || s.regionSlow r) = true ∧ s.get CAP_RATE_REG.THM r ≤ 16) ∧
    (∃ (r : Nat) (s : State), s.flag THM_CTL.MODE 0 = false ∧ s.throttled r = false) ∧
    (∃ (r : Nat) (v : Int) (s : State), s.flag THM_CTL.MODE 0 = true ∧ s.tRegion r = some v ∧
       s.flag THM_REG.HELD r = false ∧ s.get THM_CTL.RATE_MIN 0 ≤ 16) ∧
    (∃ (p : Nat) (r : Nat) (x : Rat) (s : State), (s.plane p).thmStart = some x ∧ r ∈ planeRegions p ∧
       s.flag THM_REG.ENFORCE r = true ∧ s.get CAP_RATE_REG.THM r = s.get THM_CTL.RATE_MIN 0 ∧
       (s.regn r).falling = false) ∧
    (∃ (r : Nat) (v : Int) (s : State), s.room ∧ r < 24 ∧ s.throttled r = true ∧ s.regionCause r = false ∧
       s.tRegion r = some v ∧ v < s.getI THM_THRESH0.T_THROTTLE 0 - 8) ∧
    (∃ (r : Nat) (s : State), (s.throttled r = false ∨ s.regionCause r = true)) :=
  ⟨
    ⟨3, snr 500 (fun x => x) ((rgnHot 3 (up.put THM_STAT.THROTTLE 0 8)).put THM_REG.GRACE 3 1),
       by unfold State.room; decide +kernel, by decide +kernel⟩,
    ⟨3, up, by decide +kernel⟩,
    ⟨3, (rgnHot 3 (up.put THM_STAT.THROTTLE 0 8)).put THM_REG.ENFORCE 3 1, by decide +kernel⟩,
    ⟨3, (up.put CAP_RATE_REG.THM 3 5), by decide +kernel⟩,
    ⟨3, 460, (rgnHot 3 (up.put CAP_RATE_REG.THM 3 5)).put THM_CTL.MODE 0 1, by decide +kernel⟩,
    ⟨4, 3, 1000,
       {((up.put THM_REG.ENFORCE 3 1).put CAP_RATE_REG.THM 3 (up.get THM_CTL.RATE_MIN 0)) with planes := [(4, {thmStart := some 1000, thmDrops := 5})]},
       by decide +kernel⟩,
    ⟨3, 300,
       (snr ((regionSensors 3).headD 0) (fun x => {x with conf := [(300,5)]}) ((up.put THM_STAT.THROTTLE 0 0x18).put THM_REG.ENFORCE 3 1)),
       by unfold State.room; decide +kernel, by decide +kernel⟩,
    ⟨3, up, by decide +kernel⟩⟩

theorem witness_StopsOfTheBlock :
    (∃ (s : State), s.flag THM_STAT.COOLANT 0 = false ∧ s.coolantPin = true ∧
       (s.flag FLT_STAT.SAFE 0 = false ∨ s.stopDone = false)) ∧
    (∃ (s : State), s.flag THM_STAT.COOLANT 0 = true ∧ s.coolantPin = false ∧
       (s.flag FLT_STAT.SAFE 0 = false ∨ s.stopDone = false)) ∧
    (∃ (s : State), s.stop = .controlled ∧ s.stopDomain = none) ∧
    (∃ (s : State), s.stop ≠ .controlled) ∧
    (∃ (s : State), s.stopIssued = true) ∧
    (∃ (p : Nat) (s : State), p < 32 ∧ (s.plane p).discharging = true ∧ s.orderly = false) ∧
    (∃ (p : Nat) (s : State), (s.plane p).discharging = false) :=
  ⟨
    ⟨{up with coolantPin := true}, by decide +kernel⟩,
    ⟨up.put THM_STAT.COOLANT 0 1, by decide +kernel⟩,
    ⟨{forAll (planeCrews 11) (fun s c => s.setCst c 3) up with stop := .controlled}, by decide +kernel⟩,
    ⟨up, by decide +kernel⟩,
    ⟨{forAll (planeCrews 11) (fun s c => s.setCst c 3) (onCrewSt 3) with stopIssued := true, stop := .critical},
       by decide +kernel⟩,
    ⟨11,
       {(forAll (planeCrews 11) (fun s c => s.setCst c 3) (onCrewSt 3)).onPlane 11 (fun q => {q with discharging := true, powered := true}) with stop := .critical},
       by decide +kernel⟩,
    ⟨11, up, by decide +kernel⟩⟩

theorem witness_ShutdownLog :
    (∃ (r : LogRec) (rest : List LogRec) (s : State), s.Inv ∧ s.logQ = r :: rest ∧ r.words.length = 13 ∧
       (∀ k, k < 64 → mget 0xFF#8 s.flash (ringOfs (s.get THM_LOG_STAT.NEXT_SLOT 0) + k) = 0xFF#8) ∧
       (s.get THM_LOG_STAT.FIRST_USED 0 < 8 → ∀ k,
         k < 64 → mget 0xFF#8 s.flash (firstOfs (s.get THM_LOG_STAT.FIRST_USED 0) + k) = 0xFF#8)) ∧
    (∃ (r : LogRec) (rest : List LogRec) (s : State), s.room ∧ s.logQ = r :: rest) ∧
    (∃ (k : Nat) (s : State), s.Inv ∧ s.logErase = some k ∧ s.stop = .none ∧ s.vsbLow = false) ∧
    (∃ (s : State), (s.stop ≠ .none ∨ s.vsbLow = true)) :=
  ⟨
    ⟨⟨[1,2,3,4,5,6,7,8,9,10,11,12,13]⟩, [], {up with logQ := [⟨[1,2,3,4,5,6,7,8,9,10,11,12,13]⟩]},
       inv_ok (by decide +kernel), by decide +kernel⟩,
    ⟨⟨[1,2,3,4,5,6,7,8,9,10,11,12,13]⟩, [⟨[2]⟩],
       {(up.put THM_LOG_STAT.FIRST_USED 0 8).put THM_LOG_STAT.NEXT_SLOT 0 63 with logQ := [⟨[1,2,3,4,5,6,7,8,9,10,11,12,13]⟩,⟨[2]⟩]},
       by unfold State.room; decide +kernel, by decide +kernel⟩,
    ⟨3, {up with logErase := some 3, flash := [(0x10,0), (ringOfs 24 + 4, 5)]}, inv_ok (by decide +kernel),
       by decide +kernel⟩,
    ⟨{up with stop := .critical}, by decide +kernel⟩⟩

theorem witness_RegattaMessages :
    (∃ (m : List Nat) (i : Instr) (s : State), i ∈ [Instr.report m, .regattaGrant m, .join m, .done m, .notice m,
      .noticeAll m] ∧
       s.flag RGT_CTL.EN 0 = false ∧ s.msgGood m = true) ∧
    (∃ (m : List Nat) (i : Instr) (s : State), i ∈ [Instr.report m, .regattaGrant m, .join m, .done m, .notice m,
      .noticeAll m] ∧
       s.msgGood m = false) ∧
    (∃ (m : List Nat) (lvl : Nat) (src : Nat) (s : State), s.flag RGT_CTL.EN 0 = true ∧ s.msgGood m = true ∧
       bits (mw m 0) 31 28 = 1 ∧ lvl = bits (mw m 0) 27 24 + 1 ∧ src = bits (mw m 1) 27 16 ∧ s.isKid lvl src = true) ∧
    (∃ (m : List Nat) (r : Report) (b : Nat) (s : State), s.flag RGT_CTL.EN 0 = true ∧ s.msgGood m = true ∧
       bits (mw m 0) 31 28 = 2 ∧ s.rgtOwn = some (r, b) ∧ b < 8) ∧
    (∃ (m : List Nat) (lvl : Nat) (src : Nat) (s : State), s.flag RGT_CTL.EN 0 = true ∧ s.msgGood m = true ∧
       bits (mw m 0) 31 28 = 5 ∧ lvl = bits (mw m 0) 27 24 + 1 ∧ src = bits (mw m 1) 27 16 ∧ s.isKid lvl src = true) ∧
    (∃ (m : List Nat) (slow : Nat) (idx : Nat) (s : State), s.flag RGT_CTL.EN 0 = true ∧ s.msgGood m = true ∧
       bits (mw m 0) 31 28 = 6 ∧ slow = mw m 3 % 2 ^ 8 ∧ idx = bits (mw m 3) 27 16) ∧
    (∃ (s : State), (s.flag RGT_CTL.EN 0 = false ∨ s.rgtPasses < s.get RGT_CTL.PERIOD 0)) ∧
    (∃ (slack : Option Nat) (b : Nat) (pmin : Nat) (s : State), s.room ∧ s.flag RGT_CTL.EN 0 = true ∧
       s.get RGT_CTL.PERIOD 0 ≤ s.rgtPasses ∧ s.rgtL ≠ 0 ∧ s.rgtParent 0 ≠ s.rgtIdx ∧ s.rgtServed = 0 ∧
       slack = (if s.flag RGT_CTL.SLACK_SRC 0 then s.rgtWait.orElse (fun _ => s.rgtMeas) else s.rgtSlack) ∧
       b = slackBand slack ∧ pmin = sumN ((List.range 4).map fun d => s.get CAP_CLASS.FLOOR d)) ∧
    (∃ (s : State), s.flag RGT_CTL.EN 0 = true ∧ s.get RGT_CTL.PERIOD 0 ≤ s.rgtPasses ∧ s.rgtL = 1 ∧ s.rgtIdx = 0 ∧
       (∀ e ∈ (s.ump 1).kids, e.2.absent = false ∧ e.2.age ≤ 2)) ∧
    (∃ (pool : Nat) (ms : List (Nat × Nat × Nat × Nat)) (r : Report) (fs : List Nat) (sf : Nat), (∀ m ∈ ms, m.2.2.1 < 8) ∧
       r.pmin = (ms.map (·.1)).sum ∧
       r.want = (List.range 8).map (fun b => ((ms.filter fun m => m.2.2.1 == b).map (·.2.1)).sum) ∧
       r.spare = (ms.map (·.2.2.2)).sum ∧ divide pool r = (fs, sf, false)) :=
  ⟨
    ⟨msg 1 0 1 0 0 [1], .report (msg 1 0 1 0 0 [1]), up, by simp, by decide +kernel⟩,
    ⟨msg 1 0 1 7 0 [1], .report (msg 1 0 1 7 0 [1]), rgt 0 20 up, by simp, by decide +kernel⟩,
    ⟨msg 1 0 1 0 0 [0x10000,5,6,7,8,9], 1, 1, rgt 0 20 up, by decide +kernel⟩,
    ⟨grantMsg 0, rep1, 3, {rgt 5 20 up with rgtOwn := some (rep1, 3)}, by decide +kernel⟩,
    ⟨msg 5 0 1 0 0 [0x30040], 1, 1, rgt 0 20 up, by decide +kernel⟩,
    ⟨msg 6 1 0 0 0 [0x30040], 0x40, 3, rgt 5 20 up, by decide +kernel⟩,
    ⟨up, by decide +kernel⟩,
    ⟨none, 7,
       (up.get CAP_CLASS.FLOOR 0)+(up.get CAP_CLASS.FLOOR 1)+(up.get CAP_CLASS.FLOOR 2)+(up.get CAP_CLASS.FLOOR 3),
       {(rgt 5 20 up) with rgtPasses := 10}, by unfold State.room; decide +kernel, by decide +kernel⟩,
    ⟨{(rgt 0 5 up).put RGT_POOL.POOL 0 5 with rgtPasses := 10, rgtPeriod := 2^32 + 3}, by decide +kernel⟩,
    ⟨1000, [(10,20,0,3),(11,500,3,3),(11,700,3,3),(0,0,7,0)],
       {pmin := 32, want := [20,0,0,1200,0,0,0,0], spare := 9},
       (divide 1000 {pmin := 32, want := [20,0,0,1200,0,0,0,0], spare := 9}).1,
       (divide 1000 {pmin := 32, want := [20,0,0,1200,0,0,0,0], spare := 9}).2.1, by decide +kernel⟩⟩

theorem witness_RegattaBarriers :
    (∃ (n : Nat) (s : State), s.Issues n 0x35 ∧ s.room ∧ n < 8 ∧ s.flag RGT_CTL.EN 0 = false) ∧
    (∃ (n : Nat) (num : Nat) (s : State), s.Issues n 0x35 ∧ n < 8 ∧ s.flag RGT_CTL.EN 0 = true ∧ s.rgtL ≠ 0 ∧
       s.rgtParent 0 ≠ s.rgtIdx ∧ num = bits (s.word n).imm 31 20) ∧
    (∃ (n : Nat) (s : State), s.Issues n 0x35 ∧ s.room ∧ 8 ≤ n) ∧
    (∃ (n : Nat) (s : State), s.Issues n 0x45 ∧ n < 8) ∧
    (∃ (m : List Nat) (lvl : Nat) (src : Nat) (num : Nat) (s : State), s.flag RGT_CTL.EN 0 = true ∧
       s.msgGood m = true ∧ bits (mw m 0) 31 28 = 3 ∧ lvl = bits (mw m 0) 27 24 + 1 ∧ src = bits (mw m 1) 27 16 ∧
       s.isKid lvl src = true ∧ num = mw m 3 % 2 ^ 12 ∧ (s.ump lvl).bars.find? (fun b => b.num == num) = none ∧
       (s.ump lvl).bars.length < 8 ∧ barFull (s.ump lvl) ⟨num, [src], []⟩ = false) ∧
    (∃ (m : List Nat) (lvl : Nat) (src : Nat) (num : Nat) (s : State), s.room ∧ s.flag RGT_CTL.EN 0 = true ∧
       s.msgGood m = true ∧ bits (mw m 0) 31 28 = 3 ∧ lvl = bits (mw m 0) 27 24 + 1 ∧ src = bits (mw m 1) 27 16 ∧
       s.isKid lvl src = true ∧ num = mw m 3 % 2 ^ 12 ∧ (s.ump lvl).bars.find? (fun b => b.num == num) = none ∧
       8 ≤ (s.ump lvl).bars.length) ∧
    (∃ (m : List Nat) (lvl : Nat) (src : Nat) (num : Nat) (js : List Nat) (gone : List Nat) (s : State),
      s.flag RGT_CTL.EN 0 = true ∧
       s.msgGood m = true ∧ bits (mw m 0) 31 28 = 3 ∧ lvl = bits (mw m 0) 27 24 + 1 ∧ src = bits (mw m 1) 27 16 ∧
       s.isKid lvl src = true ∧ num = mw m 3 % 2 ^ 12 ∧ lvl = s.rgtL ∧
       (s.ump lvl).bars.find? (fun b => b.num == num) = some ⟨num, js, gone⟩ ∧ js.contains src = false ∧
       (∀ e ∈ (s.ump lvl).kids, e.2.absent = true ∨ e.1 ∈ js ∨ e.1 = src ∨ e.1 ∈ gone)) ∧
    (∃ (m : List Nat) (num : Nat) (s : State), s.flag RGT_CTL.EN 0 = true ∧ s.msgGood m = true ∧
       bits (mw m 0) 31 28 = 4 ∧ num = mw m 3 % 2 ^ 12) :=
  ⟨
    ⟨2, run 2 (wd 0x35 0 3 0 0x12300005), issues_ok (by decide +kernel), by unfold State.room; decide +kernel,
       by decide +kernel⟩,
    ⟨2, 0x123, rgt 5 20 (run 2 (wd 0x35 0 3 0 0x12300005)), issues_ok (by decide +kernel), by decide +kernel⟩,
    ⟨9, rgt 5 20 (run 9 (wd 0x35 0 3 0 0x12300005)), issues_ok (by decide +kernel),
       by unfold State.room; decide +kernel, by decide +kernel⟩,
    ⟨2, regv 2 [(4,99)] (rgt 5 20 (run 2 (wd 0x45 0 3 4 0))), issues_ok (by decide +kernel), by decide +kernel⟩,
    ⟨msg 3 1 16 0 0 [0x123], 2, 16, 0x123,
       {rgt 0 20 up with rgtLevels := [(2, {bars := [⟨4,[0],[]⟩], kids := [(0,{}),(16,{})]})]}, by decide +kernel⟩,
    ⟨msg 3 0 1 0 0 [0x123], 1, 1, 0x123,
       {rgt 0 20 up with rgtLevels := [(1, {bars := (List.range 8).map (fun k => ⟨k, [1], []⟩)})]},
       by unfold State.room; decide +kernel, by decide +kernel⟩,
    ⟨msg 3 1 16 0 0 [0x123], 2, 16, 0x123, [0], [],
       barx1 2 0x123 5 {rgt 0 20 up with rgtLevels := [(2, {bars := [⟨0x123,[0],[]⟩,⟨4,[0],[]⟩], kids := [(0,{}),(16,{})]})], now := 50},
       by decide +kernel⟩,
    ⟨msg 4 1 0 0 0 [0x123], 0x123, barx1 2 0x123 5 {rgt 5 20 up with now := 50}, by decide +kernel⟩⟩

theorem witness_FaultCollector :
    (∃ (s : State), (s.fltInit = false ∨ s.intake = [])) ∧
    (∃ (s : State) (l : List Event), (∃ x ∈ l, 2 ≤ classNo x.code)) ∧
    (∃ (e : Event) (n : Nat) (s : State), s.fltInit = true ∧ s.orderly = false ∧
       s.intake[s.nextEvent s.intake]? = some e ∧ classNo e.code = 1 ∧ s.cyc.freed = [] ∧
       n = s.get FLT_HIST_HEAD.NEXT_SEQ 0) ∧
    (∃ (e : Event) (k : Nat) (x : FEntry) (s : State), s.fltInit = true ∧ s.orderly = false ∧
       s.intake[s.nextEvent s.intake]? = some e ∧ classNo e.code = 2 ∧ e.code ≠ 0x0D06 ∧ e.code ≠ 0x0E05 ∧
       s.flag FLT_STAT.SAFE 0 = false ∧ s.cyc.freed = [] ∧ s.fc2Find e = some (k, x) ∧
       s.cleared.find? (fun r => r.isPair e && r.armed) = none) ∧
    (∃ (e : Event) (s : State), s.fltInit = true ∧ s.orderly = false ∧ s.intake[s.nextEvent s.intake]? = some e ∧
       classNo e.code = 2 ∧ e.code ≠ 0x0D06 ∧ e.code ≠ 0x0E05 ∧ s.flag FLT_STAT.SAFE 0 = false ∧ s.cyc.freed = [] ∧
       s.fc2Find e = none ∧ s.fc2Free = none ∧ s.cleared.find? (fun r => r.isPair e && r.armed) = none) ∧
    (∃ (e : Event) (s : State), s.fltInit = true ∧ s.orderly = false ∧ s.intake[s.nextEvent s.intake]? = some e ∧
       classNo e.code = 0 ∧ s.cyc.freed = []) ∧
    (∃ (e : Event) (k : Nat) (s : State), s.fltInit = true ∧ s.orderly = false ∧
       s.intake[s.nextEvent s.intake]? = some e ∧ classNo e.code = 2 ∧ e.code ≠ 0x0D06 ∧ e.code ≠ 0x0E05 ∧
       s.flag FLT_STAT.SAFE 0 = false ∧ s.cyc.freed = [] ∧ s.fc2Find e = none ∧ s.fc2Free = some k ∧
       s.cleared.find? (fun r => r.isPair e && r.armed) = none) ∧
    (∃ (e : Event) (s : State), s.fltInit = true ∧ s.orderly = false ∧ s.intake[s.nextEvent s.intake]? = some e ∧
       classNo e.code = 3 ∧ (s.flag FLT_STAT.SAFE 0 = false ∨ s.flag FLT_STAT.FC3 0 = false) ∧ s.logQ.length < 4) ∧
    (∃ (p : Nat) (s : State), (s.plane p).shutIssued = true ∧ s.planeDown p = false) ∧
    (∃ (p : Nat) (s : State), (s.plane p).shutIssued = false) :=
  ⟨
    ⟨{up with fltInit := true}, by decide +kernel⟩,
    ⟨up, [ev 0x0101 0 0, ev 0x0908 0 0], by decide +kernel⟩,
    ⟨ev 0x0D04 0 0, up.get FLT_HIST_HEAD.NEXT_SEQ 0, fin [ev 0x0101 1 5, ev 0x0D04 0 0] up, by decide +kernel⟩,
    ⟨ev 0x050B 1 0x6C3, 2, ⟨3, ev 0x050B 1 0x6C3, false, false, false, 255⟩,
       {fin [ev 0x050B 1 0x6C3] (forAll (planeCrews 3) (fun s c => s.setCst c 3) up) with fc2 := [(2, ⟨3, ev 0x050B 1 0x6C3, false, false, false, 255⟩)]},
       by decide +kernel⟩,
    ⟨ev 0x050B 1 0x6C3,
       {fin [ev 0x050B 1 0x6C3] (forAll (planeCrews 3) (fun s c => s.setCst c 3) up) with fc2 := (List.range 32).map (fun k => (k, ⟨3, ev 0x0305 1 (0x600+k), true, false, false, 4⟩))},
       by decide +kernel⟩,
    ⟨ev 0x0101 1 5, fin [ev 0x0101 1 5] up, by decide +kernel⟩,
    ⟨ev 0x050B 1 0x6C3, 0,
       fin [ev 0x0101 1 5, ev 0x050B 1 0x6C3] (forAll (planeCrews 3) (fun s c => s.setCst c 3) up), by decide +kernel⟩,
    ⟨ev 0x0908 2 3, fin [ev 0x0908 2 3] (forAll (planeCrews 3) (fun s c => s.setCst c 3) up), by decide +kernel⟩,
    ⟨3, (forAll (planeCrews 3) (fun s c => s.setCst c 3) up).onPlane 3 (fun q => {q with shutIssued := true}),
       by decide +kernel⟩,
    ⟨3, up, by decide +kernel⟩⟩

theorem witness_ClearsAndInjection :
    (∃ (m : Master) (data : Nat) (k : Nat) (x : FEntry) (s : State), s.Takes m .FLT_CLEAR 0 data ∧ s.room ∧
       FLT_CLEAR.ALL.ofWord data = 0 ∧ k = FLT_CLEAR.INDEX.ofWord data ∧
       s.fc2.find? (fun y => y.1 == k) = some (k, x) ∧ s.entryLive x = false) ∧
    (∃ (m : Master) (data : Nat) (k : Nat) (x : FEntry) (s : State), s.Takes m .FLT_CLEAR 0 data ∧
       FLT_CLEAR.ALL.ofWord data = 0 ∧ k = FLT_CLEAR.INDEX.ofWord data ∧
       s.fc2.find? (fun y => y.1 == k) = some (k, x) ∧ s.entryLive x = true) ∧
    (∃ (m : Master) (data : Nat) (s : State), s.Takes m .FLT_CLEAR 0 data ∧ FLT_CLEAR.ALL.ofWord data = 1) ∧
    (∃ (m : Master) (data : Nat) (s : State), s.Takes m .FLT_STAT 0 data ∧ FLT_STAT.ALERT_PEND.ofWord data = 1) ∧
    (∃ (parity : Bool) (s : State), (parity = true ∨ s.flag FLT_CTL.PIN_CHECK 0 = true) ∧
       (s.flag FLT_STAT.SAFE 0 = false ∨ s.stopDone = false)) ∧
    (∃ (s : State), s.flag FLT_CTL.PIN_CHECK 0 = false) ∧
    (∃ (m : Master) (data : Nat) (c : Nat) (s : State), s.Takes m .FLT_INJECT1 0 data ∧ s.room ∧ data % 2 = 1 ∧
       s.locked = false ∧ classOf (s.get FLT_INJECT0.CODE 0) = some c ∧ c < 4) ∧
    (∃ (m : Master) (data : Nat) (s : State), s.Takes m .FLT_INJECT1 0 data ∧ data % 2 = 1 ∧ s.locked = false ∧
       (classOf (s.get FLT_INJECT0.CODE 0) = none ∨ classOf (s.get FLT_INJECT0.CODE 0) = some 4)) ∧
    (∃ (m : Master) (data : Nat) (s : State), s.Takes m .FLT_INJECT1 0 data ∧ s.locked = true) :=
  ⟨
    ⟨.sup 1, FLT_CLEAR.INDEX.inWord 0 3, 3, ⟨3, ev 0x0903 2 3, false, false, false, 0⟩,
       fc2e 3 false (ev 0x0903 2 3) up, takes_ok (by decide +kernel), by unfold State.room; decide +kernel,
       by decide +kernel⟩,
    ⟨.sup 1, FLT_CLEAR.INDEX.inWord 0 3, 3, ⟨3, {ev 0x0C03 0 0 with d0 := 2}, true, false, false, 0⟩,
       fc2e 3 true ({ev 0x0C03 0 0 with d0 := 2}) (up.put ID_MEM_STAT.BANKS 0 0x20), takes_ok (by decide +kernel),
       by decide +kernel⟩,
    ⟨.sup 1, FLT_CLEAR.ALL.inWord 0 1,
       fc2e 4 true (ev 0x0903 2 3) (fc2e 3 false (ev 0x0502 1 3) (up.put THM_SENS.BROKEN 3 1)),
       takes_ok (by decide +kernel), by decide +kernel⟩,
    ⟨.mgmt, FLT_STAT.ALERT_PEND.inWord 0 1, (up.put FLT_STAT.ALERT_PEND 0 1).putWas FLT_STAT.ALERT_PEND 0 1,
       takes_ok (by decide +kernel), by decide +kernel⟩,
    ⟨true, up, by decide +kernel⟩,
    ⟨up.put FLT_CTL.PIN_CHECK 0 0, by decide +kernel⟩,
    ⟨.sup 1, 1, 0, up.put FLT_INJECT0.CODE 0 0x0101, takes_ok (by decide +kernel),
       by unfold State.room; decide +kernel, by decide +kernel⟩,
    ⟨.sup 1, 1, up.put FLT_INJECT0.CODE 0 0xFF01, takes_ok (by decide +kernel), by decide +kernel⟩,
    ⟨.sup 1, 1, {(up.put FLT_INJECT0.CODE 0 0x0101).put ID_LOCK.LOCK 0 1 with now := 5},
       takes_ok (by decide +kernel), by decide +kernel⟩⟩

theorem witness_MemoryTests :
    (∃ (bank : Nat) (ecc : Nat) (s : State), (12 ≤ bank ∨ s.get ID_MEM_CTL.SCRUB 0 = 0 ∨ s.bankSt bank ≠ 0)) ∧
    (∃ (bank : Nat) (k : Nat) (s : State), s.goodAt (bankLo bank + 8 * k) ∧ bank < 12 ∧
       s.get ID_MEM_CTL.SCRUB 0 ≠ 0 ∧ s.bankSt bank = 0 ∧ k = tget 0 s.scrubAt bank ∧ k < bankWords bank) ∧
    (∃ (bank : Nat) (k : Nat) (s : State), s.room ∧ bank < 12 ∧ s.get ID_MEM_CTL.SCRUB 0 ≠ 0 ∧ s.bankSt bank = 0 ∧
       k = tget 0 s.scrubAt bank ∧ k < bankWords bank) ∧
    (∃ (m : Master) (data : Nat) (bank : Nat) (s : State), s.Takes m .ID_MARCH_CTL 0 data ∧
       ID_MARCH_CTL.GO.ofWord data = 1 ∧ bank = ID_MARCH_CTL.BANK.ofWord data ∧ s.march = none ∧ bank < 8 ∧
       (ID_MARCH_CTL.PRESERVE.ofWord data = 1 → s.bankSt bank ≠ 2)) ∧
    (∃ (m : Master) (data : Nat) (bank : Nat) (s : State), s.Takes m .ID_MARCH_CTL 0 data ∧
       ID_MARCH_CTL.GO.ofWord data = 1 ∧ bank = ID_MARCH_CTL.BANK.ofWord data ∧
       (s.march.isSome = true ∨ bank ∈ [8, 9, 12, 13, 14, 15])) ∧
    (∃ (m : Master) (data : Nat) (bank : Nat) (s : State), s.Takes m .ID_MARCH_CTL 0 data ∧
       ID_MARCH_CTL.GO.ofWord data = 1 ∧ bank = ID_MARCH_CTL.BANK.ofWord data ∧ s.march = none ∧
       (bank = 10 ∨ bank = 11) ∧ (∀ l, l < 8 → s.lst l ∉ [1, 3, 4]) ∧
       (ID_MARCH_CTL.PRESERVE.ofWord data = 1 → s.bankSt bank ≠ 2)) ∧
    (∃ (m : Master) (data : Nat) (bank : Nat) (r : Nat) (s : State), s.Takes m .ID_MARCH_CTL 0 data ∧
       ID_MARCH_CTL.GO.ofWord data = 1 ∧ bank = ID_MARCH_CTL.BANK.ofWord data ∧ s.march = none ∧
       bank ∈ [0, 1, 2, 3, 4, 5, 6, 7, 10, 11] ∧
       ((r = 4 ∧ 10 ≤ bank ∧ (∃ l, l < 8 ∧ s.lst l ∈ [1, 3, 4])) ∨ (r = 5 ∧ ID_MARCH_CTL.PRESERVE.ofWord data = 1 ∧
         s.bankSt bank = 2 ∧ (10 ≤ bank → ∀ l, l < 8 → s.lst l ∉ [1, 3, 4])))) ∧
    (∃ (bank : Nat) (preserve : Bool) (us : Nat) (s : State), s.Inv ∧ s.march = some (bank, preserve) ∧ bank < 12) ∧
    (∃ (bank : Nat) (preserve : Bool) (x : Mismatch) (us : Nat) (s : State), s.march = some (bank, preserve) ∧
       bank < 12) ∧
    (∃ (s : State), crc32 s.safetyBytes = s.get ID_SAFE_CRC.CRC 0) ∧
    (∃ (s : State), crc32 s.safetyBytes ≠ s.get ID_SAFE_CRC.CRC 0) :=
  ⟨
    ⟨12, 0, up, by decide +kernel⟩,
    ⟨3, 5, {up.put ID_MEM_CTL.SCRUB 0 1 with scrubAt := [(3,5)]}, by unfold State.goodAt; decide +kernel,
       by decide +kernel⟩,
    ⟨3, 5, {up.put ID_MEM_CTL.SCRUB 0 1 with scrubAt := [(3,5)]}, by unfold State.room; decide +kernel,
       by decide +kernel⟩,
    ⟨.sup 1, ID_MARCH_CTL.GO.inWord 0 1, 0, up, takes_ok (by decide +kernel), by decide +kernel⟩,
    ⟨.sup 1, (ID_MARCH_CTL.BANK.inWord (ID_MARCH_CTL.GO.inWord 0 1) 8), 8, up, takes_ok (by decide +kernel),
       by decide +kernel⟩,
    ⟨.sup 1, (ID_MARCH_CTL.BANK.inWord (ID_MARCH_CTL.GO.inWord 0 1) 11), 11, up, takes_ok (by decide +kernel),
       by decide +kernel⟩,
    ⟨.sup 1, (ID_MARCH_CTL.BANK.inWord (ID_MARCH_CTL.GO.inWord 0 1) 11), 11, 4, up.setLst 2 3,
       takes_ok (by decide +kernel), by decide +kernel⟩,
    ⟨3, true, 77, {(up.wr 8 0x400010 0x123456789A).put ID_MEM_STAT.BANKS 0 0x40 with march := some (3,true)},
       inv_ok (by decide +kernel), by decide +kernel⟩,
    ⟨3, false, ⟨5,6,70⟩, 77,
       {(up.wr 8 0x400010 0x123456789A).put ID_MEM_STAT.BANKS 0 0x40 with march := some (3,false)}, by decide +kernel⟩,
    ⟨up.put ID_SAFE_CRC.CRC 0 (crc32 up.safetyBytes), by decide +kernel⟩,
    ⟨up.put ID_SAFE_CRC.CRC 0 (crc32 up.safetyBytes ^^^ 1), by decide +kernel⟩⟩

theorem witness_MailboxesAndRecovery :
    (∃ (m : Master) (slot : Nat) (data : Nat) (s : State), s.Takes m .ID_MBX_CTL slot data ∧ data % 16 = 1 ∧
       s.get ID_MBX_CTL.STATE slot = 0 ∧ (isHost m = decide (slot < 12))) ∧
    (∃ (m : Master) (slot : Nat) (data : Nat) (s : State), s.Takes m .ID_MBX_CTL slot data ∧ isHost m = false ∧
       slot < 12 ∧ data % 16 = 2 ∧ s.get ID_MBX_CTL.STATE slot = 1) ∧
    (∃ (m : Master) (slot : Nat) (data : Nat) (s : State), s.Takes m .ID_MBX_CTL slot data ∧ isHost m = false ∧
       slot < 12 ∧ data % 16 = 4 ∧ s.get ID_MBX_CTL.STATE slot = 2) ∧
    (∃ (m : Master) (slot : Nat) (data : Nat) (s : State), s.Takes m .ID_MBX_CTL slot data ∧ isHost m = true ∧
       data % 16 = 8 ∧ s.get ID_MBX_CTL.STATE slot = (if slot < 12 then 3 else 1)) ∧
    (∃ (m : Master) (slot : Nat) (data : Nat) (i : Instr) (a : Nat) (s : State), s.Takes m .ID_MBX_CTL slot data ∧
       i ∈ [Instr.post m slot data, .take m slot data, .mailboxDone m slot data, .release m slot data] ∧ a < 4 ∧
       data % 16 = 2 ^ a ∧ mbxTo (isHost m) slot a (s.get ID_MBX_CTL.STATE slot) = none) ∧
    (∃ (s : State), s.get ID_FW_STAT.MODE 0 = 2 ∧ s.get ID_MBX_CTL.STATE 0 = 1 ∧ s.mbx0 1 % 2 ^ 16 = 0x0100 ∧
       (s.mbx0 2 < 0x400000 ∨ 0x800000 < s.mbx0 2 + s.mbx0 3)) ∧
    (∃ (a : Nat) (n : Nat) (s : State), s.clean ∧ s.fwCheck (fun x => mget 0 s.mem (a + x)) n = 0 ∧
       s.get ID_FW_STAT.MODE 0 = 2 ∧ s.get ID_MBX_CTL.STATE 0 = 1 ∧ s.mbx0 1 % 2 ^ 16 = 0x0100 ∧ a = s.mbx0 2 ∧
       n = s.mbx0 3 ∧ 0x400000 ≤ a ∧ a + n ≤ 0x800000 ∧ s.get ID_MEM_STAT.BANKS 0 = 0) ∧
    (∃ (a : Nat) (n : Nat) (code : Nat) (s : State), s.get ID_FW_STAT.MODE 0 = 2 ∧ s.get ID_MBX_CTL.STATE 0 = 1 ∧
       s.mbx0 1 % 2 ^ 16 = 0x0100 ∧ a = s.mbx0 2 ∧ n = s.mbx0 3 ∧ 0x400000 ≤ a ∧ a + n ≤ 0x800000 ∧
       code = s.fwCheck (fun x => mget 0 s.mem (a + x)) n ∧ code ≠ 0) ∧
    (∃ (s : State), s.get ID_FW_STAT.MODE 0 = 2 ∧ s.get ID_MBX_CTL.STATE 0 = 1 ∧ s.mbx0 1 % 2 ^ 16 ≠ 0x0100 ∧
       s.mbx0 1 % 2 ^ 16 ≠ 0x0101) ∧
    (∃ (s : State), s.get ID_FW_STAT.MODE 0 = 2 ∧ s.get ID_MBX_CTL.STATE 0 = 1 ∧ s.mbx0 1 % 2 ^ 16 = 0x0101) ∧
    (∃ (i : Instr) (s : State), i ∈ [Instr.recoverBoot, .recoveryReport] ∧ s.get ID_MBX_CTL.STATE 0 ≠ 1) :=
  ⟨
    ⟨.mgmt, 3, 1, up, takes_ok (by decide +kernel), by decide +kernel⟩,
    ⟨.sup 1, 3, 2, up.put ID_MBX_CTL.STATE 3 1, takes_ok (by decide +kernel), by decide +kernel⟩,
    ⟨.sup 1, 11, 4, up.put ID_MBX_CTL.STATE 11 2, takes_ok (by decide +kernel), by decide +kernel⟩,
    ⟨.mgmt, 11, 8, up.put ID_MBX_CTL.STATE 11 3, takes_ok (by decide +kernel), by decide +kernel⟩,
    ⟨.mgmt, 14, 8, .release .mgmt 14 8, 3, mbx 14 3 up, takes_ok (by decide +kernel), by simp, by decide +kernel⟩,
    ⟨mbx 0 1 ((up.put ID_FW_STAT.MODE 0 2).put ID_MBX_DATA.DATA 0 0x100), by decide +kernel⟩,
    ⟨0x400000, 0x208, fwSt, by unfold State.clean; decide +kernel, fw_passes, by decide +kernel⟩,
    ⟨0x400000, 0x208, 1,
       ((((State.put {} ID_FW_STAT.MODE 0 2 |>.put ID_MBX_CTL.STATE 0 1 |>.put ID_MBX_DATA.DATA 0 0x0100 |>.put ID_MBX_DATA.DATA 1 0x400000 |>.put ID_MBX_DATA.DATA 2 0x208)))),
       by decide +kernel⟩,
    ⟨mbx 0 1 ((up.put ID_FW_STAT.MODE 0 2).put ID_MBX_DATA.DATA 0 0x100000), by decide +kernel⟩,
    ⟨mbx 0 1 ((up.put ID_FW_STAT.MODE 0 2).put ID_MBX_DATA.DATA 0 0x101), by decide +kernel⟩,
    ⟨.recoverBoot, up, by simp, by decide +kernel⟩⟩

theorem witness_StartUp :
    (∃ (fuses : List (FKey × Nat)) (key : List Nat) (inp : BootIn) (s : State), s.get ID_BOOT_STAT.STEP 0 ≠ 0) ∧
    (∃ (fuses : List (FKey × Nat)) (key : List Nat) (inp : BootIn) (s : State), s.get ID_BOOT_STAT.STEP 0 = 0) ∧
    (∃ (fuses : List (FKey × Nat)) (key : List Nat) (inp : BootIn) (s : State), s.get ID_BOOT_STAT.STEP 0 = 0 ∧
       inp.flashUp = false) ∧
    (∃ (s : State), s.get ID_BOOT_STAT.STEP 0 = 0) ∧
    (∃ (s : State), s.get ID_BOOT_STAT.STEP 0 ≠ 0) ∧
    (∃ (s : State), s.get ID_BOOT_STAT.STEP 0 ≠ 0) :=
  ⟨
    ⟨[], [], bin, up, by decide +kernel⟩,
    ⟨[], [], bin, {}, by decide +kernel⟩,
    ⟨[], [], bin, {}, by decide +kernel⟩,
    ⟨({} : State).put FLT_STAT.FC3 0 1, by decide +kernel⟩,
    ⟨up, by decide +kernel⟩,
    ⟨up, by decide +kernel⟩⟩

theorem witness_SuppliesAndHost :
    (∃ (m : Master) (data : Nat) (s : State), s.Takes m .ID_PWR_CTL 0 data ∧ bitAt data 31 = true ∧
       bitAt data 30 = s.flag ID_PWR_CTL.HOST_RUN 0 ∧ bitAt data 29 = false ∧ s.flag ID_PWR_CTL.FS_EN 0 = false) ∧
    (∃ (m : Master) (data : Nat) (s : State), s.Takes m .ID_PWR_CTL 0 data ∧ bitAt data 31 = false ∧
       bitAt data 30 = s.flag ID_PWR_CTL.HOST_RUN 0 ∧ bitAt data 29 = false ∧ s.flag ID_PWR_CTL.FS_EN 0 = true) ∧
    (∃ (s : State), s.flag ID_PWR_CTL.FS_EN 0 = true ∧ (∀ d ∈ s.dies, s.flag STG_DIE_STAT.READY d = true) ∧
       (∀ c, c < 192 → 22000000 ≤ s.vibOf c ∧ s.vibOf c ≤ 26000000)) ∧
    (∃ (d : Nat) (s : State), d ∈ s.dies ∧ s.flag STG_DIE_STAT.READY d = false) ∧
    (∃ (c : Nat) (s : State), c < 192 ∧ (s.vibOf c < 22000000 ∨ 26000000 < s.vibOf c)) ∧
    (∃ (s : State), s.room ∧ s.flag ID_PWR_CTL.FS_EN 0 = true ∧ s.vibWas = false) ∧
    (∃ (m : Master) (data : Nat) (s : State), s.Takes m .ID_PWR_CTL 0 data ∧
       bitAt data 31 = s.flag ID_PWR_CTL.FS_EN 0 ∧ bitAt data 30 = true ∧ bitAt data 29 = false ∧
       s.flag ID_PWR_CTL.HOST_RUN 0 = false) ∧
    (∃ (m : Master) (data : Nat) (s : State), s.Takes m .ID_PWR_CTL 0 data ∧
       bitAt data 31 = s.flag ID_PWR_CTL.FS_EN 0 ∧ bitAt data 30 = false ∧ bitAt data 29 = false ∧
       s.flag ID_PWR_CTL.HOST_RUN 0 = true) ∧
    (∃ (s : State), s.xcalDue = true) ∧
    (∃ (s : State), s.get ID_PWR_STAT.XCAL 0 = 1) ∧
    (∃ (s : State), s.room ∧ s.get ID_PWR_STAT.XCAL 0 = 1) ∧
    (∃ (s : State), s.room ∧ s.get ID_PWR_STAT.XCAL 0 = 1) ∧
    (∃ (l : List Nat) (s : State), s.room ∧ s.get ID_PWR_STAT.XCAL 0 = 2 ∧ s.cyc.xcal = some l) ∧
    (∃ (i : Instr) (s : State), i ∈ [Instr.xcalDone, .xcalTimeout] ∧ s.get ID_PWR_STAT.XCAL 0 ≠ 1) ∧
    (∃ (s : State), s.get ID_PWR_STAT.XCAL 0 ≠ 1 ∧ (s.get ID_PWR_STAT.XCAL 0 ≠ 2 ∨ s.cyc.xcal = none)) ∧
    (∃ (s : State), s.room ∧ s.get ID_BOOT_STAT.STEP 0 ≠ 0 ∧ s.flag ID_PWR_STAT.PWR_EN 0 = true ∧
       s.pwrEnPin = false ∧ (s.flag FLT_STAT.SAFE 0 = false ∨ s.stopDone = false) ∧ s.flag ID_PWR_CTL.FS_EN 0 = true) ∧
    (∃ (s : State), s.get ID_BOOT_STAT.STEP 0 ≠ 0 ∧ s.flag ID_PWR_STAT.PWR_EN 0 = false ∧ s.pwrEnPin = true ∧
       (s.flag FLT_STAT.SAFE 0 = false ∨ s.stopDone = false)) :=
  ⟨
    ⟨.sup 1, 0x80000000, up, takes_ok (by decide +kernel), by decide +kernel⟩,
    ⟨.sup 1, 0x00000005, up.put ID_PWR_CTL.FS_EN 0 1, takes_ok (by decide +kernel), by decide +kernel⟩,
    ⟨forAll (up.dies) (fun s d => s.put STG_DIE_STAT.READY d 1) (vibs (List.range 192) (up.put ID_PWR_CTL.FS_EN 0 1)),
       by decide +kernel⟩,
    ⟨3, up, by decide +kernel⟩,
    ⟨5, up, by decide +kernel⟩,
    ⟨up.put ID_PWR_CTL.FS_EN 0 1, by unfold State.room; decide +kernel, by decide +kernel⟩,
    ⟨.sup 1, 0x40000000, up, takes_ok (by decide +kernel), by decide +kernel⟩,
    ⟨.sup 1, 0x00000000, {(up.put ID_PWR_CTL.HOST_RUN 0 1).put ID_PWR_STAT.XCAL 0 1 with hostReset := false},
       takes_ok (by decide +kernel), by decide +kernel⟩,
    ⟨{up with xcalDue := true, strReq := [4]}, by decide +kernel⟩,
    ⟨{(up.put ID_PWR_STAT.XCAL 0 1).put MSH_STR_CNT.STRETCHES 3 5 with xcalHold := true}, by decide +kernel⟩,
    ⟨up.put ID_PWR_STAT.XCAL 0 1, by unfold State.room; decide +kernel, by decide +kernel⟩,
    ⟨{(up.put ID_PWR_STAT.XCAL 0 1).put MSH_REG_CFG.RATE 3 16 with xcalHold := true},
       by unfold State.room; decide +kernel, by decide +kernel⟩,
    ⟨[5,6,7], {up.put ID_PWR_STAT.XCAL 0 2 with cyc := {on := true, xcal := some [5,6,7]}},
       by unfold State.room; decide +kernel, by decide +kernel⟩,
    ⟨.xcalTimeout, up, by simp, by decide +kernel⟩,
    ⟨up.put ID_PWR_STAT.XCAL 0 2, by decide +kernel⟩,
    ⟨(up.put ID_PWR_STAT.PWR_EN 0 1).put ID_PWR_CTL.FS_EN 0 1, by unfold State.room; decide +kernel,
       by decide +kernel⟩,
    ⟨{up with pwrEnPin := true}, by decide +kernel⟩⟩

theorem witness_ResetsAndShutdown :
    (∃ (m : Master) (data : Nat) (i : Instr) (s : State), s.Takes m .ID_RST_CTL 0 data ∧
       ((∃ boot, i = Instr.full m data boot) ∨ i = .engine m data) ∧
       (bits data 31 24 ≠ 0x5A ∨ bits data 1 0 ∉ [1, 2] ∨ s.get ID_BOOT_STAT.STEP 0 < 7 ∨
         s.flag ID_RST_STAT.FULL_PEND 0 = true)) ∧
    (∃ (m : Master) (data : Nat) (s : State), s.Takes m .ID_RST_CTL 0 data ∧ bits data 31 24 = 0x5A ∧
       bits data 1 0 = 2 ∧ 7 ≤ s.get ID_BOOT_STAT.STEP 0 ∧ s.flag ID_RST_STAT.FULL_PEND 0 = false) ∧
    (∃ (m : Master) (data : Nat) (boot : BootIn) (s : State), s.Takes m .ID_RST_CTL 0 data ∧ bits data 31 24 = 0x5A ∧
       bits data 1 0 = 1 ∧ 7 ≤ s.get ID_BOOT_STAT.STEP 0 ∧ s.flag ID_RST_STAT.FULL_PEND 0 = false ∧
       (s.flag FLT_STAT.SAFE 0 = false ∨ s.stopDone = false) ∧ (∃ p, p < 32 ∧ s.planeOff p = false) ∧
       s.orderly = false) ∧
    (∃ (m : Master) (data : Nat) (boot : BootIn) (s : State), s.Takes m .ID_RST_CTL 0 data ∧ bits data 31 24 = 0x5A ∧
       bits data 1 0 = 1 ∧ 7 ≤ s.get ID_BOOT_STAT.STEP 0 ∧ s.flag ID_RST_STAT.FULL_PEND 0 = false ∧
       (∀ p, p < 32 → s.planeOff p = true)) ∧
    (∃ (m : Master) (data : Nat) (s : State), s.Takes m .ID_PWR_CTL 0 data ∧
       bitAt data 31 = s.flag ID_PWR_CTL.FS_EN 0 ∧ bitAt data 30 = s.flag ID_PWR_CTL.HOST_RUN 0 ∧
       bitAt data 29 = true ∧ s.orderly = false) ∧
    (∃ (m : Master) (data : Nat) (s : State), s.Takes m .ID_PWR_CTL 0 data ∧
       bitAt data 31 = s.flag ID_PWR_CTL.FS_EN 0 ∧ bitAt data 30 = s.flag ID_PWR_CTL.HOST_RUN 0 ∧ s.orderly = true) ∧
    (∃ (s : State), (∃ f p, f < 8 ∧ p = 4 * f + 3 ∧ ((s.plane p).ramp ≠ .none ∨ (s.plane p).shutIssued = true ∨
      (s.plane p).discharging = true ∨ ((s.plane p).powered = true ∧ (∃ c ∈ planeCrews p, (s.crew c).reg = true ∧
      s.alive c = true) ∧ ∀ c ∈ planeCrews p, s.cst c ≠ 1 ∧ s.cst c ≠ 8))) ∧
       s.orderly = true ∧ s.get ID_PWR_STAT.SD 0 = 1 ∧ s.stop = .none) ∧
    (∃ (s : State), s.orderly = true ∧ s.get ID_PWR_STAT.SD 0 = 1 ∧ s.stop = .none ∧
       (∀ d, d < 4 → s.sdPlanes d = []) ∧ s.bootIn = none) ∧
    (∃ (boot : BootIn) (s : State), s.orderly = true ∧ s.get ID_PWR_STAT.SD 0 = 1 ∧ s.stop = .none ∧
       (∀ d, d < 4 → s.sdPlanes d = []) ∧ s.bootIn = some boot) ∧
    (∃ (s : State), (s.orderly = false ∨ s.get ID_PWR_STAT.SD 0 ≠ 1)) :=
  ⟨
    ⟨.mgmt, 0x59000001, .full .mgmt 0x59000001 bin, up, takes_ok (by decide +kernel),
       .inl ⟨_, rfl⟩, by decide +kernel⟩,
    ⟨.sup 1, 0x5A000002, ((up.put ID_BOOT_STAT.START_MASK 0 5).setLst 3 4).put LANE_GRANT.CREWS 7 99,
       takes_ok (by decide +kernel), by decide +kernel⟩,
    ⟨.sup 1, 0x5A000001, bin, forAll (planeCrews 3) (fun s c => s.setCst c 3) up, takes_ok (by decide +kernel),
       by decide +kernel⟩,
    ⟨.sup 1, 0x5A000001, bin, up, takes_ok (by decide +kernel), by decide +kernel⟩,
    ⟨.sup 1, 0x20000000, {(up.setLst 2 3) with powerQ := [3,4]}, takes_ok (by decide +kernel), by decide +kernel⟩,
    ⟨.sup 1, 0x20000000, {up with orderly := true}, takes_ok (by decide +kernel), by decide +kernel⟩,
    ⟨{regL (planeCrews 3) ((up.put ID_PWR_STAT.SD 0 1).onPlane 3 (fun q => {q with powered := true})) with orderly := true},
       ⟨0, 3, by decide, rfl, .inr (.inr (.inr ⟨by decide +kernel, by decide +kernel, by decide +kernel⟩))⟩,
       by decide +kernel⟩,
    ⟨{(alld (up.put ID_PWR_STAT.SD 0 1)) with orderly := true}, by decide +kernel⟩,
    ⟨bin,
       {(alld (up.put ID_PWR_STAT.SD 0 1)).put ID_RST_STAT.FULL_PEND 0 1 with orderly := true, bootIn := some bin},
       by decide +kernel⟩,
    ⟨up, by decide +kernel⟩⟩

theorem witness_PmbusCommands :
    (∃ (q : Rat), -33554432 ≤ q ∧ q ≤ 33521664) ∧
    (∃ (i : Instr) (v : Nat) (code : Nat) (n : Nat) (s : State), i ∈ [Instr.page false v false, .clearFaults false,
      .voutCommand false v false, .unsupportedCommand code false n false, .writeProtect false false,
      .capability false false, .voutMode false false, .statusByte false false, .statusWord false false,
      .statusVout false false, .statusIout false false, .statusTemperature false false, .statusCml false false,
      .readVin false false, .readVout false false, .readIout false false, .readTemperature1 false false,
      .readPout false false, .pmbusRevision false false, .mfrId false false, .mfrModel false false]) ∧
    (∃ (i : Instr) (v : Nat) (code : Nat) (n : Nat) (s : State), i ∈ [Instr.voutCommand false v true,
      .unsupportedCommand code false n true, .writeProtect false true, .capability false true, .voutMode false true,
      .statusByte false true, .statusWord false true, .statusVout false true, .statusIout false true,
      .statusTemperature false true, .statusCml false true, .readVin false true, .readVout false true,
      .readIout false true, .readTemperature1 false true, .readPout false true, .pmbusRevision false true,
      .mfrId false true, .mfrModel false true] ∧
       s.room ∧ s.flag ID_FUSE.PMB_WP 0 = true) ∧
    (∃ (v : Nat) (s : State), s.flag ID_FUSE.PMB_WP 0 = false ∧ s.opsStopped = false ∧ s.page ≠ 0xFF ∧ s.uop = none) ∧
    (∃ (v : Nat) (s : State) (u : Op), s.flag ID_FUSE.PMB_WP 0 = false ∧ s.opsStopped = false ∧ s.page = 0xFF ∧
       s.uop = some u) :=
  ⟨
    ⟨1100, by decide +kernel⟩,
    ⟨.page false 3 false, 3, 0, 0, up, by simp⟩,
    ⟨.voutCommand false 5 true, 5, 0, 0, up.put ID_FUSE.PMB_WP 0 1, by simp, by unfold State.room; decide +kernel,
       by decide +kernel⟩,
    ⟨3000, (up.put ID_PMB_CFG.PAGE 0 3).put ID_FUSE.PMB_WP 0 0, by decide +kernel⟩,
    ⟨3000, {(up.put ID_PMB_CFG.PAGE 0 0xFF).put ID_FUSE.PMB_WP 0 0 with uop := some ⟨0,.pwron,0x6C0,[],15,0⟩},
       ⟨0,.pwron,0x6C0,[],15,0⟩, by decide +kernel⟩⟩

theorem witness_FlashOperations :
    (∃ (m : Master) (data : Nat) (s : State), s.Takes m .ID_FLASH_CTL 0 data ∧ bitAt data 31 = true ∧
       bits data 30 28 = 0 ∧ s.flashOp = none) ∧
    (∃ (m : Master) (data : Nat) (s : State), s.Takes m .ID_FLASH_CTL 0 data ∧ bitAt data 31 = true ∧
       bits data 30 28 = 1 ∧ s.flashOp = none) ∧
    (∃ (m : Master) (data : Nat) (s : State), s.Takes m .ID_FLASH_CTL 0 data ∧ bitAt data 31 = true ∧
       bits data 30 28 = 2 ∧ s.flashOp = none) ∧
    (∃ (m : Master) (data : Nat) (s : State), s.Takes m .ID_FLASH_CTL 0 data ∧ bitAt data 31 = true ∧
       bits data 30 28 = 3 ∧ s.flashOp = none) ∧
    (∃ (i : Instr) (m : Master) (data : Nat) (s : State), i ∈ [Instr.read m data, .program m data, .erase4Kib m data,
      .erase64Kib m data] ∧
       s.Takes m .ID_FLASH_CTL 0 data ∧ bitAt data 31 = true ∧ s.flashOp ≠ none) ∧
    (∃ (a : Nat) (m : Nat) (n : Nat) (s : State), (∀ x, m ≤ x → x < m + n → s.offline x = false) ∧
       s.flashOp = some (0, a, m, n) ∧ 0 < n ∧ s.permits 4 m n false true = true) ∧
    (∃ (a : Nat) (m : Nat) (n : Nat) (s : State), (∀ x, m ≤ x → x < m + n → s.offline x = false) ∧ s.clean ∧
       s.flashOp = some (1, a, m, n) ∧ 0 < n ∧ m % 8 = 0 ∧ n % 8 = 0 ∧ s.permits 4 m n true false = true) ∧
    (∃ (op : Nat) (size : Nat) (a : Nat) (m : Nat) (n : Nat) (s : State), (op, size) ∈ [(2, 4096), (3, 65536)] ∧
       s.flashOp = some (op, a, m, n)) ∧
    (∃ (err : Nat) (op : Nat) (a : Nat) (m : Nat) (n : Nat) (s : State), s.room ∧ s.flashOp = some (op, a, m, n) ∧
       (err = 1 ∨ err = 4 ∧ 2 ≤ op) ∧ 2 ≤ op) ∧
    (∃ (op : Nat) (a : Nat) (m : Nat) (n : Nat) (err : Nat) (s : State), (∃ x, m ≤ x ∧ x < m + n ∧ s.offline x = true) ∧
       s.flashOp = some (op, a, m, n) ∧ op ≤ 1) ∧
    (∃ (err : Nat) (s : State), s.flashOp = none) :=
  ⟨
    ⟨.sup 1, ID_FLASH_CTL.GO.inWord (ID_FLASH_CTL.OP.inWord 0 0) 1,
       rgnOpen (((up.put ID_FLASH_ADDR.ADDR 0 0x10000).put ID_FLASH_MEM.MEM 0 0x400000).put ID_FLASH_LEN.LEN 0 64),
       takes_ok (by decide +kernel), by decide +kernel⟩,
    ⟨.sup 1, ID_FLASH_CTL.GO.inWord (ID_FLASH_CTL.OP.inWord 0 1) 1,
       rgnOpen (((up.put ID_FLASH_ADDR.ADDR 0 0x10000).put ID_FLASH_MEM.MEM 0 0x400000).put ID_FLASH_LEN.LEN 0 64),
       takes_ok (by decide +kernel), by decide +kernel⟩,
    ⟨.sup 1, ID_FLASH_CTL.GO.inWord (ID_FLASH_CTL.OP.inWord 0 2) 1,
       rgnOpen (((up.put ID_FLASH_ADDR.ADDR 0 0x10000).put ID_FLASH_MEM.MEM 0 0x400000).put ID_FLASH_LEN.LEN 0 64),
       takes_ok (by decide +kernel), by decide +kernel⟩,
    ⟨.sup 1, ID_FLASH_CTL.GO.inWord (ID_FLASH_CTL.OP.inWord 0 3) 1,
       rgnOpen (((up.put ID_FLASH_ADDR.ADDR 0 0x10000).put ID_FLASH_MEM.MEM 0 0x400000).put ID_FLASH_LEN.LEN 0 64),
       takes_ok (by decide +kernel), by decide +kernel⟩,
    ⟨.erase4Kib (.sup 1) 0xA0000000, .sup 1, 0xA0000000,
       {up.put ID_FLASH_ADDR.ADDR 0 0x1000 with flashOp := some (0,1,2,3)}, by simp, takes_ok (by decide +kernel),
       by decide +kernel⟩,
    ⟨0x100, 0x400000, 16, {(rgn3 up) with flashOp := some (0,0x100,0x400000,16), flash := [(0x104, 5)]},
       between_ok (by decide +kernel), by decide +kernel⟩,
    ⟨0x100, 0x400000, 16,
       {(rgn3 up).wr 8 0x400008 0x123456 with flashOp := some (1,0x100,0x400000,16), flash := [(0x104, 5)]},
       between_ok (by decide +kernel), by unfold State.clean; decide +kernel, by decide +kernel⟩,
    ⟨2, 4096, 0x1000, 0, 0,
       {(rgn3 up).wr 8 0x400008 0x123456 with flashOp := some (2,0x1000,0,0), flash := [(0x104, 5),(0x1004,6),(0x2000,8)]},
       by decide +kernel⟩,
    ⟨4, 2, 0x1000, 0, 0,
       {(rgn3 up).wr 8 0x400008 0x123456 with flashOp := some (2,0x1000,0,0), flash := [(0x104, 5),(0x1004,6),(0x2000,8)]},
       by unfold State.room; decide +kernel, by decide +kernel⟩,
    ⟨1, 0x1000, 0x400000, 64, 0, {(up.put ID_MEM_STAT.BANKS 0 1) with flashOp := some (1,0x1000,0x400000,64)},
       ⟨0x400000, by decide, by decide, by decide +kernel⟩, by decide +kernel⟩,
    ⟨1, up, by decide +kernel⟩⟩

theorem witness_TestPort :
    (∃ (i : Instr) (scan : Nat) (pins : Nat) (wr : Bool) (a : Nat) (data : Nat) (ecc : Nat) (s : State),
      i ∈ [Instr.extest scan, .samplePreload pins scan, .jtagClamp, .highz, .dbg wr a data ecc, .idcode, .bypass] ∧
       s.trstPin = false) ∧
    (∃ (scan : Nat) (s : State), s.trstPin = true) ∧
    (∃ (pins : Nat) (scan : Nat) (s : State), s.trstPin = true) ∧
    (∃ (s : State), s.trstPin = true) ∧
    (∃ (s : State), s.trstPin = true) ∧
    (∃ (s : State), s.trstPin = true) ∧
    (∃ (s : State), s.trstPin = true) ∧
    (∃ (wr : Bool) (a : Nat) (data : Nat) (ecc : Nat) (s : State), s.trstPin = true ∧
       (s.locked = true ∨ s.flag ID_FUSE.JTAG_DBG 0 = false)) ∧
    (∃ (r : Reg) (i : Nat) (v : Nat) (ecc : Nat) (s : State), s.Reads .jtag r i ∧ s.trstPin = true ∧
       s.locked = false ∧ s.flag ID_FUSE.JTAG_DBG 0 = true ∧ r ≠ .CREW_AB ∧ r ≠ .REC_WIN ∧ r.has [.RC] = false) ∧
    (∃ (w : Nat) (ecc : Nat) (c : Nat) (s : State), s.Takes .jtag .CREW_OVL_CTL c w ∧ s.trstPin = true ∧
       s.locked = false ∧ s.flag ID_FUSE.JTAG_DBG 0 = true) :=
  ⟨
    ⟨.extest 5, 5, 6, false, 0, 0, 0, up, by simp, by decide +kernel⟩,
    ⟨77, tap up, by decide +kernel⟩,
    ⟨5, 77, tap up, by decide +kernel⟩,
    ⟨{tap up with tapScan := 12}, by decide +kernel⟩,
    ⟨{tap up with tapScan := 12}, by decide +kernel⟩,
    ⟨tap up, by decide +kernel⟩,
    ⟨tap up, by decide +kernel⟩,
    ⟨true, 0x40, 1, 0, (tap up).put ID_FUSE.JTAG_DBG 0 0, by decide +kernel⟩,
    ⟨.CAP_LIM, 1, 0, 0, tap up, reads_ok (by decide +kernel), by decide +kernel⟩,
    ⟨5, 0, 3, tap up, takes_ok (by decide +kernel), by decide +kernel⟩⟩

theorem witness_StageLink :
    (∃ (s : State), s.pending = []) ∧
    (∃ (d : Nat) (l : List Nat) (ready : Bool) (fault : Bool) (fcode : Nat) (vin : Nat) (iout : Nat) (temp : Int) (s : State), s.room ∧
       tget [] s.stgWait d = 3 :: l ∧ d < 16 ∧ 400 ≤ vin) ∧
    (∃ (d : Nat) (k : Nat) (l : List Nat) (ready : Bool) (fault : Bool) (fcode : Nat) (vin : Nat) (iout : Nat) (temp : Int) (s : State), tget [] s.stgWait d = k :: l ∧
       k ≠ 3) ∧
    (∃ (d : Nat) (l : List Nat) (ready : Bool) (fcode : Nat) (vin : Nat) (iout : Nat) (temp : Int) (s : State),
      tget [] s.stgWait d = 3 :: l ∧
       vin < 400 ∧ d ∉ s.stgLow) ∧
    (∃ (d : Nat) (s : State), s.room ∧ tget [] s.stgWait d ≠ [] ∧ d < 16) ∧
    (∃ (d : Nat) (ready : Bool) (fault : Bool) (fcode : Nat) (vin : Nat) (iout : Nat) (temp : Int) (s : State), s.room ∧
       tget [] s.stgWait d ≠ [] ∧ d < 16) ∧
    (∃ (i : Instr) (d : Nat) (crcOk : Bool) (ready : Bool) (fault : Bool) (fcode : Nat) (vin : Nat) (iout : Nat) (temp : Int) (s : State), (i = Instr.frameTimeout d ∨ i = .fsAnswer d crcOk ready fault fcode vin iout temp) ∧
       tget [] s.stgWait d = []) ∧
    (∃ (m : Master) (data : Nat) (s : State), s.Takes m .STG_CTL 0 data) ∧
    (∃ (s : State), s.flag ID_PWR_CTL.FS_EN 0 = true ∧ s.vibWas = true ∧ s.flag ID_PWR_STAT.VIB_GOOD 0 = true ∧
       (∀ c, c < 192 → thas (s.crew c).hHeld 9 = true → s.vibOf c < 22000000) ∧
       (∃ c, c < 192 ∧ thas (s.crew c).hHeld 9 = true)) ∧
    (∃ (s : State), (s.vibWas = false ∨ (∀ c, c < 192 → thas (s.crew c).hHeld 9 = true → 22000000 ≤ s.vibOf c))) ∧
    (∃ (n : Notice) (l : List Notice) (s : State), s.notices = n :: l ∧ s.cyc.noticed = false) ∧
    (∃ (n : Notice) (l : List Notice) (s : State), s.notices = n :: l ∧ s.cyc.on = true ∧ s.cyc.noticed = true) ∧
    (∃ (s : State), s.notices = []) ∧
    (∃ (n : Notice), n.kind < 16 ∧ n.cause < 16 ∧ n.scope < 2 ∧ n.index < 32) ∧
    (∃ (s : State) (r : Nat), s.Inv ∧ r < 24) :=
  ⟨
    ⟨{up with stgCmd := [(3,[2,0]),(4,[1])], stgWait := [(3,[1])], stgOut := [(4,[2])], now := 7}, by decide +kernel⟩,
    ⟨3, [2], true, true, 4, 400, 5, 20, {alld up with stgWait := [(3,[3,2])], stgMiss := [(3,2)]},
       by unfold State.room; decide +kernel, by decide +kernel⟩,
    ⟨3, 0, [3], true, true, 4, 400, 5, -20,
       {((alld up).put STG_DIE_STAT.FAULT 3 1).put STG_DIE_STAT.LOST 3 1 with stgWait := [(3,[0,3])], stgMiss := [(3,2)]},
       by decide +kernel⟩,
    ⟨3, [], true, 0x103, 380, 50, -4, {up.put STG_DIE_STAT.FAULT 3 1 with stgWait := [(3,[3])], stgMiss := [(3,2)]},
       by decide +kernel⟩,
    ⟨3, {alld up with stgWait := [(3,[2,3])]}, by unfold State.room; decide +kernel, by decide +kernel⟩,
    ⟨3, true, true, 4, 900, 5, 20, {alld up with stgWait := [(3,[2,3])], stgMiss := [(3,1)]},
       by unfold State.room; decide +kernel, by decide +kernel⟩,
    ⟨.frameTimeout 3, 3, true, false, false, 0x103, 380, 50, -4, up, .inl rfl,
       by decide +kernel⟩,
    ⟨.sup 1, 0xFF003F, up, takes_ok (by decide +kernel)⟩,
    ⟨{(alld (vibs (List.range 12) up)).put ID_PWR_STAT.VIB_GOOD 0 1 with vibWas := true} |> fun s => forAll (List.range 12) (fun s c => s.onCrew c (fun k => {k with hHeld := [(9,(0,0,4))]})) s,
       by decide +kernel⟩,
    ⟨up, by decide +kernel⟩,
    ⟨⟨3,1,0,2,⟨0,5⟩,0⟩, [⟨3,1,0,2,⟨0,5⟩,9⟩], {up with notices := [⟨3,1,0,2,⟨0,5⟩,0⟩,⟨3,1,0,2,⟨0,5⟩,9⟩]},
       by decide +kernel⟩,
    ⟨⟨3,1,0,2,⟨0,5⟩,0⟩, [⟨3,1,0,2,⟨0,5⟩,9⟩],
       {up with notices := [⟨3,1,0,2,⟨0,5⟩,0⟩,⟨3,1,0,2,⟨0,5⟩,9⟩], cyc := {on := true, noticed := true}, now := 8},
       by decide +kernel⟩,
    ⟨up, by decide +kernel⟩,
    ⟨⟨1, 2, 1, 31, ⟨0, 5⟩, 0⟩, by decide +kernel⟩,
    ⟨{up.put THM_REG.BAND 7 5 with strReq := [7, 30]}, 7, inv_ok (by decide +kernel), by decide +kernel⟩⟩

theorem witness_RegisterAccesses :
    (∃ (r : Reg) (m : Master) (i : Nat) (v : Nat) (ecc : Nat) (s : State), s.Takes m r i v ∧
       r ∈ [Reg.CREW_OVL_CTL, .CREW_SH_CTL, .ID_FLASH_ADDR, .ID_FLASH_MEM, .ID_FLASH_LEN, .LANE_ARG, .ID_MBX_CFG,
         .ID_UOP_LO, .ID_UOP_HI]) ∧
    (∃ (r : Reg) (m : Master) (i : Nat) (ecc : Nat) (s : State), s.Reads m r i ∧ r ≠ .CREW_AB ∧ r ≠ .REC_WIN) ∧
    (∃ (c : Instr) (m : Master) (a : Nat) (v : Nat) (ecc : Nat) (s : State), c ∈ [Instr.registerWrite m a 4 v ecc,
      .registerRead m a 4 ecc] ∧
       placeAt a = .fixed ∧ isFltEntry a = false ∧ a % 4 = 0 ∧ s.closed m = false ∧
       s.permitted (masterCode m) a 4 true false = true ∧ s.permitted (masterCode m) a 4 false true = true ∧
       thas s.hiLatch a = false) ∧
    (∃ (c : Instr) (wr : Bool) (m : Master) (a : Nat) (n : Nat) (v : Nat) (ecc : Nat) (cause : Nat) (s : State), (c,
      wr) ∈ [(Instr.registerWrite m a n v ecc, true), (.registerRead m a n ecc, false)] ∧
       s.TurnsAway m a n wr cause ∧ isHost m = true ∧ 7 ≤ s.get ID_BOOT_STAT.STEP 0) ∧
    (∃ (r : Reg) (m : Master) (i : Nat) (v : Nat) (ecc : Nat) (s : State), r.placed i ∧ isHost m = true ∧
       7 ≤ s.get ID_BOOT_STAT.STEP 0 ∧ s.hostBars r i = true ∧ s.permitted 1 (r.addr i) 4 false true = true) ∧
    (∃ (c : Instr) (wr : Bool) (k : Nat) (a : Nat) (n : Nat) (v : Nat) (ecc : Nat) (cause : Nat) (s : State), (c,
      wr) ∈ [(Instr.registerWrite (.sup k) a n v ecc, true), (.registerRead (.sup k) a n ecc, false)] ∧
       s.TurnsAway (.sup k) a n wr cause ∧ s.room) ∧
    (∃ (c : Instr) (m : Master) (a : Nat) (n : Nat) (v : Nat) (ecc : Nat) (s : State),
      c ∈ [Instr.registerWrite m a n v ecc, .registerRead m a n ecc] ∧
       isHost m = true ∧ s.get ID_BOOT_STAT.STEP 0 < 7) :=
  ⟨
    ⟨.CREW_OVL_CTL, .mgmt, 5, 0xFFFFFFFF, 0, up, takes_ok (by decide +kernel), by decide +kernel⟩,
    ⟨.TB_STAT, .mgmt, 0, 0, (up.put TB_STAT.SLIPS 0 9).putWas TB_STAT.SLIPS 0 4, reads_ok (by decide +kernel),
       by decide +kernel⟩,
    ⟨.registerWrite .mgmt 0x1000B8 4 5 0, .mgmt, 0x1000B8, 5, 0, up, by simp, by decide +kernel⟩,
    ⟨.registerWrite .mgmt 0x100 4 5 0, true, .mgmt, 0x100, 4, 5, 0, 1, up, by simp,
       by unfold State.TurnsAway; decide +kernel, by decide +kernel⟩,
    ⟨.ID_FLASH_ADDR, .mgmt, 0, 5, 0, rgnOpen up, by unfold Reg.placed; decide +kernel, by decide +kernel⟩,
    ⟨.registerWrite (.sup 1) 0x100 4 5 0, true, 1, 0x100, 4, 5, 0, 1, up, by simp,
       by unfold State.TurnsAway; decide +kernel, by unfold State.room; decide +kernel⟩,
    ⟨.registerWrite .mgmt 0x100 4 5 0, .mgmt, 0x100, 4, 5, 0, {}, by simp, by decide +kernel⟩⟩

theorem witness_MapAndMemories :
    (∃ (r : Reg) (i : Nat), i < r.info.n1 * r.info.n2 ∧
       (r ≠ .LANE_STAT → r ≠ .LANE_SIG → ¬(0x200800 ≤ r.addr i ∧ r.addr i < 0x200C00))) ∧
    (∃ (r : Reg) (q : Reg) (i : Nat) (j : Nat), r.placed i ∧ q.placed j ∧ r.addr i = q.addr j) ∧
    (∃ (r : Reg) (i : Nat), r.placed i) ∧
    (∃ (a : Nat), 0x54 ≤ a ∧ a < 0x10000) ∧
    (∃ (m : Master) (a : Nat) (v : Nat) (ecc : Nat) (s : State), s.closed m = false ∧ inCM a = true ∧ a % 8 = 0 ∧
       s.permitted (masterCode m) a 8 false true = true ∧ s.offline a = false) ∧
    (∃ (m : Master) (a : Nat) (n : Nat) (s : State), s.goodAt a ∧ s.closed m = false ∧ inMem a = true ∧
       (n = 4 ∨ n = 8) ∧ a % n = 0 ∧ s.permitted (masterCode m) a n true false = true ∧ s.offline a = false ∧
       (s.cyc.on = false ∨ s.pending = [])) ∧
    (∃ (m : Master) (q : Master) (a : Nat) (v : Nat) (ecc : Nat) (s : State) (t : State),
      (exec (.registerWrite m a 8 v ecc) s = .next t) ∧
       s.closed m = false ∧ s.closed q = false ∧ inCM a = true ∧ a % 8 = 0 ∧
       s.permitted (masterCode m) a 8 false true = true ∧ s.permitted (masterCode q) a 8 true false = true ∧
       s.offline a = false ∧ (s.cyc.on = false ∨ s.pending = [])) ∧
    (∃ (m : Master) (q : Master) (a : Nat) (v : Nat) (w : Nat) (ecc : Nat) (l : List Instr) (s : State), s.goodAt a ∧
       s.cyc.on = true ∧ s.pending = .registerWrite q a 8 v w :: l ∧ s.closed m = false ∧ s.closed q = false ∧
       inCM a = true ∧ a % 8 = 0 ∧ s.permitted (masterCode m) a 8 true false = true ∧
       s.permitted (masterCode q) a 8 false true = true ∧ s.offline a = false ∧ ecc = 0) ∧
    (∃ (m : Master) (a : Nat) (s : State), s.room ∧ isHost m = true ∧ 7 ≤ s.get ID_BOOT_STAT.STEP 0 ∧ inCM a = true ∧
       a % 8 = 0 ∧ s.permitted 1 a 8 true false = true ∧ s.offline a = false) :=
  ⟨
    ⟨.CREW_AB, 383, by decide +kernel⟩,
    ⟨.CREW_AB, .CREW_AB, 7, 7, by unfold Reg.placed; decide +kernel, by unfold Reg.placed; decide +kernel,
       by decide +kernel⟩,
    ⟨.CREW_AB, 0, by unfold Reg.placed; decide +kernel⟩,
    ⟨0x54, by decide +kernel⟩,
    ⟨.sup 1, 0x400010, 0x1122334455667788, 0, up.wr 8 0x400008 77, by decide +kernel⟩,
    ⟨.sup 1, 0x400014, 4, up.wr 8 0x400010 0x1122334455667788, by unfold State.goodAt; decide +kernel,
       by decide +kernel⟩,
    ⟨.sup 1, .sup 2, 0x400010, 0x11122334455667788, 0, up,
       nxt (exec (.registerWrite (.sup 1) 0x400010 8 0x11122334455667788 0) up), nxt_ok (by decide +kernel),
       by decide +kernel⟩,
    ⟨.mgmt, .sup 1, 0x400008, 0x1FFFFFFFFFFFFFFF3, 0, 0, [],
       rgnOpen {up with cyc := {on := true}, pending := [.registerWrite (.sup 1) 0x400008 8 0x1FFFFFFFFFFFFFFF3 0]},
       by unfold State.goodAt; decide +kernel, by decide +kernel⟩,
    ⟨.mgmt, 0x400010, rgnOpen up, by unfold State.room; decide +kernel, by decide +kernel⟩⟩

theorem witness_LockSetting :
    (∃ (k : Nat) (data : Nat) (s : State), s.Takes (.sup k) .ID_LOCK 0 data ∧ data % 2 = 1 ∧
       s.flag ID_LOCK.LOCK 0 = false) ∧
    (∃ (k : Nat) (data : Nat) (s : State), s.Takes (.sup k) .ID_LOCK 0 data ∧
       (data % 2 = 0 ∨ s.flag ID_LOCK.LOCK 0 = true)) ∧
    (∃ (m : Master) (data : Nat) (s : State), isHost m = true ∧ 7 ≤ s.get ID_BOOT_STAT.STEP 0 ∧
       s.permitted 1 0x40 4 false true = true) :=
  ⟨
    ⟨1, 1, up, takes_ok (by decide +kernel), by decide +kernel⟩,
    ⟨1, 0, up, takes_ok (by decide +kernel), by decide +kernel⟩,
    ⟨.mgmt, 1, up, by decide +kernel⟩⟩

theorem witness_FrozenFields :
    (∃ (r : Reg) (m : Master) (i : Nat) (v : Nat) (ecc : Nat) (s : State), s.Inv ∧ r.placed i ∧
       r ∈ [Reg.CREW_MOD_CTL, .CREW_FSC_CTL, .CAP_LIM, .THM_THRESH1, .THM_RISE, .FLT_CTL, .FLT_INJECT0, .ID_RGN] ∧
       s.locked = true) ∧
    (∃ (m : Master) (c : Nat) (v : Nat) (ecc : Nat) (s : State), s.Inv ∧ c < 192 ∧ s.closed m = false ∧
       s.permitted (masterCode m) (Reg.CREW_FSC_CTL.addr c) 4 false true = true ∧ s.locked = true) ∧
    (∃ (m : Master) (data : Nat) (s : State), s.Takes m .FLT_INJECT1 0 data ∧ s.locked = true) :=
  ⟨
    ⟨.CREW_MOD_CTL, .sup 1, 5, 0xFFFFFFFF, 0, {up.put ID_LOCK.LOCK 0 1 with now := 5}, inv_ok (by decide +kernel),
       by unfold Reg.placed; decide +kernel, by decide +kernel⟩,
    ⟨.sup 1, 3, 0xFFFFFFFF, 0, {up.put ID_LOCK.LOCK 0 1 with now := 5}, inv_ok (by decide +kernel), by decide +kernel⟩,
    ⟨.sup 1, 1, {up.put ID_LOCK.LOCK 0 1 with now := 5}, takes_ok (by decide +kernel), by decide +kernel⟩⟩

theorem witness_StepRunsFront :
    (∃ (c : Instr) (l : List Instr) (s : State), s.pending = c :: l) ∧
    (∃ (s : State), s.pending = []) ∧
    (∃ (s : State), (∀ c, (s.crew c).trigWait = []) ∧ (s.now + 1 - s.markStart) % 4 ≠ 0 ∧ s.xcalDue = false ∧
       s.stgCmd = []) ∧
    (∃ (s : State), s.xcalDue = true ∧ s.now + 1 = s.hostAt + 4500) :=
  ⟨
    ⟨.sharingPass, [.poll], {up with pending := [.sharingPass, .poll]}, by decide +kernel⟩,
    ⟨up, by decide +kernel⟩,
    ⟨{up with now := 4}, fun _ => rfl, by decide +kernel⟩,
    ⟨{up with xcalDue := true, now := 4499, hostAt := 0, strReq := [3]}, by decide +kernel⟩⟩

theorem witness_StepKeepsInv :
    ∃ (s : State), s.Inv :=
    ⟨State.reset, inv_ok (by decide +kernel)⟩

end Sys2Proof.Tests
end

/-! The statements of the family 00_scope: that every step keeps the invariant, and three that the model does not meet as
they are stated, each refuted in a state of a few fields. -/

/-! ## Every step keeps the invariant (R18, R23, R412, R469) -/

namespace Sys2Proof.Machine

open Sys2Proof

variable {s t : State}

/-! The commands of which a master is one of two senders: of a master's access the laws hold, and of the sequencer's act
that of the operation. -/

theorem execAbRead_opt_goes {m : Option Master} {c size : Nat} {isB : Bool} (h : Kept s t) :
    Goes s (execAbRead m c isB size t) := by
  cases m with
  | some m => exact execAbRead_goes h
  | none => exact next_goes (ite_kept (takeOnRead_kept h) fun _ => takeOnRead_kept (takeOnRead_kept h))

theorem execAbFire_opt_goes {m : Option Master} {c data : Nat} (h : Kept s t) : Goes s (execAbFire m c data t) := by
  cases m with
  | some m => exact execAbFire_goes h
  | none => exact next_goes (ite_kept h fun _ => trigger_kept h)

theorem execConfirm_opt_goes {m : Option Master} {c data : Nat} (h : Kept s t) : Goes s (execConfirm m c data t) := by
  cases m with
  | some m => exact execConfirm_goes h
  | none => exact next_goes (sequencerTest_kept h)

/-- Every command goes on, and keeps the queue and the invariant: the commands one by one, each by the law of its own. -/
theorem exec_goes (h : Kept s t) : ∀ c : Instr, Goes s (exec c t)
  | .registerWrite .. => execRegisterWrite_goes h
  | .setLock .. => execSetLock_goes h
  | .descriptorWrite .. => execDescriptorWrite_goes h
  | .validation .. => execValidation_goes h
  | .validationComplete .. => execValidationComplete_goes h
  | .removal .. => execRemoval_goes h
  | .removalComplete .. => execRemovalComplete_goes h
  | .capabilityRecompute .. => execCapabilityRecompute_goes h
  | .grantUpdate .. => execGrantUpdate_goes h
  | .uopGo .. => execUopGo_goes h
  | .uopIssue => execUopIssue_goes h
  | .pulse .. => execPulse_goes h
  | .endOfOnTime .. => execEndOfOnTime_goes h
  | .minimumOffTimeEnd .. => execMinimumOffTimeEnd_goes h
  | .fastLimitTrip .. => execFastLimitTrip_goes h
  | .blankEnd .. => execBlankEnd_goes h
  | .tripWindow .. => execTripWindow_goes h
  | .overTemp .. => execOverTemp_goes h
  | .restore .. => execRestore_goes h
  | .balanceTrim .. => execBalanceTrim_goes h
  | .crewOverload .. => execCrewOverload_goes h
  | .foldOffset .. => execFoldOffset_goes h
  | .overloadUnresolved .. => execOverloadUnresolved_goes h
  | .testPulse .. => execTestPulse_goes h
  | .ditherSeed .. => execDitherSeed_goes h
  | .abSampleLand .. => execAbSampleLand_goes h
  | .abRead .. => execAbRead_opt_goes h
  | .abFire .. => execAbFire_opt_goes h
  | .abMode .. => execAbMode_goes h
  | .modeChange .. => execModeChange_goes h
  | .hSlotEnd .. => execHSlotEnd_goes h
  | .hResult .. => execHResult_goes h
  | .urgentRequest .. => execUrgentRequest_goes h
  | .hMode .. => execHMode_goes h
  | .refSel .. => execRefSel_goes h
  | .refSettled .. => execRefSettled_goes h
  | .localOvervoltage .. => execLocalOvervoltage_goes h
  | .confirm .. => execConfirm_opt_goes h
  | .retry .. => execRetry_goes h
  | .pullEnd .. => execPullEnd_goes h
  | .senseSwitch .. => execSenseSwitch_goes h
  | .datapathUpdate .. => execDatapathUpdate_goes h
  | .updateCompletion .. => execUpdateCompletion_goes h
  | .missWindow .. => execMissWindow_goes h
  | .resume .. => execResume_goes h
  | .commit .. => execCommit_goes h
  | .commitCopy .. => execCommitCopy_goes h
  | .setpointCommand => execSetpointCommand_goes h
  | .refStep .. => execRefStep_goes h
  | .llsDelivery => execLlsDelivery_goes h
  | .gselDelivery => execGselDelivery_goes h
  | .sharingPass => execSharingPass_goes h
  | .trimTake => execTrimTake_goes h
  | .droop .. => execDroop_goes h
  | .droopRearm .. => execDroopRearm_goes h
  | .reservoirReady .. => execReservoirReady_goes h
  | .armDelivery => execArmDelivery_goes h
  | .armedFiring .. => execArmedFiring_goes h
  | .overshootClamp .. => execOvershootClamp_goes h
  | .clampOff .. => execClampOff_goes h
  | .clampWindow .. => execClampWindow_goes h
  | .planeFloor .. => execPlaneFloor_goes h
  | .coverDelivery => execCoverDelivery_goes h
  | .coverExpiry .. => execCoverExpiry_goes h
  | .ageSlack .. => execAgeSlack_goes h
  | .standWrite .. => execStandWrite_goes h
  | .standDelivery => execStandDelivery_goes h
  | .sheddingEnd .. => execSheddingEnd_goes h
  | .crewCalibrationEnd .. => execCrewCalibrationEnd_goes h
  | .rejoin .. => execRejoin_goes h
  | .derate .. => execDerate_goes h
  | .pwronDelivery => execPwronDelivery_goes h
  | .queueReevaluation => execQueueReevaluation_goes h
  | .softStartAbort .. => execSoftStartAbort_goes h
  | .powerOnRetry .. => execPowerOnRetry_goes h
  | .unlock .. => execUnlock_goes h
  | .pwroffDelivery => execPwroffDelivery_goes h
  | .vminRearm .. => execVminRearm_goes h
  | .dieRearm .. => execDieRearm_goes h
  | .forecastWrite .. => execForecastWrite_goes h
  | .intake .. => execIntake_goes h
  | .arrival => execArrival_goes h
  | .creditReturn => execCreditReturn_goes h
  | .fcwCfgWrite .. => execFcwCfgWrite_goes h
  | .ringRelease .. => execRingRelease_goes h
  | .startRequest .. => execStartRequest_goes h
  | .heatOpen .. => execHeatOpen_goes h
  | .heatGrant .. => execHeatGrant_goes h
  | .startStalled .. => execStartStalled_goes h
  | .stretch .. => execStretch_goes h
  | .realignment .. => execRealignment_goes h
  | .start .. => execStart_goes h
  | .stop .. => execStop_goes h
  | .unload .. => execUnload_goes h
  | .watchdog .. => execWatchdog_goes h
  | .waitEnd .. => execWaitEnd_goes h
  | .loadComplete => execLoadComplete_goes h
  | .nop .. => execNop_goes h
  | .halt .. => execHalt_goes h
  | .yield .. => execYield_goes h
  | .br .. => execBr_goes h
  | .brc .. => execBrc_goes h
  | .call .. => execCall_goes h
  | .ret .. => execRet_goes h
  | .loop .. => execLoop_goes h
  | .movi .. => execMovi_goes h
  | .mov .. => execMov_goes h
  | .add .. => execAdd_goes h
  | .sub .. => execSub_goes h
  | .mulq .. => execMulq_goes h
  | .shr .. => execShr_goes h
  | .shl .. => execShl_goes h
  | .and .. => execAnd_goes h
  | .or .. => execOr_goes h
  | .cmp .. => execCmp_goes h
  | .min .. => execMin_goes h
  | .max .. => execMax_goes h
  | .clamp .. => execClamp_goes h
  | .setv .. => execSetv_goes h
  | .setvr .. => execSetvr_goes h
  | .ramp .. => execRamp_goes h
  | .lls .. => execLls_goes h
  | .gsel .. => execGsel_goes h
  | .arm .. => execArm_goes h
  | .stand .. => execStand_goes h
  | .pwron .. => execPwron_goes h
  | .pwroff .. => execPwroff_goes h
  | .rdt .. => execRdt_goes h
  | .rdtResult => execRdtResult_goes h
  | .waitt .. => execWaitt_goes h
  | .waitm .. => execWaitm_goes h
  | .waits .. => execWaits_goes h
  | .waita .. => execWaita_goes h
  | .barl .. => execBarl_goes h
  | .barx .. => execBarx_goes h
  | .markq .. => execMarkq_goes h
  | .waite .. => execWaite_goes h
  | .wopen .. => execWopen_goes h
  | .wclose .. => execWclose_goes h
  | .fcst .. => execFcst_goes h
  | .heat .. => execHeat_goes h
  | .capq .. => execCapq_goes h
  | .slack .. => execSlack_goes h
  | .evt .. => execEvt_goes h
  | .ld .. => execLd_goes h
  | .st .. => execSt_goes h
  | .aadd .. => execAadd_goes h
  | .swap .. => execSwap_goes h
  | .accessComplete .. => execAccessComplete_goes h
  | .grant .. => execGrant_goes h
  | .loadp .. => execLoadp_goes h
  | .signal .. => execSignal_goes h
  | .estimatorUpdate .. => execEstimatorUpdate_goes h
  | .fwLoad .. => execFwLoad_goes h
  | .modelCheckComplete => execModelCheckComplete_goes h
  | .estSrc .. => execEstSrc_goes h
  | .sensorSample .. => execSensorSample_goes h
  | .biasCheck .. => execBiasCheck_goes h
  | .stale .. => execStale_goes h
  | .graceEnd .. => execGraceEnd_goes h
  | .enforcementStep .. => execEnforcementStep_goes h
  | .thermalCeilingStep .. => execThermalCeilingStep_goes h
  | .throttleEnd .. => execThrottleEnd_goes h
  | .substitution .. => execSubstitution_goes h
  | .retest .. => execRetest_goes h
  | .coolantDebounce => execCoolantDebounce_goes h
  | .domainShutdown => execDomainShutdown_goes h
  | .stopAtCrews => execStopAtCrews_goes h
  | .planeDischarged .. => execPlaneDischarged_goes h
  | .logRecord .. => execLogRecord_goes h
  | .reportPeriod => execReportPeriod_goes h
  | .report .. => execReport_goes h
  | .regattaGrant .. => execRegattaGrant_goes h
  | .join .. => execJoin_goes h
  | .done .. => execDone_goes h
  | .notice .. => execNotice_goes h
  | .noticeAll .. => execNoticeAll_goes h
  | .classification => execClassification_goes h
  | .faultShutdown .. => execFaultShutdown_goes h
  | .fc2Clear .. => execFc2Clear_goes h
  | .fc2ClearAll .. => execFc2ClearAll_goes h
  | .alertClear .. => execAlertClear_goes h
  | .selfFault .. => execSelfFault_goes h
  | .injection .. => execInjection_goes h
  | .markStrobe => execMarkStrobe_goes h
  | .markBegin .. => execMarkBegin_goes h
  | .snapshotComplete .. => execSnapshotComplete_goes h
  | .snapshotReq .. => execSnapshotReq_goes h
  | .snapshotCopy => execSnapshotCopy_goes h
  | .histClr .. => execHistClr_goes h
  | .histClear .. => execHistClear_goes h
  | .calAll .. => execCalAll_goes h
  | .calOne .. => execCalOne_goes h
  | .deliveryCalibrationEnd .. => execDeliveryCalibrationEnd_goes h
  | .vmaxRearm .. => execVmaxRearm_goes h
  | .captureArm .. => execCaptureArm_goes h
  | .captureStop .. => execCaptureStop_goes h
  | .captureFire .. => execCaptureFire_goes h
  | .captureTrigger .. => execCaptureTrigger_goes h
  | .captureBlock .. => execCaptureBlock_goes h
  | .capturePage .. => execCapturePage_goes h
  | .recWin7Read .. => execRecWin7Read_goes h
  | .scrub .. => execScrub_goes h
  | .marchGo .. => execMarchGo_goes h
  | .marchComplete .. => execMarchComplete_goes h
  | .safetyCrcCheck => execSafetyCrcCheck_goes h
  | .post .. => execPost_goes h
  | .take .. => execTake_goes h
  | .mailboxDone .. => execMailboxDone_goes h
  | .release .. => execRelease_goes h
  | .recoverBoot => execRecoverBoot_goes h
  | .recoveryReport => execRecoveryReport_goes h
  | .powerOn .. => execPowerOn_goes h
  | .pwrEnDebounce => execPwrEnDebounce_goes h
  | .fsEn .. => execFsEn_goes h
  | .vibGood => execVibGood_goes h
  | .vibStartFailed => execVibStartFailed_goes h
  | .hostRun .. => execHostRun_goes h
  | .xcalReq => execXcalReq_goes h
  | .xcalDone => execXcalDone_goes h
  | .xcalFail => execXcalFail_goes h
  | .xcalTimeout => execXcalTimeout_goes h
  | .full .. => execFull_goes h
  | .engine .. => execEngine_goes h
  | .shutdown .. => execShutdown_goes h
  | .sdWait => execSdWait_goes h
  | .standbySupplyLost => execStandbySupplyLost_goes h
  | .vaonLoss => execVaonLoss_goes h
  | .page .. => execPage_goes h
  | .clearFaults .. => execClearFaults_goes h
  | .writeProtect .. => execWriteProtect_goes h
  | .capability .. => execCapability_goes h
  | .voutMode .. => execVoutMode_goes h
  | .voutCommand .. => execVoutCommand_goes h
  | .statusByte .. => execStatusByte_goes h
  | .statusWord .. => execStatusWord_goes h
  | .statusVout .. => execStatusVout_goes h
  | .statusIout .. => execStatusIout_goes h
  | .statusTemperature .. => execStatusTemperature_goes h
  | .statusCml .. => execStatusCml_goes h
  | .readVin .. => execReadVin_goes h
  | .readVout .. => execReadVout_goes h
  | .readIout .. => execReadIout_goes h
  | .readTemperature1 .. => execReadTemperature1_goes h
  | .readPout .. => execReadPout_goes h
  | .pmbusRevision .. => execPmbusRevision_goes h
  | .mfrId .. => execMfrId_goes h
  | .mfrModel .. => execMfrModel_goes h
  | .unsupportedCommand .. => execUnsupportedCommand_goes h
  | .alertResponse => execAlertResponse_goes h
  | .read .. => execRead_goes h
  | .program .. => execProgram_goes h
  | .erase4Kib .. => execErase4Kib_goes h
  | .erase64Kib .. => execErase64Kib_goes h
  | .flashOperationEnd .. => execFlashOperationEnd_goes h
  | .extest .. => execExtest_goes h
  | .samplePreload .. => execSamplePreload_goes h
  | .jtagClamp => execJtagClamp_goes h
  | .highz => execHighz_goes h
  | .dbg .. => execDbg_goes h
  | .idcode => execIdcode_goes h
  | .bypass => execBypass_goes h
  | .trst .. => execTrst_goes h
  | .poll => execPoll_goes h
  | .fsAnswer .. => execFsAnswer_goes h
  | .frameTimeout .. => execFrameTimeout_goes h
  | .vibSet .. => execVibSet_goes h
  | .vibLost => execVibLost_goes h
  | .noticeSend => execNoticeSend_goes h
  | .registerRead .. => execRegisterRead_goes h
  | .phaseCurrentReachesZero .. => execPhaseCurrentReachesZero_goes h
  | .pwrEnPinChange .. => execPwrEnPinChange_goes h
  | .coolantOkPinChange .. => execCoolantOkPinChange_goes h
  | .fc3LatchClear => execFc3LatchClear_goes h
  | .ringSectorErase => execRingSectorErase_goes h

theorem step_of_pending_nil (h : s.pending = []) : step s = .next (idleCycle s) := by
  simp only [step, h]

theorem step_of_pending_cons {c : Instr} {l : List Instr} (h : s.pending = c :: l) :
    step s = exec c { s with pending := l } := by
  simp only [step, h]

/-- The invariant does not speak of the queue. -/
theorem State.Inv.withPending {l : List Instr} (h : s.Inv) : State.Inv { s with pending := l } :=
  ⟨h.mem, h.flash, h.fld, h.fuse⟩

/-! ## What a register write and a 64-bit write of coordinator memory do -/

variable {m : Master} {a v ecc : Nat}

theorem exec_registerWrite {n : Nat} : exec (.registerWrite m a n v ecc) s = .next (portWrite s.openBoot m a n v ecc s) := rfl

/-- A 64-bit write that coordinator memory takes stores its bytes and nothing else (R412, R418). -/
theorem portWrite_cm {inp : BootIn} (ho : s.closed m = false) (hc : inCM a = true) (ha : a % 8 = 0)
    (hp : s.permitted (masterCode m) a 8 false true = true) (hb : s.offline a = false) :
    portWrite inp m a 8 v ecc s = (s.wrBytes a (leBytes 8 v)).answered 0 := by
  have hf : formOk a 8 = true := by
    simp only [inCM, formOk, decide_eq_true_eq] at hc ⊢
    exact ⟨.inr trivial, ha, by omega⟩
  simp [portWrite, ho, busWrite, State.accessBar, hf, hp, hc, writeCM, hb, State.answered]

/-- A 32-bit write of a named word that its block bars fails with cause 4 (R498). -/
theorem portWrite_barred {inp : BootIn} (ho : s.closed m = false) (hf : formOk a 4 = true)
    (hp : s.permitted (masterCode m) a 4 false true = true) (hm : inMem a = false) (hn : named a 4 = true)
    (hb : s.bars (isHost m) a = true) : portWrite inp m a 4 v ecc s = failAccess m a 4 s := by
  simp only [inMem, Bool.or_eq_false_iff] at hm
  simp [portWrite, ho, busWrite, State.accessBar, hf, hp, hm, writeRegs, hn, accessWords, hb]

end Sys2Proof.Machine

namespace Sys2Proof.Proofs.Scope

open Sys2Proof Sys2Proof.Machine

/-- Settles O59: an idle cycle and every command keep the invariant, and a step is one or the other. -/
theorem stepKeepsInv : Obligations.StepKeepsInv := by
  intro s hs
  cases hp : s.pending with
  | nil => exact ⟨idleCycle s, step_of_pending_nil hp, (idleCycle_kept (Kept.refl s)).inv hs⟩
  | cons c l =>
    obtain ⟨t, ht, hk⟩ := exec_goes (Kept.refl { s with pending := l }) c
    exact ⟨t, (step_of_pending_cons hp).trans ht, hk.inv hs.withPending⟩

/-! ## Register accesses: a barred fixed place (R235, R492) -/

/-- A released block whose region register lets the management port read and write the whole map. -/
def portOpen : State := putRegion 16 0xEFFF0000 (State.put {} ID_BOOT_STAT.STEP 0 7)

/-- The word of LANE_ARG in the block of supervisor context S0, which R235 leaves unused. -/
def supArg : Nat := Reg.LANE_ARG.addr 8

/-- Refutes O53: of the places that are named and hold nothing in use, the words of a supervisor block at the registers
of a lane are barred to the management port, which answers its write of one with an error (R235); the clause on such
places has every write of one answered without. The write is of 0 to `supArg` in the state `portOpen`. -/
theorem not_registerAccesses : ¬ Obligations.RegisterAccesses := by
  rintro ⟨-, -, hfixed, -⟩
  have hplace : placeAt supArg = .fixed := by decide
  have hopen : portOpen.closed .mgmt = false := by decide
  have hread : portOpen.permitted 1 supArg 4 true false = true := by decide
  have hwrite : portOpen.permitted 1 supArg 4 false true = true := by decide
  obtain ⟨t, ht, hresp, -⟩ := hfixed (.registerWrite .mgmt supArg 4 0 0) .mgmt supArg 0 0 portOpen (by simp) hplace
    (by decide) (by decide) hopen hread hwrite (by decide)
  have hbars : portOpen.bars true supArg = true := by decide
  have hfail : portWrite portOpen.openBoot .mgmt supArg 4 0 0 portOpen = failAccess .mgmt supArg 4 portOpen :=
    portWrite_barred hopen (by decide) hwrite (by decide) (by decide) hbars
  rw [exec_registerWrite, hfail] at ht
  cases ht
  exact absurd hresp (by decide)

/-! ## Map and memories: a memory out of canonical form (R412) -/

/-- A block whose region register lets the processor write the whole map, and whose coordinator memory lists two bytes
out of order, as no command leaves it: it has not the invariant. -/
def unordered : State := { putRegion 0 0xEFFF0000 {} with mem := [(0x400008, 1), (0x400000, 1)] }

/-- Refutes O54: the clause on 64-bit writes speaks of every state, and not only of those with the invariant. A write of 0
to the state `unordered` looks for the byte at 0x400000 before the first higher address, finds none to take out, and
leaves it at 1. -/
theorem not_mapAndMemories : ¬ Obligations.MapAndMemories := by
  rintro ⟨-, -, -, -, hstore, -⟩
  have hopen : unordered.closed (.sup 0) = false := rfl
  have hmem : inCM 0x400000 = true := by decide
  have halign : 0x400000 % 8 = 0 := by decide
  have hperm : unordered.permitted 0 0x400000 8 false true = true := by decide
  have hbank : unordered.offline 0x400000 = false := by decide
  obtain ⟨t, ht, hbytes, -⟩ := hstore (.sup 0) 0x400000 0 0 unordered hopen hmem halign hperm hbank
  rw [exec_registerWrite, portWrite_cm hopen hmem halign hperm hbank] at ht
  cases ht
  have hleft : mget 0 ((unordered.wrBytes 0x400000 (leBytes 8 0)).answered 0).mem 0x400000 = 1 := by decide
  exact absurd ((hbytes 0 (by decide)).symm.trans hleft) (by decide)

/-! ## Frozen fields: a held value that was never stored (R22) -/

/-- A block whose lock is in force and whose region register lets the processor write the whole map; of the crews'
registers nothing has been written. -/
def lockedUp : State := { putRegion 0 0xEFFF0000 (State.put {} ID_LOCK.LOCK 0 1) with now := 1 }

theorem lockedUp_inv : lockedUp.Inv := by
  have h0 : State.Inv {} := ⟨⟨.nil, by simp⟩, ⟨.nil, by simp⟩, by simp [fitList], by simp [fitList]⟩
  have hk : Kept {} (putRegion 0 0xEFFF0000 (State.put {} ID_LOCK.LOCK 0 1)) :=
    putRegion_kept (put_kept (Kept.refl _) (by decide))
  exact (upd_kept hk).inv h0

/-- The bits of CREW_FSC_CTL.LIMIT under another reset value: no field of the map, but one that SameRegs speaks of. -/
def limitAtZero : Fld := { CREW_FSC_CTL.LIMIT with reset := fun _ => 0 }

/-- Refutes O56: in the clause on CREW_FSC_CTL the frame speaks of every field description, and so of `limitAtZero`. The
write stores the held LIMIT, 0x3C, which was the reset column's and not stored before: `limitAtZero`, which read its own
reset value, reads 0x3C after it. -/
theorem not_frozenFields : ¬ Obligations.FrozenFields := by
  rintro ⟨-, hfsc, -⟩
  have hperm : lockedUp.permitted 0 (Reg.CREW_FSC_CTL.addr 0) 4 false true = true := by decide
  obtain ⟨t, ht, -, -, -, -, -, hregs, -⟩ := hfsc (.sup 0) 0 0x3C 0 lockedUp lockedUp_inv (by decide) rfl hperm (by decide)
  rw [exec_registerWrite] at ht
  cases ht
  have hkeep := hregs limitAtZero 0 (by decide)
  have hbefore : lockedUp.get limitAtZero 0 = 0 := by decide
  have hafter : (portWrite lockedUp.openBoot (.sup 0) (Reg.CREW_FSC_CTL.addr 0) 4 0x3C 0 lockedUp).get limitAtZero 0 = 0x3C := by
    decide
  rw [hbefore, hafter] at hkeep
  exact absurd hkeep (by decide)

end Sys2Proof.Proofs.Scope

/-! The statements of the family 01_architecture: unit descriptors, user groups and unit operations. -/

namespace Sys2Proof.Machine

open Sys2Proof

variable {s t : State} {m : Master} {f g : Fld} {i j k n op u v w b c pc cause code src kd d0 d1 : Nat} {kind : OpKind} {o : Op}
  {act : PWord → State → State}

/-! ## Slices of a word -/

/-- A slice of a word lies in its 32 bits. -/
theorem bits_mod_word {hi lo : Nat} (h : lo ≤ hi ∧ hi < 32) : bits (v % 2 ^ 32) hi lo = bits v hi lo :=
  ofWord_mod (f := ⟨.DESC_W0, hi, lo, .RW, fun _ => 0⟩) h

theorem bitAt_mod_word {k : Nat} (h : k < 32) : bitAt (v % 2 ^ 32) k = bitAt v k := by
  rw [bitAt, Nat.testBit_mod_two_pow, decide_eq_true h, Bool.true_and, bitAt]

/-- A slice fits a field of its width. -/
theorem bits_mod_width {hi lo n : Nat} (h : n = hi - lo + 1) : bits v hi lo % 2 ^ n = bits v hi lo := by
  subst h
  exact Nat.mod_mod _ _

/-! ## Descriptor writes (R38) -/

/-- A wrapping counter reads one more, cut to its width. -/
@[simp] theorem get_wrap_self : (s.wrap f i).get f i = (s.get f i + 1) % 2 ^ f.width := get_put_self

theorem get_wrap_reg {j : Nat} (h : f.reg ≠ g.reg) : (s.wrap g j).get f i = s.get f i := get_put_reg h

theorem get_wrap_lo {j : Nat} (h : f.lo ≠ g.lo) : (s.wrap g j).get f i = s.get f i := get_put_lo h

/-- A descriptor write takes no notice of what lies beyond the word. -/
theorem descWrite_mod_word : descWrite u w (v % 2 ^ 32) s = descWrite u w v s := by
  simp (disch := decide) only [descWrite, bits_mod_word, bitAt_mod_word]

/-- The words of a descriptor entry. -/
def descWords : List (Reg × Nat) :=
  [(.DESC_W0, 0), (.DESC_W1, 1), (.DESC_W2, 2), (.DESC_W3, 3), (.DESC_W4, 4), (.DESC_W5, 5), (.DESC_W6, 6), (.DESC_W7, 7)]

/-- A word of the entry lies in the entry's place, and its write is the descriptor table's own. -/
theorem descWords_spec {r : Reg} (hr : (r, w) ∈ descWords) : Reg.DESC_W0.addr u + 4 * w = r.addr u ∧ r ≠ .ID_UOP_CTL ∧
    ∀ inp host, writeReg inp host r u v s = descWrite u w v s := by
  simp only [descWords, List.mem_cons, Prod.mk.injEq, List.not_mem_nil, or_false] at hr
  rcases hr with ⟨rfl, rfl⟩ | ⟨rfl, rfl⟩ | ⟨rfl, rfl⟩ | ⟨rfl, rfl⟩ | ⟨rfl, rfl⟩ | ⟨rfl, rfl⟩ | ⟨rfl, rfl⟩ | ⟨rfl, rfl⟩ <;>
    refine ⟨?_, by decide, fun _ _ => rfl⟩ <;> simp only [Reg.addr, Reg.info] <;> omega

/-- A write of a descriptor word that is taken is the descriptor table's own. -/
theorem exec_descriptorWrite {r : Reg} (hr : (r, w) ∈ descWords) (h : s.Takes m r u v) :
    exec (.descriptorWrite m u w v) s = .next ((descWrite u w v s).answered 0) := by
  obtain ⟨hplace, hgo, hwrite⟩ := descWords_spec (u := u) (v := v % 2 ^ 32) (s := s) hr
  show Host.Outcome.next (portWrite s.openBoot m (Reg.DESC_W0.addr u + 4 * w) 4 v 0 s) = _
  rw [hplace, portWrite_takes h hgo, hwrite, descWrite_mod_word]

/-- The write of word 0 by a command of its own. -/
theorem regWrite_descW0 (h : s.Takes m .DESC_W0 u v) : regWrite m .DESC_W0 u v s = (descWrite u 0 v s).answered 0 := by
  rw [regWrite_takes h (by decide)]
  exact congrArg (State.answered · 0) descWrite_mod_word

/-- The state with other entries of the descriptor table pending. -/
def State.pend (s : State) (l : List (Nat × Bool)) : State := { s with unitPend := l }

@[simp] theorem pend_get {l : List (Nat × Bool)} : (s.pend l).get f i = s.get f i := rfl
@[simp] theorem pend_unitPend {l : List (Nat × Bool)} : (s.pend l).unitPend = l := rfl
theorem SameRegs.pend {l : List FKey} {p : List (Nat × Bool)} (h : SameRegs l s t) : SameRegs l s (t.pend p) := h.congr rfl rfl

theorem askRemoval_eq : askRemoval u s =
    if s.get DESC_W7.GROUP_REFS u = 0 ∧ s.get DESC_W7.PROG_REFS u = 0 then
      ((s.put DESC_W6.STATUS u 1).wrap DESC_W6.GEN u).pend (s.unitPend ++ [(u, true)])
    else (s.put DESC_W6.STATUS u 0x17).wrap DESC_W6.GEN u := by
  unfold askRemoval
  by_cases h : s.get DESC_W7.GROUP_REFS u = 0 ∧ s.get DESC_W7.PROG_REFS u = 0
  · rw [if_pos h, if_neg (by omega)]; rfl
  · rw [if_neg h, if_pos (by omega)]

/-- Unit u is a user group's ID, and its entry runs no validation and no removal (R38, R41). -/
structure State.userEntry (s : State) (u : Nat) : Prop where
  lo : 0x700 ≤ u
  hi : u < 0x800
  free : s.unitBusy u = false

section
variable (hu : s.userEntry u)
include hu

theorem descWrite_kind (hv : s.flag DESC_W0.VALID u = false) (hb : bitAt v 27 = false) : descWrite u 0 v s =
    if bits v 31 28 = s.get DESC_W0.KIND u then s else (s.put DESC_W0.KIND u (bits v 31 28)).wrap DESC_W6.GEN u := by
  simp [descWrite, hu.lo, hu.hi, hu.free, hv, hb]

theorem descWrite_valid (hv : s.flag DESC_W0.VALID u = false) (hb : bitAt v 27 = true) : descWrite u 0 v s =
    ((((s.put DESC_W0.KIND u (bits v 31 28)).put DESC_W0.VALID u 1).put DESC_W6.STATUS u 1).wrap DESC_W6.GEN u).pend
      (s.unitPend ++ [(u, false)]) := by
  simp only [descWrite, hu.lo, hu.hi, hu.free, hv, hb, Bool.not_false, decide_true, and_self, Bool.and_self, if_true,
    zero_le, State.pend]

theorem descWrite_members (hv : s.flag DESC_W0.VALID u = false) : descWrite u 1 v s =
    if bits v 31 31 = s.get DESC_W1.LIST u ∧ bits v 27 24 = s.get DESC_W1.STRIDE u ∧ bits v 23 12 = s.get DESC_W1.COUNT u ∧
      bits v 11 0 = s.get DESC_W1.FIRST u then s
    else ((((s.put DESC_W1.LIST u (bits v 31 31)).put DESC_W1.STRIDE u (bits v 27 24)).put DESC_W1.COUNT u (bits v 23 12)).put
      DESC_W1.FIRST u (bits v 11 0)).wrap DESC_W6.GEN u := by
  simp [descWrite, hu.lo, hu.hi, hu.free, hv]

theorem descWrite_listPtr (hv : s.flag DESC_W0.VALID u = false) : descWrite u 2 v s =
    if bits v 21 3 = s.get DESC_W2.LIST_PTR u then s else (s.put DESC_W2.LIST_PTR u (bits v 21 3)).wrap DESC_W6.GEN u := by
  simp [descWrite, hu.lo, hu.hi, hu.free, hv]

theorem descWrite_removal (hv : s.flag DESC_W0.VALID u = true) (hb : bitAt v 27 = false) :
    descWrite u 0 v s = askRemoval u s := by
  simp [descWrite, hu.lo, hu.hi, hu.free, hv, hb]
end

/-- Every other write is refused (R38). -/
theorem descWrite_refused (h : u < 0x700 ∨ s.unitBusy u = true ∨ (s.flag DESC_W0.VALID u = false ∧ 3 ≤ w) ∨
    (s.flag DESC_W0.VALID u = true ∧ (w ≠ 0 ∨ bitAt v 27 = true))) : descWrite u w v s = s.raise 0x0101 1 u := by
  unfold descWrite
  rcases h with h | h | ⟨hv, h⟩ | ⟨hv, h | h⟩
  · simp [show ¬ 0x700 ≤ u by omega]
  · simp [h]
  · simp [hv, show ¬ w ≤ 2 by omega]
  · simp [hv, h]
  · simp [hv, h]

/-- With room at the collector a raised event changes no register. -/
theorem raise_sameRegs_room {code kind src d0 d1 : Nat} (h : s.room) : SameRegs [] s (s.raise code kind src d0 d1) := by
  intro f i _
  simp only [State.raise, State.raiseEv]
  split <;> rw [if_neg (fun e => absurd h (Nat.not_lt.mpr e.2))] <;> rfl

/-- No phase, no crew and no memory has changed: what the writes of register fields leave. -/
def SameBlock (s t : State) : Prop := SamePhases [] s t ∧ SameCrews [] s t ∧ SameMem s t

theorem SameBlock.refl : SameBlock s s := ⟨SamePhases.refl, SameCrews.refl, SameMem.refl⟩

theorem SameBlock.congr {u : State} (h : SameBlock s t) (h1 : u.phases = t.phases) (h2 : u.crews = t.crews) (h3 : u.mem = t.mem)
    (h4 : u.flash = t.flash) : SameBlock s u := by
  obtain ⟨hp, hc, hm⟩ := h
  exact ⟨hp.congr h1, hc.congr h2, hm.congr h3 h4⟩

theorem SameBlock.put (h : SameBlock s t) : SameBlock s (t.put f i v) := h.congr rfl rfl rfl rfl
theorem SameBlock.pend {l : List (Nat × Bool)} (h : SameBlock s t) : SameBlock s (t.pend l) := h.congr rfl rfl rfl rfl
theorem SameBlock.bump (h : SameBlock s t) : SameBlock s (t.bump f i v) := h.congr rfl rfl rfl rfl
theorem SameBlock.wrap (h : SameBlock s t) : SameBlock s (t.wrap f i) := h.put
theorem SameBlock.answered {d : Nat} (h : SameBlock s t) : SameBlock s (t.answered d) := h.congr rfl rfl rfl rfl

theorem SameRegs.wrap {l : List FKey} (h : SameRegs l s t) (hk : f.key i ∈ l) : SameRegs l s (t.wrap f i) := h.put hk

/-! ## Units and operations in states of the same groups (R31, R45) -/

section
variable (hg : t.groupMembers = s.groupMembers) (hr : ∀ f i, f.reg = .DESC_W1 → t.get f i = s.get f i)
include hg hr

/-- The leaf crews of a unit depend on the groups' members and on the word of the entry that names members. -/
theorem leafCrews_congr : t.leafCrews u = s.leafCrews u := by
  have hmem : ∀ v, t.members v = s.members v := fun v => by
    simp only [State.members, hg, hr DESC_W1.COUNT v rfl, hr DESC_W1.FIRST v rfl, hr DESC_W1.STRIDE v rfl]
  have hN : ∀ k v, t.leafCrewsN k v = s.leafCrewsN k v := by
    intro k
    induction k with
    | zero => intro v; rfl
    | succ k ih => intro v; simp only [State.leafCrewsN, hmem, ih]
  simp only [State.leafCrews, hN]
end

/-- The operation that is issued where kind is asked for: a RAMP is the setpoint with the slew that reaches its code in
time (R256). -/
def State.resolved (s : State) (u : Nat) : OpKind → OpKind
  | .ramp code ticks => .setp code (s.rampSlew u code ticks) false
  | k => k

/-- An operation that is no RAMP is issued as it is. -/
theorem resolved_of_ne_ramp (h : ∀ code ticks, kind ≠ .ramp code ticks) : s.resolved u kind = kind := by
  cases kind with
  | ramp code ticks => exact absurd rfl (h code ticks)
  | _ => rfl

/-- A RAMP of a duration is issued as the setpoint whose slew reaches the code in time (R256). -/
theorem resolved_ramp {code ticks : Nat} (h : ticks ≠ 0) : s.resolved u (.ramp code ticks) =
    .setp code (min (max (ceilDiv (2500 * maxN ((s.leafCrews u).map fun c => ((code : Int) - (s.snap c).target).natAbs))
      ticks) 4) s.slewMax) false := by
  rw [State.resolved, State.rampSlew, if_neg h]

/-- An operation that is issued takes the delivery path, its slot and its track, and changes nothing else. -/
theorem issueOp_eq (kind : OpKind) (u n pc : Nat) (s : State) : ∃ e l, issueOp kind u n pc s = { s with
    opNext := s.opNext + 1
    flight := s.flight ++ [⟨s.opNext, s.resolved u kind, u, s.leafCrews u, n, pc⟩]
    eng := e
    tracks := l } := by
  cases kind <;> exact ⟨_, _, rfl⟩

section
variable (kind u n pc s)

@[simp] theorem issueOp_now : (issueOp kind u n pc s).now = s.now := by
  obtain ⟨e, l, h⟩ := issueOp_eq kind u n pc s; rw [h]
@[simp] theorem issueOp_flight : (issueOp kind u n pc s).flight =
    s.flight ++ [⟨s.opNext, s.resolved u kind, u, s.leafCrews u, n, pc⟩] := by
  obtain ⟨e, l, h⟩ := issueOp_eq kind u n pc s; rw [h]
@[simp] theorem issueOp_opNext : (issueOp kind u n pc s).opNext = s.opNext + 1 := by
  obtain ⟨e, l, h⟩ := issueOp_eq kind u n pc s; rw [h]
@[simp] theorem issueOp_uopWait : (issueOp kind u n pc s).uopWait = s.uopWait := by
  obtain ⟨e, l, h⟩ := issueOp_eq kind u n pc s; rw [h]
@[simp] theorem issueOp_phases : (issueOp kind u n pc s).phases = s.phases := by
  obtain ⟨e, l, h⟩ := issueOp_eq kind u n pc s; rw [h]
@[simp] theorem issueOp_crews : (issueOp kind u n pc s).crews = s.crews := by
  obtain ⟨e, l, h⟩ := issueOp_eq kind u n pc s; rw [h]
@[simp] theorem issueOp_mem : (issueOp kind u n pc s).mem = s.mem := by
  obtain ⟨e, l, h⟩ := issueOp_eq kind u n pc s; rw [h]
@[simp] theorem issueOp_flash : (issueOp kind u n pc s).flash = s.flash := by
  obtain ⟨e, l, h⟩ := issueOp_eq kind u n pc s; rw [h]
@[simp] theorem issueOp_get : (issueOp kind u n pc s).get f i = s.get f i := by
  obtain ⟨e, l, h⟩ := issueOp_eq kind u n pc s; rw [h]; rfl
end

/-! ## The state that counts an issue -/

@[simp] theorem issued_opNext : (s.issued n).opNext = s.opNext := by unfold State.issued; dsimp only; split <;> rfl
@[simp] theorem issued_groupMembers : (s.issued n).groupMembers = s.groupMembers := by
  unfold State.issued; dsimp only; split <;> rfl
@[simp] theorem issued_unitPend : (s.issued n).unitPend = s.unitPend := by unfold State.issued; dsimp only; split <;> rfl
@[simp] theorem issued_snapDone : (s.issued n).snapDone = s.snapDone := by unfold State.issued; dsimp only; split <;> rfl
@[simp] theorem issued_stop : (s.issued n).stop = s.stop := by unfold State.issued; dsimp only; split <;> rfl
@[simp] theorem issued_stopIssued : (s.issued n).stopIssued = s.stopIssued := by
  unfold State.issued; dsimp only; split <;> rfl
@[simp] theorem issued_orderly : (s.issued n).orderly = s.orderly := by unfold State.issued; dsimp only; split <;> rfl

@[simp] theorem issued_leafCrews : (s.issued n).leafCrews u = s.leafCrews u :=
  leafCrews_congr issued_groupMembers fun _ _ h => issued_get (by rw [h]; decide)

@[simp] theorem issued_opsStopped : (s.issued n).opsStopped = s.opsStopped := by
  simp (disch := decide) only [State.opsStopped, State.flag, issued_get, issued_stop, issued_stopIssued, issued_orderly]

@[simp] theorem issued_unitOk : (s.issued n).unitOk op u = s.unitOk op u := by
  simp (disch := decide) only [State.unitOk, State.takesSetp, State.takesOp, State.unitExists, State.unitBusy, State.flag,
    issued_get, issued_unitPend]

@[simp] theorem issued_slewMax : (s.issued n).slewMax = s.slewMax := issued_get (by decide)

@[simp] theorem issued_resolved : (s.issued n).resolved u kind = s.resolved u kind := by
  cases kind <;>
    simp only [State.resolved, State.rampSlew, State.snap, issued_leafCrews, issued_snapDone, issued_slewMax]

@[simp] theorem issued_inRange : (s.issued n).inRange k u v w = s.inRange k u v w := by
  simp only [State.inRange, issued_lane, issued_slewMax]

/-- The stamp of an event of the program engine is the coordinator's. -/
theorem stampOf_engine (h : code / 256 = 7) : s.stampOf code k src = s.stampNow := if_neg (by rw [h]; decide)

theorem issued_stampNow : (s.issued n).stampNow = s.stampNow := by
  obtain ⟨h1, -, -, -, -⟩ := issued_time (s := s) (n := n)
  simp (disch := decide) only [State.stampNow, State.markNo, State.ticks, issued_get, issued_now, h1]

/-- With room at the collector an event of a context waits last, and nothing else changes. -/
theorem raise_context (h : s.room) : s.raise code 4 src d0 d1 =
    { s with intake := s.intake ++ [⟨code, 4, src, s.stampOf code 4 src, d0 % 2 ^ 32, d1 % 2 ^ 32, 0, false⟩] } := by
  simp only [State.raise, State.raiseEv, srcCrew]
  exact if_neg fun e => absurd h (Nat.not_lt.mpr e.2)

/-! ## Delivered operations (R47, R221, R254) -/

/-- A context that goes on from a state of its own registers and frame. -/
theorem writesNone_of (h : s.Issues n op) (h1 : t.fld = (s.issued n).fld) (h2 : t.fuse = (s.issued n).fuse)
    (h3 : t.ctxs = (s.issued n).ctxs) (h4 : t.phases = (s.issued n).phases) (h5 : t.crews = (s.issued n).crews)
    (h6 : t.mem = (s.issued n).mem) (h7 : t.flash = (s.issued n).flash) : WritesNone n s (fall n t) := by
  have hc : t.ctx n = s.ctx n := by simpa [State.ctx, h3] using issued_ctx (s := s) (n := n) (k := n)
  have hp : t.pc n = s.pc n := (get_congr h1 h2).trans issued_pc
  exact ⟨goesOn hp (by rw [hc]) (by rw [hc]) (by rw [hc]; exact h.wait), fun k _ => by rw [fall_vreg]; simp only [State.vreg, hc],
    by simp [hc],
    (issued_frame.congr h1 h2 h3 h4 h5 h6 h7).fall⟩

/-- An operation that its context may deliver joins the delivery path, and the context goes on. -/
theorem deliverOp_delivers (h : s.Issues n op) (hm : s.mayDeliver n op (s.word n).unit) :
    Delivers n (s.word n).unit (s.resolved (s.word n).unit kind) s (deliverOp n (s.word n) kind (s.issued n)) := by
  obtain ⟨hstop, hunit⟩ := hm
  have hgo : ¬ ((s.issued n).opsStopped ∨ (8 ≤ n ∧ (s.issued n).unitOk (s.word n).op (s.word n).unit = false)) := by
    rw [issued_opsStopped, issued_unitOk, h.word, hstop]
    rintro (hx | ⟨hn, hx⟩)
    · cases hx
    · rcases hunit with hl | hk
      · omega
      · rw [hk] at hx; cases hx
  rw [deliverOp, if_neg hgo]
  obtain ⟨e, l, heq⟩ := issueOp_eq kind (s.word n).unit n ((s.issued n).pc n) (s.issued n)
  rw [heq]
  exact ⟨by simp, writesNone_of h rfl rfl rfl rfl rfl rfl rfl⟩

/-- An instruction whose effect is to deliver an operation that its context may deliver. -/
theorem issue_delivers (h : s.Issues n op) (ho : op ∈ opcodes) (hn : op < 0x60) (hm : s.mayDeliver n op (s.word n).unit)
    (hact : act (s.word n) (s.issued n) = deliverOp n (s.word n) kind (s.issued n)) :
    Does (.next (issue n op act s)) (Delivers n (s.word n).unit (s.resolved (s.word n).unit kind) s) := by
  refine ⟨_, rfl, ?_⟩
  rw [issue_acts h ho (fun _ => hn), hact]
  exact deliverOp_delivers h hm

/-- An operation of a supervisor context to a unit that does not accept it is not delivered, which is recorded. -/
theorem deliverOp_refused (h : s.Issues n op) (hn : 8 ≤ n) (hu : s.unitOk op (s.word n).unit = false) (hroom : s.room) :
    WritesNone n s (deliverOp n (s.word n) kind (s.issued n)) ∧ (deliverOp n (s.word n) kind (s.issued n)).flight = s.flight ∧
    (deliverOp n (s.word n) kind (s.issued n)).intake =
      s.intake ++ [s.eventOf 0x0701 4 n ((s.pc n + 2 ^ 16 * (s.word n).unit) % 2 ^ 32)] := by
  have hroom' : (s.issued n).room := by simpa only [State.room, issued_intake] using hroom
  rw [deliverOp, if_pos (.inr ⟨hn, by rw [issued_unitOk, h.word, hu]⟩), if_neg (by omega), supRefused, raise_context hroom']
  refine ⟨writesNone_of h rfl rfl rfl rfl rfl rfl rfl, issued_flight, ?_⟩
  simp [State.eventOf, stampOf_engine, issued_stampNow]

/-! ## Raised events and signals -/

/-- Raising an event changes registers, crews, waiting events and the record of the present cycle at most. -/
theorem raise_eq : ∃ l cr q y, s.raise code kd src d0 d1 = { s with fld := l, crews := cr, intake := q, cyc := y } := by
  obtain ⟨l, cr, q, y, h, -⟩ := raiseEv_eq (s := s) (e := ⟨code, kd, src, s.stampOf code kd src, d0 % 2 ^ 32, d1 % 2 ^ 32, 0, false⟩)
  exact ⟨l, cr, q, y, h⟩

@[simp] theorem raise_ctxs : (s.raise code kd src d0 d1).ctxs = s.ctxs := by
  obtain ⟨l, cr, q, y, h⟩ := raise_eq (s := s) (code := code) (kd := kd) (src := src) (d0 := d0) (d1 := d1); rw [h]

@[simp] theorem raise_flight : (s.raise code kd src d0 d1).flight = s.flight := by
  obtain ⟨l, cr, q, y, h⟩ := raise_eq (s := s) (code := code) (kd := kd) (src := src) (d0 := d0) (d1 := d1); rw [h]

/-- An event of a context changes no crew. -/
theorem raise_context_crews : (s.raise code 4 src d0 d1).crews = s.crews := by
  have hsrc : srcCrew 4 src = none := rfl
  simp only [State.raise, State.raiseEv, hsrc]
  split <;> rfl

theorem sigSupers_get (h : f.reg ≠ .LANE_SIG) : (sigSupers b s).get f i = s.get f i :=
  forAll_keeps (P := fun x => x.get f i = s.get f i) (fun _ _ _ hx => (get_put_reg h).trans hx) rfl

@[simp] theorem sigSupers_ctxs : (sigSupers b s).ctxs = s.ctxs := rfl
@[simp] theorem sigSupers_phases : (sigSupers b s).phases = s.phases := rfl
@[simp] theorem sigSupers_crews : (sigSupers b s).crews = s.crews := rfl
@[simp] theorem sigSupers_mem : (sigSupers b s).mem = s.mem := rfl
@[simp] theorem sigSupers_flash : (sigSupers b s).flash = s.flash := rfl
@[simp] theorem sigSupers_intake : (sigSupers b s).intake = s.intake := rfl
@[simp] theorem sigSupers_flight : (sigSupers b s).flight = s.flight := rfl

theorem setSig_bit (hb : b < 12) : bitAt ((setSig n (2 ^ b) s).get LANE_SIG.SIG n) b = true := by
  have hw : b < LANE_SIG.SIG.width := hb
  rw [setSig, get_put_self, bitAt, Nat.testBit_mod_two_pow, decide_eq_true hw, Bool.true_and]
  exact (Nat.testBit_or ..).trans (by simp)

/-- Every supervisor context is signalled. -/
theorem sigSupers_bit (hb : b < 12) (h8 : 8 ≤ k) (h12 : k < 12) : bitAt ((sigSupers b s).get LANE_SIG.SIG k) b = true := by
  have hne : ∀ x j, k ≠ j → (setSig j (2 ^ b) x).get LANE_SIG.SIG k = x.get LANE_SIG.SIG k := fun x j h => get_put_inst h
  have hall : sigSupers b s = setSig 11 (2 ^ b) (setSig 10 (2 ^ b) (setSig 9 (2 ^ b) (setSig 8 (2 ^ b) s))) := rfl
  rw [hall]
  obtain rfl | rfl | rfl | rfl : k = 8 ∨ k = 9 ∨ k = 10 ∨ k = 11 := by omega
  · rw [hne _ _ (by decide), hne _ _ (by decide), hne _ _ (by decide)]; exact setSig_bit hb
  · rw [hne _ _ (by decide), hne _ _ (by decide)]; exact setSig_bit hb
  · rw [hne _ _ (by decide)]; exact setSig_bit hb
  · exact setSig_bit hb

/-! ## A fault of a lane (R216) -/

/-- The state in which a fault of lane n is raised: FAULTED, with its cause and index, its wait over. -/
def State.faulted (s : State) (n cause pc : Nat) : State :=
  (((s.onCtx n (fun k => { k with wait := none, stopPend := false })).setLst n 6).put LANE_STAT.FAULT n cause).setPc n pc

theorem faulted_stampNow : (s.faulted n cause pc).stampNow = s.stampNow := by
  have hmark : (s.faulted n cause pc).markNo = s.markNo := by
    simp (disch := decide) only [State.markNo, State.faulted, State.setPc, State.setLst, get_put_reg]
    rfl
  rw [State.stampNow, hmark]
  rfl

theorem laneFault_eq : laneFault n cause pc s =
    sigSupers 8 ((s.faulted n cause pc).raise 0x0704 4 n (cause + 2 ^ 16 * pc)) := rfl

/-- What a fault leaves in the registers of lane states. -/
theorem laneFault_stat (h : f.reg = .LANE_STAT) : (laneFault n cause pc s).get f i = (s.faulted n cause pc).get f i := by
  rw [laneFault_eq, sigSupers_get (by rw [h]; decide), raise_get (by rw [h]; decide)]

theorem laneFault_ctx : (laneFault n cause pc s).ctx k = if k = n then { s.ctx n with wait := none, stopPend := false } else s.ctx k := by
  simp only [laneFault_eq, State.ctx, sigSupers_ctxs, raise_ctxs]
  exact tget_tset

@[simp] theorem laneFault_flight : (laneFault n cause pc s).flight = s.flight := by
  rw [laneFault_eq, sigSupers_flight, raise_flight]; rfl

theorem laneFault_phases : (laneFault n cause pc s).phases = s.phases := by
  rw [laneFault_eq, sigSupers_phases, raise_phases]; rfl

theorem laneFault_crews : (laneFault n cause pc s).crews = s.crews := by
  rw [laneFault_eq, sigSupers_crews, raise_context_crews]; rfl

theorem laneFault_mem : (laneFault n cause pc s).mem = s.mem := by
  rw [laneFault_eq, sigSupers_mem, raise_mem]; rfl

theorem laneFault_flash : (laneFault n cause pc s).flash = s.flash := by
  rw [laneFault_eq, sigSupers_flash, raise_flash]; rfl

/-- With room at the collector "lane fault" waits last. -/
theorem laneFault_intake (h : s.room) : (laneFault n cause pc s).intake =
    s.intake ++ [⟨0x0704, 4, n, s.stampNow, (cause + 2 ^ 16 * pc) % 2 ^ 32, 0, 0, false⟩] := by
  have hroom : (s.faulted n cause pc).room := h
  rw [laneFault_eq, sigSupers_intake, raise_context hroom, stampOf_engine (by decide), faulted_stampNow]; rfl

/-- A lane's fault, from the state that counts the issue of its instruction. -/
theorem laneFault_faults (hc : cause < 16) : LaneFaults n cause s (laneFault n cause (s.pc n) (s.issued n)) := by
  have hphases : SamePhases [] s (s.issued n) := fun _ _ => issued_phase
  have hcrews : SameCrews [] s (s.issued n) := fun _ _ => issued_crew
  have hmem : SameMem s (s.issued n) := SameMem.refl.congr issued_mem issued_flash
  refine ⟨?_, ?_, ?_, ?_, ?_, fun k h8 h12 => sigSupers_bit (by decide) h8 h12, fun hroom => ?_, fun k hk => ?_,
    hphases.congr laneFault_phases, hcrews.congr laneFault_crews, hmem.congr laneFault_mem laneFault_flash⟩
  · rw [State.lst, laneFault_stat rfl]
    simp (disch := decide) only [State.faulted, State.setPc, State.setLst, get_put_lo, get_put_self]; rfl
  · rw [laneFault_stat rfl]
    simp (disch := decide) only [State.faulted, State.setPc, get_put_lo, get_put_self]
    exact Nat.mod_eq_of_lt hc
  · rw [State.pc, laneFault_stat rfl]
    exact get_put_self
  · rw [laneFault_ctx, if_pos rfl]
  · rw [laneFault_ctx, if_pos rfl, issued_ctx]
  · have hroom' : (s.issued n).room := by simpa only [State.room, issued_intake] using hroom
    rw [laneFault_intake hroom', issued_intake, issued_stampNow, State.eventOf, stampOf_engine (by decide)]
  · rw [laneFault_ctx, if_neg (by simpa using hk), issued_ctx]

/-! ## The passing of a cycle leaves the operations (R9) -/

/-- What the passing of a cycle does not touch: the operations queued and on their way, the groups' members, the memories,
and the registers of member words and of unit operations. -/
structure SameOps (s t : State) : Prop where
  now : t.now = s.now
  opNext : t.opNext = s.opNext
  flight : t.flight = s.flight
  uop : t.uop = s.uop
  uopWait : t.uopWait = s.uopWait
  groupMembers : t.groupMembers = s.groupMembers
  mem : t.mem = s.mem
  flash : t.flash = s.flash
  regs : ∀ f i, f.reg = .DESC_W1 ∨ f.reg = .ID_UOP_STAT → t.get f i = s.get f i

namespace SameOps

theorem refl : SameOps s s := ⟨rfl, rfl, rfl, rfl, rfl, rfl, rfl, rfl, fun _ _ _ => rfl⟩

theorem trans {u : State} (h : SameOps s t) (h' : SameOps t u) : SameOps s u :=
  ⟨h'.now.trans h.now, h'.opNext.trans h.opNext, h'.flight.trans h.flight, h'.uop.trans h.uop, h'.uopWait.trans h.uopWait,
    h'.groupMembers.trans h.groupMembers, h'.mem.trans h.mem, h'.flash.trans h.flash,
    fun f i hf => (h'.regs f i hf).trans (h.regs f i hf)⟩

theorem put (hg : g.reg ≠ .DESC_W1 ∧ g.reg ≠ .ID_UOP_STAT) : SameOps s (s.put g j v) := by
  refine ⟨rfl, rfl, rfl, rfl, rfl, rfl, rfl, rfl, fun f i hf => get_put_reg fun e => ?_⟩
  rw [e] at hf
  exact hf.elim hg.1 hg.2

theorem bump (hg : g.reg ≠ .DESC_W1 ∧ g.reg ≠ .ID_UOP_STAT) : SameOps s (s.bump g j v) :=
  (put hg).trans ⟨rfl, rfl, rfl, rfl, rfl, rfl, rfl, rfl, fun _ _ _ => rfl⟩

theorem onCrew {F : Crew → Crew} : SameOps s (s.onCrew c F) := ⟨rfl, rfl, rfl, rfl, rfl, rfl, rfl, rfl, fun _ _ _ => rfl⟩

theorem setStream {x : Stream} : SameOps s (s.setStream c x) := ⟨rfl, rfl, rfl, rfl, rfl, rfl, rfl, rfl, fun _ _ _ => rfl⟩

theorem tracks {l : List Track} : SameOps s { s with tracks := l } := ⟨rfl, rfl, rfl, rfl, rfl, rfl, rfl, rfl, fun _ _ _ => rfl⟩

theorem raise {code kd src d0 d1 : Nat} : SameOps s (s.raise code kd src d0 d1) := by
  obtain ⟨l, cr, q, y, h⟩ := raise_eq (s := s) (code := code) (kd := kd) (src := src) (d0 := d0) (d1 := d1)
  have hregs : ∀ f i, f.reg = .DESC_W1 ∨ f.reg = .ID_UOP_STAT → (s.raise code kd src d0 d1).get f i = s.get f i :=
    fun f i hf => raise_get fun e => by rw [e] at hf; exact absurd hf (by decide)
  rw [h] at hregs ⊢
  exact ⟨rfl, rfl, rfl, rfl, rfl, rfl, rfl, rfl, hregs⟩

theorem ite {p : Prop} [Decidable p] {a b : State} (ha : SameOps s a) (hb : SameOps s b) : SameOps s (if p then a else b) := by
  split
  · exact ha
  · exact hb

theorem foldl {α : Type} {l : List α} {F : State → α → State} (hF : ∀ x e, SameOps x (F x e)) : SameOps s (l.foldl F s) := by
  induction l generalizing s with
  | nil => exact refl
  | cons e l ih => exact (hF s e).trans ih

theorem trigger : SameOps s (trigger c v s) := ite refl (ite (bump (by decide)) onCrew)

theorem cycleTriggers {tick : Bool} : SameOps s (cycleTriggers tick s) := by
  have hticks : SameOps s (if tick then tickTriggers s else s) := ite (foldl fun _ _ => trigger) refl
  exact hticks.trans (foldl fun _ _ => onCrew.trans (foldl fun _ _ => trigger))

theorem complete : SameOps s (complete c s) := by
  have hdone : SameOps s ((s.put CREW_SP_SEQ.DONE_SEQ c (s.get CREW_SP_SEQ.ACCEPTED c)).onCrew c
      (fun k => { k with cmdOpen := false })) := (put (by decide)).trans onCrew
  refine ite ?_ refl
  split
  · exact hdone.trans tracks
  · exact hdone

theorem takeSlot {half : Bool} {x : Option Int} : SameOps s (takeSlot c half x s) := by
  have hmiss : ∀ k, SameOps s ((s.setStream c k).bump CAP_MON_SGAP.MISSED c) := fun _ => setStream.trans (bump (by decide))
  unfold Machine.takeSlot
  dsimp only
  exact ite setStream (ite (hmiss _) ((hmiss _).trans raise))

theorem tickStream : SameOps s (tickStream s c) := by
  unfold Machine.tickStream
  refine ite refl ?_
  split
  · exact takeSlot.trans takeSlot
  · exact takeSlot
  · exact refl

theorem endTick : SameOps s (endTick s) :=
  (foldl fun _ _ => ite complete refl).trans (foldl fun _ _ => tickStream)

theorem sendRate : SameOps s (sendRate s c) := put (by decide)

theorem holdXcal : SameOps s (holdXcal s) := by
  have hhold : SameOps s { s with xcalHold := true, strReq := [], strTarget := [] } :=
    ⟨rfl, rfl, rfl, rfl, rfl, rfl, rfl, rfl, fun _ _ _ => rfl⟩
  exact ite (hhold.trans (foldl fun _ _ => sendRate)) refl

theorem sendAll : SameOps s (sendAll s) :=
  foldl fun _ _ => ite ⟨rfl, rfl, rfl, rfl, rfl, rfl, rfl, rfl, fun _ _ _ => rfl⟩ refl

theorem beginCycle {tick : Bool} (h : SameOps s t) : SameOps { s with now := s.now + 1 } (beginCycle tick t) :=
  ⟨congrArg (· + 1) h.now, h.opNext, h.flight, h.uop, h.uopWait, h.groupMembers, h.mem, h.flash, h.regs⟩

/-- A cycle passes, and time with it. -/
theorem passCycle : SameOps { s with now := s.now + 1 } (passCycle s) := by
  unfold Machine.passCycle
  exact ite ((beginCycle endTick).trans holdXcal |>.trans cycleTriggers |>.trans sendAll)
    ((beginCycle refl).trans holdXcal |>.trans cycleTriggers |>.trans sendAll)

end SameOps

/-! ## GO of the management port (R50) -/

theorem placeAt_uopCtl : placeAt (Reg.ID_UOP_CTL.addr 0) = .reg .ID_UOP_CTL 0 := by decide

/-- GO is no supervisor's to write. -/
theorem host_of_takes_uopCtl (h : s.Takes m .ID_UOP_CTL 0 v) : isHost m = true := by
  by_contra hm
  have hb := h.block
  have hsup : s.supBars .ID_UOP_CTL 0 = true := rfl
  simp [State.bars, placeAt_uopCtl, hm, hsup] at hb

/-- A write of GO stores nothing of its own. -/
theorem writeReg_uopCtl {inp : BootIn} {host : Bool} : writeReg inp host .ID_UOP_CTL i v s = s := by
  simp only [writeReg, lockWord_plain (r := .ID_UOP_CTL) rfl, ite_self]
  rfl

/-- A write of GO that is taken answers as the check of the operation does. -/
theorem regWrite_uopGo (h : s.Takes m .ID_UOP_CTL 0 v) (hv : v % 2 = 1) : regWrite m .ID_UOP_CTL 0 v s =
    if (uopGo s).2 then failAccess m (Reg.ID_UOP_CTL.addr 0) 4 (uopGo s).1 else (uopGo s).1.answered 0 := by
  obtain ⟨hform, hmem, hnamed⟩ := placed_access h.placed
  simp only [inMem, Bool.or_eq_false_iff] at hmem
  have hlock : s.violates (Reg.ID_UOP_CTL.addr 0) (v % 4294967296) = false := h.lock
  have hasks : asksUop [(Reg.ID_UOP_CTL.addr 0, v % 4294967296)] = true := by
    have haddr : Reg.ID_UOP_CTL.addr 0 = 0x10608 := by decide
    simp [asksUop, haddr]
    omega
  unfold regWrite portWrite busWrite State.accessBar writeRegs
  simp [h.open_, hform, h.region, hmem, hnamed, accessWords, h.block, hlock, hasks, writePlace, placeAt_uopCtl,
    writeReg_uopCtl, State.answered]
  cases (uopGo s).2 <;> rfl

/-- The state with an error as the access's answer (R19). -/
def State.errored (s : State) : State := { s with resp := ⟨true, 0⟩ }

@[simp] theorem errored_get : s.errored.get f i = s.get f i := rfl
theorem SameRegs.errored {l : List FKey} (h : SameRegs l s t) : SameRegs l s t.errored := h.congr rfl rfl
theorem SameBlock.errored (h : SameBlock s t) : SameBlock s t.errored := h.congr rfl rfl rfl rfl

/-- A failed access of the management port or the test access port is counted (R498). -/
theorem failAccess_host {a : Nat} (h : isHost m = true) : failAccess m a c s =
    ((s.errored.bump ID_ERR_CNT.COUNT 0).put ID_ERR_CNT.CAUSE 0 c).put ID_ERR_ADDR.ADDR 0 a := by
  cases m with
  | sup k => cases h
  | mgmt => rfl
  | jtag => rfl

/-- The state with an operation queued at the management port in the present cycle. -/
def State.queueUop (s : State) (op : Op) : State := { s with uop := some op, eng.uopAt := s.now }

@[simp] theorem queueUop_get {x : Op} : (s.queueUop x).get f i = s.get f i := rfl
theorem SameRegs.queueUop {l : List FKey} {x : Op} (h : SameRegs l s t) : SameRegs l s (t.queueUop x) := h.congr rfl rfl
theorem SameBlock.queueUop {x : Op} (h : SameBlock s t) : SameBlock s (t.queueUop x) := h.congr rfl rfl rfl rfl

theorem uopGo_queues (h : s.uopResult s.uopWord = 1) : uopGo s =
    (((s.put ID_UOP_STAT.RESULT 0 1).put ID_UOP_STAT.BUSY 0 1).queueUop
      ⟨0, s.uopWord.kindOf, s.get ID_UOP_HI.UNIT 0, [], 15, 0⟩, false) := by
  simp only [uopGo, h, if_true]
  rfl

theorem uopGo_refuses (h : s.uopResult s.uopWord ≠ 1) : uopGo s = (s.put ID_UOP_STAT.RESULT 0 (s.uopResult s.uopWord), true) := by
  simp only [uopGo, h, if_false]

/-- While an operation is queued already, GO's RESULT is 6 whatever the word asks for. -/
theorem uopResult_busy {x : PWord} (h : s.flag ID_UOP_STAT.BUSY 0 = true) : s.uopResult x = 6 := if_pos h

/-- Each RESULT code fits the field. -/
theorem uopResult_lt {x : PWord} : s.uopResult x < 2 ^ ID_UOP_STAT.RESULT.width := by
  unfold State.uopResult
  split_ifs <;> decide

/-! ## UOP_ISSUE (R50, R467) -/

/-- The queue of the management port goes on to a PMBus setpoint that waits, or is empty. -/
def nextUop (s : State) : State :=
  match s.uopWait with
  | [] => { s.put ID_UOP_STAT.BUSY 0 0 with uop := none }
  | x :: rest => { s with uop := some x, eng.uopAt := s.now, uopWait := rest }

theorem execUopIssue_some {x : Op} (h : s.uop = some x) : execUopIssue s =
    .next (nextUop ((issueOp x.kind x.unit 15 0 (if s.uopTurn then s else passCycle s)).bump ID_UOP_STAT.ISSUED 0)) := by
  simp only [execUopIssue, h]
  rfl

section
variable (s)

@[simp] theorem nextUop_uop : (nextUop s).uop = s.uopWait.head? := by unfold nextUop; split <;> simp [*]
@[simp] theorem nextUop_uopWait : (nextUop s).uopWait = s.uopWait.tail := by unfold nextUop; split <;> simp [*]
@[simp] theorem nextUop_now : (nextUop s).now = s.now := by unfold nextUop; split <;> rfl
@[simp] theorem nextUop_flight : (nextUop s).flight = s.flight := by unfold nextUop; split <;> rfl
@[simp] theorem nextUop_opNext : (nextUop s).opNext = s.opNext := by unfold nextUop; split <;> rfl
@[simp] theorem nextUop_phases : (nextUop s).phases = s.phases := by unfold nextUop; split <;> rfl
@[simp] theorem nextUop_crews : (nextUop s).crews = s.crews := by unfold nextUop; split <;> rfl
@[simp] theorem nextUop_mem : (nextUop s).mem = s.mem := by unfold nextUop; split <;> rfl
@[simp] theorem nextUop_flash : (nextUop s).flash = s.flash := by unfold nextUop; split <;> rfl
end

theorem nextUop_busy : (nextUop s).get ID_UOP_STAT.BUSY 0 = if s.uopWait = [] then 0 else s.get ID_UOP_STAT.BUSY 0 := by
  unfold nextUop
  split
  · rename_i h; rw [if_pos h]; exact get_put_self
  · rename_i h; rw [h, if_neg (by simp)]; rfl

theorem nextUop_regs : SameRegs [ID_UOP_STAT.BUSY.key 0] s (nextUop s) := by
  unfold nextUop
  split
  · exact (SameRegs.refl.put (by simp)).congr rfl rfl
  · exact SameRegs.refl.congr rfl rfl

/-- The queued operation o has issued in state t, and the queue goes on. -/
def issuedUop (o : Op) (t : State) : State := nextUop ((issueOp o.kind o.unit 15 0 t).bump ID_UOP_STAT.ISSUED 0)

theorem issuedUop_flight (h : ∀ code ticks, o.kind ≠ .ramp code ticks) :
    (issuedUop o t).flight = t.flight ++ [⟨t.opNext, o.kind, o.unit, t.leafCrews o.unit, 15, 0⟩] := by
  rw [issuedUop, nextUop_flight]
  exact (issueOp_flight ..).trans (by rw [resolved_of_ne_ramp h])

theorem issuedUop_count : (issuedUop o t).get ID_UOP_STAT.ISSUED 0 = ID_UOP_STAT.ISSUED.count (t.get ID_UOP_STAT.ISSUED 0) := by
  rw [issuedUop, nextUop_regs _ _ (by decide), get_bump_self, issueOp_get]; rfl

theorem issuedUop_busy : (issuedUop o t).get ID_UOP_STAT.BUSY 0 = if t.uopWait = [] then 0 else t.get ID_UOP_STAT.BUSY 0 := by
  have hwait : ((issueOp o.kind o.unit 15 0 t).bump ID_UOP_STAT.ISSUED 0).uopWait = t.uopWait := issueOp_uopWait ..
  rw [issuedUop, nextUop_busy, hwait, get_bump_lo (by decide), issueOp_get]

theorem issuedUop_regs : SameRegs [ID_UOP_STAT.BUSY.key 0, ID_UOP_STAT.ISSUED.key 0] t (issuedUop o t) := by
  intro f i hf
  simp only [List.mem_cons, List.not_mem_nil, or_false, not_or] at hf
  rw [issuedUop, nextUop_regs _ _ (by simpa using hf.1), get_bump_ne hf.2, issueOp_get]

@[simp] theorem issuedUop_now : (issuedUop o t).now = t.now := (nextUop_now _).trans (issueOp_now ..)
@[simp] theorem issuedUop_opNext : (issuedUop o t).opNext = t.opNext + 1 := (nextUop_opNext _).trans (issueOp_opNext ..)
@[simp] theorem issuedUop_uop : (issuedUop o t).uop = t.uopWait.head? :=
  (nextUop_uop _).trans (congrArg List.head? (issueOp_uopWait ..))
@[simp] theorem issuedUop_uopWait : (issuedUop o t).uopWait = t.uopWait.tail :=
  (nextUop_uopWait _).trans (congrArg List.tail (issueOp_uopWait ..))
@[simp] theorem issuedUop_phases : (issuedUop o t).phases = t.phases := (nextUop_phases _).trans (issueOp_phases ..)
@[simp] theorem issuedUop_crews : (issuedUop o t).crews = t.crews := (nextUop_crews _).trans (issueOp_crews ..)
@[simp] theorem issuedUop_mem : (issuedUop o t).mem = t.mem := (nextUop_mem _).trans (issueOp_mem ..)
@[simp] theorem issuedUop_flash : (issuedUop o t).flash = t.flash := (nextUop_flash _).trans (issueOp_flash ..)

/-- UOP_ISSUE issues the queued operation in this cycle, or where it has no turn in the next. -/
theorem exec_uopIssue (h : s.uop = some o) :
    exec .uopIssue s = .next (issuedUop o (if s.uopTurn then s else passCycle s)) := execUopIssue_some h

end Sys2Proof.Machine

namespace Sys2Proof.Proofs.Architecture

open Sys2Proof Sys2Proof.Machine

/-- Settles O30: each write by what the descriptor table does with it. -/
theorem descriptorWrites : Obligations.DescriptorWrites := by
  refine ⟨?members, ?kind, ?listPtr, ?refused, ?validation, ?removal⟩
  case members =>
    intro m u v s h hlo hhi hfree hv
    refine ⟨_, exec_descriptorWrite (by decide) h, ?_⟩
    rw [descWrite_members ⟨hlo, hhi, hfree⟩ hv]
    split_ifs with hsame
    · obtain ⟨h1, h2, h3, h4⟩ := hsame
      exact ⟨h1.symm, h2.symm, h3.symm, h4.symm, rfl, SameRegs.refl.answered, SameBlock.refl.answered⟩
    · refine ⟨?_, ?_, ?_, ?_, ?_, ((((SameRegs.refl.put ?_).put ?_).put ?_).put ?_).wrap ?_ |>.answered,
        SameBlock.refl.put.put.put.put.wrap.answered⟩
      case refine_5 => simp (disch := decide) only [answered_get, get_wrap_self, get_put_reg]; rfl
      all_goals simp (disch := decide) [get_wrap_reg, get_put_lo, bits_mod_width]
  case kind =>
    intro m u v s h hlo hhi hfree hv hb
    refine ⟨_, exec_descriptorWrite (by decide) h, ?_⟩
    rw [descWrite_kind ⟨hlo, hhi, hfree⟩ hv hb]
    split_ifs with hsame
    · exact ⟨hsame.symm, rfl, SameRegs.refl.answered, SameBlock.refl.answered⟩
    · refine ⟨?_, ?_, (SameRegs.refl.put ?_).wrap ?_ |>.answered, SameBlock.refl.put.wrap.answered⟩
      case refine_2 => simp (disch := decide) only [answered_get, get_wrap_self, get_put_reg]; rfl
      all_goals simp (disch := decide) [get_wrap_reg, bits_mod_width]
  case listPtr =>
    intro m u v s h hlo hhi hfree hv
    refine ⟨_, exec_descriptorWrite (by decide) h, ?_⟩
    rw [descWrite_listPtr ⟨hlo, hhi, hfree⟩ hv]
    split_ifs with hsame
    · exact ⟨hsame.symm, rfl, SameRegs.refl.answered, SameBlock.refl.answered⟩
    · refine ⟨?_, ?_, (SameRegs.refl.put ?_).wrap ?_ |>.answered, SameBlock.refl.put.wrap.answered⟩
      case refine_2 => simp (disch := decide) only [answered_get, get_wrap_self, get_put_reg]; rfl
      all_goals simp (disch := decide) [get_wrap_reg, bits_mod_width]
  case refused =>
    intro m r w u v s hr h hroom hcase
    refine ⟨_, exec_descriptorWrite hr h, ?_⟩
    rw [descWrite_refused hcase]
    exact ⟨raise_intake_room hroom, (raise_sameRegs_room hroom).answered, SamePhases.refl.congr raise_phases,
      SameMem.refl.congr raise_mem raise_flash⟩
  case validation =>
    intro m u v s h hlo hhi hfree hv hb
    refine ⟨_, congrArg Host.Outcome.next (regWrite_descW0 h), ?_⟩
    rw [descWrite_valid ⟨hlo, hhi, hfree⟩ hv hb]
    refine ⟨?_, ?_, ?_, ?_, rfl, ?_, (((SameRegs.refl.put ?_).put ?_).put ?_).wrap ?_ |>.pend.answered,
      SameBlock.refl.put.put.put.wrap.pend.answered⟩
    case refine_4 => simp [State.unitBusy]
    case refine_5 => simp (disch := decide) only [answered_get, pend_get, get_wrap_self, get_put_reg, get_put_lo]; rfl
    all_goals simp (disch := decide) [get_wrap_reg, get_wrap_lo, get_put_reg, get_put_lo, bits_mod_width]
  case removal =>
    intro m u v s h hlo hhi hfree hv hb
    refine ⟨_, congrArg Host.Outcome.next (regWrite_descW0 h), ?_⟩
    rw [descWrite_removal ⟨hlo, hhi, hfree⟩ hv hb, askRemoval_eq]
    split_ifs with hrefs
    · refine ⟨⟨?_, rfl⟩, ?_, (SameRegs.refl.put ?_).wrap ?_ |>.pend.answered, SameBlock.refl.put.wrap.pend.answered⟩
      case refine_2 => simp (disch := decide) only [answered_get, pend_get, get_wrap_self, get_put_lo]; rfl
      all_goals simp (disch := decide) [get_wrap_lo]
    · refine ⟨⟨?_, rfl⟩, ?_, (SameRegs.refl.put ?_).wrap ?_ |>.answered, SameBlock.refl.put.wrap.answered⟩
      case refine_2 => simp (disch := decide) only [answered_get, get_wrap_self, get_put_lo]; rfl
      all_goals simp (disch := decide) [get_wrap_lo]
      all_goals rfl

/-! ## User groups: the entry of a fixed unit, pending (R38, R42) -/

/-- Below the crews' IDs a unit is its own leaf phase, whatever its entry names (R31, R35). -/
theorem leafPhases_phase {u : Nat} (s : State) (h : u < 0x600) : s.leafPhases u = [u] := if_pos h

/-- A block in which the entry of phase 0, a fixed unit, is pending for validation as a group of the one member phase 1. No
command leads there: a write to the entry of a fixed unit is refused (R38). -/
def phaseAsGroup : State :=
  { (((State.put {} DESC_W0.KIND 0 6).put DESC_W1.STRIDE 0 1).put DESC_W1.COUNT 0 1).put DESC_W1.FIRST 0 1 with
    unitPend := [(0, false)] }

/-- Refutes O31: the clause on a validation that passes speaks of the entries of fixed units too, which the state may list as
pending. In `phaseAsGroup` phase 0 comes into force as a group of phase 1; its leaf phases, which the clause has to be
those of its members, are still itself alone. -/
theorem not_groupsCapabilityAndGrants : ¬ Obligations.GroupsCapabilityAndGrants := by
  rintro ⟨hvalid, -⟩
  obtain ⟨t, -, -, -, -, hleaf, -⟩ := hvalid 0 [1] phaseAsGroup (by decide) (by decide) (by decide) (by decide) (by decide)
    (by decide) (by decide) (by decide) (by decide) (by decide)
  have hmembers : t.leafPhases 0 = [1].flatMap phaseAsGroup.leafPhases := hleaf (by decide)
  rw [leafPhases_phase t (by decide), List.flatMap_singleton, leafPhases_phase phaseAsGroup (by decide)] at hmembers
  exact absurd hmembers (by decide)

/-- Settles O23: a context's operation by what its delivery does, GO by the check of the word, and the queue by what an issue
does in the cycle that has a turn for it. -/
theorem unitOperations : Obligations.UnitOperations := by
  refine ⟨?setv, ?setvr, ?range, ?ramp, ?lls, ?gsel, ?stand, ?pwron, ?pwroff, ?refused, ?queued, ?answered, ?nextCycle,
    ?thisCycle, ?empty⟩
  case setv => exact fun n s h hm => issue_delivers (kind := .setp _ _ _) h (by decide) (by decide) hm rfl
  case setvr =>
    intro n s h hm hrange
    refine issue_delivers (kind := .setp _ _ _) h (by decide) (by decide) hm ?_
    have hin : ¬ (n < 8 ∧ s.inRange n (s.word n).unit (s.vreg n (s.word n).rs) (s.vreg n (bits (s.word n).imm 31 28)) = false) := by
      rintro ⟨hn, hout⟩
      rw [hrange hn] at hout
      cases hout
    simp only [issued_inRange, issued_vreg, hin, if_false]
  case range =>
    intro n s h hn hrange
    refine ⟨_, rfl, ?_⟩
    rw [issue_acts h (by decide) (fun _ => by decide)]
    simp only [issued_inRange, issued_vreg, issued_pc, hn, hrange, and_self, if_true]
    exact ⟨laneFault_faults (by decide), laneFault_flight.trans issued_flight⟩
  case ramp =>
    intro n s h hm ht
    rw [← resolved_ramp ht]
    exact issue_delivers h (by decide) (by decide) hm rfl
  case lls => exact fun n s h hm => issue_delivers (kind := .lls _) h (by decide) (by decide) hm rfl
  case gsel => exact fun n s h hm => issue_delivers (kind := .gsel _ _) h (by decide) (by decide) hm rfl
  case stand => exact fun n s h hm hk => issue_delivers (kind := .stand _) h (by decide) (by decide) hm (if_neg hk)
  case pwron => exact fun n s h hm => issue_delivers (kind := .pwron) h (by decide) (by decide) hm rfl
  case pwroff => exact fun n s h hm => issue_delivers (kind := .pwroff) h (by decide) (by decide) hm rfl
  case refused =>
    intro n s h hn hu hroom
    refine ⟨_, rfl, ?_⟩
    rw [issue_acts h (by decide) (fun _ => by decide)]
    exact deliverOp_refused h hn hu hroom
  case queued =>
    intro m v s h hv hr
    refine ⟨_, congrArg Host.Outcome.next (regWrite_uopGo h hv), ?_⟩
    simp only [uopGo_queues hr, Bool.false_eq_true, if_false]
    refine ⟨?_, ?_, rfl, rfl, (SameRegs.refl.put ?_).put ?_ |>.queueUop.answered, SameBlock.refl.put.put.queueUop.answered⟩
    case refine_1 => rw [answered_get, queueUop_get, get_put_lo (by decide), get_put_self]; rfl
    case refine_2 => rw [answered_get, queueUop_get, get_put_self]; rfl
    all_goals simp
  case answered =>
    intro m v s h hv hr
    refine ⟨_, congrArg Host.Outcome.next (regWrite_uopGo h hv), ?_⟩
    simp only [uopGo_refuses hr, if_true, failAccess_host (host_of_takes_uopCtl h)]
    have hresult : ((((State.errored (s.put ID_UOP_STAT.RESULT 0 (s.uopResult s.uopWord))).bump ID_ERR_CNT.COUNT 0).put
        ID_ERR_CNT.CAUSE 0 4).put ID_ERR_ADDR.ADDR 0 (Reg.ID_UOP_CTL.addr 0)).get ID_UOP_STAT.RESULT 0 =
          s.uopResult s.uopWord := by
      rw [get_put_reg (by decide), get_put_reg (by decide), get_bump_reg (by decide), errored_get, get_put_self]
      exact Nat.mod_eq_of_lt uopResult_lt
    refine ⟨hresult, fun hb => hresult.trans (uopResult_busy hb), rfl, rfl,
      (((SameRegs.refl.put ?_).errored.bump ?_).put ?_).put ?_, SameBlock.refl.put.errored.bump.put.put⟩
    all_goals simp
  case nextCycle =>
    intro op s h hk hturn
    have hpass := SameOps.passCycle (s := s)
    have hflight : (passCycle s).flight = s.flight := hpass.flight
    have hnext : (passCycle s).opNext = s.opNext := hpass.opNext
    have hwait : (passCycle s).uopWait = s.uopWait := hpass.uopWait
    have hcount : (passCycle s).get ID_UOP_STAT.ISSUED 0 = s.get ID_UOP_STAT.ISSUED 0 := hpass.regs _ _ (.inr rfl)
    have hcrews : (passCycle s).leafCrews op.unit = s.leafCrews op.unit :=
      leafCrews_congr hpass.groupMembers fun f i hf => hpass.regs f i (.inl hf)
    refine ⟨_, exec_uopIssue h, ?_⟩
    rw [hturn, if_neg Bool.false_ne_true]
    refine ⟨issuedUop_now.trans hpass.now, ?_, ?_, ?_, ?_,
      (SameMem.refl.congr hpass.mem hpass.flash).congr issuedUop_mem issuedUop_flash⟩
    · rw [issuedUop_flight hk, hflight, hnext, hcrews]
    · rw [issuedUop_uop, hwait]
    · rw [issuedUop_uopWait, hwait]
    · rw [issuedUop_count, hcount]
  case thisCycle =>
    intro op s h hk hturn
    refine ⟨_, exec_uopIssue h, ?_⟩
    rw [hturn, if_pos rfl]
    exact ⟨issuedUop_now, issuedUop_flight hk, issuedUop_opNext, issuedUop_uop, issuedUop_uopWait,
      fun hw => issuedUop_busy.trans (if_pos hw), fun hw => issuedUop_busy.trans (if_neg hw), issuedUop_count, issuedUop_regs,
      SamePhases.refl.congr issuedUop_phases, SameCrews.refl.congr issuedUop_crews,
      SameMem.refl.congr issuedUop_mem issuedUop_flash⟩
  case empty =>
    intro s h
    show execUopIssue s = .next s
    simp only [execUopIssue, h]

end Sys2Proof.Proofs.Architecture

/-! The statements of the family 02_phases: phase timers, trips and strikes, the issue of pulses, restores, the overload fold
and the balance trims. -/

namespace Sys2Proof.Machine

open Sys2Proof

variable {s t u : State} {f g : Fld} {c i j k n v w x lo hi ph q cause code kd src d0 d1 rise : Nat} {p : Phase} {ks : List Nat}
  {live held : Bool}

/-! ## Words written in part -/

/-- A bit of a word of which n bits from lo have been replaced. -/
theorem bitAt_setBits : bitAt (setBits v lo n x) j = if lo ≤ j ∧ j < lo + n then bitAt x (j - lo) else bitAt v j := by
  have hword : setBits v lo n x = 2 ^ lo * (2 ^ n * (v / 2 ^ lo / 2 ^ n) + x % 2 ^ n) + v % 2 ^ lo := by
    have hlow := Nat.div_add_mod v (2 ^ lo)
    have hmid := Nat.div_add_mod (v / 2 ^ lo) (2 ^ n)
    rw [← hmid, Nat.mul_add] at hlow
    rw [setBits, Nat.mul_add, Nat.mul_comm (_ % _) (2 ^ lo), Nat.mul_comm (x % _) (2 ^ lo)]
    omega
  have hlt : ∀ y m : Nat, y % 2 ^ m < 2 ^ m := fun y m => Nat.mod_lt _ (Nat.two_pow_pos m)
  rw [hword, bitAt, Nat.testBit_two_pow_mul_add _ (hlt v lo), Nat.testBit_two_pow_mul_add _ (hlt x n)]
  by_cases hj : j < lo
  · simp [hj, Nat.not_le.mpr hj, bitAt]
  · by_cases hn : j - lo < n
    · simp [hj, hn, bitAt, show lo ≤ j ∧ j < lo + n by omega]
    · rw [if_neg hj, if_neg hn, if_neg (by omega), Nat.testBit_div_two_pow, Nat.testBit_div_two_pow, bitAt]
      congr 1
      omega

theorem bitAt_bits : bitAt (bits v hi lo) j = (decide (j < hi - lo + 1) && bitAt v (lo + j)) := by
  rw [bitAt, bits, Nat.testBit_mod_two_pow, Nat.testBit_div_two_pow, Nat.add_comm j, bitAt]

/-- Two words with the same bits from lo to hi have the same slice there. -/
theorem bits_congr (h : ∀ j, lo ≤ j → j ≤ lo + (hi - lo) → bitAt v j = bitAt w j) : bits v hi lo = bits w hi lo := by
  refine Nat.eq_of_testBit_eq fun j => ?_
  show bitAt _ j = bitAt _ j
  rw [bitAt_bits, bitAt_bits]
  by_cases hj : j < hi - lo + 1
  · rw [h (lo + j) (by omega) (by omega)]
  · simp [hj]

theorem bitAt_mod (h : j < n) : bitAt (v % 2 ^ n) j = bitAt v j := by
  rw [bitAt, Nat.testBit_mod_two_pow, decide_eq_true h, Bool.true_and, bitAt]

/-- A slice that fits a field reads the same in the word as in the word cut to the field. -/
theorem bits_mod (h : lo ≤ hi ∧ hi < n) : bits (v % 2 ^ n) hi lo = bits v hi lo :=
  bits_congr fun _ _ _ => bitAt_mod (by omega)

theorem bits_setBits_same (h : n = hi - lo + 1) : bits (setBits v lo n x) hi lo = x % 2 ^ n := by
  subst h
  have hx : bits (setBits v lo (hi - lo + 1) x) hi lo = bits (x * 2 ^ lo) hi lo := by
    refine bits_congr fun j h1 h2 => ?_
    rw [bitAt_setBits, if_pos (by omega), bitAt, bitAt, Nat.testBit_mul_two_pow, decide_eq_true h1, Bool.true_and]
  rw [hx, bits, Nat.mul_div_cancel _ (Nat.two_pow_pos lo)]

theorem bits_setBits_apart (h : lo + n ≤ j ∨ i < lo) (hij : j ≤ i) : bits (setBits v lo n x) i j = bits v i j :=
  bits_congr fun b h1 h2 => by rw [bitAt_setBits, if_neg (by omega)]

theorem bitAt_setBit_self {y : Bool} : bitAt (setBit v k y) k = y := by
  rw [setBit, bitAt_setBits, if_pos (by omega), Nat.sub_self, bitAt]
  cases y <;> rfl

/-- A bit of a field reads as it was last written. -/
theorem putBit_bit {y : Bool} (h : k < f.width) : bitAt ((s.putBit f i k y).get f i) k = y := by
  rw [State.putBit, get_put_self, bitAt_mod h, bitAt_setBit_self]

/-! ## Raised events and the record of the tick -/

@[simp] theorem raise_cyc_on : (s.raise code kd src d0 d1).cyc.on = s.cyc.on := by
  simp only [State.raise, State.raiseEv]
  split <;> split <;> rfl

@[simp] theorem raise_cyc_struck : (s.raise code kd src d0 d1).cyc.struck = s.cyc.struck := by
  simp only [State.raise, State.raiseEv]
  split <;> split <;> rfl

/-! ## What follows a strike leaves of it (R81, R166) -/

/-- The fields that record trips and strikes. -/
def strikeFields : List Fld := [CREW_PH_CNT.FSC_TRIPS, CREW_PH_CAUSE.OT_LIVE, CREW_PH_CAUSE.CAUSE]

/-- The fields that what follows a strike may change in one way only: trims to 0, FORCED to 1. -/
def strikeMarks : List Fld := [CREW_PH_TRIM.TRIM, CREW_PWR_STAT.FORCED]

/-- Whatever else has changed from s to t, the struck phases and their record are as before, and so is the memory; trims at 0
stay there, and a crew that counts as forced down stays so. -/
structure KeepsStrikes (s t : State) : Prop where
  mem : t.mem = s.mem
  flash : t.flash = s.flash
  on : t.cyc.on = s.cyc.on
  cycStruck : t.cyc.struck = s.cyc.struck
  phase : ∀ q, (s.phase q).st = .struck → t.phase q = s.phase q
  trims : ∀ c, s.get CREW_PH_TRIM.TRIM c = 0 → t.get CREW_PH_TRIM.TRIM c = 0
  forced : ∀ c, s.get CREW_PWR_STAT.FORCED c = 1 → t.get CREW_PWR_STAT.FORCED c = 1
  regs : ∀ f ∈ strikeFields, ∀ i, t.get f i = s.get f i

namespace KeepsStrikes

/-- A change of nothing that a strike concerns. -/
theorem of_eq (h1 : t.mem = s.mem) (h2 : t.flash = s.flash) (h3 : t.cyc.on = s.cyc.on) (h4 : t.cyc.struck = s.cyc.struck)
    (h5 : t.phases = s.phases) (h6 : ∀ f ∈ strikeMarks ++ strikeFields, ∀ i, t.get f i = s.get f i) : KeepsStrikes s t where
  mem := h1
  flash := h2
  on := h3
  cycStruck := h4
  phase q _ := by simp only [State.phase, h5]
  trims c hc := (h6 _ (by simp [strikeMarks]) c).trans hc
  forced c hc := (h6 _ (by simp [strikeMarks]) c).trans hc
  regs f hf i := h6 f (List.mem_append_right _ hf) i

theorem refl : KeepsStrikes s s := of_eq rfl rfl rfl rfl rfl fun _ _ _ => rfl

theorem trans (h : KeepsStrikes s t) (h' : KeepsStrikes t u) : KeepsStrikes s u where
  mem := h'.mem.trans h.mem
  flash := h'.flash.trans h.flash
  on := h'.on.trans h.on
  cycStruck := h'.cycStruck.trans h.cycStruck
  phase q hq := by
    have ht := h.phase q hq
    rw [h'.phase q (by rw [ht]; exact hq), ht]
  trims c hc := h'.trims c (h.trims c hc)
  forced c hc := h'.forced c (h.forced c hc)
  regs f hf i := (h'.regs f hf i).trans (h.regs f hf i)

theorem put (hg : ∀ f ∈ strikeMarks ++ strikeFields, f.reg ≠ g.reg ∨ f.lo ≠ g.lo) : KeepsStrikes s (s.put g j v) :=
  of_eq rfl rfl rfl rfl rfl fun f hf _ => (hg f hf).elim get_put_reg get_put_lo

theorem bump (hg : ∀ f ∈ strikeMarks ++ strikeFields, f.reg ≠ g.reg ∨ f.lo ≠ g.lo) : KeepsStrikes s (s.bump g j v) :=
  (put hg).trans (of_eq rfl rfl rfl rfl rfl fun _ _ _ => rfl)

theorem zeroTrims : KeepsStrikes s (zeroTrims c s) := by
  have hreg : ∀ f ∈ strikeFields, f.reg ≠ CREW_PH_TRIM.TRIM.reg := by decide
  refine ⟨rfl, rfl, rfl, rfl, fun _ _ => rfl, fun d hd => ?_, fun d hd => (get_put_reg (by decide)).trans hd,
    fun f hf i => get_put_reg (hreg f hf)⟩
  by_cases e : d = c
  · subst e; exact get_put_self
  · exact (get_put_inst e).trans hd

theorem setForced : KeepsStrikes s (s.put CREW_PWR_STAT.FORCED c 1) := by
  have hreg : ∀ f ∈ strikeFields, f.reg ≠ CREW_PWR_STAT.FORCED.reg := by decide
  refine ⟨rfl, rfl, rfl, rfl, fun _ _ => rfl, fun d hd => (get_put_reg (by decide)).trans hd, fun d hd => ?_,
    fun f hf i => get_put_reg (hreg f hf)⟩
  by_cases e : d = c
  · subst e; exact get_put_self
  · exact (get_put_inst e).trans hd

theorem setPhase {p : Phase} (h : (s.phase n).st ≠ .struck) : KeepsStrikes s (s.setPhase n p) :=
  ⟨rfl, rfl, rfl, rfl, fun _ hq => setPhase_phase_ne _ _ _ _ fun e => h (by rwa [e] at hq), fun _ h => h, fun _ h => h,
    fun _ _ _ => rfl⟩

theorem onCrew {F : Crew → Crew} : KeepsStrikes s (s.onCrew n F) := of_eq rfl rfl rfl rfl rfl fun _ _ _ => rfl

theorem onPlane {F : Plane → Plane} : KeepsStrikes s (s.onPlane n F) := of_eq rfl rfl rfl rfl rfl fun _ _ _ => rfl

theorem setMar {m : Marshal} : KeepsStrikes s (s.setMar n m) := of_eq rfl rfl rfl rfl rfl fun _ _ _ => rfl

theorem raise : KeepsStrikes s (s.raise code kd src d0 d1) := by
  have hreg : ∀ f ∈ strikeMarks ++ strikeFields, f.reg ≠ .FLT_DROP := by decide
  exact of_eq raise_mem raise_flash raise_cyc_on raise_cyc_struck raise_phases fun f hf i => raise_get (hreg f hf)

theorem ite {p : Prop} [Decidable p] (ht : KeepsStrikes s t) (hu : KeepsStrikes s u) :
    KeepsStrikes s (if p then t else u) := by
  split
  · exact ht
  · exact hu

theorem forAll {F : State → Nat → State} (hF : ∀ u k, KeepsStrikes u (F u k)) : KeepsStrikes s (forAll ks F s) :=
  forAll_keeps (P := KeepsStrikes s) (fun u k _ hu => hu.trans (hF u k)) refl

/-! The operations that a forced stand-down consists of. -/

theorem parkPhases {st : PhaseSt} {low : Bool} : KeepsStrikes s (parkPhases st low c s) := by
  have hphases : ∀ u q, KeepsStrikes u (
      if (u.phase q).st = .fused ∨ (u.phase q).st = .struck ∨ ((u.phase q).st = .idle ∧ st = .stopping) then u
      else (u.setPhase q { u.phase q with st := st, lowSide := low, testOn := false, testWait := false, inTest := false }).put
        CREW_PH_CNT.NC_RUN q 0) := by
    intro u q
    split
    · exact refl
    · rename_i h
      exact (setPhase fun e => h (.inr (.inl e))).trans (put (by decide))
  unfold Machine.parkPhases
  extract_lets s1 s2 s3
  have h1 : KeepsStrikes s s1 := forAll hphases
  have h2 : KeepsStrikes s1 s2 := zeroTrims
  have h3 : KeepsStrikes s2 s3 := ite ((put (by decide)).trans (bump (by decide))) refl
  exact h1.trans (h2.trans (h3.trans ((put (by decide)).trans onCrew)))

theorem startHeld : KeepsStrikes s (startHeld c s) := ite setMar (ite refl (setMar.trans raise))

theorem rampOver : KeepsStrikes s (rampOver c s) := by
  have hoff : ∀ u d, KeepsStrikes u (offCrew u d) := fun _ _ => ite refl (put (by decide))
  exact ite (((forAll hoff).trans onPlane).trans (ite onPlane refl)) refl

theorem darkCheck : KeepsStrikes s (darkCheck c s) :=
  rampOver.trans (ite (((forAll fun _ _ => parkPhases).trans raise).trans startHeld) startHeld)

theorem endRegulation : KeepsStrikes s (endRegulation c s) :=
  (put (by decide)).trans <| (put (by decide)).trans <| (put (by decide)).trans onCrew

theorem shed : KeepsStrikes s (shed c s) := (put (by decide)).trans onCrew

end KeepsStrikes

/-- With five usable phases or more nothing forces a crew down (R166). -/
theorem forcedDown_of_usable (h : 5 ≤ s.usable c) : forcedDown c s = s := if_neg (Nat.not_lt.mpr h)

/-- With fewer than five usable phases FORCED is set, and what follows leaves it and every strike (R166). -/
theorem forcedDown_of_few (h : s.usable c < 5) : KeepsStrikes (s.put CREW_PWR_STAT.FORCED c 1) (forcedDown c s) := by
  unfold forcedDown
  rw [if_pos h]
  dsimp only
  split
  · exact (KeepsStrikes.put (by decide)).trans (KeepsStrikes.shed.trans KeepsStrikes.onCrew)
  · exact (KeepsStrikes.put (by decide)).trans (KeepsStrikes.shed.trans KeepsStrikes.onCrew)
  · exact KeepsStrikes.parkPhases.trans <| (KeepsStrikes.put (by decide)).trans <|
      KeepsStrikes.endRegulation.trans KeepsStrikes.darkCheck
  · exact KeepsStrikes.onCrew
  · exact KeepsStrikes.refl

theorem forcedDown_keepsStrikes : KeepsStrikes s (forcedDown c s) := by
  by_cases h : s.usable c < 5
  · exact KeepsStrikes.setForced.trans (forcedDown_of_few h)
  · rw [forcedDown_of_usable (Nat.not_lt.mp h)]; exact KeepsStrikes.refl

/-! ## A strike (R81, R84) -/

/-- The state in which phase ph counts as struck in the present tick (R82). -/
def State.noteStruck (s : State) (ph : Nat) : State := { s with cyc := { s.cyc with struck := ph :: s.cyc.struck } }

@[simp] theorem noteStruck_get : (s.noteStruck n).get f i = s.get f i := rfl
@[simp] theorem noteStruck_phase : (s.noteStruck n).phase q = s.phase q := rfl
@[simp] theorem noteStruck_mem : (s.noteStruck n).mem = s.mem := rfl
@[simp] theorem noteStruck_flash : (s.noteStruck n).flash = s.flash := rfl
@[simp] theorem noteStruck_cyc : (s.noteStruck n).cyc = { s.cyc with struck := n :: s.cyc.struck } := rfl

/-- The state in which local phase k of crew c has left the ring as STRUCK (R81, R67, R61). -/
def offRing (c k : Nat) (s : State) : State :=
  zeroTrims c (passRoles c k ((s.setPhase (8 * c + k)
    { s.phase (8 * c + k) with st := .struck, lowSide := true, testOn := false, testWait := false, inTest := false }).noteStruck
      (8 * c + k)))

/-- The state in which local phase k of crew c has been struck with a cause, before its events are raised (R81). -/
def struckState (c k cause : Nat) (s : State) : State :=
  (offRing c k s).put CREW_PH_CAUSE.CAUSE c (setBits ((offRing c k s).get CREW_PH_CAUSE.CAUSE c) (2 * k) 2 cause)

/-- The events of a strike, and the mark of a phase that was restored less than 1 s ago (R81, R84). -/
def recordStrike (c k cause : Nat) (restored : Option Nat) (s : State) : State :=
  let u := s.raise 0x0203 1 (8 * c + k) cause
  match restored with
  | some r => if u.now < r + 500000000 then (u.putBit CREW_PH_STATE.STICKY c k true).raise 0x0204 1 (8 * c + k) cause else u
  | none => u

/-- A phase that is neither FUSED nor STRUCK is struck, the strike is recorded, and the crew is forced down where it has to
be. -/
theorem strike_eq (h1 : (s.phase (8 * c + k)).st ≠ .fused) (h2 : (s.phase (8 * c + k)).st ≠ .struck) :
    strike c k cause s =
      forcedDown c (recordStrike c k cause (s.phase (8 * c + k)).restoredAt (struckState c k cause s)) :=
  if_neg (by simp [h1, h2])

theorem passRoles_get (h : f.reg ≠ .CREW_RING_STAT) : (passRoles c k s).get f i = s.get f i := by
  simp only [passRoles]
  split <;> split <;> simp [get_put_reg, h, CREW_RING_STAT.POINTER, CREW_RING_STAT.STROKE]

@[simp] theorem passRoles_phase : (passRoles c k s).phase q = s.phase q := by
  simp only [passRoles]; split <;> split <;> rfl
@[simp] theorem passRoles_cyc : (passRoles c k s).cyc = s.cyc := by simp only [passRoles]; split <;> split <;> rfl
@[simp] theorem passRoles_mem : (passRoles c k s).mem = s.mem := by simp only [passRoles]; split <;> split <;> rfl
@[simp] theorem passRoles_flash : (passRoles c k s).flash = s.flash := by simp only [passRoles]; split <;> split <;> rfl

theorem struckState_phase : (struckState c k cause s).phase (8 * c + k) =
    { s.phase (8 * c + k) with st := .struck, lowSide := true, testOn := false, testWait := false, inTest := false } := by
  simp [struckState, offRing, zeroTrims]

theorem struckState_phase_ne (h : q ≠ 8 * c + k) : (struckState c k cause s).phase q = s.phase q := by
  simp [struckState, offRing, zeroTrims, setPhase_phase_ne (h := h)]

theorem struckState_cyc : (struckState c k cause s).cyc = { s.cyc with struck := (8 * c + k) :: s.cyc.struck } := by
  simp [struckState, offRing, zeroTrims]

theorem struckState_mem : SameMem s (struckState c k cause s) :=
  SameMem.refl.congr (by simp [struckState, offRing, zeroTrims]) (by simp [struckState, offRing, zeroTrims])

theorem struckState_trims : (struckState c k cause s).get CREW_PH_TRIM.TRIM c = 0 := by
  rw [struckState, get_put_reg (by decide), offRing, zeroTrims, get_put_self]
  rfl

/-- Two bits of the crew's CAUSE show the cause of the strike. -/
theorem struckState_cause (hk : k < 8) :
    bits ((struckState c k cause s).get CREW_PH_CAUSE.CAUSE c) (2 * k + 1) (2 * k) = cause % 4 := by
  have hw : CREW_PH_CAUSE.CAUSE.width = 16 := rfl
  rw [struckState, get_put_self, hw, bits_mod (by omega), bits_setBits_same (by omega)]
  rfl

theorem struckState_get (h1 : f.reg ≠ .CREW_RING_STAT) (h2 : f.reg ≠ .CREW_PH_TRIM)
    (h3 : f.reg ≠ CREW_PH_CAUSE.CAUSE.reg ∨ f.lo ≠ CREW_PH_CAUSE.CAUSE.lo) :
    (struckState c k cause s).get f i = s.get f i := by
  have hring : (offRing c k s).get f i = s.get f i := by
    rw [offRing, zeroTrims, get_put_reg h2, passRoles_get h1, noteStruck_get, setPhase_get]
  exact (h3.elim get_put_reg get_put_lo).trans hring

/-- The phases that a strike leaves usable are those that were so but for the struck one (R166). -/
theorem struckState_usable (hk : k < 8) (h1 : (s.phase (8 * c + k)).st ≠ .fused) (h2 : (s.phase (8 * c + k)).st ≠ .struck) :
    (struckState c k cause s).usable c = s.usable c - 1 := by
  have hmem : k ∈ (List.range 8).filter (fun k => (s.phase (8 * c + k)).st != .fused && (s.phase (8 * c + k)).st != .struck) := by
    simp [hk, h1, h2]
  rw [State.usable, State.usable, ← List.length_erase_of_mem hmem, (List.nodup_range.filter _).erase_eq_filter,
    List.filter_filter]
  congr 1
  refine List.filter_congr fun j _ => ?_
  by_cases hj : j = k
  · subst hj; simp [struckState_phase]
  · rw [struckState_phase_ne (by omega)]; simp [hj]

theorem recordStrike_keepsStrikes {r : Option Nat} : KeepsStrikes s (recordStrike c k cause r s) := by
  unfold recordStrike
  extract_lets u
  have hu : KeepsStrikes s u := .raise
  cases r with
  | none => exact hu
  | some r => exact hu.trans (.ite (.trans (.put (by decide)) .raise) .refl)

theorem recordStrike_phases {r : Option Nat} : (recordStrike c k cause r s).phases = s.phases := by
  unfold recordStrike
  extract_lets u
  have hu : u.phases = s.phases := raise_phases
  have hsticky : ((u.putBit CREW_PH_STATE.STICKY c k true).raise 0x0204 1 (8 * c + k) cause).phases = u.phases :=
    raise_phases.trans rfl
  cases r with
  | none => exact hu
  | some r => exact (apply_ite State.phases _ _ _).trans (by rw [hsticky, ite_self, hu])

/-- The usable phases of a crew depend on the phases alone. -/
theorem usable_congr (h : t.phases = s.phases) : t.usable c = s.usable c := by simp only [State.usable, State.phase, h]

/-- Local phase k of crew c is struck from s to t: what a strike shows, and what it leaves as it was (R81, R82, R166). -/
structure Strikes (c k cause : Nat) (s t : State) : Prop where
  st : (t.phase (8 * c + k)).st = .struck
  lowSide : (t.phase (8 * c + k)).lowSide = true
  trims : t.get CREW_PH_TRIM.TRIM c = 0
  cause : bits (t.get CREW_PH_CAUSE.CAUSE c) (2 * k + 1) (2 * k) = cause % 4
  trips : t.get CREW_PH_CNT.FSC_TRIPS (8 * c + k) = s.get CREW_PH_CNT.FSC_TRIPS (8 * c + k)
  live : t.get CREW_PH_CAUSE.OT_LIVE c = s.get CREW_PH_CAUSE.OT_LIVE c
  notRestorable : s.cyc.on = true → t.restorable c k = false
  mem : SameMem s t
  phases : 5 < s.usable c → SamePhases [8 * c + k] s t
  forced : s.usable c ≤ 5 → t.flag CREW_PWR_STAT.FORCED c = true

/-- A strike of a phase that is neither FUSED nor STRUCK strikes it. -/
theorem strike_strikes (hk : k < 8) (h1 : (s.phase (8 * c + k)).st ≠ .fused) (h2 : (s.phase (8 * c + k)).st ≠ .struck) :
    Strikes c k cause s (strike c k cause s) := by
  rw [strike_eq h1 h2]
  set v := struckState c k cause s
  set r := recordStrike c k cause (s.phase (8 * c + k)).restoredAt v
  have hphase : v.phase (8 * c + k) = _ := struckState_phase
  have hrec : KeepsStrikes v r := recordStrike_keepsStrikes
  have hall : KeepsStrikes v (forcedDown c r) := hrec.trans forcedDown_keepsStrikes
  have husable : r.usable c = s.usable c - 1 := (usable_congr recordStrike_phases).trans (struckState_usable hk h1 h2)
  have hown : (forcedDown c r).phase (8 * c + k) = v.phase (8 * c + k) := hall.phase _ (by rw [hphase])
  refine ⟨by rw [hown, hphase], by rw [hown, hphase], hall.trims c struckState_trims, ?_, ?_, ?_, fun hon => ?_,
    struckState_mem.congr hall.mem hall.flash, fun h => ?_, fun h => ?_⟩
  · rw [hall.regs _ (by simp [strikeFields])]; exact struckState_cause hk
  · rw [hall.regs _ (by simp [strikeFields])]; exact struckState_get (by decide) (by decide) (by decide)
  · rw [hall.regs _ (by simp [strikeFields])]; exact struckState_get (by decide) (by decide) (by decide)
  · simp [State.restorable, hall.on, hall.cycStruck, struckState_cyc, v, hon]
  · rw [forcedDown_of_usable (by omega)]
    exact SamePhases.congr (fun q hq => struckState_phase_ne (by simpa using hq)) recordStrike_phases
  · rw [State.flag, (forcedDown_of_few (by omega)).forced c get_put_self]; rfl

/-! ## Phase timers (R54 to R56, R70, R71) -/

/-- A phase of the block is a local phase of its crew. -/
theorem phase_eq_local (ph : Nat) : ∃ c k, k < 8 ∧ ph = 8 * c + k := ⟨ph / 8, ph % 8, by omega, by omega⟩

theorem local_div (hk : k < 8) : (8 * c + k) / 8 = c := by omega
theorem local_mod (hk : k < 8) : (8 * c + k) % 8 = k := by omega

theorem SamePhases.trans {l : List Nat} (h : SamePhases l s t) (h' : SamePhases l t u) : SamePhases l s u :=
  fun q hq => (h' q hq).trans (h q hq)
theorem SameMem.trans (h : SameMem s t) (h' : SameMem t u) : SameMem s u :=
  fun a => ⟨(h' a).1.trans (h a).1, (h' a).2.trans (h a).2⟩

/-- Nothing has changed but phases of the list. -/
def OnlyPhases (l : List Nat) (s t : State) : Prop := SamePhases l s t ∧ SameRegs [] s t ∧ SameCrews [] s t ∧ SameMem s t

theorem OnlyPhases.setPhase : OnlyPhases [ph] s (s.setPhase ph p) :=
  ⟨SamePhases.refl.set (by simp), SameRegs.refl.setPhase, SameCrews.refl.setPhase, SameMem.refl.congr rfl rfl⟩

theorem exec_minimumOffTimeEnd : exec (.minimumOffTimeEnd ph) s = .next (
    if (s.phase ph).st = .offMin then s.setPhase ph { s.phase ph with st := .ready }
    else if (s.phase ph).testWait then s.setPhase ph { s.phase ph with testWait := false } else s) := rfl

theorem exec_blankEnd (h : (s.phase ph).st = .blanked) :
    exec (.blankEnd ph) s = .next (s.setPhase ph { s.phase ph with st := .ready, testWait := false }) :=
  congrArg Host.Outcome.next (if_pos h)

/-- A test pulse ends in TEST, where the minimum off-time runs (R87). -/
theorem exec_endOfOnTime_test (h : (s.phase ph).testOn = true) : exec (.endOfOnTime ph rise) s =
    .next (s.setPhase ph { s.phase ph with testOn := false, lowSide := true, st := .test, testWait := true }) := if_pos h

theorem exec_tripWindow : exec (.tripWindow c) s =
    .next (forAll (crewPhases c) (fun s ph => s.onPhase ph (fun p => { p with winTrips := 0 })) s) := rfl

theorem exec_phaseCurrentReachesZero : exec (.phaseCurrentReachesZero ph) s =
    if (s.phase ph).st = .struck then .next (s.setPhase ph { s.phase ph with lowSide := false })
    else if (s.phase ph).st = .stopping then .next (s.setPhase ph { s.phase ph with lowSide := false, st := .idle })
    else .next s := rfl

/-- The state in which phase ph has tripped its fast limit and the trip is counted (R70, R71). -/
def tripState (ph : Nat) (s : State) : State :=
  (s.setPhase ph { s.phase ph with st := .blanked, lowSide := true, testOn := false, winTrips := (s.phase ph).winTrips + 1,
                                   tripAt := some s.now }).bump CREW_PH_CNT.FSC_TRIPS ph

/-- A trip in ON; the TRIP_MAX-th of a window strikes the phase (R70, R71). -/
theorem exec_fastLimitTrip (h : (s.phase ph).st = .on) : exec (.fastLimitTrip ph) s = .next (
    if s.get CREW_FSC_CTL.TRIP_MAX (ph / 8) ≤ (s.phase ph).winTrips + 1 then strike (ph / 8) (ph % 8) 2 (tripState ph s)
    else tripState ph s) := by
  have hmax : (tripState ph s).get CREW_FSC_CTL.TRIP_MAX (ph / 8) = s.get CREW_FSC_CTL.TRIP_MAX (ph / 8) :=
    get_bump_reg (by decide)
  rw [← hmax]
  exact if_pos (.inl h)

theorem tripState_phase : (tripState ph s).phase ph = { s.phase ph with
    st := .blanked, lowSide := true, testOn := false, winTrips := (s.phase ph).winTrips + 1, tripAt := some s.now } := by
  simp [tripState]

theorem tripState_phases : SamePhases [ph] s (tripState ph s) := (SamePhases.refl.set (by simp)).congr rfl

theorem tripState_trips : (tripState ph s).get CREW_PH_CNT.FSC_TRIPS ph =
    min (s.get CREW_PH_CNT.FSC_TRIPS ph + 1) (2 ^ CREW_PH_CNT.FSC_TRIPS.width - 1) := get_bump_self

theorem tripState_regs : SameRegs [CREW_PH_CNT.FSC_TRIPS.key ph] s (tripState ph s) := SameRegs.refl.setPhase.bump (by simp)

theorem tripState_mem : SameMem s (tripState ph s) := SameMem.refl.congr rfl rfl

/-- A trip leaves its phase usable. -/
theorem tripState_usable (h : (s.phase ph).st = .on) : (tripState ph s).usable c = s.usable c := by
  rw [State.usable, State.usable]
  congr 1
  refine List.filter_congr fun k _ => ?_
  by_cases hk : 8 * c + k = ph
  · rw [hk, tripState_phase, h]; rfl
  · rw [tripState_phases _ (by simpa using hk)]

/-- The end of an on-time that the conduction check finds good ends the run of poor pulses (R80). -/
theorem exec_endOfOnTime_good (h1 : (s.phase ph).st = .on) (h2 : (s.phase ph).testOn = false)
    (h3 : 1 ≤ s.get CREW_DEAD_CTL.NC_MAX (ph / 8))
    (h4 : ¬ ((rise * 88000 : Nat) : Rat) < ((s.phase ph).terms.vib - (s.phase ph).terms.vref : Rat) * (s.phase ph).terms.onTime) :
    exec (.endOfOnTime ph rise) s =
      .next ((s.setPhase ph { s.phase ph with st := .offMin, lowSide := true }).put CREW_PH_CNT.NC_RUN ph 0) := by
  show execEndOfOnTime ph rise s = _
  simp only [execEndOfOnTime, h1, h2, h4, decide_false, Bool.false_eq_true, if_false, ne_eq, not_true_eq_false]
  rw [get_put_reg (by decide), setPhase_get, if_neg (by omega)]

/-- The over-temperature comparator of a phase that is not FUSED shows in OT_LIVE, and strikes a phase of the ring or under
test where it has stayed asserted (R80, R86). -/
theorem exec_overTemp (h : (s.phase ph).st ≠ .fused) : exec (.overTemp ph live held) s = .next (
    if live && held && (inRing (s.phase ph) || (s.phase ph).inTest) then
      strike (ph / 8) (ph % 8) 3 (s.putBit CREW_PH_CAUSE.OT_LIVE (ph / 8) (ph % 8) live)
    else s.putBit CREW_PH_CAUSE.OT_LIVE (ph / 8) (ph % 8) live) := if_neg h

end Sys2Proof.Machine

namespace Sys2Proof.Proofs.Phases

open Sys2Proof Sys2Proof.Machine

/-- Settles O1: the timers by what their command puts in the phase, trips and over-temperature by what the command leaves for
the strike and what a strike then shows. -/
theorem phaseTimersAndTrips : Obligations.PhaseTimersAndTrips := by
  refine ⟨?offMin, ?blank, ?testWait, ?testEnd, ?window, ?struckZero, ?stopZero, ?trip, ?tripMax, ?onTime, ?level, ?hot⟩
  case offMin =>
    intro ph s h
    refine ⟨_, exec_minimumOffTimeEnd, ?_⟩
    rw [if_pos h]
    exact ⟨by simp, OnlyPhases.setPhase⟩
  case blank => exact fun ph s h => ⟨_, exec_blankEnd h, by simp, by simp, OnlyPhases.setPhase⟩
  case testWait =>
    intro ph s h hw
    refine ⟨_, exec_minimumOffTimeEnd, ?_⟩
    rw [if_neg h, if_pos hw]
    exact ⟨by simp, OnlyPhases.setPhase⟩
  case testEnd => exact fun ph rise s h => ⟨_, exec_endOfOnTime_test h, by simp, OnlyPhases.setPhase⟩
  case window =>
    intro c s
    refine ⟨_, exec_tripWindow, fun k hk => ?_, fun q hq => ?_, ?_, ?_, ?_⟩
    · rw [forAll_onPhase crewPhases_nodup, if_pos (mem_crewPhases.mpr (local_div hk))]
    · rw [forAll_onPhase crewPhases_nodup, if_neg hq]
    · exact forAll_keeps (P := SameRegs [] s) (fun _ _ _ h => h.congr rfl rfl) SameRegs.refl
    · exact forAll_keeps (P := SameCrews [] s) (fun _ _ _ h => h.congr rfl) SameCrews.refl
    · exact forAll_keeps (P := SameMem s) (fun _ _ _ h => h.congr rfl rfl) SameMem.refl
  case struckZero =>
    exact fun ph s h => ⟨_, exec_phaseCurrentReachesZero.trans (if_pos h), by simp, OnlyPhases.setPhase⟩
  case stopZero =>
    intro ph s h
    refine ⟨_, exec_phaseCurrentReachesZero.trans ((if_neg ?_).trans (if_pos h)), by simp, OnlyPhases.setPhase⟩
    rw [h]; decide
  case trip =>
    intro ph s h hlt
    refine ⟨_, exec_fastLimitTrip h, ?_⟩
    rw [if_neg (Nat.not_le.mpr hlt)]
    exact ⟨tripState_trips, by rw [tripState_phase], by rw [tripState_phase], by rw [tripState_phase], tripState_phases,
      tripState_regs, SameCrews.refl.congr rfl, tripState_mem⟩
  case tripMax =>
    intro ph s h hle
    refine ⟨_, exec_fastLimitTrip h, ?_⟩
    rw [if_pos hle]
    obtain ⟨c, k, hk, rfl⟩ := phase_eq_local ph
    rw [local_div hk, local_mod hk]
    have hst := strike_strikes (s := tripState (8 * c + k) s) (c := c) (k := k) (cause := 2) hk (by simp [tripState_phase])
      (by simp [tripState_phase])
    refine ⟨hst.trips.trans tripState_trips, hst.st, hst.lowSide, hst.trims, tripState_mem.trans hst.mem, hst.notRestorable,
      fun hu => ?_, fun hu => ?_⟩
    · exact tripState_phases.trans (hst.phases (by rwa [tripState_usable h]))
    · exact hst.forced (by rwa [tripState_usable h])
  case onTime =>
    intro ph rise s h1 h2 h3 h4
    exact ⟨_, exec_endOfOnTime_good h1 h2 h3 h4, by simp, by simp, get_put_self, (SamePhases.refl.set (by simp)).put,
      SameRegs.refl.setPhase.put (by simp), SameCrews.refl.setPhase.put, SameMem.refl.congr rfl rfl⟩
  case level =>
    intro ph live held s h hlh
    refine ⟨_, exec_overTemp h, ?_⟩
    rw [hlh, Bool.false_and, if_neg Bool.false_ne_true]
    exact ⟨putBit_bit (Nat.mod_lt _ (by decide)), SameRegs.refl.put (by simp), SamePhases.refl.put, SameCrews.refl.put,
      SameMem.refl.congr rfl rfl⟩
  case hot =>
    intro ph s h
    have h1 : (s.phase ph).st ≠ .fused := fun e => by simp [inRing, e] at h
    have h2 : (s.phase ph).st ≠ .struck := fun e => by simp [inRing, e] at h
    refine ⟨_, exec_overTemp h1, ?_⟩
    rw [if_pos (by rw [h]; rfl)]
    obtain ⟨c, k, hk, rfl⟩ := phase_eq_local ph
    rw [local_div hk, local_mod hk]
    have hst := strike_strikes (s := s.putBit CREW_PH_CAUSE.OT_LIVE c k true) (c := c) (k := k) (cause := 3) hk h1 h2
    exact ⟨hst.st, hst.lowSide, by rw [hst.live]; exact putBit_bit hk, hst.cause, hst.trims, hst.notRestorable, hst.mem,
      hst.phases, hst.forced⟩

end Sys2Proof.Proofs.Phases

namespace Sys2Proof.Machine

open Sys2Proof

variable {s t u : State} {f g : Fld} {c i j k n v od dem gap vib : Nat} {ks : List Nat} {held least : Bool}

/-! ## Changes beside phases and memory -/

/-- From s to t no phase and no memory has changed, nor what F tells of a crew, nor a field of the list. -/
structure Leaves {α : Type} (l : List Fld) (F : Crew → α) (s t : State) : Prop where
  phases : t.phases = s.phases
  mem : t.mem = s.mem
  flash : t.flash = s.flash
  crew : ∀ c, F (t.crew c) = F (s.crew c)
  regs : ∀ f ∈ l, ∀ i, t.get f i = s.get f i

namespace Leaves

variable {α : Type} {l : List Fld} {F : Crew → α}

theorem refl : Leaves l F s s := ⟨rfl, rfl, rfl, fun _ => rfl, fun _ _ _ => rfl⟩

theorem trans (h : Leaves l F s t) (h' : Leaves l F t u) : Leaves l F s u :=
  ⟨h'.phases.trans h.phases, h'.mem.trans h.mem, h'.flash.trans h.flash, fun c => (h'.crew c).trans (h.crew c),
    fun f hf i => (h'.regs f hf i).trans (h.regs f hf i)⟩

theorem samePhases (h : Leaves l F s t) : SamePhases ks s t := SamePhases.refl.congr h.phases

theorem sameMem (h : Leaves l F s t) : SameMem s t := SameMem.refl.congr h.mem h.flash

theorem put (hg : ∀ f ∈ l, f.reg ≠ g.reg ∨ f.lo ≠ g.lo) : Leaves l F s (s.put g j v) :=
  ⟨rfl, rfl, rfl, fun _ => rfl, fun f hf _ => (hg f hf).elim get_put_reg get_put_lo⟩

theorem bump (hg : ∀ f ∈ l, f.reg ≠ g.reg ∨ f.lo ≠ g.lo) : Leaves l F s (s.bump g j v) :=
  (put hg).trans ⟨rfl, rfl, rfl, fun _ => rfl, fun _ _ _ => rfl⟩

theorem onCrew {G : Crew → Crew} (hG : F (G (s.crew n)) = F (s.crew n)) : Leaves l F s (s.onCrew n G) := by
  refine ⟨rfl, rfl, rfl, fun c => ?_, fun _ _ _ => rfl⟩
  by_cases h : c = n
  · subst h; rw [onCrew_crew, hG]
  · rw [onCrew_crew_ne h]

theorem ite {p : Prop} [Decidable p] (ht : Leaves l F s t) (hu : Leaves l F s u) : Leaves l F s (if p then t else u) := by
  split
  · exact ht
  · exact hu

theorem foldl {is : List Nat} {H : State → Nat → State} (hH : ∀ x e, Leaves l F x (H x e)) : Leaves l F s (is.foldl H s) :=
  forAll_keeps (P := Leaves l F s) (fun x e _ hx => hx.trans (hH x e)) refl

end Leaves

/-! ## What follows a pulse leaves of it (R65, R91) -/

/-- The fields that the issue of a pulse itself writes. -/
def pulseFields : List Fld := [CREW_RING_STAT.POINTER, CREW_RING_STAT.HOLD, CREW_HOLD_CNT.HOLDS]

/-- What follows a pulse changes no pointer, no hold, and no crew's first pulse. -/
abbrev LeavesPulse : State → State → Prop := Leaves pulseFields Crew.firstPulse

theorem trigger_leaves : LeavesPulse s (trigger c v s) := .ite .refl (.ite (.bump (by decide)) (.onCrew rfl))

theorem fireTriggers_leaves : LeavesPulse s (fireTriggers s c) := (Leaves.onCrew rfl).trans (.foldl fun _ _ => trigger_leaves)

/-- A pulse that asks for a trigger changes the crew's triggers and their count at most (R91). -/
theorem pulseTrigger_leaves : LeavesPulse s (pulseTrigger c k gap s) := by
  unfold pulseTrigger
  extract_lets s1 n
  have h1 : LeavesPulse s s1 := .onCrew rfl
  exact h1.trans (.ite (.ite ((Leaves.onCrew rfl).trans fireTriggers_leaves) (.onCrew rfl)) .refl)

/-- A step event changes its own counts and the stroke phase at most (R65, R66). -/
theorem stepEvent_leaves : LeavesPulse s (stepEvent c least s) := by
  have hrun : ∀ n, LeavesPulse s (s.onCrew c (fun k => { k with spaceRun := n })) := fun _ => .onCrew rfl
  unfold stepEvent
  split
  · exact (hrun _).trans (.ite (.put (by decide)) .refl)
  · exact (hrun 0).trans (.ite (((Leaves.put (by decide)).trans (.bump (by decide))).trans (.ite (.put (by decide)) .refl)) .refl)

theorem dither_leaves : LeavesPulse s (dither c s).1 := by
  have hdraw : LeavesPulse s (s.onCrew c (fun k => { k with lfsr := lfsrStep (s.crew c).lfsr })) := .onCrew rfl
  unfold dither
  split
  · exact .refl
  · exact hdraw

/-! ## The issue of a pulse (R62, R63, R64) -/

@[simp] theorem dither_get : (dither c s).1.get f i = s.get f i := by unfold dither; split <;> rfl

/-- The term that a pulse draws depends on the depth and on the shift register (R59). -/
theorem dither_congr (h1 : t.get CREW_MOD_CTL.DITHER_DEPTH c = s.get CREW_MOD_CTL.DITHER_DEPTH c)
    (h2 : (t.crew c).lfsr = (s.crew c).lfsr) : (dither c t).2 = (dither c s).2 := by
  simp only [dither, h1, h2]
  split <;> rfl

theorem ringOf_congr (h : ∀ k, inRing (t.phase (8 * c + k)) = inRing (s.phase (8 * c + k))) : t.ringOf c = s.ringOf c := by
  simp only [State.ringOf, h]

/-- The state in which a hold of crew c has ended for a pulse, a pulse later than it was due counting one (R63). -/
def endHold (c : Nat) (held : Bool) (s : State) : State :=
  ((if held then beginHold c s else s).put CREW_RING_STAT.HOLD c 0).onCrew c (fun k => { k with firstPulse := false })

/-- The state in which local phase k of crew c has taken a pulse and the pointer has moved on (R55, R62). -/
def fire (c k vib : Nat) (s : State) : State :=
  let u := (dither c s).1
  let p := u.phase (8 * c + k)
  let u := u.setPhase (8 * c + k) { p with
    st := .on, lowSide := false
    terms := ⟨u.get CREW_MOD_CTL.K_ON c, u.get CREW_SP_REF.REF c, vib, (dither c s).2, u.trimOf c k, u.gateWord c,
      rippleMv (u.get CREW_MOD_CTL.RIPPLE c)⟩ }
  u.put CREW_RING_STAT.POINTER c (nextIn (u.ringOf c) k)

/-- Sooner than t_SP after the last pulse none is issued. -/
theorem exec_pulse_early (h : gap < s.tSp c) : exec (.pulse c od dem gap vib) s = .next s :=
  congrArg Host.Outcome.next (if_pos (.inr (.inr h)))

theorem exec_pulse_notDue (h1 : dem ≤ gap) (h2 : gap < dem + s.firstDelay c) : exec (.pulse c od dem gap vib) s = .next s := by
  show execPulse c od dem gap vib s = .next s
  simp only [execPulse, pulse, if_neg (Nat.not_lt.mpr h1), if_pos (lt_max_of_lt_left h2), ite_self]

section
variable (hreg : (s.crew c).reg = true) (hov : (s.crew c).ovInhibit = false)
include hreg hov

/-- A regulating crew whose demand is not suppressed issues no pulse before t_SP is over. -/
theorem exec_pulse (hgap : s.tSp c ≤ gap) : exec (.pulse c od dem gap vib) s = .next (
    if gap < dem then s.put CREW_RING_STAT.HOLD c 0
    else if gap < max (dem + s.firstDelay c) (s.tSp c) then s
    else match (ringFrom (s.ringOf c) (if s.get CREW_RING_CTL.STROKE_OD c ≠ 0 ∧ (s.get CREW_RING_CTL.STROKE_OD c + 1) * 1000 < od ∧
        s.flag CREW_RING_STAT.STEP_EVENT c = false then s.get CREW_RING_STAT.STROKE c else s.get CREW_RING_STAT.POINTER c)).find?
        (fun j => (s.phase (8 * c + j)).st == .ready) with
      | none => beginHold c s
      | some k =>
        let u := fire c k vib (endHold c (decide (max (dem + s.firstDelay c) (s.tSp c) < gap)) s)
        stepEvent c (decide (max (dem + s.firstDelay c) (s.tSp c) < gap) || gap == u.tSp c) (pulseTrigger c k gap u)) := by
  show execPulse c od dem gap vib s = _
  simp only [execPulse, pulse, hreg, hov, Nat.not_lt.mpr hgap, not_true_eq_false, Bool.false_eq_true, or_self, if_false,
    Bool.not_eq_true]
  rfl

end

/-! ## What a pulse leaves (R55, R62, R63) -/

theorem beginHold_flag : (beginHold c s).flag CREW_RING_STAT.HOLD c = true := by
  unfold beginHold
  split
  · assumption
  · rw [State.flag, get_bump_reg (by decide), get_put_self]; rfl

/-- A hold is counted once, as it begins. -/
theorem beginHold_count : (beginHold c s).get CREW_HOLD_CNT.HOLDS c =
    if s.flag CREW_RING_STAT.HOLD c then s.get CREW_HOLD_CNT.HOLDS c else CREW_HOLD_CNT.HOLDS.count (s.get CREW_HOLD_CNT.HOLDS c) := by
  unfold beginHold
  split
  · rfl
  · rw [get_bump_self, get_put_reg (by decide)]; rfl

theorem beginHold_regs : SameRegs [CREW_RING_STAT.HOLD.key c, CREW_HOLD_CNT.HOLDS.key c] s (beginHold c s) := by
  unfold beginHold
  split
  · exact SameRegs.refl
  · exact (SameRegs.refl.put (by simp)).bump (by simp)

theorem beginHold_block : SameBlock s (beginHold c s) := by
  unfold beginHold
  split
  · exact SameBlock.refl
  · exact SameBlock.refl.put.bump

theorem endHold_block : SamePhases [] s (endHold c held s) ∧ SameMem s (endHold c held s) := by
  obtain ⟨hp, -, hm⟩ := beginHold_block (c := c) (s := s)
  cases held with
  | false => exact ⟨SamePhases.refl, SameMem.refl⟩
  | true => exact ⟨hp.congr rfl, hm.congr rfl rfl⟩

theorem endHold_lfsr : ((endHold c held s).crew c).lfsr = (s.crew c).lfsr := by
  obtain ⟨-, hc, -⟩ := beginHold_block (c := c) (s := s)
  cases held with
  | false => simp [endHold]
  | true => simp [endHold, hc c]

theorem endHold_get (h1 : f.reg ≠ CREW_RING_STAT.HOLD.reg) (h2 : f.reg ≠ CREW_HOLD_CNT.HOLDS.reg) :
    (endHold c held s).get f i = s.get f i := by
  rw [endHold, onCrew_get, get_put_reg h1]
  cases held with
  | false => rfl
  | true => exact beginHold_regs f i (by simp [Fld.key, h1, h2])

theorem endHold_flag : (endHold c held s).get CREW_RING_STAT.HOLD c = 0 := get_put_self

theorem endHold_count : (endHold c held s).get CREW_HOLD_CNT.HOLDS c =
    if s.flag CREW_RING_STAT.HOLD c = false ∧ held = true then CREW_HOLD_CNT.HOLDS.count (s.get CREW_HOLD_CNT.HOLDS c)
    else s.get CREW_HOLD_CNT.HOLDS c := by
  rw [endHold, onCrew_get, get_put_reg (by decide)]
  cases held with
  | false => simp
  | true => simp only [if_true, beginHold_count]; cases s.flag CREW_RING_STAT.HOLD c <;> rfl

theorem fire_phase : (fire c k vib s).phase (8 * c + k) = { s.phase (8 * c + k) with
    st := .on, lowSide := false
    terms := ⟨s.get CREW_MOD_CTL.K_ON c, s.get CREW_SP_REF.REF c, vib, (dither c s).2, s.trimOf c k, s.gateWord c,
      rippleMv (s.get CREW_MOD_CTL.RIPPLE c)⟩ } := by
  have hp : (dither c s).1.phase (8 * c + k) = s.phase (8 * c + k) := by
    simp only [State.phase, (dither_leaves (s := s) (c := c)).phases]
  simp only [fire, put_phase, setPhase_phase_self, State.trimOf, State.gateWord, dither_get, hp]

theorem fire_phases : SamePhases [8 * c + k] s (fire c k vib s) :=
  (dither_leaves.samePhases.set (by simp)).put

theorem fire_mem : SameMem s (fire c k vib s) := dither_leaves.sameMem

theorem fire_get (h : f.reg ≠ CREW_RING_STAT.POINTER.reg ∨ f.lo ≠ CREW_RING_STAT.POINTER.lo) :
    (fire c k vib s).get f i = s.get f i :=
  (h.elim get_put_reg get_put_lo).trans dither_get

theorem fire_first : ((fire c k vib s).crew c).firstPulse = (s.crew c).firstPulse := dither_leaves.crew c

/-- The pointer goes on to the next phase of a ring that the pulse leaves as it was. -/
theorem fire_pointer (hk : inRing (s.phase (8 * c + k)) = true) :
    (fire c k vib s).get CREW_RING_STAT.POINTER c = nextIn (s.ringOf c) k % 8 := by
  have hring : (fire c k vib s).ringOf c = s.ringOf c := ringOf_congr fun j => by
    by_cases hj : j = k
    · subst hj; rw [fire_phase, hk]; rfl
    · rw [fire_phases _ (by simpa using hj)]
  rw [← hring]
  exact get_put_self

/-- The phase that a search of the ring finds is one of the ring, and READY. -/
theorem ready_of_find {a : Nat} (h : (ringFrom (s.ringOf c) a).find? (fun j => (s.phase (8 * c + j)).st == .ready) = some k) :
    (s.phase (8 * c + k)).st = .ready := by simpa using List.find?_some h

theorem find_none (h : ∀ k, k < 8 → (s.phase (8 * c + k)).st ≠ .ready) {a : Nat} :
    (ringFrom (s.ringOf c) a).find? (fun j => (s.phase (8 * c + j)).st == .ready) = none := by
  refine List.find?_eq_none.mpr fun j hj => ?_
  have hj8 : j < 8 := by
    simp only [ringFrom, State.ringOf, List.mem_append, List.mem_filter, List.mem_range] at hj
    rcases hj with hj | hj <;> exact hj.1.1
  simpa using h j hj8

end Sys2Proof.Machine

namespace Sys2Proof.Proofs.Phases

open Sys2Proof Sys2Proof.Machine

/-- Settles O2: by the conditions of R63 in order, and where a pulse is issued by what ending a hold, taking the pulse and what
follows it each do. -/
theorem pulseIssue : Obligations.PulseIssue := by
  refine ⟨fun _ _ _ _ _ _ h => exec_pulse_early h, ?lapsed, fun _ _ _ _ _ _ h1 h2 => exec_pulse_notDue h1 h2, ?hold, ?issue⟩
  case lapsed =>
    intro c od dem gap vib s hreg hov hgap hdem
    refine ⟨_, exec_pulse hreg hov hgap, ?_⟩
    rw [if_pos hdem]
    exact ⟨by rw [State.flag, get_put_self]; rfl, SameRegs.refl.put (by simp), SameBlock.refl.put⟩
  case hold =>
    intro c od dem gap vib s hreg hov hdue hready
    refine ⟨_, exec_pulse hreg hov (le_of_max_le_right hdue), ?_⟩
    have hdem : dem ≤ gap := le_trans (Nat.le_add_right _ _) (le_of_max_le_left hdue)
    rw [if_neg (Nat.not_lt.mpr hdem), if_neg (Nat.not_lt.mpr hdue), find_none hready]
    exact ⟨beginHold_flag, beginHold_count, beginHold_regs, beginHold_block⟩
  case issue =>
    intro c od dem gap vib k s hreg hov hdue hfind
    refine ⟨_, exec_pulse hreg hov (le_of_max_le_right hdue), ?_⟩
    have hdem : dem ≤ gap := le_trans (Nat.le_add_right _ _) (le_of_max_le_left hdue)
    rw [if_neg (Nat.not_lt.mpr hdem), if_neg (Nat.not_lt.mpr hdue), hfind]
    dsimp only
    generalize hheld : decide (max (dem + s.firstDelay c) (s.tSp c) < gap) = held
    set e := endHold c held s
    set r := fire c k vib e
    generalize (held || gap == r.tSp c) = least
    have hkept : LeavesPulse r (stepEvent c least (pulseTrigger c k gap r)) := pulseTrigger_leaves.trans stepEvent_leaves
    obtain ⟨hphases, hmem⟩ := endHold_block (c := c) (held := held) (s := s)
    have hsame : ∀ q, e.phase q = s.phase q := fun q => hphases q (by simp)
    have hphase : ∀ q, (stepEvent c least (pulseTrigger c k gap r)).phase q = r.phase q := fun q => by
      simp only [State.phase, hkept.phases]
    have hin : inRing (s.phase (8 * c + k)) = true := by simp [inRing, ready_of_find hfind]
    have hring : e.ringOf c = s.ringOf c := ringOf_congr fun j => by rw [hsame]
    have hget : ∀ f i, f.reg ≠ CREW_RING_STAT.HOLD.reg → f.reg ≠ CREW_HOLD_CNT.HOLDS.reg → e.get f i = s.get f i :=
      fun f i => endHold_get
    refine ⟨by rw [hphase, fire_phase], by rw [hphase, fire_phase], ?_, ?_, ?_, ?_, ?_, ?_, ?_⟩
    · rw [hphase, fire_phase, dither_congr (hget _ _ (by decide) (by decide)) endHold_lfsr]
      simp (disch := decide) only [State.trimOf, State.gateWord, hget]
    · rw [hkept.regs _ (by simp [pulseFields]), fire_pointer (by rw [hsame, hin]), hring]
    · rw [State.flag, hkept.regs _ (by simp [pulseFields]), fire_get (.inr (by decide)), endHold_flag]; rfl
    · rw [hkept.regs _ (by simp [pulseFields]), fire_get (.inl (by decide)), endHold_count, ← hheld]
      simp only [decide_eq_true_eq]
    · rw [hkept.crew, fire_first]; simp [e, endHold]
    · exact SamePhases.congr (fun q hq => (fire_phases q hq).trans (hsame q)) hkept.phases
    · exact (hmem.trans fire_mem).congr hkept.mem hkept.flash

end Sys2Proof.Proofs.Phases

namespace Sys2Proof.Machine

open Sys2Proof

variable {s t u : State} {m : Master} {f g : Fld} {c i j k n q v code kd src d0 d1 ph vPlane vib data : Nat} {ks : List Nat}
  {z : Int}

/-! ## Restores (R82, R83) -/

/-- A number of n digits to the base 4, digit j being d j. -/
theorem digits_lt {d : Nat → Nat} (hd : ∀ j, d j < 4) : sumN ((List.range n).map fun j => d j * 4 ^ j) < 4 ^ n := by
  induction n with
  | zero => exact Nat.one_pos
  | succ n ih =>
    have hn := hd n
    rw [sumN] at ih ⊢
    rw [List.range_succ, List.map_append, List.foldl_append, Nat.pow_succ]
    simp only [List.map_cons, List.map_nil, List.foldl_cons, List.foldl_nil]
    have : d n * 4 ^ n ≤ 3 * 4 ^ n := Nat.mul_le_mul_right _ (by omega)
    omega

/-- The digits of a number of n digits to the base 4. -/
theorem digits_digit {d : Nat → Nat} (hd : ∀ j, d j < 4) (hk : k < n) :
    sumN ((List.range n).map fun j => d j * 4 ^ j) / 4 ^ k % 4 = d k := by
  induction n with
  | zero => omega
  | succ n ih =>
    have hstep : sumN ((List.range (n + 1)).map fun j => d j * 4 ^ j) = d n * 4 ^ n + sumN ((List.range n).map fun j => d j * 4 ^ j) := by
      rw [sumN, sumN, List.range_succ, List.map_append, List.foldl_append, Nat.add_comm]
      rfl
    rw [hstep]
    rcases Nat.lt_succ_iff_lt_or_eq.mp hk with hlt | rfl
    · obtain ⟨e, rfl⟩ := Nat.exists_eq_add_of_lt hlt
      rw [show d (k + e + 1) * 4 ^ (k + e + 1) = 4 ^ k * (4 * (d (k + e + 1) * 4 ^ e)) by ring,
        Nat.mul_add_div (by positivity), Nat.mul_add_mod, ih (by omega)]
    · rw [Nat.add_comm, Nat.add_mul_div_right _ _ (by positivity), Nat.div_eq_of_lt (digits_lt hd), Nat.zero_add,
        Nat.mod_eq_of_lt (hd k)]

/-- The judgement of each requested phase, 0 for one that is not requested (R83). -/
def judged (c mask : Nat) (s : State) (k : Nat) : Nat := if bitAt mask k then restoreResult s.tickView c k else 0

theorem judged_lt : judged c v s k < 4 := by
  unfold judged restoreResult
  dsimp only
  split_ifs <;> decide

/-- The state that shows the judgements of a restore. -/
def showJudged (c mask : Nat) (s : State) : State :=
  s.put CREW_PH_RESTORE_STAT.RESULT c (sumN ((List.range 8).map fun k => judged c mask s k * 4 ^ k))

theorem showJudged_result (hk : k < 8) :
    bits ((showJudged c v s).get CREW_PH_RESTORE_STAT.RESULT c) (2 * k + 1) (2 * k) = judged c v s k := by
  have hw : CREW_PH_RESTORE_STAT.RESULT.width = 16 := rfl
  rw [showJudged, get_put_self, hw, bits_mod (by omega), bits, Nat.pow_mul, show 2 * k + 1 - 2 * k + 1 = 2 by omega]
  exact digits_digit (fun _ => judged_lt) hk

/-- The local phases whose restore is carried out. -/
def restored (c mask : Nat) (s : State) : List Nat :=
  (List.range 8).filter fun k => judged c mask s k = 1 && s.restorable c k

/-- The rejoin of a crew that was forced down and has five usable phases again (R166). -/
def rejoinForced (c : Nat) (s : State) : State :=
  if s.flag CREW_PWR_STAT.FORCED c ∧ 5 ≤ s.usable c then
    let u := s.put CREW_PWR_STAT.FORCED c 0
    if u.cst c = 5 ∧ (u.plane (planeOf c)).powered ∧ (u.plane (planeOf c)).ramp = .none then rejoinCrew c u else u
  else s

theorem restore_eq : restore c v s = rejoinForced c (forAll (restored c v s) (restoreOne c) (showJudged c v s)) := by
  have hget : ∀ k, k < 8 → ((List.range 8).map (judged c v s)).getD k 0 = judged c v s k := fun k hk => by
    simp [List.getD_eq_getElem?_getD, hk]
  have hsum : (List.range 8).map (fun k => ((List.range 8).map (judged c v s)).getD k 0 * 4 ^ k) =
      (List.range 8).map fun k => judged c v s k * 4 ^ k :=
    List.map_congr_left fun k hk => by rw [hget k (List.mem_range.mp hk)]
  have hlist : (List.range 8).filter (fun k => ((List.range 8).map (judged c v s)).getD k 0 = 1 && s.restorable c k) =
      restored c v s := List.filter_congr fun k hk => by rw [hget k (List.mem_range.mp hk)]
  rw [showJudged, ← hsum, ← hlist]
  rfl

/-- A phase as an accepted restore leaves it, in a crew that is down or not (R83). -/
def Phase.rejoined (p : Phase) (down : Bool) (now : Nat) : Phase :=
  { p with st := if down then .idle else .ready, lowSide := !down, winTrips := 0, restoredAt := some now }

theorem restoreOne_phase : (restoreOne c s k).phase q =
    if q = 8 * c + k then (s.phase q).rejoined (s.crewDown c) s.now else s.phase q := by
  simp only [restoreOne, zeroTrims, put_phase]
  by_cases h : q = 8 * c + k
  · subst h; rw [if_pos rfl]; exact onPhase_phase
  · rw [if_neg h]; exact onPhase_phase_ne h

theorem restoreOne_get (h1 : f.reg ≠ .CREW_PH_CAUSE) (h2 : f.reg ≠ .CREW_PH_CNT) (h3 : f.reg ≠ .CREW_PH_TRIM) :
    (restoreOne c s k).get f i = s.get f i := by
  simp only [restoreOne, zeroTrims]
  rw [get_put_reg h3, get_put_reg h2, get_put_reg h1, onPhase_get]

theorem crewDown_congr (h : t.get CREW_PWR_STAT.STATE c = s.get CREW_PWR_STAT.STATE c) : t.crewDown c = s.crewDown c := by
  rw [State.crewDown, State.crewDown, State.cst, State.cst, h]

theorem restoreOne_down : (restoreOne c s k).crewDown c = s.crewDown c :=
  crewDown_congr (restoreOne_get (by decide) (by decide) (by decide))

/-- The restores of several phases of a crew are each as if it were the only one. -/
theorem restoreAll_phase (hks : ks.Nodup) : (forAll ks (restoreOne c) s).phase q =
    if q ∈ ks.map (8 * c + ·) then (s.phase q).rejoined (s.crewDown c) s.now else s.phase q := by
  induction ks generalizing s with
  | nil => simp [forAll]
  | cons k ks ih =>
    obtain ⟨hk, hks⟩ := List.nodup_cons.mp hks
    have hstep := ih (s := restoreOne c s k) hks
    rw [forAll] at hstep ⊢
    rw [List.foldl_cons, hstep, restoreOne_down, restoreOne_phase]
    have hnow : (restoreOne c s k).now = s.now := rfl
    by_cases hq : q = 8 * c + k
    · subst hq; simp [hk]
    · simp [hq, hnow]

theorem rejoinCrew_leaves : Leaves [CREW_PH_RESTORE_STAT.RESULT] (fun _ => ()) s (rejoinCrew c s) := by
  have hselect : ∀ x, Leaves [CREW_PH_RESTORE_STAT.RESULT] (fun _ => ()) x (selectInterleaved c x) := fun _ =>
    (Leaves.put (by decide)).trans ((Leaves.put (by decide)).trans (.onCrew rfl))
  exact .ite (.onCrew rfl) (.ite ((Leaves.put (by decide)).trans (hselect _)) .refl)

theorem rejoinForced_leaves : Leaves [CREW_PH_RESTORE_STAT.RESULT] (fun _ => ()) s (rejoinForced c s) := by
  have hfree : Leaves [CREW_PH_RESTORE_STAT.RESULT] (fun _ => ()) s (s.put CREW_PWR_STAT.FORCED c 0) := .put (by decide)
  exact .ite (.ite (hfree.trans rejoinCrew_leaves) hfree) .refl

theorem restore_result (hk : k < 8) : bits ((restore c v s).get CREW_PH_RESTORE_STAT.RESULT c) (2 * k + 1) (2 * k) =
    judged c v s k := by
  rw [restore_eq, rejoinForced_leaves.regs _ (by simp), ← showJudged_result hk]
  congr 1
  exact forAll_keeps (P := fun x => x.get CREW_PH_RESTORE_STAT.RESULT c = (showJudged c v s).get CREW_PH_RESTORE_STAT.RESULT c)
    (fun x k _ hx => (restoreOne_get (by decide) (by decide) (by decide)).trans hx) rfl

/-- A restore changes the phases that it takes, and no other (R83). -/
theorem restore_phase : (restore c v s).phase q = if q ∈ (restored c v s).map (8 * c + ·) then
    (s.phase q).rejoined (s.crewDown c) s.now else s.phase q := by
  have hdown : (showJudged c v s).crewDown c = s.crewDown c := crewDown_congr (get_put_reg (by decide))
  have hnodup : (restored c v s).Nodup := List.nodup_range.filter _
  rw [restore_eq, rejoinForced_leaves.samePhases (ks := []) q (by simp), restoreAll_phase hnodup, hdown]
  rfl

theorem restore_mem : SameMem s (restore c v s) := by
  have hall : SameMem s (forAll (restored c v s) (restoreOne c) (showJudged c v s)) :=
    forAll_keeps (P := SameMem s) (fun _ _ _ h => h.congr rfl rfl) (SameMem.refl.congr rfl rfl)
  rw [restore_eq]
  exact hall.trans rejoinForced_leaves.sameMem

/-- A write of CREW_PH_RESTORE that is taken is the restore of its low eight bits. -/
theorem exec_restore (h : s.Takes m .CREW_PH_RESTORE c data) :
    exec (.restore m c data) s = .next ((restore c (data % 2 ^ 32 % 256) s).answered 0) :=
  congrArg Host.Outcome.next (takes_CREW_PH_RESTORE h)

theorem judged_mod (hk : k < 8) : judged c (v % 2 ^ 32 % 256) s k = judged c v s k := by
  have hbit : bitAt (v % 2 ^ 32 % 2 ^ 8) k = bitAt v k := (bitAt_mod hk).trans (bitAt_mod (by omega))
  rw [judged, judged, show v % 2 ^ 32 % 256 = v % 2 ^ 32 % 2 ^ 8 from rfl, hbit]

theorem restored_mod : restored c (v % 2 ^ 32 % 256) s =
    (List.range 8).filter fun k => bitAt v k && restoreResult s.tickView c k == 1 && s.restorable c k := by
  refine List.filter_congr fun k hk => ?_
  rw [judged_mod (List.mem_range.mp hk), judged]
  cases bitAt v k with
  | false => simp
  | true => simp [beq_eq_decide]

/-! ## The dither seed (R60) -/

/-- A write of SEED that is taken stores it, and the shift register loads it. -/
theorem exec_ditherSeed (h : s.Takes m .CREW_DITHER_SEED c data) : exec (.ditherSeed m c data) s =
    .next ((loadSeed c (s.put CREW_DITHER_SEED.SEED c (data % 2 ^ 15))).answered 0) := by
  have hseed : CREW_DITHER_SEED.SEED.ofWord (data % 2 ^ 32) = data % 2 ^ 15 := by
    rw [ofWord_mod (by decide), Fld.ofWord, bits]
    simp [CREW_DITHER_SEED.SEED]
  rw [← hseed]
  exact congrArg Host.Outcome.next (takes_CREW_DITHER_SEED h)

theorem loadSeed_eq : loadSeed c s = s.onCrew c (fun k => { k with
    lfsr := if s.get CREW_DITHER_SEED.SEED c = 0 then 1 else s.get CREW_DITHER_SEED.SEED c }) := rfl

/-! ## The overload fold (R72 to R75) -/

theorem exec_crewOverload (h1 : (s.crew c).reg = true) (h2 : s.flag CREW_OVL_STAT.FOLD c = false)
    (h3 : 115 * s.foldRating c ≤ 100 * s.get CREW_OVL_FILT.FILT_MA c) : exec (.crewOverload c) s =
    .next (latchStatus (planeOf c) 0 0x20 0 (((s.put CREW_OVL_STAT.FOLD c 1).bump CREW_OVL_CNT.FOLDS c).raiseCrew 0x0202 c)) :=
  if_pos ⟨h1, by simp [h2], by simpa [State.overloaded] using h3⟩

section
variable {vout iout temp : Nat}
@[simp] theorem latchStatus_get : (latchStatus q vout iout temp s).get f i = s.get f i := rfl
@[simp] theorem latchStatus_fld : (latchStatus q vout iout temp s).fld = s.fld := rfl
@[simp] theorem latchStatus_fuse : (latchStatus q vout iout temp s).fuse = s.fuse := rfl
@[simp] theorem latchStatus_phases : (latchStatus q vout iout temp s).phases = s.phases := rfl
@[simp] theorem latchStatus_mem : (latchStatus q vout iout temp s).mem = s.mem := rfl
@[simp] theorem latchStatus_flash : (latchStatus q vout iout temp s).flash = s.flash := rfl
end

theorem startHeld_leaves : Leaves [] Crew.foldUv s (startHeld n s) := by
  have hraise : ∀ x : State, Leaves [] Crew.foldUv x (x.raise 0x0605 1 (0x6E0 + n)) := fun x =>
    ⟨raise_phases, raise_mem, raise_flash, fun c => by obtain ⟨_, _, h⟩ := raise_crew (s := x) c; rw [h], by simp⟩
  have hmar : ∀ y, Leaves [] Crew.foldUv s (s.setMar n y) := fun _ => ⟨rfl, rfl, rfl, fun _ => rfl, by simp⟩
  exact .ite (hmar _) (.ite .refl ((hmar _).trans (hraise _)))

/-- The state with another fold offset of crew c in µV. -/
def State.setFold (s : State) (c off : Nat) : State := s.onCrew c (fun k => { k with foldUv := off })

/-- The flags of the fold and the state of the crew after a tick that has brought the offset to off (R74, R75, R165). -/
def settleFold (c off : Nat) (held : Bool) (s : State) : State :=
  let s := s.mark CREW_OVL_STAT.FLOOR c (s.flag CREW_OVL_STAT.FOLD c && held)
  let s := if s.flag CREW_OVL_STAT.FOLD c ∧ s.cst c ≠ 4 ∧ off = 0 ∧ s.get CREW_OVL_FILT.FILT_MA c < s.foldRating c then
      (s.put CREW_OVL_STAT.FOLD c 0).put CREW_OVL_STAT.FLOOR c 0 else s
  if s.cst c = 7 ∧ off = 0 then reachOn c s else s

theorem settleFold_leaves {off : Nat} {held : Bool} : Leaves [] Crew.foldUv s (settleFold c off held s) := by
  unfold settleFold
  extract_lets s1 s2
  have h1 : Leaves [] Crew.foldUv s s1 := .put (by simp)
  have h2 : Leaves [] Crew.foldUv s1 s2 := .ite ((Leaves.put (by simp)).trans (.put (by simp))) .refl
  exact (h1.trans h2).trans (.ite ((Leaves.put (by simp)).trans startHeld_leaves) .refl)

/-- Outside shedding the fold offset of a regulating crew grows while it is folded and above its fold level (R73). -/
theorem exec_foldOffset (h1 : (s.crew c).reg = true) (h2 : s.cst c ≠ 4) : ∃ off held,
    (off, held) = s.foldNext c (s.flag CREW_OVL_STAT.FOLD c && decide ((s.foldLevel c : Int) < s.sumMa c)) ∧
    exec (.foldOffset c) s = .next (settleFold c off held (s.setFold c off)) := by
  have h4 : (s.cst c == 4) = false := by simpa using h2
  refine ⟨_, _, rfl, ?_⟩
  show execFoldOffset c s = _
  simp only [execFoldOffset, h1, h4, Bool.false_or, not_true_eq_false, if_false]
  rfl

/-- An event of class FC2 or FC3 changes no register (R360). -/
theorem raise_sameRegs_fatal (h : 2 ≤ classNo code) : SameRegs [] s (s.raise code kd src d0 d1) := by
  intro f i _
  simp only [State.raise, State.raiseEv]
  split <;> rw [if_neg (fun e => absurd e.1 (by omega))] <;> rfl

theorem exec_overloadUnresolved (h1 : s.flag CREW_OVL_STAT.FLOOR c = true) (h2 : (s.foldLevel c : Int) < s.sumMa c) :
    exec (.overloadUnresolved c) s = .next (s.raiseCrew 0x0205 c) := if_pos ⟨h1, h2⟩

/-! ## Balance trims (R61) -/

/-- The state with trim z of local phase k of crew c. -/
def State.setTrim (s : State) (c k : Nat) (z : Int) : State :=
  s.put CREW_PH_TRIM.TRIM c (setBits (s.get CREW_PH_TRIM.TRIM c) (4 * k) 4 (unsg 4 z))

theorem trimOf_range : -8 ≤ s.trimOf c k ∧ s.trimOf c k ≤ 7 := by
  simp only [State.trimOf, sgn]
  split <;> omega

theorem trimOf_setTrim_self (hk : k < 8) (h1 : -8 ≤ z) (h2 : z ≤ 7) : (s.setTrim c k z).trimOf c k = z := by
  have hw : CREW_PH_TRIM.TRIM.width = 32 := rfl
  rw [State.trimOf, State.setTrim, get_put_self, hw, bits_mod (by omega), bits_setBits_same (by omega)]
  norm_num [sgn, unsg]
  split_ifs <;> omega

theorem trimOf_setTrim_ne (hj : j < 8) (h : j ≠ k) : (s.setTrim c k z).trimOf c j = s.trimOf c j := by
  have hw : CREW_PH_TRIM.TRIM.width = 32 := rfl
  rw [State.trimOf, State.setTrim, get_put_self, hw, bits_mod (by omega), bits_setBits_apart (by omega) (by omega), State.trimOf]

/-- Where each phase of a list in turn takes a trim at most one step from its own, no trim moves further. -/
theorem forAll_setTrim {F : State → Nat → Int}
    (hF : ∀ u k, -8 ≤ F u k ∧ F u k ≤ 7 ∧ (F u k - u.trimOf c k).natAbs ≤ 1) (hks : ks.Nodup) (hlt : ∀ k ∈ ks, k < 8) (hj : j < 8) :
    if j ∈ ks then ((forAll ks (fun u k => u.setTrim c k (F u k)) s).trimOf c j - s.trimOf c j).natAbs ≤ 1
    else (forAll ks (fun u k => u.setTrim c k (F u k)) s).trimOf c j = s.trimOf c j := by
  induction ks generalizing s with
  | nil => rfl
  | cons k ks ih =>
    obtain ⟨hk, hks⟩ := List.nodup_cons.mp hks
    obtain ⟨h1, h2, h3⟩ := hF s k
    have hrest := ih (s := s.setTrim c k (F s k)) hks fun k hk => hlt k (by simp [hk])
    rw [forAll] at hrest ⊢
    rw [List.foldl_cons]
    by_cases hjk : j = k
    · subst hjk
      rw [if_neg hk, trimOf_setTrim_self hj h1 h2] at hrest
      rw [if_pos (by simp), hrest]
      exact h3
    · rw [trimOf_setTrim_ne hj hjk] at hrest
      simpa [hjk] using hrest

/-- The trim of local phase k after a balance step, of a ring of n phases whose currents sum to total (R61). -/
def State.balanced (s : State) (c n : Nat) (total : Int) (k : Nat) : Int :=
  let dev := s.phaseMa256 c k * n - total
  let b := s.trimOf c k
  if total.natAbs < dev * 50 then max (-8) (b - 1) else if dev * 50 < -(total.natAbs : Int) then min 7 (b + 1) else b

theorem balanced_near {total : Int} :
    -8 ≤ s.balanced c n total k ∧ s.balanced c n total k ≤ 7 ∧ (s.balanced c n total k - s.trimOf c k).natAbs ≤ 1 := by
  obtain ⟨h1, h2⟩ := trimOf_range (s := s) (c := c) (k := k)
  simp only [State.balanced]
  split_ifs <;> omega

theorem exec_balanceTrim (h : s.flag CREW_MOD_CTL.BAL_EN c = true) : exec (.balanceTrim c) s = .next
    (forAll (s.ringOf c) (fun u k => u.setTrim c k
      (u.balanced c (s.ringOf c).length (sumI ((s.ringOf c).map (s.phaseMa256 c))) k)) s) := if_pos h

/-! ## Test pulses (R87) -/

/-- The state in which a phase under test that is q has gone back to IDLE. -/
def endTest (s : State) (q : Nat) : State :=
  if (s.phase q).inTest then s.setPhase q
    { s.phase q with st := .idle, lowSide := false, testOn := false, testWait := false, inTest := false } else s

/-- The state in which phase ph alone of its crew is under test and takes a test pulse. -/
def testState (ph vPlane vib : Nat) (s : State) : State :=
  let u := forAll ((crewPhases (ph / 8)).filter (fun q => q ≠ ph)) endTest s
  u.setPhase ph { s.phase ph with
    st := .test, inTest := true, testOn := true, testWait := false, lowSide := false
    terms := ⟨u.get CREW_MOD_CTL.K_ON (ph / 8), vPlane, vib, 0, 0, u.gateWord (ph / 8),
      rippleMv (u.get CREW_MOD_CTL.RIPPLE (ph / 8))⟩ }

theorem exec_testPulse (h1 : s.cst (ph / 8) = 6) (h2 : (s.crew (ph / 8)).calOw = 0) (h3 : (s.phase ph).st = .idle ∨
    ((s.phase ph).st = .test ∧ (s.phase ph).testOn = false ∧ (s.phase ph).testWait = false)) :
    ∃ gap, exec (.testPulse ph vPlane vib) s = .next (pulseTrigger (ph / 8) (ph % 8) gap (testState ph vPlane vib s)) := by
  have hgo : ¬ (s.cst (ph / 8) ≠ 6 ∨ (s.crew (ph / 8)).calOw ≠ 0) := by simp [h1, h2]
  have hph : (s.phase ph).st = .idle ∨ ((s.phase ph).st = .test ∧ ¬ (s.phase ph).testOn ∧ ¬ (s.phase ph).testWait) ∨
      ((s.phase ph).st = .ready ∧ (s.phase ph).inTest) := h3.imp id fun ⟨ht, ho, hw⟩ => .inl ⟨ht, by simp [ho], by simp [hw]⟩
  exact ⟨_, (if_neg hgo).trans (if_pos hph)⟩

/-- The other phases' tests end with no register, no memory and no phase of another crew changed. -/
theorem endTests_frame : let u := forAll ((crewPhases c).filter (fun q => q ≠ ph)) endTest s
    SameRegs [] s u ∧ SamePhases (crewPhases c) s u ∧ SameMem s u := by
  refine forAll_keeps (P := fun x => SameRegs [] s x ∧ SamePhases (crewPhases c) s x ∧ SameMem s x) (fun x q hq h => ?_)
    ⟨.refl, .refl, .refl⟩
  obtain ⟨hr, hp, hm⟩ := h
  unfold endTest
  split
  · exact ⟨hr.setPhase, hp.set (List.mem_filter.mp hq).1, hm.congr rfl rfl⟩
  · exact ⟨hr, hp, hm⟩

theorem testState_phase : (testState ph vPlane vib s).phase ph = { s.phase ph with
    st := .test, inTest := true, testOn := true, testWait := false, lowSide := false
    terms := ⟨s.get CREW_MOD_CTL.K_ON (ph / 8), vPlane, vib, 0, 0, s.gateWord (ph / 8),
      rippleMv (s.get CREW_MOD_CTL.RIPPLE (ph / 8))⟩ } := by
  obtain ⟨hr, -, -⟩ := endTests_frame (s := s) (c := ph / 8) (ph := ph)
  have hget : ∀ f i, (forAll ((crewPhases (ph / 8)).filter (fun q => q ≠ ph)) endTest s).get f i = s.get f i :=
    fun f i => hr f i (by simp)
  simp only [testState, setPhase_phase_self, State.gateWord, hget]

end Sys2Proof.Machine

namespace Sys2Proof.Proofs.Phases

open Sys2Proof Sys2Proof.Machine

/-- Settles O3: a restore by its judgements and what it does to each phase it takes; the fold, the trims and the test pulses
each by what their command leaves. -/
theorem restoreOverloadAndTrims : Obligations.RestoreOverloadAndTrims := by
  refine ⟨?restore, ?seed, ?enter, ?offset, ?unresolved, ?balance, ?test⟩
  case restore =>
    intro m c data s h
    refine ⟨_, exec_restore h, fun k hk => ?_, fun k hk hbit hres hable => ?_, fun q hq => ?_, restore_mem.answered, rfl⟩
    · exact (restore_result hk).trans (judged_mod hk)
    · rw [answered_phase, restore_phase, restored_mod, if_pos]
      · rfl
      · exact List.mem_map_of_mem (by simp [hk, hbit, hres, hable])
    · rw [answered_phase, restore_phase, restored_mod, if_neg hq]
  case seed =>
    intro m c data s h
    refine ⟨_, exec_ditherSeed h, ?_⟩
    have hseed : (s.put CREW_DITHER_SEED.SEED c (data % 2 ^ 15)).get CREW_DITHER_SEED.SEED c = data % 2 ^ 15 := by
      rw [get_put_self]; exact Nat.mod_mod _ _
    rw [loadSeed_eq, hseed]
    refine ⟨hseed, by simp, (SameRegs.refl.put (by simp)).onCrew.answered, ?_, SamePhases.refl, SameMem.refl, rfl⟩
    exact SameCrews.refl.put.set (by simp)
  case enter =>
    intro c s h1 h2 h3
    refine ⟨_, exec_crewOverload h1 h2 h3, ?_, ?_, ?_, ?_, ?_⟩
    · rw [State.flag, latchStatus_get, State.raiseCrew, raise_get (by decide), get_bump_reg (by decide), get_put_self]; rfl
    · rw [latchStatus_get, State.raiseCrew, raise_get (by decide), get_bump_self, get_put_reg (by decide)]
    · exact (((SameRegs.refl.put (by simp)).bump (by simp)).raise (by simp) (by simp)).congr latchStatus_fld latchStatus_fuse
    · exact SamePhases.refl.congr (latchStatus_phases.trans raise_phases)
    · exact SameMem.refl.congr (latchStatus_mem.trans raise_mem) (latchStatus_flash.trans raise_flash)
  case offset =>
    intro c s h1 h2
    obtain ⟨off, held, hnext, hexec⟩ := exec_foldOffset h1 h2
    have hoff : off = _ := congrArg Prod.fst hnext
    refine ⟨_, hexec, ?_, SamePhases.refl.congr settleFold_leaves.phases,
      SameMem.refl.congr settleFold_leaves.mem settleFold_leaves.flash⟩
    rw [settleFold_leaves.crew, State.setFold, onCrew_crew, hoff]
    simp only [State.foldNext, Bool.and_eq_true, decide_eq_true_eq]
  case unresolved =>
    intro c s h1 h2
    refine ⟨_, exec_overloadUnresolved h1 h2, raise_intake (by decide), raise_sameRegs_fatal (by decide),
      SamePhases.refl.congr raise_phases, SameMem.refl.congr raise_mem raise_flash⟩
  case balance =>
    intro c s h
    refine ⟨_, exec_balanceTrim h, fun k hk => ?_, ?_, ?_, ?_, ?_⟩
    · have hring : (s.ringOf c).Nodup := List.nodup_range.filter _
      have hlt : ∀ j ∈ s.ringOf c, j < 8 := fun j hj => List.mem_range.mp (List.mem_filter.mp hj).1
      have hnear := forAll_setTrim (s := s) (c := c)
        (F := fun u k => u.balanced c (s.ringOf c).length (sumI ((s.ringOf c).map (s.phaseMa256 c))) k)
        (fun _ _ => balanced_near) hring hlt hk
      split at hnear
      · exact hnear
      · rw [hnear, Int.sub_self]; decide
    · exact forAll_keeps (P := SameRegs [CREW_PH_TRIM.TRIM.key c] s) (fun _ _ _ hu => hu.put (by simp)) SameRegs.refl
    · exact forAll_keeps (P := SamePhases [] s) (fun _ _ _ hu => hu.put) SamePhases.refl
    · exact forAll_keeps (P := SameCrews [] s) (fun _ _ _ hu => hu.put) SameCrews.refl
    · exact forAll_keeps (P := SameMem s) (fun _ _ _ hu => hu.congr rfl rfl) SameMem.refl
  case test =>
    intro ph vPlane vib s h1 h2 h3
    obtain ⟨gap, hexec⟩ := exec_testPulse (vPlane := vPlane) (vib := vib) h1 h2 h3
    have hleaves : LeavesPulse (testState ph vPlane vib s) _ := pulseTrigger_leaves (c := ph / 8) (k := ph % 8) (gap := gap)
    obtain ⟨-, hp, hm⟩ := endTests_frame (s := s) (c := ph / 8) (ph := ph)
    have hphase := (hleaves.samePhases (ks := []) ph (by simp)).trans testState_phase
    refine ⟨_, hexec, by rw [hphase], by rw [hphase], by rw [hphase], by rw [hphase], ?_, ?_⟩
    · exact (hp.set (mem_crewPhases.mpr rfl)).trans hleaves.samePhases
    · exact (hm.congr rfl rfl).trans hleaves.sameMem

end Sys2Proof.Proofs.Phases

/-! The statements of the family 03_sense_converters: samples and triggers of A and B, converter modes, the slots and
results of H, its reference, and the open-wire tests. -/

namespace Sys2Proof.Machine

open Sys2Proof

variable {s t u : State} {m : Master} {f g : Fld} {c i j n q v code d0 d1 tm : Nat} {b : Bool} {z lo hi : Int}

/-! ## Changes within one crew -/

/-- An event of crew c names crew c, or no crew beyond the block's. -/
theorem srcCrew_crewUnit : srcCrew 1 (crewUnit c) = some c ∨ srcCrew 1 (crewUnit c) = none := by
  unfold srcCrew crewUnit
  rw [if_neg (by omega)]
  split
  · exact .inl (by rw [Nat.add_sub_cancel_left])
  · exact .inr rfl

/-- Raising an event leaves every crew that it does not name. -/
theorem raise_crew_ne {kd src : Nat} (h : srcCrew kd src ≠ some q) : (s.raise code kd src d0 d1).crew q = s.crew q := by
  rcases hc : srcCrew kd src with _ | a <;> simp only [State.raise, State.raiseEv, hc]
  · split <;> rfl
  · have hq : q ≠ a := fun e => h (by rw [hc, e])
    split <;> exact tget_tset_ne hq

theorem SameCrews.raiseCrew {cs : List Nat} (h : SameCrews cs s t) (hc : c ∈ cs) :
    SameCrews cs s (t.raiseCrew code c d0 d1) := by
  intro q hq
  refine (raise_crew_ne fun e => ?_).trans (h q hq)
  rcases srcCrew_crewUnit (c := c) with hs | hs <;> rw [hs] at e <;> cases e
  exact hq hc

/-- From s to t nothing has changed but register fields of the list and what crew c holds, and of that not what F tells. -/
structure Within {α : Type} (ks : List FKey) (c : Nat) (F : Crew → α) (s t : State) : Prop where
  regs : SameRegs ks s t
  phases : t.phases = s.phases
  mem : t.mem = s.mem
  flash : t.flash = s.flash
  crews : SameCrews [c] s t
  crew : F (t.crew c) = F (s.crew c)

namespace Within

variable {α : Type} {ks : List FKey} {F : Crew → α}

theorem refl : Within ks c F s s := ⟨.refl, rfl, rfl, rfl, .refl, rfl⟩

theorem trans (h : Within ks c F s t) (h' : Within ks c F t u) : Within ks c F s u :=
  ⟨fun f i hf => (h'.regs f i hf).trans (h.regs f i hf), h'.phases.trans h.phases, h'.mem.trans h.mem,
    h'.flash.trans h.flash, fun q hq => (h'.crews q hq).trans (h.crews q hq), h'.crew.trans h.crew⟩

/-- The frame that the statements ask for. -/
theorem frame (h : Within ks c F s t) : SameRegs ks s t ∧ SamePhases [] s t ∧ SameCrews [c] s t ∧ SameMem s t :=
  ⟨h.regs, SamePhases.refl.congr h.phases, h.crews, SameMem.refl.congr h.mem h.flash⟩

theorem samePhases (h : Within ks c F s t) : SamePhases [] s t := SamePhases.refl.congr h.phases

theorem sameMem (h : Within ks c F s t) : SameMem s t := SameMem.refl.congr h.mem h.flash

/-- A field of another register than those of the list reads as before. -/
theorem get {rs : List Reg} (h : Within ks c F s t) (hks : ks.map FKey.reg = rs) (hf : f.reg ∉ rs) : t.get f i = s.get f i :=
  h.regs f i fun hk => hf (hks ▸ List.mem_map_of_mem (f := FKey.reg) hk)

theorem put (h : Within ks c F s t) (hk : g.key j ∈ ks) : Within ks c F s (t.put g j v) :=
  h.trans ⟨SameRegs.refl.put hk, rfl, rfl, rfl, .refl, rfl⟩

theorem mark (h : Within ks c F s t) (hk : g.key j ∈ ks) : Within ks c F s (t.mark g j b) := h.put hk

theorem putI (h : Within ks c F s t) (hk : g.key j ∈ ks) : Within ks c F s (t.putI g j z) := h.put hk

theorem wrap (h : Within ks c F s t) (hk : g.key j ∈ ks) : Within ks c F s (t.wrap g j) := h.put hk

theorem bump (h : Within ks c F s t) (hk : g.key j ∈ ks) : Within ks c F s (t.bump g j n) :=
  h.trans ⟨SameRegs.refl.bump hk, rfl, rfl, rfl, .refl, rfl⟩

theorem setOver (h : Within ks c F s t) (hk : g.key j ∈ ks) : Within ks c F s (t.setOver g j) :=
  h.trans ⟨SameRegs.refl.put hk, rfl, rfl, rfl, .refl, rfl⟩

theorem onCrew {G : Crew → Crew} (h : Within ks c F s t) (hG : F (G (t.crew c)) = F (t.crew c)) :
    Within ks c F s (t.onCrew c G) :=
  h.trans ⟨SameRegs.refl.onCrew, rfl, rfl, rfl, SameCrews.refl.set (by simp), by rw [onCrew_crew, hG]⟩

theorem answered (h : Within ks c F s t) : Within ks c F s (t.answered n) :=
  h.trans ⟨SameRegs.refl.answered, rfl, rfl, rfl, .refl, rfl⟩

theorem raiseCrew (h : Within ks c F s t) (hd : dropKeys ⊆ ks) (hF : ∀ k m a, F { k with faultMax := m, faultAt := a } = F k) :
    Within ks c F s (t.raiseCrew code c d0 d1) := by
  obtain ⟨m, a, hc⟩ := raise_crew (s := t) (code := code) (kind := 1) (src := crewUnit c) (d0 := d0) (d1 := d1) c
  exact h.trans ⟨SameRegs.refl.raise (hd (by simp [dropKeys])) (hd (by simp [dropKeys])), raise_phases, raise_mem, raise_flash,
    SameCrews.refl.raiseCrew (by simp), by rw [State.raiseCrew, hc, hF]⟩

theorem ite {p : Prop} [Decidable p] (ht : Within ks c F s t) (hu : Within ks c F s u) :
    Within ks c F s (if p then t else u) := by
  split
  · exact ht
  · exact hu

end Within

/-! ## Words, fields and numbers -/

/-- A slice of a word fits its field. -/
@[simp] theorem ofWord_mod_width : f.ofWord v % 2 ^ f.width = f.ofWord v := bits_mod_width rfl

theorem get_setOver_reg (h : f.reg ≠ g.reg) : (s.setOver g j).get f i = s.get f i := get_put_reg h

/-- A one-bit field reads as it was last marked. -/
theorem flag_mark_self (h : f.width = 1) : (s.mark f i b).flag f i = b := by
  rw [State.flag, State.mark, get_put_self, h]
  cases b <;> rfl

theorem clampI_bounds (h : lo ≤ hi) : lo ≤ clampI z lo hi ∧ clampI z lo hi ≤ hi := by
  unfold clampI
  split_ifs <;> omega

/-- A number of 16 bits reads as it was written. -/
theorem getI_putI_self (hw : f.width = 16) (h1 : -32768 ≤ z) (h2 : z < 32768) : (s.putI f i z).getI f i = z := by
  rw [State.getI, State.putI, get_put_self, hw]
  norm_num [sgn, unsg]
  split_ifs <;> omega

/-! ## Events of a crew -/

/-- The stamp of an event does not depend on other registers than the mark's. -/
theorem stampOf_put {kd src : Nat} (h : g.reg ≠ .TB_NOW_MARK) : (s.put g j v).stampOf code kd src = s.stampOf code kd src := by
  have hmark : (s.put g j v).markNo = s.markNo := get_put_reg (Ne.symm h)
  simp only [State.stampOf, State.crewStamp, State.stampNow, hmark]
  rfl

theorem stampOf_setOver {kd src : Nat} (h : g.reg ≠ .TB_NOW_MARK) :
    (s.setOver g j).stampOf code kd src = s.stampOf code kd src := stampOf_put (v := 1) h

/-- With room at the collector a crew's event waits last. -/
theorem raiseCrew_intake (h : s.room) : (s.raiseCrew code c).intake = s.intake ++ [s.eventOf code 1 (crewUnit c)] :=
  raise_intake_room h

theorem room_congr (h : t.intake = s.intake) (hroom : s.room) : t.room := by rwa [State.room, h]

theorem raiseCrew_get (h : f.reg ≠ .FLT_DROP) : (s.raiseCrew code c d0 d1).get f i = s.get f i := raise_get h

/-! ## A landing sample (R95, R96) -/

/-- A tick's miss changes the crew, its counters of misses, and what raising an event may change. -/
theorem miss_within {ks : List FKey} (h1 : CREW_DP_MISS_CNT.MISSES.key c ∈ ks) (h2 : CREW_DP_MISS_WIN.WIN.key c ∈ ks)
    (h3 : CREW_DP_STAT.MISS_RUN.key c ∈ ks) (hd : dropKeys ⊆ ks) : Within ks c (fun _ => ()) s (miss c s) := by
  unfold miss
  extract_lets s1 s2 run s3 s4
  have hs2 : Within ks c (fun _ => ()) s s2 := ((Within.refl.onCrew rfl).bump h1).bump h2
  have hs4 : Within ks c (fun _ => ()) s s4 := ((hs2.put h3).onCrew rfl).ite (hs2.put h3)
  exact .ite .refl (.ite (hs4.raiseCrew hd fun _ _ _ => rfl) hs4)

/-- The state in which crew c takes note of the landing of code v in a mode: it is the last of the converter in interleaved
mode, and that of the oldest accepted trigger in simultaneous mode. -/
def noteLanding (c : Nat) (b : Bool) (mode : Nat) (v : Int) (s : State) : State :=
  let s := if mode = 0 ∧ ¬ b then s.onCrew c (fun k => { k with missed := false }) else s
  let s := if mode = 0 then
      s.onCrew c (fun k => if b then { k with landB := some (s.now, v) } else { k with landA := some (s.now, v) }) else s
  if mode = 0 then s
  else s.onCrew c (fun k => if b then { k with trigB := k.trigB.tail } else { k with trigA := k.trigA.tail })

/-- The state in which an overrun of converter A or B is counted. -/
def countOverrun (c : Nat) (b : Bool) (s : State) : State :=
  (s.setOver (if b then CREW_AB_STAT.B_OVR else CREW_AB_STAT.A_OVR) c).bump
    (if b then CREW_AB_OVR_CNT.B_OVRS else CREW_AB_OVR_CNT.A_OVRS) c

/-- The state that shows a sample. -/
def showSample (i : Nat) (again : Bool) (input mode : Nat) (v : Int) (s : State) : State :=
  ((((s.put CREW_AB.NEW i 1).mark CREW_AB.OVR i again).put CREW_AB.INPUT i input).put CREW_AB.MODE i mode).putI CREW_AB.SAMPLE i v

/-- What a landing brings to the law of crew c, which was as k: a late B, the awaited first pair, and misses. -/
def settleLanding (c : Nat) (b : Bool) (mode back : Nat) (again : Bool) (k : Crew) (s : State) : State :=
  let s := if mode = 0 ∧ b ∧ k.busy then s.onCrew c (fun k => { k with bLate := true }) else s
  let s := if mode = 0 ∧ k.firstPair ∧ back = 0 then
      s.onCrew c (fun k => if b then { k with pairB := k.pairA } else { k with pairA := true }) else s
  let s := if mode = 0 ∧ again then miss c s else s
  if mode = 0 ∧ b ∧ ¬ (s.crew c).missed then s.put CREW_DP_STAT.MISS_RUN c 0 else s

/-- The code of a landing sample, trimmed (R94, R112). -/
def State.landCode (s : State) (c : Nat) (b : Bool) (raw : Int) (back input : Nat) : Int :=
  abTrim raw (s.getI (if b then CREW_AB_TRIM.B_OFS else CREW_AB_TRIM.A_OFS) c)
    (s.getI (if b then CREW_AB_TRIM.B_GAIN else CREW_AB_TRIM.A_GAIN) c)
    (if (s.abTag c back).1 = 0 then s.bgCorr c input else 0)

theorem exec_abSampleLand {raw : Int} {back input : Nat} (h : s.abInput c b back = some input) :
    exec (.abSampleLand c b raw back) s = .next (
      let mode := (s.abTag c back).1
      let v := s.landCode c b raw back input
      let again := s.flag CREW_AB.NEW (abI c b)
      let r := noteLanding c b mode v s
      settleLanding c b mode back again (s.crew c)
        (showSample (abI c b) again input mode v (if again then countOverrun c b r else r))) := by
  show execAbSampleLand c b raw back s = _
  simp only [execAbSampleLand, h]
  rfl

theorem noteLanding_within {ks : List FKey} {mode : Nat} : Within ks c (fun _ => ()) s (noteLanding c b mode z s) := by
  unfold noteLanding
  extract_lets s1 s2
  have h1 : Within ks c (fun _ => ()) s s1 := .ite (.onCrew .refl rfl) .refl
  have h2 : Within ks c (fun _ => ()) s s2 := .ite (h1.onCrew rfl) h1
  exact .ite h2 (h2.onCrew rfl)

/-- What a landing may change for the law. -/
def missKeys (c : Nat) : List FKey :=
  [CREW_DP_MISS_CNT.MISSES.key c, CREW_DP_MISS_WIN.WIN.key c, CREW_DP_STAT.MISS_RUN.key c] ++ dropKeys

theorem settleLanding_within {ks : List FKey} {mode back : Nat} {again : Bool} {k : Crew} (hks : missKeys c ⊆ ks) :
    Within ks c (fun _ => ()) s (settleLanding c b mode back again k s) := by
  have hmem : ∀ x ∈ missKeys c, x ∈ ks := fun _ hx => hks hx
  unfold settleLanding
  extract_lets s1 s2 s3
  have h1 : Within ks c (fun _ => ()) s s1 := .ite (.onCrew .refl rfl) .refl
  have h2 : Within ks c (fun _ => ()) s s2 := .ite (h1.onCrew rfl) h1
  have hmiss : Within ks c (fun _ => ()) s2 (miss c s2) :=
    miss_within (hmem _ (by simp [missKeys])) (hmem _ (by simp [missKeys])) (hmem _ (by simp [missKeys]))
      fun x hx => hmem x (by simp [missKeys, hx])
  have h3 : Within ks c (fun _ => ()) s s3 := .ite (h2.trans hmiss) h2
  exact .ite (h3.put (hmem _ (by simp [missKeys]))) h3

theorem settleLanding_get {mode back : Nat} {again : Bool} {k : Crew}
    (h : f.reg ∉ [.CREW_DP_MISS_CNT, .CREW_DP_MISS_WIN, .CREW_DP_STAT, .FLT_DROP, .FLT_DROP]) :
    (settleLanding c b mode back again k s).get f i = s.get f i :=
  (settleLanding_within (ks := missKeys c) fun _ h => h).get rfl h

theorem showSample_get {again : Bool} {input mode : Nat} (h : f.reg ≠ .CREW_AB) :
    (showSample j again input mode z s).get f i = s.get f i := by
  simp only [showSample, State.mark, State.putI]
  rw [get_put_reg h, get_put_reg h, get_put_reg h, get_put_reg h, get_put_reg h]

/-- A shown sample reads as it was shown. -/
theorem showSample_shows {again : Bool} {input mode : Nat} (h1 : -2048 ≤ z) (h2 : z ≤ 2047) :
    (showSample i again input mode z s).get CREW_AB.NEW i = 1 ∧ (showSample i again input mode z s).flag CREW_AB.OVR i = again ∧
    (showSample i again input mode z s).get CREW_AB.MODE i = mode % 2 ∧
    (showSample i again input mode z s).get CREW_AB.INPUT i = input % 2 ^ CREW_AB.INPUT.width ∧
    (showSample i again input mode z s).getI CREW_AB.SAMPLE i = z := by
  refine ⟨?_, ?_, ?_, ?_, getI_putI_self rfl (by omega) (by omega)⟩
  · simp (disch := decide) only [showSample, State.mark, State.putI, get_put_lo, get_put_self]; rfl
  · refine Eq.trans ?_ (flag_mark_self (s := s.put CREW_AB.NEW i 1) (f := CREW_AB.OVR) (i := i) rfl)
    simp (disch := decide) only [showSample, State.flag, State.putI, get_put_lo]
  · simp (disch := decide) only [showSample, State.putI, get_put_lo, get_put_self]; rfl
  · simp (disch := decide) only [showSample, State.putI, get_put_lo, get_put_self]

theorem landCode_bounds {raw : Int} {back input : Nat} :
    -2048 ≤ s.landCode c b raw back input ∧ s.landCode c b raw back input ≤ 2047 := clampI_bounds (by decide)

/-- An overrun is counted at its converter. -/
theorem countOverrun_counts :
    (countOverrun c b s).get (if b then CREW_AB_STAT.B_OVR else CREW_AB_STAT.A_OVR) c = 1 ∧
    (countOverrun c b s).get (if b then CREW_AB_OVR_CNT.B_OVRS else CREW_AB_OVR_CNT.A_OVRS) c =
      (if b then CREW_AB_OVR_CNT.B_OVRS else CREW_AB_OVR_CNT.A_OVRS).count
        (s.get (if b then CREW_AB_OVR_CNT.B_OVRS else CREW_AB_OVR_CNT.A_OVRS) c) := by
  cases b <;>
    exact ⟨(get_bump_reg (by decide)).trans get_setOver_self, get_bump_self.trans (by rw [get_setOver_reg (by decide)]; rfl)⟩

/-- The fields that a landing may change. -/
def landKeys (c i : Nat) : List FKey :=
  [CREW_AB.NEW.key i, CREW_AB.OVR.key i, CREW_AB.MODE.key i, CREW_AB.INPUT.key i, CREW_AB.SAMPLE.key i,
    CREW_AB_STAT.A_OVR.key c, CREW_AB_STAT.B_OVR.key c, CREW_AB_OVR_CNT.A_OVRS.key c, CREW_AB_OVR_CNT.B_OVRS.key c] ++ missKeys c

theorem showSample_within {α : Type} {F : Crew → α} {again : Bool} {input mode : Nat} (h : Within (landKeys c i) c F s t) :
    Within (landKeys c i) c F s (showSample i again input mode z t) :=
  ((((h.put (by simp [landKeys])).mark (by simp [landKeys])).put (by simp [landKeys])).put (by simp [landKeys])).putI
    (by simp [landKeys])

theorem countOverrun_within {α : Type} {F : Crew → α} (h : Within (landKeys c i) c F s t) :
    Within (landKeys c i) c F s (countOverrun c b t) := by
  cases b <;> exact (h.setOver (by simp [landKeys])).bump (by simp [landKeys])

/-! ## Reads of a sample (R95) -/

theorem abI_div : abI c b / 2 = c := by cases b <;> simp [abI]; omega

theorem abI_mod : (abI c b % 2 == 1) = b := by cases b <;> simp [abI]

theorem takeOnRead_new : (takeOnRead c b s).flag CREW_AB.NEW (abI c b) =
    (!s.flag CREW_AB_STAT.MODE_ACT c && s.flag CREW_AB.NEW (abI c b)) := by
  unfold takeOnRead
  cases s.flag CREW_AB_STAT.MODE_ACT c with
  | false => rfl
  | true => rw [if_pos rfl, State.flag, get_put_self]; rfl

theorem takeOnRead_regs : SameRegs [CREW_AB.NEW.key (abI c b)] s (takeOnRead c b s) := by
  unfold takeOnRead
  split
  · exact SameRegs.refl.put (by simp)
  · exact .refl

theorem takeOnRead_block : SameBlock s (takeOnRead c b s) := by
  unfold takeOnRead
  split
  · exact SameBlock.refl.put
  · exact .refl

theorem takeOnRead_resp : (takeOnRead c b s).resp = s.resp := by unfold takeOnRead; split <;> rfl

/-- A read of a sample that is taken answers with the register's word and takes the sample where a read does. -/
theorem exec_abRead (h : s.Reads m .CREW_AB (abI c b)) : exec (.abRead (some m) c b 4) s =
    .next ((takeOnRead c b s).answered (s.regWord .CREW_AB (abI c b))) := by
  have hafter : afterRead .CREW_AB (abI c b) s = takeOnRead (abI c b / 2) (abI c b % 2 == 1) s := rfl
  rw [abI_div, abI_mod] at hafter
  rw [← hafter]
  exact congrArg Host.Outcome.next (portRead_reads h)

/-! ## Triggers (R91) -/

/-- A trigger at tm that lies 8 ns or more from the last accepted one is accepted, with the inputs selected then. -/
theorem trigger_accepts (hm : s.flag CREW_AB_STAT.MODE_ACT c = true)
    (hu : ∀ u, (s.crew c).lastTrig = some u → tm < u ∨ u + 8000 ≤ tm) : trigger c tm s = s.onCrew c (fun k => { k with
      lastTrig := some tm
      trigA := k.trigA ++ [s.get CREW_AB_CTL.A_SEL c]
      trigB := k.trigB ++ [s.get CREW_AB_CTL.B_SEL c] }) := by
  have hfar : ((s.crew c).lastTrig.any fun u => decide (u ≤ tm ∧ tm < u + 8000)) = false := by
    cases hl : (s.crew c).lastTrig with
    | none => rfl
    | some u => have := hu u hl; simp; omega
  rw [trigger, if_neg (by simp [hm]), hfar, if_neg Bool.false_ne_true]

/-- A trigger nearer than 8 ns to the last accepted one is dropped and counted. -/
theorem trigger_drops {u : Nat} (hm : s.flag CREW_AB_STAT.MODE_ACT c = true) (hl : (s.crew c).lastTrig = some u) (h1 : u ≤ tm)
    (h2 : tm < u + 8000) : trigger c tm s = s.bump CREW_AB_STAT.TRIG_DROPS c := by
  rw [trigger, if_neg (by simp [hm]), if_pos (by simp [hl, h1, h2])]

/-- The state in which a write of CREW_AB_TRIG is stored and pulses count anew. -/
def storeTrig (c v : Nat) (s : State) : State :=
  (((s.put CREW_AB_TRIG.DELAY c (CREW_AB_TRIG.DELAY.ofWord v)).put CREW_AB_TRIG.PDIV c (CREW_AB_TRIG.PDIV.ofWord v)).put
    CREW_AB_TRIG.SRC c (CREW_AB_TRIG.SRC.ofWord v)).onCrew c (fun k => { k with trigPulses := 0 })

/-- A write of FIRE with SRC SOFT that is taken is stored and triggers. -/
theorem exec_abFire {data : Nat} (h : s.Takes m .CREW_AB_TRIG c data) (hf : CREW_AB_TRIG.FIRE.ofWord data = 1)
    (hs : CREW_AB_TRIG.SRC.ofWord data = 2) :
    exec (.abFire (some m) c data) s = .next ((trigger c (2000 * s.now) (storeTrig c (data % 2 ^ 32) s)).answered 0) := by
  have hgo : CREW_AB_TRIG.FIRE.ofWord (data % 2 ^ 32) = 1 ∧ CREW_AB_TRIG.SRC.ofWord (data % 2 ^ 32) = 2 :=
    ⟨(ofWord_mod (by decide)).trans hf, (ofWord_mod (by decide)).trans hs⟩
  refine (congrArg Host.Outcome.next (takes_CREW_AB_TRIG h)).trans (congrArg (fun x => Host.Outcome.next (State.answered x 0)) ?_)
  exact if_pos hgo

theorem exec_abFire_sequencer {data : Nat} (h : s.get CREW_AB_TRIG.SRC c = 3) :
    exec (.abFire none c data) s = .next (trigger c (2000 * s.now) s) := congrArg Host.Outcome.next (if_pos h)

theorem storeTrig_get (h : f.reg ≠ .CREW_AB_TRIG) : (storeTrig c v s).get f i = s.get f i := by
  rw [storeTrig, onCrew_get, get_put_reg h, get_put_reg h, get_put_reg h]

theorem storeTrig_src : (storeTrig c (v % 2 ^ 32) s).get CREW_AB_TRIG.SRC c = CREW_AB_TRIG.SRC.ofWord v := by
  rw [storeTrig, onCrew_get, get_put_self, ofWord_mod_width, ofWord_mod (by decide)]

theorem storeTrig_crew : (storeTrig c v s).crew c = { s.crew c with trigPulses := 0 } := by
  rw [storeTrig, onCrew_crew, put_crew, put_crew, put_crew]

theorem storeTrig_within {α : Type} {ks : List FKey} {F : Crew → α} (h1 : CREW_AB_TRIG.SRC.key c ∈ ks)
    (h2 : CREW_AB_TRIG.PDIV.key c ∈ ks) (h3 : CREW_AB_TRIG.DELAY.key c ∈ ks) (hF : ∀ k, F { k with trigPulses := 0 } = F k) :
    Within ks c F s (storeTrig c v s) := (((Within.refl.put h3).put h2).put h1).onCrew (hF _)

/-! ## Modes of A and B (R92, R93) -/

/-- The state in which a mode has been refused: MODE stays 0, the flag is set, and the event is raised (R92, R103). -/
def refuseMode (mode refused : Fld) (c : Nat) (s : State) : State :=
  ((s.put mode c 0).setOver refused c).raiseCrew 0x0301 c

/-- The registers of the modes of A and B and of H. -/
def modeRegs : List Reg := [.CREW_AB_CTL, .CREW_AB_STAT, .CREW_H_CTL, .CREW_H_STAT]

theorem refuseMode_shows (hf : f.reg ∈ modeRegs) (hg : g.reg ∈ modeRegs) (hne : f.reg ≠ g.reg) (hw : g.width = 1)
    (hroom : s.room) : (refuseMode f g c s).get f c = 0 ∧ (refuseMode f g c s).get g c = 1 ∧
    (refuseMode f g c s).intake = s.intake ++ [s.eventOf 0x0301 1 (crewUnit c)] := by
  have hdrop : .FLT_DROP ∉ modeRegs := by decide
  have hmark : .TB_NOW_MARK ∉ modeRegs := by decide
  refine ⟨?_, ?_, ?_⟩
  · rw [refuseMode, raiseCrew_get fun e => hdrop (e ▸ hf), get_setOver_reg hne, get_put_self, Nat.zero_mod]
  · rw [refuseMode, raiseCrew_get fun e => hdrop (e ▸ hg), get_setOver_self, hw]; rfl
  · have hroom' : ((s.put f c 0).setOver g c).room := room_congr rfl hroom
    rw [refuseMode, raiseCrew_intake hroom', State.eventOf, stampOf_setOver fun e => hmark (e ▸ hg),
      stampOf_put fun e => hmark (e ▸ hf)]
    rfl

theorem refuseMode_block {α : Type} {ks : List FKey} {F : Crew → α} (h : Within ks c F s t) :
    SamePhases [] s (refuseMode f g c t) ∧ SameMem s (refuseMode f g c t) :=
  ⟨h.samePhases.congr raise_phases, h.sameMem.congr raise_mem raise_flash⟩

theorem refuseMode_modeReq : ((refuseMode f g c s).crew c).modeReq = (s.crew c).modeReq := by
  obtain ⟨m, a, h⟩ := raise_crew (s := (s.put f c 0).setOver g c) (code := 0x0301) (kind := 1) (src := crewUnit c) (d0 := 0)
    (d1 := 0) c
  rw [refuseMode, State.raiseCrew, h]
  rfl

/-- The state in which a write of CREW_AB_CTL is stored. -/
def storeAbCtl (c v : Nat) (s : State) : State :=
  (((s.put CREW_AB_CTL.PHASE c (CREW_AB_CTL.PHASE.ofWord v)).put CREW_AB_CTL.B_SEL c (CREW_AB_CTL.B_SEL.ofWord v)).put
    CREW_AB_CTL.A_SEL c (CREW_AB_CTL.A_SEL.ofWord v)).put CREW_AB_CTL.MODE c (CREW_AB_CTL.MODE.ofWord v)

theorem storeAbCtl_get (h : f.reg ≠ .CREW_AB_CTL) : (storeAbCtl c v s).get f i = s.get f i := by
  rw [storeAbCtl, get_put_reg h, get_put_reg h, get_put_reg h, get_put_reg h]

/-- Whether a crew allows simultaneous mode depends on its state and its sequencer (R92). -/
theorem simAllowed_congr (h1 : t.get CREW_PWR_STAT.STATE c = s.get CREW_PWR_STAT.STATE c)
    (h2 : (t.crew c).seqCal = (s.crew c).seqCal) : t.simAllowed c = s.simAllowed c := by
  rw [State.simAllowed, State.simAllowed, crewDown_congr h1, h2]

/-- A write of CREW_AB_CTL that is taken and names another mode than the one in force is a request. -/
theorem exec_abMode {data : Nat} (h : s.Takes m .CREW_AB_CTL c data)
    (hne : CREW_AB_CTL.MODE.ofWord data ≠ s.get CREW_AB_STAT.MODE_ACT c) : exec (.abMode m c data) s =
    .next ((abModeWrite c (CREW_AB_CTL.MODE.ofWord data) (storeAbCtl c (data % 2 ^ 32) s)).answered 0) := by
  have hword : CREW_AB_CTL.MODE.ofWord (data % 2 ^ 32) = CREW_AB_CTL.MODE.ofWord data := ofWord_mod (by decide)
  refine (congrArg Host.Outcome.next (takes_CREW_AB_CTL h)).trans (congrArg (fun x => Host.Outcome.next (State.answered x 0)) ?_)
  show abCtlWrite c (data % 2 ^ 32) (storeAbCtl c (data % 2 ^ 32) s) = _
  simp only [abCtlWrite]
  rw [hword, storeAbCtl_get (by decide), if_neg fun e => hne e.1]

theorem abModeWrite_accepts (h : v = 0 ∨ s.simAllowed c = true) : abModeWrite c v s =
    (s.put CREW_AB_CTL.MODE c v).onCrew c (fun k => { k with modeReq := some v }) := if_pos h

theorem abModeWrite_refuses (h1 : v ≠ 0) (h2 : s.simAllowed c = false) : abModeWrite c v s =
    refuseMode CREW_AB_CTL.MODE CREW_AB_STAT.MODE_REFUSED c s := if_neg (by simp [h1, h2])

@[simp] theorem storeAbCtl_crew : (storeAbCtl c v s).crew q = s.crew q := by simp only [storeAbCtl, put_crew]
@[simp] theorem storeAbCtl_intake : (storeAbCtl c v s).intake = s.intake := by simp only [storeAbCtl, put_intake]

theorem storeAbCtl_simAllowed : (storeAbCtl c v s).simAllowed c = s.simAllowed c :=
  simAllowed_congr (storeAbCtl_get (by decide)) (by rw [storeAbCtl_crew])

theorem storeAbCtl_within {α : Type} {F : Crew → α} : Within [CREW_AB_CTL.MODE.key c, CREW_AB_CTL.A_SEL.key c,
    CREW_AB_CTL.B_SEL.key c, CREW_AB_CTL.PHASE.key c] c F s (storeAbCtl c v s) :=
  (((Within.refl.put (by simp)).put (by simp)).put (by simp)).put (by simp)

theorem storeAbCtl_eventOf {kd src : Nat} : (storeAbCtl c v s).eventOf code kd src = s.eventOf code kd src := by
  simp (disch := decide) only [State.eventOf, storeAbCtl, stampOf_put]

theorem exec_modeChange (h : (s.crew c).modeReq = some v) : exec (.modeChange c) s =
    .next ((s.put CREW_AB_STAT.MODE_ACT c v).onCrew c
      (fun k => { k with modeReq := none, oldTags := s.keepTags c, pairA := false, pairB := false })) := by
  show execModeChange c s = _
  simp only [execModeChange, h]

/-! ## The mode of H (R99, R102, R103) -/

/-- A field of CREW_H_CTL but the channel is stored as it was written. -/
theorem adjust_hCtl (h : CREW_H_CTL.CH.lo + CREW_H_CTL.CH.width ≤ f.lo ∨ f.hi < CREW_H_CTL.CH.lo) (hf : f.lo ≤ f.hi) :
    f.ofWord (s.adjust .CREW_H_CTL c v) = f.ofWord v := by
  simp only [State.adjust]
  split
  · exact bits_setBits_apart h hf
  · rfl

/-- A reserved channel code leaves the channel as it was. -/
theorem adjust_hCtl_ch : CREW_H_CTL.CH.ofWord (s.adjust .CREW_H_CTL c v) =
    if 17 < CREW_H_CTL.CH.ofWord v then s.get CREW_H_CTL.CH c % 32 else CREW_H_CTL.CH.ofWord v := by
  simp only [State.adjust]
  split
  · exact bits_setBits_same rfl
  · rfl

/-- The state in which a write of CREW_H_CTL is stored. -/
def storeHCtl (c v : Nat) (s : State) : State :=
  let x := s.adjust .CREW_H_CTL c v
  (((((s.put CREW_H_CTL.GAIN c (CREW_H_CTL.GAIN.ofWord x)).put CREW_H_CTL.STIME c (CREW_H_CTL.STIME.ofWord x)).put
    CREW_H_CTL.CH c (CREW_H_CTL.CH.ofWord x)).put CREW_H_CTL.ALIGN c (CREW_H_CTL.ALIGN.ofWord x)).put
    CREW_H_CTL.SEQ_LEN c (CREW_H_CTL.SEQ_LEN.ofWord x)).put CREW_H_CTL.MODE c (CREW_H_CTL.MODE.ofWord x)

theorem exec_hMode {data : Nat} (h : s.Takes m .CREW_H_CTL c data) : exec (.hMode m c data) s =
    .next ((hCtlWrite c (data % 2 ^ 32) (s.flag CREW_H_CTL.MODE c) (storeHCtl c (data % 2 ^ 32) s)).answered 0) :=
  congrArg Host.Outcome.next (takes_CREW_H_CTL h)

theorem storeHCtl_get (h : f.reg ≠ .CREW_H_CTL) : (storeHCtl c v s).get f i = s.get f i := by
  simp only [storeHCtl]
  rw [get_put_reg h, get_put_reg h, get_put_reg h, get_put_reg h, get_put_reg h, get_put_reg h]

@[simp] theorem storeHCtl_crew : (storeHCtl c v s).crew q = s.crew q := by simp only [storeHCtl, put_crew]
@[simp] theorem storeHCtl_intake : (storeHCtl c v s).intake = s.intake := by simp only [storeHCtl, put_intake]

theorem storeHCtl_simAllowed : (storeHCtl c v s).simAllowed c = s.simAllowed c :=
  simAllowed_congr (storeHCtl_get (by decide)) (by rw [storeHCtl_crew])

theorem storeHCtl_eventOf {kd src : Nat} : (storeHCtl c v s).eventOf code kd src = s.eventOf code kd src := by
  simp (disch := decide) only [State.eventOf, storeHCtl, stampOf_put]

theorem storeHCtl_mode : (storeHCtl c (v % 2 ^ 32) s).get CREW_H_CTL.MODE c = CREW_H_CTL.MODE.ofWord v := by
  simp only [storeHCtl]
  rw [get_put_self, adjust_hCtl (by decide) (by decide), ofWord_mod_width, ofWord_mod (by decide)]

theorem storeHCtl_seqLen : (storeHCtl c (v % 2 ^ 32) s).get CREW_H_CTL.SEQ_LEN c = CREW_H_CTL.SEQ_LEN.ofWord v := by
  simp only [storeHCtl]
  rw [get_put_lo (by decide), get_put_self, adjust_hCtl (by decide) (by decide), ofWord_mod_width, ofWord_mod (by decide)]

theorem storeHCtl_ch : (storeHCtl c (v % 2 ^ 32) s).get CREW_H_CTL.CH c =
    if 17 < CREW_H_CTL.CH.ofWord v then s.get CREW_H_CTL.CH c % 32 else CREW_H_CTL.CH.ofWord v := by
  simp only [storeHCtl]
  rw [get_put_lo (by decide), get_put_lo (by decide), get_put_lo (by decide), get_put_self, ofWord_mod_width, adjust_hCtl_ch,
    ofWord_mod (by decide)]

theorem storeHCtl_within {α : Type} {F : Crew → α} : Within [CREW_H_CTL.MODE.key c, CREW_H_CTL.SEQ_LEN.key c,
    CREW_H_CTL.ALIGN.key c, CREW_H_CTL.CH.key c, CREW_H_CTL.STIME.key c, CREW_H_CTL.GAIN.key c] c F s (storeHCtl c v s) :=
  (((((Within.refl.put (by simp)).put (by simp)).put (by simp)).put (by simp)).put (by simp)).put (by simp)

/-- A write of CREW_H_CTL that is not refused asks for entry 0 where it ends single-channel mode, and acts no further. -/
theorem hCtlWrite_accepts {single : Bool} (h : CREW_H_CTL.MODE.ofWord v = 0 ∨ s.simAllowed c = true) :
    hCtlWrite c v single s =
      if CREW_H_CTL.MODE.ofWord v = 0 ∧ single then s.onCrew c (fun k => { k with toEntry0 := true }) else s :=
  if_neg fun ⟨h1, h2⟩ => h.elim (fun e => by omega) fun e => by rw [e] at h2; cases h2

theorem hCtlWrite_refuses {single : Bool} (h1 : CREW_H_CTL.MODE.ofWord v = 1) (h2 : s.simAllowed c = false) :
    hCtlWrite c v single s = refuseMode CREW_H_CTL.MODE CREW_H_STAT.MODE_REFUSED c s :=
  if_pos ⟨h1, h2⟩

end Sys2Proof.Machine

namespace Sys2Proof.Proofs.Sense

open Sys2Proof Sys2Proof.Machine

/-- Settles O4: a landing by what it shows before the law takes note of it, triggers and modes by what the command's write stores
and what then acts. -/
theorem samplesAndModes : Obligations.SamplesAndModes := by
  refine ⟨?none, ?lands, ?seqRead, ?read, ?fires, ?drops, ?seqFires, ?accepted, ?refused, ?change, ?hAccepted, ?hRefused⟩
  case none =>
    intro c b raw back s h
    show execAbSampleLand c b raw back s = .next s
    simp only [execAbSampleLand, h]
  case lands =>
    intro c b raw back input s h
    refine ⟨_, exec_abSampleLand h, ?_⟩
    extract_lets mode v again r
    set x := if again then countOverrun c b r else r
    obtain ⟨hv1, hv2⟩ : -2048 ≤ v ∧ v ≤ 2047 := landCode_bounds
    obtain ⟨hnew, hovr, hmode, hinput, hcode⟩ := showSample_shows (s := x) (i := abI c b) (again := again) (input := input)
      (mode := mode) hv1 hv2
    have hr : Within (landKeys c (abI c b)) c (fun _ => ()) s r := noteLanding_within
    have hx : Within (landKeys c (abI c b)) c (fun _ => ()) s x := .ite (countOverrun_within hr) hr
    have hall := (showSample_within (again := again) (input := input) (mode := mode) (z := v) hx).trans
      (settleLanding_within (b := b) (mode := mode) (back := back) (again := again) (k := s.crew c)
        (List.subset_append_right _ _))
    refine ⟨?_, ?_, ?_, ?_, ?_, fun hagain => ?_, hall.frame⟩
    · rw [settleLanding_get (by decide), hnew]
    · rw [State.flag, settleLanding_get (by decide)]; exact hovr
    · rw [settleLanding_get (by decide), hmode]
    · rw [settleLanding_get (by decide), hinput]
    · rw [State.getI, settleLanding_get (by decide)]; exact hcode
    · obtain ⟨hstat, hcount⟩ := countOverrun_counts (s := r) (c := c) (b := b)
      have hover : x = countOverrun c b r := if_pos hagain
      have hbefore : ∀ f i, r.get f i = s.get f i := fun f i =>
        (noteLanding_within (ks := []) (c := c) (b := b) (z := v) (mode := mode) (s := s)).regs f i (by simp)
      rw [hbefore] at hcount
      rw [← hstat, ← hcount, ← hover]
      cases b <;> exact ⟨(settleLanding_get (by decide)).trans (showSample_get (by decide)),
        (settleLanding_get (by decide)).trans (showSample_get (by decide))⟩
  case seqRead => exact fun c b s => ⟨_, rfl, takeOnRead_new, takeOnRead_resp, takeOnRead_regs, takeOnRead_block⟩
  case read => exact fun m c b s h => ⟨_, exec_abRead h, rfl, takeOnRead_new, takeOnRead_regs.answered, takeOnRead_block.answered⟩
  case fires =>
    intro m c data s h hf hs hm hu
    refine ⟨_, exec_abFire h hf hs, ?_⟩
    have hstored : Within [CREW_AB_TRIG.SRC.key c, CREW_AB_TRIG.PDIV.key c, CREW_AB_TRIG.DELAY.key c] c (fun _ => ()) s
        (storeTrig c (data % 2 ^ 32) s) := storeTrig_within (by simp) (by simp) (by simp) fun _ => rfl
    rw [trigger_accepts (by rw [State.flag, storeTrig_get (by decide)]; exact hm) (by rw [storeTrig_crew]; exact hu)]
    refine ⟨?_, ?_, ?_, ?_, ((hstored.onCrew rfl).answered).frame⟩
    · simp (disch := decide) [storeTrig_crew, storeTrig_get]
    · simp (disch := decide) [storeTrig_crew, storeTrig_get]
    · simp
    · rw [answered_get, onCrew_get, storeTrig_src, hs]
  case drops =>
    intro m c data u s h hf hs hm hl h1 h2
    refine ⟨_, exec_abFire h hf hs, ?_⟩
    have hstored : Within [CREW_AB_TRIG.SRC.key c, CREW_AB_TRIG.PDIV.key c, CREW_AB_TRIG.DELAY.key c,
        CREW_AB_STAT.TRIG_DROPS.key c] c (fun _ => ()) s (storeTrig c (data % 2 ^ 32) s) :=
      storeTrig_within (by simp) (by simp) (by simp) fun _ => rfl
    rw [trigger_drops (by rw [State.flag, storeTrig_get (by decide)]; exact hm) (by rw [storeTrig_crew]; exact hl) h1 h2]
    refine ⟨?_, ?_, ?_, ?_, ((hstored.bump (by simp)).answered).frame⟩
    · simp [storeTrig_crew]
    · simp [storeTrig_crew]
    · simp [storeTrig_crew, hl]
    · rw [answered_get, get_bump_self, storeTrig_get (by decide)]; rfl
  case seqFires =>
    intro c data s hs hm hu
    refine ⟨_, exec_abFire_sequencer hs, ?_⟩
    rw [trigger_accepts hm hu]
    exact ⟨by simp, by simp, by simp, (Within.refl.onCrew (F := fun _ => ()) rfl).frame⟩
  case accepted =>
    intro m c data s h hne hok
    refine ⟨_, exec_abMode h hne, ?_⟩
    rw [abModeWrite_accepts (by rw [storeAbCtl_simAllowed]; exact hok)]
    refine ⟨?_, ?_, ((storeAbCtl_within.put (by simp)).onCrew (F := fun _ => ()) rfl).answered.frame⟩
    · rw [answered_get, onCrew_get, get_put_self, ofWord_mod_width]
    · simp
  case refused =>
    intro m c data s h hv hact hno hroom
    refine ⟨_, exec_abMode h (by rw [hv, hact]; decide), ?_⟩
    rw [abModeWrite_refuses (by rw [hv]; decide) (by rw [storeAbCtl_simAllowed]; exact hno)]
    have hroom' : (storeAbCtl c (data % 2 ^ 32) s).room := room_congr storeAbCtl_intake hroom
    obtain ⟨hmode, hflag, hev⟩ := refuseMode_shows (s := storeAbCtl c (data % 2 ^ 32) s) (c := c) (f := CREW_AB_CTL.MODE)
      (g := CREW_AB_STAT.MODE_REFUSED) (by decide) (by decide) (by decide) rfl hroom'
    rw [storeAbCtl_eventOf, storeAbCtl_intake] at hev
    obtain ⟨hp, hmem⟩ := refuseMode_block (f := CREW_AB_CTL.MODE) (g := CREW_AB_STAT.MODE_REFUSED)
      (storeAbCtl_within (s := s) (c := c) (v := data % 2 ^ 32) (F := fun _ => ()))
    simp only [answered_get, answered_crew, answered_intake]
    exact ⟨hmode, hflag, by rw [refuseMode_modeReq, storeAbCtl_crew], hev, hp.answered, hmem.answered⟩
  case change =>
    intro c v s h
    refine ⟨_, exec_modeChange h, ?_, ?_, ?_, ((Within.refl.put ?_).onCrew (F := fun _ => ()) rfl).frame⟩
    · rw [onCrew_get, get_put_self]; rfl
    all_goals simp
  case hAccepted =>
    intro m c data s h hok
    refine ⟨_, exec_hMode h, ?_⟩
    have hword : CREW_H_CTL.MODE.ofWord (data % 2 ^ 32) = CREW_H_CTL.MODE.ofWord data := ofWord_mod (by decide)
    rw [hCtlWrite_accepts (by rw [hword, storeHCtl_simAllowed]; exact hok), hword]
    set x := storeHCtl c (data % 2 ^ 32) s
    have hx : Within _ c (fun _ => ()) s x := storeHCtl_within
    have hget : ∀ f i, (if CREW_H_CTL.MODE.ofWord data = 0 ∧ s.flag CREW_H_CTL.MODE c = true then
        x.onCrew c (fun k => { k with toEntry0 := true }) else x).get f i = x.get f i := fun f i => by split <;> rfl
    refine ⟨?_, ?_, ?_, ?_, (Within.ite (hx.onCrew rfl) hx).answered.frame⟩
    · rw [answered_get, hget, storeHCtl_mode]
    · rw [answered_get, hget, storeHCtl_seqLen]
    · rw [answered_get, hget, storeHCtl_ch]
    · have hcrew : x.crew c = s.crew c := storeHCtl_crew
      by_cases hz : CREW_H_CTL.MODE.ofWord data = 0 ∧ s.flag CREW_H_CTL.MODE c = true
      · obtain ⟨h0, h1⟩ := hz
        simp [h0, h1]
      · rw [if_neg hz, answered_crew, hcrew]
        have hoff : (decide (CREW_H_CTL.MODE.ofWord data = 0) && s.flag CREW_H_CTL.MODE c) = false := by simpa using hz
        rw [hoff, Bool.or_false]
  case hRefused =>
    intro m c data s h hv hno hroom
    refine ⟨_, exec_hMode h, ?_⟩
    have hword : CREW_H_CTL.MODE.ofWord (data % 2 ^ 32) = CREW_H_CTL.MODE.ofWord data := ofWord_mod (by decide)
    rw [hCtlWrite_refuses (by rw [hword, hv]) (by rw [storeHCtl_simAllowed]; exact hno)]
    have hroom' : (storeHCtl c (data % 2 ^ 32) s).room := room_congr storeHCtl_intake hroom
    obtain ⟨hmode, hflag, hev⟩ := refuseMode_shows (s := storeHCtl c (data % 2 ^ 32) s) (c := c) (f := CREW_H_CTL.MODE)
      (g := CREW_H_STAT.MODE_REFUSED) (by decide) (by decide) (by decide) rfl hroom'
    rw [storeHCtl_eventOf, storeHCtl_intake] at hev
    obtain ⟨hp, hmem⟩ := refuseMode_block (f := CREW_H_CTL.MODE) (g := CREW_H_STAT.MODE_REFUSED)
      (storeHCtl_within (s := s) (c := c) (v := data % 2 ^ 32) (F := fun _ => ()))
    simp only [answered_get, answered_intake]
    exact ⟨hmode, hflag, hev, hp.answered, hmem.answered⟩

end Sys2Proof.Proofs.Sense

namespace Sys2Proof.Machine

open Sys2Proof

variable {s t u : State} {m : Master} {f g : Fld} {c e i j k n q v code d0 d1 ch ctx stime gain data : Nat} {b : Bool}
  {z raw : Int} {sl : HSlot} {src : HSrc} {o : OwTest}

theorem Within.mono {α : Type} {ks ls : List FKey} {F : Crew → α} (h : Within ks c F s t) (hk : ks ⊆ ls) :
    Within ls c F s t :=
  ⟨fun f i hf => h.regs f i fun hm => hf (hk hm), h.phases, h.mem, h.flash, h.crews, h.crew⟩

/-- A change may be told of with nothing said of the crew. -/
theorem Within.forget {α : Type} {ks : List FKey} {F : Crew → α} (h : Within ks c F s t) : Within ks c (fun _ => ()) s t :=
  ⟨h.regs, h.phases, h.mem, h.flash, h.crews, rfl⟩

/-! ## Slots (R97, R99, R102, R105, R106) -/

/-- A slot that starts depends on the reference, on the phases and on the rotors. -/
theorem mkSlot_congr (h1 : t.get CREW_H_STAT.REF_SETTLED c = s.get CREW_H_STAT.REF_SETTLED c) (h2 : t.phases = s.phases)
    (h3 : (t.crew c).rotPh = (s.crew c).rotPh) (h4 : (t.crew c).rotHk = (s.crew c).rotHk) :
    t.mkSlot c src ch stime gain = s.mkSlot c src ch stime gain := by
  simp only [State.mkSlot, State.flag, State.nextPhase, State.phase, h1, h2, h3, h4]

/-- The state whose slot has ended and has gone to those that await their results (R97). -/
def handOn (c : Nat) (s : State) : State := s.onCrew c (fun k => { k with hDone := k.hDone ++ [s.endedSlot c] })

/-- The state in which the rotor that named slot sl, if one did, has advanced (R99). -/
def turnRotor (c : Nat) (sl : HSlot) (s : State) : State :=
  if sl.rotor = 16 then s.onCrew c (fun k => { k with rotPh := s.nextPhase c (sl.ch + 1) })
  else if sl.rotor = 17 then s.onCrew c (fun k => { k with rotHk := (k.rotHk + 1) % 5 }) else s

/-- The state whose ENTRY is that after a slot of source src (R102). -/
def nextEntry (c : Nat) (src : HSrc) (s : State) : State :=
  match src with
  | .seq e => s.put CREW_H_STAT.ENTRY c (s.entryAfter c e)
  | _ => s

/-- The state whose ENTRY is 0 where single-channel mode has ended (R102). -/
def backToEntry0 (c : Nat) (s : State) : State :=
  if (s.crew c).toEntry0 then (s.put CREW_H_STAT.ENTRY c 0).onCrew c (fun k => { k with toEntry0 := false }) else s

/-- The state in which the running slot has ended and the next is to start. -/
def endSlot (c : Nat) (s : State) : State :=
  backToEntry0 c (nextEntry c (s.crew c).slot.src (turnRotor c (s.endedSlot c) (handOn c s)))

theorem exec_hSlotEnd : exec (.hSlotEnd c) s = .next (startSlot c (endSlot c s)) := rfl

theorem turnRotor_within {α : Type} {ks : List FKey} {F : Crew → α} (h1 : ∀ k n, F { k with rotPh := n } = F k)
    (h2 : ∀ k n, F { k with rotHk := n } = F k) : Within ks c F s (turnRotor c sl s) :=
  .ite (.onCrew .refl (h1 _ _)) (.ite (.onCrew .refl (h2 _ _)) .refl)

theorem nextEntry_within {α : Type} {ks : List FKey} {F : Crew → α} (hk : CREW_H_STAT.ENTRY.key c ∈ ks) :
    Within ks c F s (nextEntry c src s) := by
  cases src with
  | seq e => exact Within.refl.put hk
  | _ => exact .refl

theorem backToEntry0_within {α : Type} {ks : List FKey} {F : Crew → α} (hk : CREW_H_STAT.ENTRY.key c ∈ ks)
    (h : ∀ k b, F { k with toEntry0 := b } = F k) : Within ks c F s (backToEntry0 c s) :=
  .ite (.onCrew (.put .refl hk) (h _ _)) .refl

/-- What the end of a slot does after handing it on changes ENTRY, the rotors and toEntry0. -/
theorem endSlot_handOn {α : Type} {ks : List FKey} {F : Crew → α} (hk : CREW_H_STAT.ENTRY.key c ∈ ks)
    (h1 : ∀ k n, F { k with rotPh := n } = F k) (h2 : ∀ k n, F { k with rotHk := n } = F k)
    (h3 : ∀ k b, F { k with toEntry0 := b } = F k) : Within ks c F (handOn c s) (endSlot c s) :=
  (turnRotor_within h1 h2).trans ((nextEntry_within hk).trans (backToEntry0_within hk h3))

theorem endSlot_within {ks : List FKey} (hk : CREW_H_STAT.ENTRY.key c ∈ ks) :
    Within ks c (fun k => (k.urgFault, k.urgRdt)) s (endSlot c s) :=
  (Within.refl.onCrew rfl).trans (endSlot_handOn hk (fun _ _ => rfl) (fun _ _ => rfl) fun _ _ => rfl)

theorem endSlot_hDone : ((endSlot c s).crew c).hDone = (s.crew c).hDone ++ [s.endedSlot c] := by
  have hrest := endSlot_handOn (ks := [CREW_H_STAT.ENTRY.key c]) (F := Crew.hDone) (c := c) (s := s) (by simp)
    (fun _ _ => rfl) (fun _ _ => rfl) fun _ _ => rfl
  rw [hrest.crew, handOn, onCrew_crew]

theorem backToEntry0_toEntry0 : ((backToEntry0 c s).crew c).toEntry0 = false := by
  unfold backToEntry0
  split
  · rw [onCrew_crew]
  · next h => exact Bool.eq_false_iff.mpr h

theorem backToEntry0_entry : (backToEntry0 c s).get CREW_H_STAT.ENTRY c =
    if (s.crew c).toEntry0 then 0 else s.get CREW_H_STAT.ENTRY c := by
  unfold backToEntry0
  split
  · rw [onCrew_get, get_put_self, Nat.zero_mod]
  · rfl

theorem nextEntry_seq : (nextEntry c (.seq e) s).get CREW_H_STAT.ENTRY c = s.entryAfter c e % 16 := get_put_self

theorem endSlot_toEntry0 : ((endSlot c s).crew c).toEntry0 = false := backToEntry0_toEntry0

/-- The entry that comes next depends on the registers alone. -/
theorem nextEntry_congr (h : ∀ f i, t.get f i = s.get f i) :
    (nextEntry c src t).get CREW_H_STAT.ENTRY c = (nextEntry c src s).get CREW_H_STAT.ENTRY c := by
  cases src with
  | seq e => rw [nextEntry_seq, nextEntry_seq, State.entryAfter, State.entryAfter, h]
  | _ => exact h _ _

theorem endSlot_entry : (endSlot c s).get CREW_H_STAT.ENTRY c =
    if (s.crew c).toEntry0 then 0 else (nextEntry c (s.crew c).slot.src s).get CREW_H_STAT.ENTRY c := by
  have hhand : Within [] c Crew.toEntry0 s (handOn c s) := .onCrew .refl rfl
  have hturn := hhand.trans (turnRotor_within (sl := s.endedSlot c) (fun _ _ => rfl) fun _ _ => rfl)
  have hnext := nextEntry_within (ks := [_]) (F := Crew.toEntry0) (c := c) (src := (s.crew c).slot.src)
    (s := turnRotor c (s.endedSlot c) (handOn c s)) (List.mem_singleton_self _)
  rw [endSlot, backToEntry0_entry, nextEntry_congr fun f i => hturn.regs f i (by simp), hnext.crew, hturn.crew]

/-- A waiting urgent slot of the fault logic starts first. -/
theorem startSlot_fault (h : (s.crew c).urgFault = some sl) : startSlot c s =
    (s.put CREW_H_STAT.URG_BUSY c 1).onCrew c (fun k => { k with slot := s.urgentSlot c sl, urgFault := none }) := by
  simp only [startSlot, h]

section
variable (h : (s.crew c).urgFault = some sl)
include h

theorem startSlot_fault_crew : (startSlot c s).crew c = { s.crew c with slot := s.urgentSlot c sl, urgFault := none } := by
  rw [startSlot_fault h, onCrew_crew, put_crew]

theorem startSlot_fault_within {α : Type} {ks : List FKey} {F : Crew → α} (hk : CREW_H_STAT.URG_BUSY.key c ∈ ks)
    (hF : ∀ k sl, F { k with slot := sl, urgFault := none } = F k) : Within ks c F s (startSlot c s) := by
  rw [startSlot_fault h]
  exact .onCrew (.put .refl hk) (hF _ _)

theorem startSlot_fault_get (hf : f.reg ≠ .CREW_H_STAT ∨ f.lo ≠ CREW_H_STAT.URG_BUSY.lo) :
    (startSlot c s).get f i = s.get f i := by
  rw [startSlot_fault h, onCrew_get]
  exact hf.elim (fun h => get_put_reg h) fun h => get_put_lo h

theorem startSlot_fault_busy : (startSlot c s).get CREW_H_STAT.URG_BUSY c = 1 := by
  rw [startSlot_fault h, onCrew_get, get_put_self]; rfl

theorem startSlot_fault_slot : ((startSlot c s).crew c).slot = (startSlot c s).urgentSlot c sl := by
  have hsame : (startSlot c s).urgentSlot c sl = s.urgentSlot c sl :=
    mkSlot_congr (startSlot_fault_get h (by decide)) (startSlot_fault_within (ks := [CREW_H_STAT.URG_BUSY.key c])
      (F := fun _ => ()) h (by simp) fun _ _ => rfl).phases (by rw [startSlot_fault_crew h]) (by rw [startSlot_fault_crew h])
  rw [hsame, startSlot_fault_crew h]
end

/-- With no urgent slot waiting the plain one starts. -/
theorem startSlot_plain (h1 : (s.crew c).urgFault = none) (h2 : (s.crew c).urgRdt = none)
    (h3 : s.get CREW_H_STAT.ENTRY c ≤ s.get CREW_H_CTL.SEQ_LEN c) : startSlot c s =
    (s.put CREW_H_STAT.URG_BUSY c 0).onCrew c (fun k => { k with slot := s.plainSlot c }) := by
  simp only [startSlot, h1, h2, if_neg (Nat.not_lt.mpr h3)]

/-- The plain slot does not depend on whether an urgent one is converting. -/
theorem plainSlot_congr (hr : ∀ f i, f.reg ≠ .CREW_H_STAT ∨ f.lo ≠ CREW_H_STAT.URG_BUSY.lo → t.get f i = s.get f i)
    (h2 : t.phases = s.phases) (h3 : (t.crew c).rotPh = (s.crew c).rotPh) (h4 : (t.crew c).rotHk = (s.crew c).rotHk) :
    t.plainSlot c = s.plainSlot c := by
  have hmk : ∀ src ch stime gain, t.mkSlot c src ch stime gain = s.mkSlot c src ch stime gain := fun _ _ _ _ =>
    mkSlot_congr (hr _ _ (by decide)) h2 h3 h4
  have hmode : t.flag CREW_H_CTL.MODE c = s.flag CREW_H_CTL.MODE c := by rw [State.flag, State.flag, hr _ _ (by decide)]
  unfold State.plainSlot
  rw [hmode]
  simp (disch := decide) only [hr, hmk]

section
variable (h1 : (s.crew c).urgFault = none) (h2 : (s.crew c).urgRdt = none)
  (h3 : s.get CREW_H_STAT.ENTRY c ≤ s.get CREW_H_CTL.SEQ_LEN c)
include h1 h2 h3

theorem startSlot_plain_crew : (startSlot c s).crew c = { s.crew c with slot := s.plainSlot c } := by
  rw [startSlot_plain h1 h2 h3, onCrew_crew, put_crew]

theorem startSlot_plain_within {α : Type} {ks : List FKey} {F : Crew → α} (hk : CREW_H_STAT.URG_BUSY.key c ∈ ks)
    (hF : ∀ k sl, F { k with slot := sl } = F k) : Within ks c F s (startSlot c s) := by
  rw [startSlot_plain h1 h2 h3]
  exact .onCrew (.put .refl hk) (hF _ _)

theorem startSlot_plain_get (hf : f.reg ≠ .CREW_H_STAT ∨ f.lo ≠ CREW_H_STAT.URG_BUSY.lo) :
    (startSlot c s).get f i = s.get f i := by
  rw [startSlot_plain h1 h2 h3, onCrew_get]
  exact hf.elim (fun h => get_put_reg h) fun h => get_put_lo h

theorem startSlot_plain_busy : (startSlot c s).get CREW_H_STAT.URG_BUSY c = 0 := by
  rw [startSlot_plain h1 h2 h3, onCrew_get, get_put_self]; rfl

theorem startSlot_plain_slot : ((startSlot c s).crew c).slot = (startSlot c s).plainSlot c := by
  have hsame : (startSlot c s).plainSlot c = s.plainSlot c :=
    plainSlot_congr (fun _ _ => startSlot_plain_get h1 h2 h3) (startSlot_plain_within (ks := [CREW_H_STAT.URG_BUSY.key c])
      (F := fun _ => ()) h1 h2 h3 (by simp) fun _ _ => rfl).phases (by rw [startSlot_plain_crew h1 h2 h3])
      (by rw [startSlot_plain_crew h1 h2 h3])
  rw [hsame, startSlot_plain_crew h1 h2 h3]
end

/-- The next entry lies in the sequence (R102). -/
theorem entryAfter_le : s.entryAfter c e % 16 ≤ s.get CREW_H_CTL.SEQ_LEN c := by
  unfold State.entryAfter
  split <;> omega

/-! ## The open-wire tests (R113, R114) -/

theorem startConfirm_starts {r : Bool} (h : (s.crew c).ow = none) : startConfirm c r s =
    (s.put CREW_OW_STAT.CONFIRM_RUN c 1).onCrew c
      (fun k => { k with ow := some ⟨r, 0, none, false, false⟩, faultWant := k.faultWant ++ [14] }) := by
  simp only [startConfirm, h]

theorem startConfirm_runs {r : Bool} (h : (s.crew c).ow = some o) : startConfirm c r s =
    s.onCrew c (fun k => { k with ow := some { o with retry := o.retry || r } }) := by
  simp only [startConfirm, h]

theorem startConfirm_within {α : Type} {ks : List FKey} {F : Crew → α} {r : Bool} (hk : CREW_OW_STAT.CONFIRM_RUN.key c ∈ ks)
    (hF : ∀ k o w, F { k with ow := o, faultWant := w } = F k) : Within ks c F s (startConfirm c r s) := by
  cases h : (s.crew c).ow with
  | none => rw [startConfirm_starts h]; exact .onCrew (.put .refl hk) (hF _ _ _)
  | some o => rw [startConfirm_runs h]; exact .onCrew .refl (hF _ _ (s.crew c).faultWant)

/-! ## Consumers of results (R100, R108) -/

/-- The fields that the consumers of H's results may change, for the law, the overload filter, the reference and the
open-wire tests. -/
def consumerKeys (c : Nat) : List FKey :=
  [CREW_OVL_FILT.FILT_MA.key c, CREW_DP_IFILT.I_F.key c, CREW_H_STAT.REF_FAIL.key c, CREW_H_STAT.REF_SETTLED.key c,
    CREW_H_REF.REF_SEL.key c, CREW_OW_STAT.SUSPECT.key c, CREW_OW_STAT.CONFIRM_RUN.key c, CREW_OW_STAT.OPEN_POS.key c,
    CREW_OW_STAT.OPEN_NEG.key c, CREW_OW_STAT.DV_POS.key c, CREW_OW_STAT.DV_NEG.key c] ++ dropKeys

/-- From s to t consumers of H's results at crew c may have acted. -/
abbrev Consumed (c : Nat) (s t : State) : Prop := Within (consumerKeys c) c Crew.hDone s t

theorem Consumed.raiseCrew (h : Consumed c s t) : Consumed c s (t.raiseCrew code c d0 d1) :=
  Within.raiseCrew h (fun _ hx => by simp [consumerKeys, hx]) fun _ _ _ => rfl

theorem refSel_consumed : Consumed c s (refSel c v s) :=
  .ite .refl (.put (.put .refl (by simp [consumerKeys])) (by simp [consumerKeys]))

theorem referenceCheck_consumed : Consumed c s (referenceCheck c z b s) := by
  unfold referenceCheck
  extract_lets internal good bad
  have hgood : Consumed c s good := .ite (.onCrew .refl rfl) .refl
  have hbad : Consumed c s bad := .onCrew .refl rfl
  have hreset : Consumed c bad ((refSel c 0 bad).setOver CREW_H_STAT.REF_FAIL c) :=
    refSel_consumed.setOver (by simp [consumerKeys])
  exact .ite (.ite (hgood.onCrew rfl) hgood)
    (.ite (.ite (Consumed.raiseCrew (hbad.onCrew rfl)) (Consumed.raiseCrew (hbad.trans hreset))) (.ite .refl (.onCrew .refl rfl)))

theorem showSuspect_within {α : Type} {ks : List FKey} {F : Crew → α} (hk : CREW_OW_STAT.SUSPECT.key c ∈ ks) :
    Within ks c F s (showSuspect c s) := Within.refl.mark hk

theorem openWireCheck_consumed : Consumed c s (openWireCheck c ch z i j s) := by
  unfold openWireCheck
  extract_lets uv bad s1 s2
  have h1 : Consumed c s s1 := .onCrew .refl (by split <;> rfl)
  have h2 : Consumed c s s2 := h1.trans (showSuspect_within (by simp [consumerKeys]))
  exact .ite (h2.trans (startConfirm_within (by simp [consumerKeys]) fun _ _ _ => rfl)) h2

theorem endConfirm_consumed {p q : Bool} : Consumed c s (endConfirm c o p q s) := by
  unfold endConfirm
  extract_lets s1 onLocal s2 s3 s4 dv s5
  have h1 : Consumed c s s1 := .onCrew (.put .refl (by simp [consumerKeys])) rfl
  have h2 : Consumed c s s2 := (h1.mark (by simp [consumerKeys])).mark (by simp [consumerKeys])
  have h3 : Consumed c s s3 := .ite h2 (h2.onCrew rfl)
  have h4 : Consumed c s s4 := .ite h3.raiseCrew h3
  have h5 : Consumed c s s5 := .onCrew h1 rfl
  exact .ite (.ite h2 (.ite h4.raiseCrew h4)) (.ite (h5.onCrew rfl) h5)

theorem owResult_consumed : Consumed c s (owResult c z i j s) := by
  unfold owResult
  split
  · exact .refl
  · extract_lets v
    split
    · exact .onCrew .refl rfl
    · exact .ite (.onCrew (.put .refl (by simp [consumerKeys])) rfl)
        (Within.trans (.put .refl (by simp [consumerKeys])) endConfirm_consumed)

theorem hConsume_consumed : Consumed c s (hConsume c sl z s) := by
  unfold hConsume
  extract_lets q s1 urgent filt s2 s3
  have h1 : Consumed c s s1 := .onCrew .refl rfl
  have h2 : Consumed c s s2 := .onCrew (h1.put (by simp [consumerKeys])) rfl
  have h3 : Consumed c s s3 := h1.trans openWireCheck_consumed
  exact .ite (.ite h2 (.ite (.onCrew (h2.putI (by simp [consumerKeys])) rfl) h2)) (.ite (h1.onCrew rfl)
    (.ite (.ite (h1.trans referenceCheck_consumed) (.ite (h1.onCrew rfl) h1))
      (.ite (.ite (h3.trans owResult_consumed) h3) h1)))

theorem hHold_consumed : Consumed c s (hHold c sl s) := by
  unfold hHold
  split
  · exact .ite (.onCrew .refl rfl) (.ite owResult_consumed .refl)
  · exact .refl

/-! ## Results (R97, R98, R110, R111) -/

/-- The state that shows a result at channel i. -/
def showResult (i : Nat) (sat settled urgent : Bool) (gain res : Nat) (s : State) : State :=
  ((((((s.put CREW_H_RES.VALID i 1).mark CREW_H_RES.SAT i sat).mark CREW_H_RES.UNSETTLED i (!settled)).mark
    CREW_H_RES.URGENT i urgent).put CREW_H_RES.GAIN i gain).wrap CREW_H_RES.COUNT i).put CREW_H_RES.RESULT i res

/-- The state in which the consumers have taken the code of a slot, or hold what they had where it is not settled. -/
def consume (c : Nat) (sl : HSlot) (z : Int) (s : State) : State := if sl.settled then hConsume c sl z s else hHold c sl s

/-- The state in which a result's word has answered the RDT that asked for it, if one did. -/
def answerRdt (src : HSrc) (word : Nat) (s : State) : State :=
  match src with
  | .rdt ctx => { s with rdtAns := s.rdtAns ++ [(ctx, word)] }
  | _ => s

/-- The fields of a shown result. -/
def resultKeys (i : Nat) : List FKey :=
  [CREW_H_RES.VALID.key i, CREW_H_RES.SAT.key i, CREW_H_RES.UNSETTLED.key i, CREW_H_RES.URGENT.key i, CREW_H_RES.GAIN.key i,
    CREW_H_RES.COUNT.key i, CREW_H_RES.RESULT.key i]

theorem showResult_within {α : Type} {F : Crew → α} {sat settled urgent : Bool} {res : Nat} :
    Within (resultKeys i) c F s (showResult i sat settled urgent gain res s) :=
  ((((((Within.refl.put (by simp [resultKeys])).mark (by simp [resultKeys])).mark (by simp [resultKeys])).mark
    (by simp [resultKeys])).put (by simp [resultKeys])).wrap (by simp [resultKeys])).put (by simp [resultKeys])

/-- A shown result reads as it was shown. -/
theorem showResult_shows {sat settled urgent : Bool} {res : Nat} :
    (showResult i sat settled urgent gain res s).get CREW_H_RES.VALID i = 1 ∧
    (showResult i sat settled urgent gain res s).flag CREW_H_RES.SAT i = sat ∧
    (showResult i sat settled urgent gain res s).flag CREW_H_RES.UNSETTLED i = (!settled) ∧
    (showResult i sat settled urgent gain res s).get CREW_H_RES.GAIN i = gain % 4 ∧
    (showResult i sat settled urgent gain res s).get CREW_H_RES.COUNT i =
      (s.get CREW_H_RES.COUNT i + 1) % 2 ^ CREW_H_RES.COUNT.width ∧
    (showResult i sat settled urgent gain res s).get CREW_H_RES.RESULT i = res % 2 ^ 16 := by
  refine ⟨?_, ?_, ?_, ?_, ?_, get_put_self⟩
  · simp (disch := decide) only [showResult, State.mark, State.wrap, get_put_lo, get_put_self]; rfl
  · refine Eq.trans ?_ (flag_mark_self (s := s.put CREW_H_RES.VALID i 1) (f := CREW_H_RES.SAT) (i := i) rfl)
    simp (disch := decide) only [showResult, State.flag, State.mark, State.wrap, get_put_lo]
  · refine Eq.trans ?_ (flag_mark_self (s := (s.put CREW_H_RES.VALID i 1).mark CREW_H_RES.SAT i sat)
      (f := CREW_H_RES.UNSETTLED) (i := i) rfl)
    simp (disch := decide) only [showResult, State.flag, State.mark, State.wrap, get_put_lo]
  · simp (disch := decide) only [showResult, State.mark, State.wrap, get_put_lo, get_put_self]; rfl
  · simp (disch := decide) only [showResult, State.mark, State.wrap, get_put_lo, get_put_self]

theorem consume_consumed : Consumed c s (consume c sl z s) := .ite hConsume_consumed hHold_consumed

theorem answerRdt_within {α : Type} {ks : List FKey} {F : Crew → α} {src : HSrc} : Within ks c F s (answerRdt src v s) := by
  cases src with
  | rdt ctx => exact ⟨fun _ _ _ => rfl, rfl, rfl, rfl, fun _ _ => rfl, rfl⟩
  | _ => exact .refl

/-- Consumers leave the results. -/
theorem Consumed.get_result (h : Consumed c s t) (hf : f.reg = .CREW_H_RES) : t.get f i = s.get f i :=
  h.get (rs := [.CREW_OVL_FILT, .CREW_DP_IFILT, .CREW_H_STAT, .CREW_H_STAT, .CREW_H_REF, .CREW_OW_STAT, .CREW_OW_STAT,
    .CREW_OW_STAT, .CREW_OW_STAT, .CREW_OW_STAT, .CREW_OW_STAT, .FLT_DROP, .FLT_DROP]) rfl (by rw [hf]; decide)

/-- What is shown stays shown, whatever the consumers do with it. -/
theorem Consumed.shows {sat settled urgent : Bool} {res : Nat} (h : Consumed c (showResult i sat settled urgent gain res s) t) :
    t.get CREW_H_RES.VALID i = 1 ∧ t.flag CREW_H_RES.SAT i = sat ∧ t.flag CREW_H_RES.UNSETTLED i = (!settled) ∧
    t.get CREW_H_RES.GAIN i = gain % 4 ∧
    t.get CREW_H_RES.COUNT i = (s.get CREW_H_RES.COUNT i + 1) % 2 ^ CREW_H_RES.COUNT.width ∧
    t.get CREW_H_RES.RESULT i = res % 2 ^ 16 := by
  have hshow := showResult_shows (s := s) (i := i) (sat := sat) (settled := settled) (urgent := urgent) (gain := gain)
    (res := res)
  simp only [State.flag] at hshow ⊢
  rwa [h.get_result rfl, h.get_result rfl, h.get_result rfl, h.get_result rfl, h.get_result rfl, h.get_result rfl]

theorem Consumed.frame {sat settled urgent : Bool} {res : Nat} (h : Consumed c (showResult i sat settled urgent gain res s) t) :
    (t.crew c).hDone = (s.crew c).hDone ∧ SamePhases [] s t ∧ SameCrews [c] s t ∧ SameMem s t := by
  have hshow : Within (resultKeys i ++ consumerKeys c) c Crew.hDone s (showResult i sat settled urgent gain res s) :=
    showResult_within.mono (List.subset_append_left _ _)
  have hall := hshow.trans (h.mono (List.subset_append_right _ _))
  exact ⟨hall.crew, hall.samePhases, hall.crews, hall.sameMem⟩

/-- The end of the conversion shows the result of the oldest ended slot, and then its consumers act. -/
theorem exec_hResult {rest : List HSlot} (h : (s.crew c).hDone = sl :: rest) : ∃ urgent t, exec (.hResult c raw) s = .next t ∧
    Consumed c (showResult (16 * c + sl.ch) (s.hCode c sl.ch raw).2 sl.settled urgent sl.gain
      (hAlign (s.flag CREW_H_CTL.ALIGN c) sl.ch (s.hCode c sl.ch raw).1) (s.onCrew c (fun k => { k with hDone := rest }))) t := by
  refine ⟨match sl.src with | .fault => true | .rdt _ => true | _ => false, answerRdt sl.src
    (rdtWord (s.hCode c sl.ch raw).2 (!sl.settled) (hAlign (s.flag CREW_H_CTL.ALIGN c) sl.ch (s.hCode c sl.ch raw).1))
    (consume c sl (s.hCode c sl.ch raw).1 _), ?_, consume_consumed.trans answerRdt_within⟩
  show execHResult c raw s = _
  simp only [execHResult, h]
  rfl

theorem neg_le_sgn_8 : -128 ≤ sgn 8 v := by
  unfold sgn
  norm_num
  split_ifs <;> omega

theorem roundOpen_nonneg {z : Int} {n : Nat} (h : 0 ≤ z) : 0 ≤ roundOpen z n := by
  have := Int.ediv_nonneg h (Int.natCast_nonneg n)
  unfold roundOpen
  split_ifs <;> omega

theorem neg_le_hTrim : -128 ≤ s.hTrim c := by
  unfold State.hTrim
  extract_lets
  split_ifs <;> exact neg_le_sgn_8

/-- The end code and SAT beyond the range, whatever the trim. -/
theorem hCode_sum : (s.hCode c 8 raw).1 ≤ 2047 ∧ -2048 ≤ (s.hCode c 8 raw).1 ∧
    (2047 < raw → s.hCode c 8 raw = (2047, true)) ∧ (raw < -2048 → s.hCode c 8 raw = (-2048, true)) := by
  have hrange : hRange 8 = (-2048, 2047) := rfl
  simp only [State.hCode, hrange]
  refine ⟨by split_ifs <;> simp only <;> omega, by split_ifs <;> simp only <;> omega, fun h => ?_, fun h => if_pos (.inl h)⟩
  have htrim := neg_le_hTrim (s := s) (c := c)
  have hcode : 0 ≤ roundOpen (raw * (8192 + s.hTrim c)) 8192 := roundOpen_nonneg (Int.mul_nonneg (by omega) (by omega))
  rw [if_neg (by omega), if_pos (.inl h)]
/-! ## Urgent requests (R105, R106) -/

/-- A slot that an urgent request may abandon. -/
def isPlain (src : HSrc) : Bool :=
  match src with
  | .seq _ => true
  | .single => true
  | _ => false

/-- The state in which the urgent slot that waits starts in place of a plain one of source src that is still sampling. -/
def preempt (c : Nat) (sampling : Bool) (src : HSrc) (s : State) : State :=
  if sampling ∧ isPlain src then startSlot c (s.bump CREW_H_STAT.PREEMPTS c) else s

/-- The slot that a request of the fault logic for channel ch waits as. -/
def faultSlot (ch : Nat) : HSlot := { src := .fault, ch := ch, rotor := 0, stime := 7, gain := 0 }

/-- The state in which the fault logic's request for channel ch has left the queue and waits. -/
def askFault (c ch : Nat) (rest : List Nat) (s : State) : State :=
  s.onCrew c (fun k => { k with faultWant := rest, urgFault := some (faultSlot ch) })

/-- The state in which RDT's first request has left the queue. -/
def dropRdt (c : Nat) (rest : List (Nat × Nat)) (s : State) : State := s.onCrew c (fun k => { k with rdtWant := rest })

theorem exec_urgentRequest_fault {rest : List Nat} (h : (s.crew c).faultWant = ch :: rest) (hb : s.faultBusy c = false) :
    exec (.urgentRequest c false b) s = .next (preempt c b (s.crew c).slot.src (askFault c ch rest s)) := by
  show execUrgentRequest c false b s = _
  unfold execUrgentRequest
  extract_lets k plain go
  rw [if_neg Bool.false_ne_true]
  split
  · next heq => cases h.symm.trans heq
  · next heq =>
    cases h.symm.trans heq
    rw [if_neg (by simp [hb])]
    rfl

section
variable {rest : List (Nat × Nat)}

theorem dropRdt_busy : (dropRdt c rest s).rdtBusy c = s.rdtBusy c := by simp only [dropRdt, State.rdtBusy, onCrew_crew]

theorem exec_urgentRequest_rdt (h : (s.crew c).rdtWant = (ctx, ch) :: rest) (hb : s.rdtBusy c = false) :
    exec (.urgentRequest c true b) s = .next (preempt c b (s.crew c).slot.src ((dropRdt c rest s).onCrew c
      (fun k => { k with urgRdt := some (rdtSlot ctx ch (s.rdtTiming c ch)) }))) := by
  show execUrgentRequest c true b s = _
  unfold execUrgentRequest
  extract_lets k plain go
  rw [if_pos rfl]
  split
  · next heq => cases h.symm.trans heq
  · next heq =>
    cases h.symm.trans heq
    exact if_neg (by rw [← dropRdt, dropRdt_busy, hb]; decide)

/-- An RDT request that finds another one pending or converting is answered with the refusal (R105). -/
theorem exec_urgentRequest_rdt_refused (h : (s.crew c).rdtWant = (ctx, ch) :: rest) (hb : s.rdtBusy c = true) :
    exec (.urgentRequest c true b) s = .next { dropRdt c rest s with rdtAns := s.rdtAns ++ [(ctx, 0x80000000)] } := by
  show execUrgentRequest c true b s = _
  unfold execUrgentRequest
  extract_lets k plain go
  rw [if_pos rfl]
  split
  · next heq => cases h.symm.trans heq
  · next heq =>
    cases h.symm.trans heq
    exact if_pos (by rw [← dropRdt, dropRdt_busy, hb])
end

/-! ## The reference (R107) -/

theorem exec_refSel (h : s.Takes m .CREW_H_REF c data) : exec (.refSel m c data) s = .next ((refSel c (data % 4)
    ((s.put CREW_H_REF.REF_SEL c (CREW_H_REF.REF_SEL.ofWord (data % 2 ^ 32))).put CREW_H_REF.REF_SEL c
      (s.get CREW_H_REF.REF_SEL c))).answered 0) := by
  refine (congrArg Host.Outcome.next (takes_CREW_H_REF h)).trans ?_
  rw [← Nat.mod_mod_of_dvd data (show 4 ∣ 2 ^ 32 by decide)]
  rfl

theorem refSel_block (h : SameBlock s t) : SameBlock s (refSel c v t) := by
  unfold refSel
  split
  · exact h
  · exact h.put.put

theorem refSel_regs {ks : List FKey} (h : SameRegs ks s t) (h1 : CREW_H_REF.REF_SEL.key c ∈ ks)
    (h2 : CREW_H_STAT.REF_SETTLED.key c ∈ ks) : SameRegs ks s (refSel c v t) := by
  unfold refSel
  split
  · exact h
  · exact (h.put h1).put h2

theorem refSel_ignored : refSel c 3 s = s := rfl

theorem refSel_selects (h : v ≠ 3) : (refSel c v s).get CREW_H_REF.REF_SEL c = v % 4 ∧
    (refSel c v s).get CREW_H_STAT.REF_SETTLED c = 0 := by
  rw [refSel, if_neg h, get_put_reg (by decide), get_put_self, get_put_self]
  exact ⟨rfl, rfl⟩

/-- The end of the pull asks for the second conversion of the line under test. -/
theorem exec_pullEnd (h : (s.crew c).ow = some o) (h1 : o.first.isSome = true) (h2 : o.pulled = false) :
    exec (.pullEnd c) s = .next (s.onCrew c
      (fun k => { k with ow := some { o with pulled := true }, faultWant := k.faultWant ++ [14 + o.line] })) := by
  show execPullEnd c s = _
  simp only [execPullEnd, h]
  exact if_pos ⟨h1, by rw [h2]; decide⟩

/-! ## CONFIRM, RETRY and the sequencer's test (R114, R116, R165) -/

/-- A test that starts shows and asks for its first conversion; nothing else changes. -/
theorem startConfirm_shows {r : Bool} (h : (s.crew c).ow = none) :
    (startConfirm c r s).get CREW_OW_STAT.CONFIRM_RUN c = 1 ∧ (startConfirm c r s).crew c =
      { s.crew c with ow := some ⟨r, 0, none, false, false⟩, faultWant := (s.crew c).faultWant ++ [14] } := by
  rw [startConfirm_starts h, onCrew_get, onCrew_crew, get_put_self, put_crew]
  exact ⟨rfl, rfl⟩

/-- The state in which a write of CREW_OW_CTL has stored BG_EN and has ordered a test, with the return of a RETRY where r. -/
def orderTest (c : Nat) (r : Bool) (v : Nat) (s : State) : State :=
  (startConfirm c r (s.put CREW_OW_CTL.BG_EN c (CREW_OW_CTL.BG_EN.ofWord v))).answered 0

theorem exec_confirm (h : s.Takes m .CREW_OW_CTL c data) (h1 : CREW_OW_CTL.CONFIRM.ofWord data = 1)
    (h2 : CREW_OW_CTL.RETRY.ofWord data = 0) : exec (.confirm (some m) c data) s =
    .next (orderTest c false (data % 2 ^ 32) s) := by
  have hconfirm : CREW_OW_CTL.CONFIRM.ofWord (data % 2 ^ 32) = 1 := (ofWord_mod (by decide)).trans h1
  have hretry : CREW_OW_CTL.RETRY.ofWord (data % 2 ^ 32) ≠ 1 := by rw [ofWord_mod (by decide), h2]; decide
  refine (congrArg Host.Outcome.next (takes_CREW_OW_CTL h)).trans (congrArg (fun x => Host.Outcome.next (State.answered x 0)) ?_)
  exact (if_neg hretry).trans (if_pos hconfirm)

theorem exec_retry (h : s.Takes m .CREW_OW_CTL c data) (h1 : CREW_OW_CTL.RETRY.ofWord data = 1) : exec (.retry m c data) s =
    .next (orderTest c true (data % 2 ^ 32) s) := by
  refine (congrArg Host.Outcome.next (takes_CREW_OW_CTL h)).trans (congrArg (fun x => Host.Outcome.next (State.answered x 0)) ?_)
  exact if_pos ((ofWord_mod (by decide)).trans h1)

theorem orderTest_starts {r : Bool} (h : (s.crew c).ow = none) :
    (orderTest c r v s).get CREW_OW_STAT.CONFIRM_RUN c = 1 ∧
    ((orderTest c r v s).crew c).ow = some ⟨r, 0, none, false, false⟩ ∧
    ((orderTest c r v s).crew c).faultWant = (s.crew c).faultWant ++ [14] ∧
    SameRegs [CREW_OW_CTL.BG_EN.key c, CREW_OW_STAT.CONFIRM_RUN.key c] s (orderTest c r v s) ∧
    SamePhases [] s (orderTest c r v s) ∧ SameCrews [c] s (orderTest c r v s) ∧ SameMem s (orderTest c r v s) := by
  obtain ⟨hrun, hstart⟩ := startConfirm_shows (r := r) (s := s.put CREW_OW_CTL.BG_EN c (CREW_OW_CTL.BG_EN.ofWord v)) h
  refine ⟨hrun, ?_, ?_, (Within.trans (F := fun _ => ()) (.put .refl (by simp))
    (startConfirm_within (by simp) fun _ _ _ => rfl)).answered.frame⟩
  · rw [orderTest, answered_crew, hstart]
  · rw [orderTest, answered_crew, hstart, put_crew]

/-- A RETRY takes over the return of a test that runs. -/
theorem orderTest_takesOver (h : (s.crew c).ow = some o) : ((orderTest c true v s).crew c).ow = some { o with retry := true } ∧
    ((orderTest c true v s).crew c).faultWant = (s.crew c).faultWant ∧ SameRegs [CREW_OW_CTL.BG_EN.key c] s (orderTest c true v s) ∧
    SamePhases [] s (orderTest c true v s) ∧ SameCrews [c] s (orderTest c true v s) ∧ SameMem s (orderTest c true v s) := by
  rw [orderTest, startConfirm_runs (s := s.put CREW_OW_CTL.BG_EN c (CREW_OW_CTL.BG_EN.ofWord v)) h, Bool.or_true]
  refine ⟨?_, ?_, (Within.onCrew (F := fun _ => ()) (.put .refl (by simp)) rfl).answered.frame⟩
  · rw [answered_crew, onCrew_crew]
  · rw [answered_crew, onCrew_crew, put_crew]

theorem startConfirm_get {r : Bool} (h : f.reg ≠ .CREW_OW_STAT ∨ f.lo ≠ CREW_OW_STAT.CONFIRM_RUN.lo) :
    (startConfirm c r s).get f i = s.get f i := by
  cases how : (s.crew c).ow with
  | none => rw [startConfirm_starts how, onCrew_get]; exact h.elim (fun h => get_put_reg h) fun h => get_put_lo h
  | some o => rw [startConfirm_runs how, onCrew_get]

/-! ## Phases that go idle (R86) -/

/-- What each step of a fold establishes at its own index, and no other step undoes, holds at every index of the list. -/
theorem forAll_each {ks : List Nat} {F : State → Nat → State} {P : Nat → State → Prop} (hown : ∀ u k, P k (F u k))
    (hkeep : ∀ u k q, P q u → P q (F u k)) (hq : q ∈ ks) : P q (forAll ks F s) := by
  induction ks generalizing s with
  | nil => exact absurd hq (by simp)
  | cons k r ih =>
    rcases List.mem_cons.mp hq with rfl | hr
    · exact forAll_keeps (P := P q) (t := F s q) (fun u k _ => hkeep u k q) (hown s q)
    · exact ih hr

/-- The state in which phase ph, unless FUSED or STRUCK, has gone to state st. -/
def parkPhase (st : PhaseSt) (low : Bool) (s : State) (ph : Nat) : State :=
  let p := s.phase ph
  if p.st = .fused ∨ p.st = .struck ∨ (p.st = .idle ∧ st = .stopping) then s
  else (s.setPhase ph { p with st := st, lowSide := low, testOn := false, testWait := false, inTest := false }).put
    CREW_PH_CNT.NC_RUN ph 0

/-- The state in which the crew's trims, step event and hold have ended with its parking. -/
def endParked (c : Nat) (s : State) : State :=
  let s := zeroTrims c s
  let s := if s.flag CREW_RING_STAT.STEP_EVENT c then (s.put CREW_RING_STAT.STEP_EVENT c 0).bump CREW_STEP_CNT.STEPS c else s
  (s.put CREW_RING_STAT.HOLD c 0).onCrew c (fun k => { k with spaceRun := 0 })

theorem idlePhases_eq : idlePhases c s = endParked c (forAll (crewPhases c) (parkPhase .idle false) s) := rfl

/-- The fields that the end of parking changes. -/
def parkedKeys (c : Nat) : List FKey :=
  [CREW_PH_TRIM.TRIM.key c, CREW_RING_STAT.STEP_EVENT.key c, CREW_STEP_CNT.STEPS.key c, CREW_RING_STAT.HOLD.key c]

theorem endParked_within : Within (parkedKeys c) c Crew.ow s (endParked c s) := by
  unfold endParked zeroTrims
  extract_lets s1 s2
  have h1 : Within (parkedKeys c) c Crew.ow s s1 := .put .refl (by simp [parkedKeys])
  have h2 : Within (parkedKeys c) c Crew.ow s s2 := .ite ((h1.put (by simp [parkedKeys])).bump (by simp [parkedKeys])) h1
  exact (h2.put (by simp [parkedKeys])).onCrew rfl

/-- The states of a phase in which it issues no pulse and is not being stopped. -/
def atRest : List PhaseSt := [.idle, .fused, .struck]

theorem parkPhase_own {low : Bool} : ((parkPhase .idle low s q).phase q).st ∈ atRest := by
  unfold parkPhase
  extract_lets p
  split
  · next h => rcases h with h | h | ⟨h, -⟩ <;> rw [h] <;> decide
  · rw [put_phase, setPhase_phase_self]; exact List.mem_cons_self

theorem parkPhase_others {st : PhaseSt} {low : Bool} (h : q ≠ k) : (parkPhase st low s k).phase q = s.phase q := by
  unfold parkPhase
  extract_lets p
  split
  · rfl
  · rw [put_phase, setPhase_phase_ne (h := h)]

theorem parkPhase_block {st : PhaseSt} {low : Bool} (h : t.crews = s.crews ∧ SameMem s t) :
    (parkPhase st low t k).crews = s.crews ∧ SameMem s (parkPhase st low t k) := by
  unfold parkPhase
  extract_lets p
  split
  · exact h
  · exact ⟨h.1, h.2.congr rfl rfl⟩

theorem idlePhases_st (h : k < 8) : ((idlePhases c s).phase (8 * c + k)).st ∈ atRest := by
  have hk : 8 * c + k ∈ crewPhases c := mem_crewPhases.mpr (by omega)
  rw [idlePhases_eq, endParked_within.samePhases _ (List.not_mem_nil)]
  refine forAll_each (P := fun q u => (u.phase q).st ∈ atRest) (fun u q => parkPhase_own) (fun u k q hq => ?_) hk
  by_cases e : q = k
  · subst e; exact parkPhase_own
  · rw [parkPhase_others e]; exact hq

/-- That a crew's phases go to a state leaves other phases, every crew and the memory. -/
theorem forAll_parkPhase {st : PhaseSt} {low : Bool} :
    SamePhases (crewPhases c) s (forAll (crewPhases c) (parkPhase st low) s) ∧
    (forAll (crewPhases c) (parkPhase st low) s).crews = s.crews ∧ SameMem s (forAll (crewPhases c) (parkPhase st low) s) :=
  forAll_keeps (P := fun u => SamePhases (crewPhases c) s u ∧ u.crews = s.crews ∧ SameMem s u)
    (fun _ _ hk ⟨hphases, hrest⟩ => ⟨fun q hq => (parkPhase_others fun e => hq (by rwa [e])).trans (hphases q hq),
      parkPhase_block hrest⟩) ⟨.refl, rfl, .refl⟩

/-- The state in which the sequencer's open-wire test of crew c is to start: its phases are IDLE, and the test is under way. -/
def readyTest (c : Nat) (s : State) : State := (idlePhases c s).onCrew c (fun k => { k with calOw := 1 })

theorem exec_confirm_sequencer (h1 : (s.crew c).seqCal = true) (h2 : (s.crew c).calOw = 0) : exec (.confirm none c data) s =
    .next (startConfirm c false (readyTest c s)) := congrArg Host.Outcome.next (if_pos ⟨h1, h2⟩)

theorem readyTest_frame : SamePhases (crewPhases c) s (readyTest c s) ∧ SameCrews [c] s (readyTest c s) ∧
    SameMem s (readyTest c s) ∧ ((readyTest c s).crew c).ow = (s.crew c).ow := by
  obtain ⟨hphases, hcrews, hmem⟩ := forAll_parkPhase (c := c) (s := s) (st := .idle) (low := false)
  rw [readyTest, idlePhases_eq]
  generalize forAll (crewPhases c) (parkPhase .idle false) s = t at hphases hcrews hmem ⊢
  have hend := endParked_within (c := c) (s := t) |>.onCrew (G := fun k => { k with calOw := 1 }) rfl
  have hcrew : ∀ q, t.crew q = s.crew q := fun q => by simp only [State.crew, hcrews]
  exact ⟨hphases.congr hend.phases, fun q hq => (hend.crews q hq).trans (hcrew q), hmem.congr hend.mem hend.flash,
    hend.crew.trans (by rw [hcrew])⟩

theorem readyTest_calOw : ((readyTest c s).crew c).calOw = 1 := by rw [readyTest, onCrew_crew]

theorem readyTest_st (h : k < 8) : ((readyTest c s).phase (8 * c + k)).st ∈ atRest := by
  rw [readyTest, onCrew_phase]
  exact idlePhases_st h

/-! ## Sense (R113, R115, R116) -/

/-- The state in which the local check has found the sense above the window's end, or no longer, and SUSPECT shows it. -/
def noteOvervoltage (c : Nat) (b : Bool) (s : State) : State := showSuspect c (s.onCrew c (fun k => { k with ovInhibit := b }))

theorem noteOvervoltage_within {α : Type} {ks : List FKey} {F : Crew → α} (hk : CREW_OW_STAT.SUSPECT.key c ∈ ks)
    (hF : ∀ k, F { k with ovInhibit := b } = F k) : Within ks c F s (noteOvervoltage c b s) :=
  (Within.refl.onCrew (hF _)).trans (showSuspect_within hk)

theorem noteOvervoltage_crew : (noteOvervoltage c b s).crew c = { s.crew c with ovInhibit := b } := by
  rw [noteOvervoltage, showSuspect, State.mark, put_crew, onCrew_crew]

theorem noteOvervoltage_suspect : (noteOvervoltage c b s).flag CREW_OW_STAT.SUSPECT c =
    ((s.crew c).susp0 || (s.crew c).susp1 || b) := by
  refine (flag_mark_self rfl).trans ?_
  rw [onCrew_crew]


theorem exec_senseSwitch_local (h : (s.crew c).senseReq = some true) : exec (.senseSwitch c) s =
    .next (showSlewing c (((s.put CREW_AB_STAT.SENSE c 1).put CREW_SP_STAT.OPEN_OFS c 1).onCrew c
      (fun k => { k with senseReq := none, oldTags := s.keepTags c }))) := by
  show execSenseSwitch c s = _
  simp only [execSenseSwitch, h]

theorem exec_senseSwitch_remote (h : (s.crew c).senseReq = some false) : exec (.senseSwitch c) s =
    .next (showSlewing c ((((((s.put CREW_AB_STAT.SENSE c 0).put CREW_SP_STAT.OPEN_OFS c 0).put CREW_OW_STAT.OPEN_POS c 0).put
      CREW_OW_STAT.OPEN_NEG c 0).onCrew c (fun k => { k with senseReq := none, oldTags := s.keepTags c })).raiseCrew
        0x0302 c)) := by
  show execSenseSwitch c s = _
  simp only [execSenseSwitch, h]

theorem showSlewing_within {α : Type} {ks : List FKey} {F : Crew → α} (h : Within ks c F s t)
    (hk : CREW_SP_STAT.SLEWING.key c ∈ ks) : Within ks c F s (showSlewing c t) := h.mark hk

theorem showSlewing_get (h : f.reg ≠ .CREW_SP_STAT ∨ f.lo ≠ CREW_SP_STAT.SLEWING.lo) :
    (showSlewing c s).get f i = s.get f i := h.elim (fun h => get_put_reg h) fun h => get_put_lo h


end Sys2Proof.Machine

namespace Sys2Proof.Proofs.Sense

open Sys2Proof Sys2Proof.Machine

/-- Settles O5: each command is put as a state built from named steps, which reads at the fields it writes as the clause says
and lies within the crew. The end of a slot is a state whose slot has been handed on (`endSlot`), after which a waiting urgent
slot or a plain one starts; a result stays as shown because its consumers write no result (`Consumed.shows`); an urgent
request waits or preempts (`preempt`); an ordered test is `orderTest`, and the sequencer's starts after the phases of the crew
have gone to rest (`readyTest`). -/
theorem slotsReferencesAndOpenWire : Obligations.SlotsReferencesAndOpenWire := by
  refine ⟨?faultNext, ?seqNext, ?result, ?code, ?faultWaits, ?faultStarts, ?rdtWaits, ?rdtRefused, ?refSel, ?settled, ?above,
    ?below, ?confirm, ?retry, ?retryOver, ?calibration, ?pull, ?toLocal, ?toRemote⟩
  case faultNext =>
    intro c u s h
    refine ⟨_, exec_hSlotEnd, ?_⟩
    have hend := endSlot_within (ks := [CREW_H_STAT.URG_BUSY.key c, CREW_H_STAT.ENTRY.key c]) (s := s) (c := c) (by simp)
    obtain ⟨hfault, -⟩ := Prod.mk.inj hend.crew
    have hu := hfault.trans h
    refine ⟨?_, startSlot_fault_slot hu, ?_, ?_, ?_, startSlot_fault_busy hu, ?_⟩
    · rw [startSlot_fault_crew hu, endSlot_hDone]
    · rw [startSlot_fault_crew hu]
    · rw [startSlot_fault_crew hu, endSlot_toEntry0]
    · rw [startSlot_fault_get hu (by decide), endSlot_entry]
      cases (s.crew c).slot.src with
      | seq e => rw [nextEntry_seq]
      | _ => rfl
    · exact (hend.forget.trans (startSlot_fault_within hu (by simp) fun _ _ => rfl)).frame
  case seqNext =>
    intro c e s h1 h2 h3
    refine ⟨_, exec_hSlotEnd, ?_⟩
    have hend := endSlot_within (ks := [CREW_H_STAT.URG_BUSY.key c, CREW_H_STAT.ENTRY.key c]) (s := s) (c := c) (by simp)
    obtain ⟨hfault, hrdt⟩ := Prod.mk.inj hend.crew
    have hentry : (endSlot c s).get CREW_H_STAT.ENTRY c = if (s.crew c).toEntry0 then 0 else s.entryAfter c e % 16 := by
      rw [endSlot_entry, h3, nextEntry_seq]
    have hlen : (endSlot c s).get CREW_H_STAT.ENTRY c ≤ (endSlot c s).get CREW_H_CTL.SEQ_LEN c := by
      rw [hentry, hend.get (rs := [.CREW_H_STAT, .CREW_H_STAT]) rfl (by decide)]
      split
      · exact Nat.zero_le _
      · exact entryAfter_le
    have h1' := hfault.trans h1
    have h2' := hrdt.trans h2
    refine ⟨?_, ?_, ?_, startSlot_plain_slot h1' h2' hlen, startSlot_plain_busy h1' h2' hlen, ?_⟩
    · rw [startSlot_plain_crew h1' h2' hlen, endSlot_hDone]
    · rw [startSlot_plain_get h1' h2' hlen (by decide), hentry]
    · rw [startSlot_plain_crew h1' h2' hlen, endSlot_toEntry0]
    · exact (hend.forget.trans (startSlot_plain_within h1' h2' hlen (by simp) fun _ _ => rfl)).frame
  case result =>
    intro c raw sl rest s h
    obtain ⟨urgent, t, hexec, hafter⟩ := exec_hResult (c := c) (raw := raw) h
    obtain ⟨hvalid, hsat, hunsettled, hgain, hcount, hresult⟩ := hafter.shows
    obtain ⟨hdone, hphases, hcrews, hmem⟩ := hafter.frame
    refine ⟨t, hexec, hvalid, hsat, hunsettled, hgain, hcount, hresult, hdone.trans (by rw [onCrew_crew]), hphases, ?_, hmem⟩
    exact fun q hq => (hcrews q hq).trans (onCrew_crew_ne (by simpa using hq))
  case code => exact fun _ _ _ => hCode_sum
  case faultWaits =>
    intro c ch rest s h hb
    have hframe : Within [] c (fun _ => ()) s (askFault c ch rest s) := .onCrew .refl rfl
    refine ⟨_, exec_urgentRequest_fault h hb, ?_⟩
    rw [preempt, if_neg (by simp)]
    have hcrew : (askFault c ch rest s).crew c = { s.crew c with faultWant := rest, urgFault := some (faultSlot ch) } := by
      rw [askFault, onCrew_crew]
    exact ⟨by rw [hcrew, faultSlot], by rw [hcrew], by rw [hcrew], hframe.frame⟩
  case faultStarts =>
    intro c ch rest s h hb hp
    have hplain : isPlain (s.crew c).slot.src = true := by
      rcases hp with hp | ⟨e, hp⟩ <;> (rw [hp]; rfl)
    refine ⟨_, exec_urgentRequest_fault h hb, ?_⟩
    rw [preempt, if_pos ⟨rfl, hplain⟩]
    have hask : Within [CREW_H_STAT.PREEMPTS.key c, CREW_H_STAT.URG_BUSY.key c] c Crew.hDone s
        ((askFault c ch rest s).bump CREW_H_STAT.PREEMPTS c) := (Within.refl.onCrew rfl).bump (by simp)
    have hcrew : ((askFault c ch rest s).bump CREW_H_STAT.PREEMPTS c).crew c =
        { s.crew c with faultWant := rest, urgFault := some (faultSlot ch) } := by
      rw [bump_crew, askFault, onCrew_crew]
    have hu : (((askFault c ch rest s).bump CREW_H_STAT.PREEMPTS c).crew c).urgFault = some (faultSlot ch) := by rw [hcrew]
    have hall := hask.trans (startSlot_fault_within hu (by simp) fun _ _ => rfl)
    refine ⟨?_, ?_, hall.crew, ?_, hall.frame⟩
    · rw [startSlot_fault_crew hu]
      exact mkSlot_congr (get_bump_lo (by decide)) rfl (by rw [hcrew]) (by rw [hcrew])
    · rw [startSlot_fault_crew hu]
    · rw [startSlot_fault_get hu (by decide), get_bump_self]
      rfl
  case rdtWaits =>
    intro c ctx ch rest s h hb
    refine ⟨_, exec_urgentRequest_rdt h hb, ?_⟩
    rw [preempt, if_neg (by simp)]
    have hframe : Within [] c (fun _ => ()) s ((dropRdt c rest s).onCrew c
      (fun k => { k with urgRdt := some (rdtSlot ctx ch (s.rdtTiming c ch)) })) := .onCrew (.onCrew .refl rfl) rfl
    refine ⟨?_, ?_, ?_, hframe.frame⟩ <;> rw [onCrew_crew, dropRdt, onCrew_crew]
  case rdtRefused =>
    intro c b ctx ch rest s h hb
    have hframe : Within [] c (fun _ => ()) s (dropRdt c rest s) := .onCrew .refl rfl
    obtain ⟨hregs, hphases, hcrews, hmem⟩ := hframe.frame
    have hcrew : (dropRdt c rest s).crew c = { s.crew c with rdtWant := rest } := onCrew_crew
    refine ⟨_, exec_urgentRequest_rdt_refused h hb, rfl, ?_, ?_, hregs, hphases, hcrews, hmem⟩
    · show ((dropRdt c rest s).crew c).rdtWant = rest
      rw [hcrew]
    · show ((dropRdt c rest s).crew c).slot = _
      rw [hcrew]
  case refSel =>
    intro m c data s h
    refine ⟨_, exec_refSel h, ?_, (refSel_regs (.put (.put .refl (by simp)) (by simp)) (by simp) (by simp)).answered,
      (refSel_block SameBlock.refl.put.put).answered⟩
    split
    · next h3 =>
      rw [h3, refSel_ignored, answered_get, answered_get, get_put_self, get_put_reg (by decide), get_put_reg (by decide)]
      exact ⟨rfl, rfl⟩
    · next h3 =>
      rw [answered_get, answered_get, (refSel_selects h3).1, (refSel_selects h3).2, Nat.mod_mod]
      exact ⟨rfl, rfl⟩
  case settled => exact fun _ _ => ⟨_, rfl, get_put_self, .put .refl (by simp), SameBlock.refl.put⟩
  case above =>
    intro c s h
    refine ⟨startConfirm c false (noteOvervoltage c true s), rfl, ?_⟩
    have hcrew := noteOvervoltage_crew (c := c) (b := true) (s := s)
    have how : ((noteOvervoltage c true s).crew c).ow = none := by rw [hcrew, h]
    obtain ⟨hrun, hstart⟩ := startConfirm_shows (r := false) how
    have hnote : Within [CREW_OW_STAT.SUSPECT.key c, CREW_OW_STAT.CONFIRM_RUN.key c] c (fun _ => ()) s
        (noteOvervoltage c true s) := noteOvervoltage_within (by simp) fun _ => rfl
    have hframe := hnote.trans (startConfirm_within (r := false) (by simp) fun _ _ _ => rfl)
    refine ⟨by rw [hstart, hcrew], ?_, hrun, by rw [hstart], by rw [hstart, hcrew], hframe.frame⟩
    rw [State.flag, startConfirm_get (by decide), ← State.flag, noteOvervoltage_suspect, Bool.or_true]
  case below =>
    intro c s
    have hframe : Within [CREW_OW_STAT.SUSPECT.key c] c (fun _ => ()) s (noteOvervoltage c false s) :=
      noteOvervoltage_within (by simp) fun _ => rfl
    exact ⟨noteOvervoltage c false s, rfl, noteOvervoltage_crew, noteOvervoltage_suspect.trans (Bool.or_false _),
      hframe.frame⟩
  case confirm => exact fun _ _ _ _ h h1 h2 how => ⟨_, exec_confirm h h1 h2, orderTest_starts how⟩
  case retry => exact fun _ _ _ _ h h1 how => ⟨_, exec_retry h h1, orderTest_starts how⟩
  case retryOver => exact fun _ _ _ _ _ h h1 how => ⟨_, exec_retry h h1, orderTest_takesOver how⟩
  case calibration =>
    intro c data s h1 h2 how
    obtain ⟨hphases, hcrews, hmem, hidle⟩ := readyTest_frame (c := c) (s := s)
    obtain ⟨hrun, hstart⟩ := startConfirm_shows (r := false) (hidle.trans how)
    have hafter : Within [CREW_OW_STAT.CONFIRM_RUN.key c] c Crew.calOw (readyTest c s) (startConfirm c false (readyTest c s)) :=
      startConfirm_within (by simp) fun _ _ _ => rfl
    refine ⟨_, exec_confirm_sequencer h1 h2, hafter.crew.trans readyTest_calOw, by rw [hstart], hrun, fun k hk => ?_,
      hphases.congr hafter.phases, fun q hq => (hafter.crews q hq).trans (hcrews q hq), hmem.congr hafter.mem hafter.flash⟩
    rw [hafter.samePhases _ List.not_mem_nil]
    exact readyTest_st hk
  case pull =>
    intro c o s h h1 h2
    exact ⟨_, exec_pullEnd h h1 h2, onCrew_crew, (Within.onCrew (F := fun _ => ()) .refl rfl).frame⟩
  case toLocal =>
    intro c s h
    refine ⟨_, exec_senseSwitch_local h, ?_, ?_, ?_, ?_, ?_⟩
    · rw [showSlewing_get (by decide), onCrew_get, get_put_reg (by decide), get_put_self]; rfl
    · rw [showSlewing_get (by decide), onCrew_get, get_put_self]; rfl
    · rw [showSlewing, State.mark, put_crew, onCrew_crew]
    · rw [showSlewing, State.mark, put_crew, onCrew_crew]
    · exact (showSlewing_within (F := fun _ => ()) (.onCrew (.put (.put .refl (by simp)) (by simp)) rfl) (by simp)).frame
  case toRemote =>
    intro c s h
    refine ⟨_, exec_senseSwitch_remote h, ?_, ?_, ?_, ?_, ?_, ?_⟩
    · rw [showSlewing_get (by decide), raiseCrew_get (by decide), onCrew_get, get_put_reg (by decide), get_put_reg (by decide),
        get_put_reg (by decide), get_put_self]; rfl
    · rw [showSlewing_get (by decide), raiseCrew_get (by decide), onCrew_get, get_put_reg (by decide), get_put_reg (by decide),
        get_put_self]; rfl
    · rw [showSlewing_get (by decide), raiseCrew_get (by decide), onCrew_get, get_put_lo (by decide), get_put_self]; rfl
    · rw [showSlewing_get (by decide), raiseCrew_get (by decide), onCrew_get, get_put_self]; rfl
    · rw [showSlewing, State.mark, put_crew]
      refine (Within.raiseCrew (F := Crew.senseReq) .refl (List.Subset.refl dropKeys) fun _ _ _ => rfl).crew.trans ?_
      rw [onCrew_crew]
    · exact (showSlewing_within (F := fun _ => ()) (.raiseCrew (.onCrew (.put (.put (.put (.put .refl (by simp)) (by simp))
        (by simp)) (by simp)) rfl) (List.subset_append_right _ _) fun _ _ _ => rfl) (by simp)).frame

end Sys2Proof.Proofs.Sense

/-! The statements of the family 04_control_datapath: the limits of the main law, the commit of coefficient slots with the return
to the main law, and setpoint commands with the slew of REF. -/

namespace Sys2Proof.Machine

open Sys2Proof

variable {s : State} {c r v : Nat} {lo hi z : Int}

/-! ## The main law (R120, R123, R127) -/

section
variable (k : Coef) (l : Law) (e ff : Int) (transfer : Bool)

/-- The integrator after an update is preset in a transfer update, held against a step in the direction in which the output was
clipped, and else stepped; what is preset or stepped saturates. -/
theorem lawStep_iacc : ∃ preset step, (lawStep k l e ff transfer).1.iacc =
    if transfer then clampI preset (-(k.iLim * 4294967296)) (k.iLim * 4294967296)
    else if (l.clip = 1 ∧ 0 < step) ∨ (l.clip = -1 ∧ step < 0) then l.iacc
    else clampI (l.iacc + step) (-(k.iLim * 4294967296)) (k.iLim * 4294967296) := ⟨_, _, rfl⟩

theorem lawStep_output : ∃ raw, (lawStep k l e ff transfer).2 = clampI raw k.outMin k.outMax := ⟨_, rfl⟩
end

/-- Clamped to an interval whose lower end x does not lie below, a number not above x does not come out above x. -/
theorem clampI_le {x : Int} (h1 : lo ≤ x) (h2 : z ≤ x) : clampI z lo hi ≤ x := by
  unfold clampI
  split_ifs <;> omega

/-- Clamped to an interval whose upper end x does not lie above, a number not below x does not come out below x. -/
theorem le_clampI {x : Int} (h1 : x ≤ hi) (h2 : x ≤ z) : x ≤ clampI z lo hi := by
  unfold clampI
  split_ifs <;> omega

/-- The two's-complement reading takes no notice of what lies beyond the bits that it reads. -/
theorem sgn_mod {n : Nat} : sgn n (v % 2 ^ n) = sgn n v := by
  rw [sgn, sgn, Nat.mod_mod]

theorem coef_limits : (s.coef c r).iLim = s.slotW c r 12 % 2 ^ 16 ∧ (s.coef c r).outMax = sgn 16 (s.slotW c r 13 / 2 ^ 16) ∧
    (s.coef c r).outMin = sgn 16 (s.slotW c r 13) := by
  refine ⟨?_, sgn_mod, ?_⟩
  · simp only [State.coef, bits]
    norm_num
  · simp only [State.coef, bits, pow_zero, Nat.div_one]
    exact sgn_mod

end Sys2Proof.Machine

namespace Sys2Proof.Proofs.Datapath

open Sys2Proof Sys2Proof.Machine

/-- Settles O6: the integrator is a clamped value or its old one, and the output a clamped one; after a clipped output a step in
its direction is held, and any other, clamped, does not come out beyond the old value. -/
theorem lawLimits : Obligations.LawLimits := by
  refine ⟨fun k l e ff transfer h1 h2 h3 h4 => ?_, fun s c r => coef_limits⟩
  obtain ⟨preset, step, hi⟩ := lawStep_iacc k l e ff transfer
  obtain ⟨raw, ho⟩ := lawStep_output k l e ff transfer
  have hlim : (2 : Int) ^ 32 = 4294967296 := rfl
  rw [hi, ho]
  rw [hlim] at h3 h4 ⊢
  have horder : -(k.iLim * 4294967296) ≤ k.iLim * 4294967296 := by omega
  refine ⟨?_, clampI_bounds h2, fun ht hc => ?_, fun ht hc => ?_⟩
  · split_ifs
    · exact clampI_bounds horder
    · exact ⟨h3, h4⟩
    · exact clampI_bounds horder
  · subst ht
    rw [if_neg Bool.false_ne_true]
    split_ifs with hheld
    · exact le_rfl
    · have hstep : step ≤ 0 := not_lt.mp fun hs => hheld (.inl ⟨hc, hs⟩)
      exact clampI_le h3 (by omega)
  · subst ht
    rw [if_neg Bool.false_ne_true]
    split_ifs with hheld
    · exact le_rfl
    · have hstep : 0 ≤ step := not_lt.mp fun hs => hheld (.inr ⟨hc, hs⟩)
      exact le_clampI h4 (by omega)

end Sys2Proof.Proofs.Datapath

namespace Sys2Proof.Machine

open Sys2Proof

variable {s t u : State} {m : Master} {f g : Fld} {c i j q r v w mask data : Nat} {b : Bool} {held : List (Nat × Nat)}

/-! ## Folds in which each step acts at one place -/

/-- Where each step of a fold over a list without repeats leaves what R compares at the places of the others, what the fold
leaves at a place of the list is what that place's own step left there, and that step found there what the fold had found. -/
theorem forAll_reaches {R : Nat → State → State → Prop} {ks : List Nat} {F : State → Nat → State} (hrefl : ∀ q u, R q u u)
    (htrans : ∀ q x y z, R q x y → R q y z → R q x z) (hne : ∀ u, ∀ k ∈ ks, ∀ q ∈ ks, q ≠ k → R q u (F u k)) (hnd : ks.Nodup)
    (hq : q ∈ ks) : ∃ u, R q s u ∧ R q (F u q) (forAll ks F s) := by
  induction ks generalizing s with
  | nil => exact absurd hq List.not_mem_nil
  | cons k r ih =>
    obtain ⟨hk, hr⟩ := List.nodup_cons.mp hnd
    rcases List.mem_cons.mp hq with rfl | hqr
    · refine ⟨s, hrefl _ _, forAll_keeps (P := R q (F s q)) (t := F s q) (fun u j hj h => htrans _ _ _ _ h ?_) (hrefl _ _)⟩
      exact hne u j (List.mem_cons_of_mem _ hj) q List.mem_cons_self fun e => hk (e ▸ hj)
    · obtain ⟨u, h1, h2⟩ := ih (s := F s k)
        (fun u j hj p hp => hne u j (List.mem_cons_of_mem _ hj) p (List.mem_cons_of_mem _ hp)) hr hqr
      exact ⟨u, htrans _ _ _ _ (hne s k List.mem_cons_self q hq fun e => hk (e ▸ hqr)) h1, h2⟩

/-! ## The copy of coefficient slots (R127 to R129) -/

/-- The state in which the shadow words of region r of crew c have been copied into its active slot. -/
def copySlot (c r : Nat) (s : State) : State :=
  forAll (List.range 16) (fun s w => s.put SLOT_ACTIVE.W (256 * c + 16 * r + w) (s.get SLOT_SHADOW.W (256 * c + 16 * r + w))) s

/-- A slot that passes the check is copied, which is a transfer for the region in force; one that fails is marked. -/
theorem commitOne_eq : commitOne c s r = if s.slotOk c r then
      if (copySlot c r s).get CREW_DP_STAT.REGION c = r then (copySlot c r s).onCrew c (fun k => { k with transfer := k.reg })
      else copySlot c r s
    else s.setOverBit CREW_DP_COMMIT_ERR.ERR c r := rfl

/-- The fields that a commit of crew c may write. -/
def commitKeys (c : Nat) : List FKey :=
  [CREW_DP_STAT.COMMIT_PEND.key c, CREW_DP_COMMIT_ERR.ERR.key c] ++ (List.range 256).map fun k => SLOT_ACTIVE.W.key (256 * c + k)

theorem active_mem_commitKeys (hr : r < 16) (hw : w < 16) : SLOT_ACTIVE.W.key (256 * c + 16 * r + w) ∈ commitKeys c :=
  List.mem_append_right _ (List.mem_map.mpr ⟨16 * r + w, List.mem_range.mpr (by omega), by rw [Nat.add_assoc]⟩)

/-- A register without fields that a commit writes. -/
theorem not_mem_commitKeys (h : f.reg ∉ [.CREW_DP_STAT, .CREW_DP_COMMIT_ERR, .SLOT_ACTIVE]) : f.key i ∉ commitKeys c := by
  simp only [List.mem_cons, List.not_mem_nil, or_false, not_or] at h
  obtain ⟨hstat, herr, hactive⟩ := h
  simp only [commitKeys, List.mem_append, List.mem_cons, List.mem_map, List.not_mem_nil, or_false, Fld.key, FKey.mk.injEq]
  rintro ((⟨e, -⟩ | ⟨e, -⟩) | ⟨k, -, e, -⟩)
  · exact hstat e
  · exact herr e
  · exact hactive e.symm

section
variable {α : Type} {F : Crew → α}

theorem copySlot_within (hr : r < 16) : Within (commitKeys c) c F s (copySlot c r s) :=
  forAll_keeps (P := Within (commitKeys c) c F s)
    (fun _ _ hw h => h.put (active_mem_commitKeys hr (List.mem_range.mp hw))) .refl

theorem commitOne_within (hF : ∀ k b, F { k with transfer := b } = F k) (hr : r < 16) :
    Within (commitKeys c) c F s (commitOne c s r) := by
  rw [commitOne_eq]
  have hcopy : Within (commitKeys c) c F s (copySlot c r s) := copySlot_within hr
  refine .ite (.ite (hcopy.onCrew (hF _ _)) hcopy) ?_
  exact (Within.refl.put (by simp [commitKeys])).trans ⟨.refl, rfl, rfl, rfl, .refl, rfl⟩
end

theorem copySlot_get (h : f.reg ≠ .SLOT_ACTIVE) : (copySlot c r s).get f i = s.get f i :=
  forAll_keeps (P := fun u => u.get f i = s.get f i) (fun _ _ _ hu => (get_put_reg h).trans hu) rfl

/-- A copy makes each word of the active slot the shadow slot's. -/
theorem copySlot_active (hw : w < 16) : (copySlot c r s).get SLOT_ACTIVE.W (256 * c + 16 * r + w) =
    s.get SLOT_SHADOW.W (256 * c + 16 * r + w) % 2 ^ 32 := by
  obtain ⟨u, hu, ht⟩ := forAll_reaches (s := s) (q := w) (ks := List.range 16)
    (F := fun s w => s.put SLOT_ACTIVE.W (256 * c + 16 * r + w) (s.get SLOT_SHADOW.W (256 * c + 16 * r + w)))
    (R := fun w x y => y.get SLOT_ACTIVE.W (256 * c + 16 * r + w) = x.get SLOT_ACTIVE.W (256 * c + 16 * r + w) ∧
      ∀ i, y.get SLOT_SHADOW.W i = x.get SLOT_SHADOW.W i)
    (fun _ _ => ⟨rfl, fun _ => rfl⟩)
    (fun _ _ _ _ ⟨h1, h2⟩ ⟨h3, h4⟩ => ⟨h3.trans h1, fun i => (h4 i).trans (h2 i)⟩)
    (fun _ _ _ _ _ hne => ⟨get_put_inst (by omega), fun _ => get_put_reg (by decide)⟩) List.nodup_range (List.mem_range.mpr hw)
  obtain ⟨-, hshadow⟩ := hu
  rw [copySlot, ht.1, get_put_self, hshadow]
  rfl

/-- A copy leaves the words of other active slots. -/
theorem copySlot_active_ne (hw : w < 16) (h : q ≠ r) : (copySlot c r s).get SLOT_ACTIVE.W (256 * c + 16 * q + w) =
    s.get SLOT_ACTIVE.W (256 * c + 16 * q + w) :=
  forAll_keeps (P := fun u => u.get SLOT_ACTIVE.W (256 * c + 16 * q + w) = s.get SLOT_ACTIVE.W (256 * c + 16 * q + w))
    (fun _ _ hk hu => (get_put_inst (by have := List.mem_range.mp hk; omega)).trans hu) rfl

/-- In a word of which bit k has been replaced every other bit is as it was. -/
theorem bitAt_setBit_ne {k : Nat} (h : j ≠ k) : bitAt (setBit v k b) j = bitAt v j := by
  rw [setBit, bitAt_setBits, if_neg (by omega)]

theorem setOverBit_get {k : Nat} (h : f.reg ≠ g.reg) : (s.setOverBit g j k).get f i = s.get f i := by
  rw [State.setOverBit, get_putWas, State.putBit, get_put_reg h]

theorem setOverBit_bit {k : Nat} (h : j < f.width) :
    bitAt ((s.setOverBit f i k).get f i) j = (bitAt (s.get f i) j || decide (j = k)) := by
  rw [State.setOverBit, get_putWas]
  by_cases hk : j = k
  · subst hk; simp [putBit_bit h]
  · rw [State.putBit, get_put_self, bitAt_mod h, bitAt_setBit_ne hk, decide_eq_false hk, Bool.or_false]

/-- The check of a slot depends on the shadow words. -/
theorem slotOk_congr (h : ∀ i, t.get SLOT_SHADOW.W i = s.get SLOT_SHADOW.W i) : t.slotOk c r = s.slotOk c r := by
  simp only [State.slotOk, h]

/-- From s to t, of what a commit brings to region r of crew c nothing has come: its active slot and its mark are as they were;
and so are the shadow words. -/
structure SlotSame (c r : Nat) (s t : State) : Prop where
  active : ∀ w, w < 16 → t.get SLOT_ACTIVE.W (256 * c + 16 * r + w) = s.get SLOT_ACTIVE.W (256 * c + 16 * r + w)
  err : bitAt (t.get CREW_DP_COMMIT_ERR.ERR c) r = bitAt (s.get CREW_DP_COMMIT_ERR.ERR c) r
  shadow : ∀ i, t.get SLOT_SHADOW.W i = s.get SLOT_SHADOW.W i

/-- From s to t the slot of region r of crew c has been copied where y holds and it passes the check, and marked where y holds
and it fails. -/
structure SlotCommitted (c r : Nat) (y : Bool) (s t : State) : Prop where
  active : ∀ w, w < 16 → t.get SLOT_ACTIVE.W (256 * c + 16 * r + w) =
    if y && s.slotOk c r then s.get SLOT_SHADOW.W (256 * c + 16 * r + w) % 2 ^ 32
    else s.get SLOT_ACTIVE.W (256 * c + 16 * r + w)
  err : bitAt (t.get CREW_DP_COMMIT_ERR.ERR c) r = (bitAt (s.get CREW_DP_COMMIT_ERR.ERR c) r || (y && !s.slotOk c r))

theorem SlotSame.refl : SlotSame c r s s := ⟨fun _ _ => rfl, rfl, fun _ => rfl⟩

theorem SlotSame.trans (h : SlotSame c r s t) (h' : SlotSame c r t u) : SlotSame c r s u :=
  ⟨fun w hw => (h'.active w hw).trans (h.active w hw), h'.err.trans h.err, fun i => (h'.shadow i).trans (h.shadow i)⟩

/-- A slot that is neither copied nor marked. -/
theorem SlotSame.committed (h : SlotSame c r s t) : SlotCommitted c r false s t :=
  ⟨fun w hw => (h.active w hw).trans (by simp), h.err.trans (by simp)⟩

theorem SlotCommitted.of_same {x y : State} (h1 : SlotSame c r s x) (h : SlotCommitted c r b x y) (h2 : SlotSame c r y t) :
    SlotCommitted c r b s t := by
  refine ⟨fun w hw => (h2.active w hw).trans ((h.active w hw).trans ?_), h2.err.trans (h.err.trans ?_)⟩
  · rw [slotOk_congr h1.shadow, h1.shadow, h1.active w hw]
  · rw [slotOk_congr h1.shadow, h1.err]

theorem commitOne_get (h : f.reg ∉ [.SLOT_ACTIVE, .CREW_DP_COMMIT_ERR]) : (commitOne c s r).get f i = s.get f i := by
  simp only [List.mem_cons, List.not_mem_nil, or_false, not_or] at h
  obtain ⟨hactive, herr⟩ := h
  rw [commitOne_eq]
  split_ifs
  · rw [onCrew_get, copySlot_get hactive]
  · rw [copySlot_get hactive]
  · rw [setOverBit_get herr]

theorem commitOne_slot (h : s.slotOk c r = true) : (commitOne c s r).get f i = (copySlot c r s).get f i := by
  rw [commitOne_eq, if_pos h]
  split
  · rw [onCrew_get]
  · rfl

theorem commitOne_fails (h : s.slotOk c r = false) : commitOne c s r = s.setOverBit CREW_DP_COMMIT_ERR.ERR c r := by
  rw [commitOne_eq, if_neg (by simp [h])]

/-- A region's own commit copies its slot or marks it. -/
theorem commitOne_committed (hr : r < 16) : SlotCommitted c r true s (commitOne c s r) := by
  cases hok : s.slotOk c r with
  | true =>
    refine ⟨fun w hw => ?_, ?_⟩
    · rw [commitOne_slot hok, copySlot_active hw, hok]; rfl
    · rw [commitOne_slot hok, copySlot_get (by decide), hok]; simp
  | false =>
    rw [commitOne_fails hok]
    refine ⟨fun w _ => ?_, ?_⟩
    · rw [setOverBit_get (by decide), hok]; rfl
    · rw [setOverBit_bit hr, hok]; simp

/-- A region's commit brings nothing to another region. -/
theorem commitOne_same (hq : q < 16) (h : q ≠ r) : SlotSame c q s (commitOne c s r) := by
  cases hok : s.slotOk c r with
  | true =>
    refine ⟨fun w hw => ?_, ?_, fun _ => commitOne_get (by decide)⟩
    · rw [commitOne_slot hok, copySlot_active_ne hw h]
    · rw [commitOne_slot hok, copySlot_get (by decide)]
  | false =>
    refine ⟨fun w _ => ?_, ?_, fun _ => commitOne_get (by decide)⟩ <;> rw [commitOne_fails hok]
    · exact setOverBit_get (by decide)
    · rw [setOverBit_bit hq, decide_eq_false h, Bool.or_false]

theorem mem_maskList {n : Nat} : r ∈ maskList v n ↔ r < n ∧ bitAt v r = true := by
  rw [maskList, List.mem_filter, List.mem_range, bitAt]

/-- The commit of a mask copies or marks the slots of the mask's regions, and no others. -/
theorem commitMask_committed (hr : r < 16) : SlotCommitted c r (bitAt mask r) s (forAll (maskList mask 16) (commitOne c) s) := by
  cases hm : bitAt mask r with
  | true =>
    obtain ⟨u, hu, ht⟩ := forAll_reaches (R := SlotSame c) (s := s) (q := r) (F := commitOne c) (fun _ _ => .refl)
      (fun _ _ _ _ h h' => h.trans h') (fun u k _ q hq hne => commitOne_same (mem_maskList.mp hq).1 hne)
      (List.nodup_range.filter _) (mem_maskList.mpr ⟨hr, hm⟩)
    exact (commitOne_committed hr).of_same hu ht
  | false =>
    refine (forAll_keeps (P := SlotSame c r s) (fun u k hk h => h.trans (commitOne_same hr fun e => ?_)) .refl).committed
    rw [e, (mem_maskList.mp hk).2] at hm
    cases hm

theorem commitMask_within : Within (commitKeys c) c Crew.heldSlots s (forAll (maskList mask 16) (commitOne c) s) :=
  forAll_keeps (P := Within (commitKeys c) c Crew.heldSlots s)
    (fun _ _ hk h => h.trans (commitOne_within (fun _ _ => rfl) (mem_maskList.mp hk).1)) .refl

/-! ## Held shadow writes (R129) -/

/-- The state in which held shadow writes have been applied in their order. -/
def applyHeld (held : List (Nat × Nat)) (s : State) : State := held.foldl (fun s e => s.put SLOT_SHADOW.W e.1 e.2) s

theorem applyHeld_concat {e : Nat × Nat} : applyHeld (held ++ [e]) s = (applyHeld held s).put SLOT_SHADOW.W e.1 e.2 :=
  List.foldl_append

/-- Held writes change shadow words alone. -/
theorem applyHeld_within {α : Type} {F : Crew → α} :
    Within (held.map fun e => SLOT_SHADOW.W.key e.1) c F s (applyHeld held s) := by
  suffices h : ∀ l ⊆ held, ∀ x, Within (held.map fun e => SLOT_SHADOW.W.key e.1) c F s x →
      Within (held.map fun e => SLOT_SHADOW.W.key e.1) c F s (applyHeld l x) from h held (List.Subset.refl _) s .refl
  intro l hl
  induction l with
  | nil => exact fun _ hx => hx
  | cons e r ih =>
    obtain ⟨he, hr⟩ := List.cons_subset.mp hl
    exact fun x hx => ih hr _ (hx.put (List.mem_map_of_mem he))

theorem applyHeld_get (h : f.reg ≠ .SLOT_SHADOW) : (applyHeld held s).get f i = s.get f i := by
  refine (applyHeld_within (c := 0) (F := fun _ => ())).regs f i fun hk => h ?_
  obtain ⟨e, -, he⟩ := List.mem_map.mp hk
  exact (congrArg FKey.reg he).symm

/-- Each shadow word has the last value held for it, and what it had where none is held. -/
theorem applyHeld_shadow : (applyHeld held s).get SLOT_SHADOW.W i =
    ((held.reverse.find? fun e => e.1 == i).map fun e => e.2 % 2 ^ 32).getD (s.get SLOT_SHADOW.W i) := by
  induction held using List.reverseRecOn with
  | nil => rfl
  | append_singleton l e ih =>
    rw [applyHeld_concat, List.reverse_concat, List.find?_cons]
    by_cases hi : e.1 = i
    · subst hi; simp [SLOT_SHADOW.W, Fld.width]
    · rw [get_put_inst (Ne.symm hi), ih, beq_false_of_ne hi]

/-! ## A commit as a whole (R128, R129) -/

/-- From s to t the commit of a mask at crew c has ended: the slots of its regions are copied or marked, the writes held at s
are applied, and nothing pends. -/
structure Committed (c mask : Nat) (s t : State) : Prop where
  pend : t.get CREW_DP_STAT.COMMIT_PEND c = 0
  commit : (t.crew c).commit = 0
  held : (t.crew c).heldSlots = []
  slots : ∀ r, r < 16 → SlotCommitted c r (bitAt mask r) s t
  shadow : ∀ i, t.get SLOT_SHADOW.W i =
    (((s.crew c).heldSlots.reverse.find? fun e => e.1 == i).map fun e => e.2 % 2 ^ 32).getD (s.get SLOT_SHADOW.W i)
  phases : SamePhases [] s t
  crews : SameCrews [c] s t
  mem : SameMem s t

/-- The state in which the mask of crew c has been copied and nothing pends. -/
def endCommit (c : Nat) (s : State) : State :=
  ((forAll (maskList (s.crew c).commit 16) (commitOne c) s).put CREW_DP_STAT.COMMIT_PEND c 0).onCrew c
    (fun k => { k with commit := 0, heldSlots := [] })

theorem commitCopy_eq : commitCopy c s = applyHeld (s.crew c).heldSlots (endCommit c s) := rfl

theorem endCommit_within : Within (commitKeys c) c (fun _ => ()) s (endCommit c s) :=
  .onCrew (commitMask_within.forget.put (by simp [commitKeys])) rfl

theorem endCommit_slot (hr : r < 16) : SlotCommitted c r (bitAt (s.crew c).commit r) s (endCommit c s) :=
  (commitMask_committed hr).of_same .refl
    ⟨fun _ _ => get_put_reg (by decide), congrArg (bitAt · r) (get_put_reg (by decide)), fun _ => get_put_reg (by decide)⟩

theorem commitCopy_committed : Committed c (s.crew c).commit s (commitCopy c s) := by
  rw [commitCopy_eq]
  generalize hheld : (s.crew c).heldSlots = held
  have hcrew : (applyHeld held (endCommit c s)).crew c = (endCommit c s).crew c := applyHeld_within (F := id).crew
  obtain ⟨hcommit, hnone⟩ : ((endCommit c s).crew c).commit = 0 ∧ ((endCommit c s).crew c).heldSlots = [] := by
    rw [endCommit, onCrew_crew]
    exact ⟨rfl, rfl⟩
  have hall : Within _ c (fun _ => ()) (endCommit c s) (applyHeld held (endCommit c s)) := applyHeld_within
  refine ⟨?_, by rw [hcrew, hcommit], by rw [hcrew, hnone], fun r hr => ⟨fun w hw => ?_, ?_⟩, fun i => ?_,
    endCommit_within.samePhases.congr hall.phases, fun q hq => (hall.crews q hq).trans (endCommit_within.crews q hq),
    endCommit_within.sameMem.congr hall.mem hall.flash⟩
  · rw [applyHeld_get (by decide), endCommit, onCrew_get, get_put_self, Nat.zero_mod]
  · rw [applyHeld_get (by decide), (endCommit_slot hr).active w hw]
  · rw [applyHeld_get (by decide), (endCommit_slot hr).err]
  · rw [applyHeld_shadow, hheld, endCommit_within.regs _ _ (not_mem_commitKeys (by decide))]

/-- The state in which the commit of a further mask of crew c pends. -/
def pendCommit (c mask : Nat) (s : State) : State :=
  (s.put CREW_DP_STAT.COMMIT_PEND c 1).onCrew c (fun k => { k with commit := k.commit ||| mask })

theorem commitWrite_eq : commitWrite c mask s =
    if s.crewDown c then commitCopy c (pendCommit c mask s) else pendCommit c mask s := by
  have hdown : (pendCommit c mask s).crewDown c = s.crewDown c := crewDown_congr (get_put_reg (by decide))
  rw [← hdown]
  rfl

theorem pendCommit_pend : (pendCommit c mask s).get CREW_DP_STAT.COMMIT_PEND c = 1 := by
  rw [pendCommit, onCrew_get, get_put_self]; rfl

theorem pendCommit_crew : (pendCommit c mask s).crew c = { s.crew c with commit := (s.crew c).commit ||| mask } := by
  rw [pendCommit, onCrew_crew, put_crew]

theorem pendCommit_within : Within [CREW_DP_STAT.COMMIT_PEND.key c] c Crew.heldSlots s (pendCommit c mask s) :=
  .onCrew (.put .refl (by simp)) rfl

theorem pendCommit_get (h : f.reg ≠ .CREW_DP_STAT) : (pendCommit c mask s).get f i = s.get f i := by
  rw [pendCommit, onCrew_get, get_put_reg h]

/-- A commit written to a crew that is off or stood down ends at once, with what pended. -/
theorem commitCopy_pendCommit_committed :
    Committed c ((s.crew c).commit ||| mask) s (commitCopy c (pendCommit c mask s)) := by
  have h := commitCopy_committed (c := c) (s := pendCommit c mask s)
  rw [pendCommit_crew] at h
  refine ⟨h.pend, h.commit, h.held, fun r hr => (h.slots r hr).of_same ?_ .refl, fun i => ?_,
    pendCommit_within.samePhases.trans h.phases, fun q hq => (h.crews q hq).trans (pendCommit_within.crews q hq),
    pendCommit_within.sameMem.trans h.mem⟩
  · exact ⟨fun _ _ => pendCommit_get (by decide), by rw [pendCommit_get (by decide)], fun _ => pendCommit_get (by decide)⟩
  · rw [h.shadow, pendCommit_within.crew, pendCommit_get (by decide)]

theorem exec_commit (h : s.Takes m .CREW_DP_COMMIT c data) :
    exec (.commit m c data) s = .next ((commitWrite c (data % 2 ^ 16) s).answered 0) := by
  refine (congrArg Host.Outcome.next (takes_CREW_DP_COMMIT h)).trans ?_
  rw [← Nat.mod_mod_of_dvd data (show 2 ^ 16 ∣ 2 ^ 32 by decide)]
  rfl

theorem exec_commitCopy (h1 : s.flag CREW_DP_STAT.COMMIT_PEND c = true) (h2 : (s.crew c).busy = false) :
    exec (.commitCopy c) s = .next (commitCopy c s) := congrArg Host.Outcome.next (if_pos ⟨h1, by simp [h2]⟩)

/-! ## The return to the main law (R141) -/

/-- The state in which a write of CREW_DP_CTL is stored. -/
def storeDpCtl (c v : Nat) (s : State) : State :=
  (s.put CREW_DP_CTL.WARN_TH c (CREW_DP_CTL.WARN_TH.ofWord v)).put CREW_DP_CTL.IFILT_K c (CREW_DP_CTL.IFILT_K.ofWord v)

theorem storeDpCtl_get (h : f.reg ≠ .CREW_DP_CTL) : (storeDpCtl c v s).get f i = s.get f i := by
  rw [storeDpCtl, get_put_reg h, get_put_reg h]

theorem storeDpCtl_crew : (storeDpCtl c v s).crew q = s.crew q := rfl

theorem exec_resume (h : s.Takes m .CREW_DP_CTL c data) (h1 : CREW_DP_CTL.RESUME.ofWord data = 1) :
    exec (.resume m c data) s = .next ((resumeWrite c (storeDpCtl c (data % 2 ^ 32) s)).answered 0) := by
  refine (congrArg Host.Outcome.next (takes_CREW_DP_CTL h)).trans (congrArg (fun x => Host.Outcome.next (State.answered x 0)) ?_)
  have hbit : data % 2 ^ 32 / 2 ^ 0 % 2 ^ 1 = 1 := (ofWord_mod (f := CREW_DP_CTL.RESUME) (by decide)).trans h1
  exact if_pos (by rwa [pow_zero, Nat.div_one] at hbit)

theorem resumeWrite_within {ks : List FKey} (hk : CREW_DP_STAT.RESUME_STAT.key c ∈ ks) (h : Within ks c (fun _ => ()) s t) :
    Within ks c (fun _ => ()) s (resumeWrite c t) :=
  .ite (h.put hk) (.ite (h.put hk) ((h.put hk).onCrew rfl))

/-- RESUME is refused while the fallback law does not run, or with fewer than 1,024 prompt completions, and else accepted. -/
theorem resumeWrite_shows : (resumeWrite c s).get CREW_DP_STAT.RESUME_STAT c =
      (if s.flag CREW_DP_STAT.LAW c = false then 3 else if (s.crew c).goodRun < 1024 then 2 else 1) ∧
    ((resumeWrite c s).crew c).resumeNow =
      ((s.crew c).resumeNow || (s.flag CREW_DP_STAT.LAW c && decide (1024 ≤ (s.crew c).goodRun))) := by
  unfold resumeWrite
  cases s.flag CREW_DP_STAT.LAW c with
  | false =>
    rw [if_pos Bool.false_ne_true, if_pos rfl, get_put_self, put_crew, Bool.false_and, Bool.or_false]
    exact ⟨rfl, rfl⟩
  | true =>
    rw [if_neg (not_not_intro rfl), if_neg Bool.true_eq_false.mp, Bool.true_and]
    by_cases hrun : (s.crew c).goodRun < 1024
    · rw [if_pos hrun, if_pos hrun, get_put_self, put_crew, decide_eq_false (Nat.not_le.mpr hrun), Bool.or_false]
      exact ⟨rfl, rfl⟩
    · rw [if_neg hrun, if_neg hrun, onCrew_get, get_put_self, onCrew_crew, decide_eq_true (Nat.le_of_not_lt hrun), Bool.or_true]
      exact ⟨rfl, rfl⟩

end Sys2Proof.Machine

namespace Sys2Proof.Proofs.Datapath

open Sys2Proof Sys2Proof.Machine

/-- Settles O8: a commit of a mask is a fold in which each region's step touches its own slot and mark alone (`commitOne_same`),
so that the fold leaves at a region what its own step left there (`commitMask_committed`); the writes held then apply in order
(`applyHeld_shadow`). A commit written to a crew that is down is that copy from the state in which it pends. -/
theorem commitAndResume : Obligations.CommitAndResume := by
  refine ⟨?pends, ?copies, ?atOnce, ?resume⟩
  case pends =>
    intro m c data s h hdown
    refine ⟨_, exec_commit h, ?_⟩
    rw [commitWrite_eq, if_neg (by simp [hdown])]
    exact ⟨pendCommit_pend (mask := data % 2 ^ 16), by rw [answered_crew, pendCommit_crew], pendCommit_within.answered.frame⟩
  case copies =>
    intro c s hpend hbusy
    have h := commitCopy_committed (c := c) (s := s)
    refine ⟨_, exec_commitCopy hpend hbusy, h.pend, h.commit, h.held, fun r w hr => (h.slots r hr).active w,
      fun r hr => (h.slots r hr).err, fun i => (h.shadow i).trans ?_, h.phases, h.crews, h.mem⟩
    cases (s.crew c).heldSlots.reverse.find? fun e => e.1 == i <;> rfl
  case atOnce =>
    intro m c data s h hdown
    refine ⟨_, exec_commit h, ?_⟩
    rw [commitWrite_eq, if_pos hdown]
    have h := commitCopy_pendCommit_committed (c := c) (mask := data % 2 ^ 16) (s := s)
    refine ⟨h.pend, h.commit, h.held, fun r w hr => (h.slots r hr).active w, fun r hr => (h.slots r hr).err,
      fun i => (h.shadow i).trans ?_, h.phases.answered, h.crews.answered, h.mem.answered, rfl⟩
    cases (s.crew c).heldSlots.reverse.find? fun e => e.1 == i <;> rfl
  case resume =>
    intro m c data s h hresume
    refine ⟨_, exec_resume h hresume, ?_⟩
    obtain ⟨hstat, hnow⟩ := resumeWrite_shows (c := c) (s := storeDpCtl c (data % 2 ^ 32) s)
    rw [State.flag, storeDpCtl_get (by decide), ← State.flag, storeDpCtl_crew] at hstat hnow
    exact ⟨hstat, hnow, (resumeWrite_within (by simp) (.put (.put .refl (by simp)) (by simp))).answered.frame⟩

end Sys2Proof.Proofs.Datapath

namespace Sys2Proof.Machine

open Sys2Proof

variable {s t u x y : State} {f : Fld} {c i k q op code slew n : Nat} {quiet : Bool} {o : Op} {rest : List Op}

/-! ## A setpoint command at a crew (R134, R136, R137) -/

/-- The fields that a setpoint command writes at its crew. -/
def setpointFields : List Fld :=
  [CREW_SP_STAT.TARGET, CREW_SP_STAT.SLEW, CREW_SP_STAT.SLEWING, CREW_SP_SEQ.ACCEPTED, CREW_SP_SUP_CNT.SUPERSEDED,
    CREW_GB_STAT.RAISED, CREW_GB_STAT.UNREACH]

/-- The fields that a setpoint command at crew c may change. -/
def setpointKeys (c : Nat) : List FKey := setpointFields.map (·.key c) ++ dropKeys

theorem mem_setpointKeys {g : Fld} (h : g ∈ setpointFields) : g.key c ∈ setpointKeys c :=
  List.mem_append_left _ (List.mem_map_of_mem (f := (·.key c)) h)

theorem dropKeys_subset_setpointKeys : dropKeys ⊆ setpointKeys c := List.subset_append_right _ _

/-- A field at another crew, or of a register that no setpoint command writes. -/
theorem not_mem_setpointKeys (h1 : f.reg ≠ .FLT_DROP) (h2 : f.reg ∈ setpointFields.map Fld.reg → i ≠ c) :
    f.key i ∉ setpointKeys c := by
  intro hk
  rcases List.mem_append.mp hk with hk | hk
  · obtain ⟨g, hg, he⟩ := List.mem_map.mp hk
    obtain ⟨hreg, hinst, -⟩ := FKey.mk.inj he
    exact h2 (hreg ▸ List.mem_map_of_mem hg) hinst.symm
  · simp only [dropKeys, List.mem_cons, List.not_mem_nil, or_false] at hk
    rcases hk with he | he <;> exact h1 (congrArg FKey.reg he)

/-- The state in which crew c has recorded that a command was clamped, where it was, and the command that it replaces is
superseded. -/
def replaceCommand (c op : Nat) (clamped : Prop) [Decidable clamped] (s : State) : State :=
  let s := if clamped then s.raiseCrew 0x0401 c else s
  let s := if (s.crew c).cmdOpen then s.bump CREW_SP_SUP_CNT.SUPERSEDED c else s
  { s with tracks := trackSuper op c s.tracks }

/-- The state in which a command is in force at crew c. -/
def storeCommand (c op code slew : Nat) (quiet : Bool) (s : State) : State :=
  (((s.put CREW_SP_STAT.TARGET c code).put CREW_SP_STAT.SLEW c slew).wrap CREW_SP_SEQ.ACCEPTED c).onCrew c
    (fun k => { k with cmdOp := some op, cmdOpen := true, quiet := quiet, raisedRec := false, floorFell := false })

theorem setpoint_eq : setpoint c op code slew quiet s =
    showSlewing c (showMargin c (storeCommand c op (clampN code (s.winLo c) (s.winHi c)) (clampN slew 4 s.slewMax) quiet
      (replaceCommand c op ((clampN code (s.winLo c) (s.winHi c) ≠ code ∨ clampN slew 4 s.slewMax ≠ slew) ∧ ¬ quiet) s))) := rfl

section
variable {p : Prop} [Decidable p]

theorem replaceCommand_within : Within (setpointKeys c) c (fun _ => ()) s (replaceCommand c op p s) := by
  unfold replaceCommand
  extract_lets s1 s2
  have h1 : Within (setpointKeys c) c (fun _ => ()) s s1 :=
    .ite (.raiseCrew .refl dropKeys_subset_setpointKeys fun _ _ _ => rfl) .refl
  have h2 : Within (setpointKeys c) c (fun _ => ()) s s2 :=
    .ite (h1.bump (mem_setpointKeys (by simp [setpointFields]))) h1
  exact h2.trans ⟨.refl, rfl, rfl, rfl, .refl, rfl⟩

theorem replaceCommand_get (h1 : f.reg ≠ .FLT_DROP) (h2 : f.reg ≠ .CREW_SP_SUP_CNT) :
    (replaceCommand c op p s).get f i = s.get f i := by
  unfold replaceCommand
  extract_lets s1 s2
  have hs1 : s1.get f i = s.get f i := by
    unfold s1
    split
    · exact raiseCrew_get h1
    · rfl
  have hs2 : s2.get f i = s1.get f i := by
    unfold s2
    split
    · exact get_bump_reg h2
    · rfl
  exact hs2.trans hs1

/-- One more command is superseded where one was open. -/
theorem replaceCommand_superseded : (replaceCommand c op p s).get CREW_SP_SUP_CNT.SUPERSEDED c =
    if (s.crew c).cmdOpen then CREW_SP_SUP_CNT.SUPERSEDED.count (s.get CREW_SP_SUP_CNT.SUPERSEDED c)
    else s.get CREW_SP_SUP_CNT.SUPERSEDED c := by
  unfold replaceCommand
  extract_lets s1 s2
  have hget : s1.get CREW_SP_SUP_CNT.SUPERSEDED c = s.get CREW_SP_SUP_CNT.SUPERSEDED c := by
    unfold s1
    split
    · exact raiseCrew_get (by decide)
    · rfl
  have hopen : (s1.crew c).cmdOpen = (s.crew c).cmdOpen :=
    (Within.ite (ks := setpointKeys c) (.raiseCrew .refl dropKeys_subset_setpointKeys fun _ _ _ => rfl) .refl).crew
  show s2.get CREW_SP_SUP_CNT.SUPERSEDED c = _
  rw [← hopen, ← hget]
  unfold s2
  split
  · exact get_bump_self
  · rfl
end

theorem storeCommand_within : Within (setpointKeys c) c (fun _ => ()) s (storeCommand c op code slew quiet s) :=
  (((Within.refl.put (mem_setpointKeys (by simp [setpointFields]))).put (mem_setpointKeys (by simp [setpointFields]))).wrap
    (mem_setpointKeys (by simp [setpointFields]))).onCrew rfl

theorem storeCommand_get (h1 : f.reg ≠ .CREW_SP_STAT) (h2 : f.reg ≠ .CREW_SP_SEQ) :
    (storeCommand c op code slew quiet s).get f i = s.get f i := by
  rw [storeCommand, onCrew_get, get_wrap_reg h2, get_put_reg h1, get_put_reg h1]

theorem storeCommand_cmdOp : ((storeCommand c op code slew quiet s).crew c).cmdOp = some op := by rw [storeCommand, onCrew_crew]

theorem storeCommand_target : (storeCommand c op code slew quiet s).get CREW_SP_STAT.TARGET c = code % 2 ^ 12 := by
  rw [storeCommand, onCrew_get, get_wrap_reg (by decide), get_put_lo (by decide), get_put_self]; rfl

theorem storeCommand_slew : (storeCommand c op code slew quiet s).get CREW_SP_STAT.SLEW c = slew % 2 ^ 12 := by
  rw [storeCommand, onCrew_get, get_wrap_reg (by decide), get_put_self]; rfl

theorem storeCommand_accepted : (storeCommand c op code slew quiet s).get CREW_SP_SEQ.ACCEPTED c =
    (s.get CREW_SP_SEQ.ACCEPTED c + 1) % 2 ^ 8 := by
  rw [storeCommand, onCrew_get, get_wrap_self, get_put_reg (by decide), get_put_reg (by decide)]; rfl

theorem latchStatus_within {α : Type} {ks : List FKey} {F : Crew → α} {vout iout temp : Nat} :
    Within ks c F s (latchStatus q vout iout temp s) := ⟨.refl, rfl, rfl, rfl, .refl, rfl⟩

/-- That the margin is shown changes RAISED and UNREACH, and what raising an event may change. -/
theorem showMargin_within {ks : List FKey} (h1 : CREW_GB_STAT.RAISED.key c ∈ ks) (h2 : CREW_GB_STAT.UNREACH.key c ∈ ks)
    (hd : dropKeys ⊆ ks) : Within ks c Crew.cmdOp s (showMargin c s) := by
  unfold showMargin
  extract_lets fl k raised unreach was s1 s2 s3
  have hs1 : Within ks c Crew.cmdOp s s1 := (Within.refl.mark h1).mark h2
  have hs2 : Within ks c Crew.cmdOp s s2 := hs1.onCrew rfl
  have hs3 : Within ks c Crew.cmdOp s s3 := .ite (.ite hs2 (hs2.raiseCrew hd fun _ _ _ => rfl)) hs1
  exact .ite ((hs3.raiseCrew hd fun _ _ _ => rfl).trans latchStatus_within) hs3

theorem showMargin_get (h1 : f.reg ≠ .CREW_GB_STAT) (h2 : f.reg ≠ .FLT_DROP) : (showMargin c s).get f i = s.get f i := by
  refine (showMargin_within (c := c) (s := s) (ks := [CREW_GB_STAT.RAISED.key c, CREW_GB_STAT.UNREACH.key c] ++ dropKeys)
    (by simp) (by simp) (List.subset_append_right _ _)).get (rs := [.CREW_GB_STAT, .CREW_GB_STAT, .FLT_DROP, .FLT_DROP]) rfl ?_
  simp only [List.mem_cons, List.not_mem_nil, or_false, not_or]
  exact ⟨h1, h1, h2, h2⟩

/-- What shows the margin and the slewing keeps which command is in force. -/
theorem shown_within : Within (setpointKeys c) c Crew.cmdOp s (showSlewing c (showMargin c s)) :=
  showSlewing_within (showMargin_within (mem_setpointKeys (by simp [setpointFields])) (mem_setpointKeys (by simp [setpointFields]))
    dropKeys_subset_setpointKeys) (mem_setpointKeys (by simp [setpointFields]))

theorem setpoint_within : Within (setpointKeys c) c (fun _ => ()) s (setpoint c op code slew quiet s) := by
  rw [setpoint_eq]
  exact replaceCommand_within.trans (storeCommand_within.trans shown_within.forget)

/-- From s to t crew c has taken a command as R134 and R136 say. -/
structure CommandTaken (c op code slew : Nat) (s t : State) : Prop where
  target : t.get CREW_SP_STAT.TARGET c = clampN code (s.winLo c) (s.winHi c) % 2 ^ 12
  slew : t.get CREW_SP_STAT.SLEW c = clampN slew 4 s.slewMax % 2 ^ 12
  accepted : t.get CREW_SP_SEQ.ACCEPTED c = (s.get CREW_SP_SEQ.ACCEPTED c + 1) % 2 ^ 8
  superseded : t.get CREW_SP_SUP_CNT.SUPERSEDED c = if (s.crew c).cmdOpen then
    CREW_SP_SUP_CNT.SUPERSEDED.count (s.get CREW_SP_SUP_CNT.SUPERSEDED c) else s.get CREW_SP_SUP_CNT.SUPERSEDED c
  ref : t.get CREW_SP_REF.REF c = s.get CREW_SP_REF.REF c
  cmdOp : (t.crew c).cmdOp = some op

/-- What shows the margin and the slewing leaves the command that has been stored. -/
theorem shown_get (h1 : f.reg ∉ [.CREW_GB_STAT, .FLT_DROP]) (h2 : f.reg ≠ .CREW_SP_STAT ∨ f.lo ≠ CREW_SP_STAT.SLEWING.lo) :
    (showSlewing c (showMargin c s)).get f i = s.get f i := by
  simp only [List.mem_cons, List.not_mem_nil, or_false, not_or] at h1
  obtain ⟨hmargin, hdrop⟩ := h1
  rw [showSlewing_get h2, showMargin_get hmargin hdrop]

theorem setpoint_taken : CommandTaken c op code slew s (setpoint c op code slew quiet s) := by
  rw [setpoint_eq]
  refine ⟨?_, ?_, ?_, ?_, ?_, ?_⟩
  · rw [shown_get (by decide) (by decide), storeCommand_target]
  · rw [shown_get (by decide) (by decide), storeCommand_slew]
  · rw [shown_get (by decide) (by decide), storeCommand_accepted, replaceCommand_get (by decide) (by decide)]
  · rw [shown_get (by decide) (by decide), storeCommand_get (by decide) (by decide), replaceCommand_superseded]
  · rw [shown_get (by decide) (by decide), storeCommand_get (by decide) (by decide), replaceCommand_get (by decide) (by decide)]
  · rw [shown_within.crew, storeCommand_cmdOp]

/-! ## Delivery at all leaf crews (R47, R136) -/

/-- From s to t nothing has changed of what a setpoint command finds or leaves at crew c. -/
structure SameAt (c : Nat) (s t : State) : Prop where
  regs : ∀ f i, f.reg ≠ .FLT_DROP → (f.reg ∈ setpointFields.map Fld.reg → i = c) → t.get f i = s.get f i
  crew : t.crew c = s.crew c

theorem SameAt.refl : SameAt c s s := ⟨fun _ _ _ _ => rfl, rfl⟩

theorem SameAt.trans (h : SameAt c s t) (h' : SameAt c t u) : SameAt c s u :=
  ⟨fun f i h1 h2 => (h'.regs f i h1 h2).trans (h.regs f i h1 h2), h'.crew.trans h.crew⟩

/-- What happens at another crew. -/
theorem SameAt.of_within (h : Within (setpointKeys k) k (fun _ => ()) s t) (hne : q ≠ k) : SameAt q s t :=
  ⟨fun _ _ h1 h2 => h.regs _ _ (not_mem_setpointKeys h1 fun hreg e => hne (h2 hreg ▸ e)), h.crews q (by simpa using hne)⟩

theorem CommandTaken.of_same (h1 : SameAt c s x) (h : CommandTaken c op code slew x y) (h2 : SameAt c y t) :
    CommandTaken c op code slew s t := by
  have hlo : x.winLo c = s.winLo c := h1.regs _ _ (by decide) fun h => absurd h (by decide)
  have hhi : x.winHi c = s.winHi c := h1.regs _ _ (by decide) fun h => absurd h (by decide)
  have hmax : x.slewMax = s.slewMax := h1.regs _ _ (by decide) fun h => absurd h (by decide)
  refine ⟨?_, ?_, ?_, ?_, ?_, ?_⟩
  · rw [h2.regs _ _ (by decide) fun _ => rfl, h.target, hlo, hhi]
  · rw [h2.regs _ _ (by decide) fun _ => rfl, h.slew, hmax]
  · rw [h2.regs _ _ (by decide) fun _ => rfl, h.accepted, h1.regs _ _ (by decide) fun _ => rfl]
  · rw [h2.regs _ _ (by decide) fun _ => rfl, h.superseded, h1.regs _ _ (by decide) fun _ => rfl, h1.crew]
  · rw [h2.regs _ _ (by decide) fun _ => rfl, h.ref, h1.regs _ _ (by decide) fun _ => rfl]
  · rw [h2.crew, h.cmdOp]

/-- A setpoint command takes effect at a crew that is not in calibration, whatever its last calibration (R387). -/
theorem deliverTo_setp (hk : o.kind = .setp code slew quiet) (hcal : (s.crew c).calRun = false) :
    deliverTo o s c = setpoint c o.id code slew quiet s := by
  rw [deliverTo, if_neg (by simp [hcal]), deliverHeld, if_neg (by simp [hk, OpKind.isSetp])]
  simp only [applyOp, hk]

theorem deliverTo_calibrating (hcal : (s.crew c).calRun = true) :
    deliverTo o s c = s.onCrew c (fun k => { k with heldOps := k.heldOps ++ [⟨o, o.kind.held (s.tickStart + 4)⟩] }) := by
  rw [deliverTo, if_pos hcal, holdOp, if_pos hcal]

theorem deliverTo_setp_within (hk : o.kind = .setp code slew quiet) :
    Within (setpointKeys c) c (fun _ => ()) s (deliverTo o s c) := by
  cases hcal : (s.crew c).calRun with
  | false => rw [deliverTo_setp hk hcal]; exact setpoint_within
  | true => rw [deliverTo_calibrating hcal]; exact .onCrew .refl rfl

@[simp] theorem onCrew_flight {G : Crew → Crew} : (s.onCrew c G).flight = s.flight := rfl
@[simp] theorem bump_flight : (s.bump f i n).flight = s.flight := rfl
@[simp] theorem wrap_flight : (s.wrap f i).flight = s.flight := rfl
@[simp] theorem mark_flight {b : Bool} : (s.mark f i b).flight = s.flight := rfl
@[simp] theorem latchStatus_flight {vout iout temp : Nat} : (latchStatus q vout iout temp s).flight = s.flight := rfl
@[simp] theorem raiseCrew_flight {d0 d1 : Nat} : (s.raiseCrew code c d0 d1).flight = s.flight := raise_flight

theorem setpoint_flight : (setpoint c op code slew quiet s).flight = s.flight := by
  simp only [setpoint, showSlewing, showMargin, mark_flight, apply_ite State.flight, latchStatus_flight, raiseCrew_flight,
    onCrew_flight, wrap_flight, put_flight, bump_flight, ite_self]

theorem deliverTo_setp_flight (hk : o.kind = .setp code slew quiet) : (deliverTo o s c).flight = s.flight := by
  cases hcal : (s.crew c).calRun with
  | false => rw [deliverTo_setp hk hcal, setpoint_flight]
  | true => rw [deliverTo_calibrating hcal, onCrew_flight]

/-- The state whose delivery path holds other operations. -/
def State.fly (s : State) (l : List Op) : State := { s with flight := l }

theorem exec_setpointCommand (h : s.flight = o :: rest) (hk : o.kind = .setp code slew quiet) :
    exec .setpointCommand s = .next (forAll o.crews (deliverTo o) (s.fly rest)) := by
  show Host.Outcome.next (deliver OpKind.isSetp s) = _
  simp only [deliver, h, hk, OpKind.isSetp, if_true, State.fly]

section
variable (hk : o.kind = .setp code slew quiet)
include hk

/-- The delivery changes nothing but its leaf crews, their registers and the delivery path. -/
theorem deliverAll_frame : (forAll o.crews (deliverTo o) s).flight = s.flight ∧
    SamePhases [] s (forAll o.crews (deliverTo o) s) ∧ SameCrews o.crews s (forAll o.crews (deliverTo o) s) ∧
    SameMem s (forAll o.crews (deliverTo o) s) :=
  forAll_keeps (P := fun u => u.flight = s.flight ∧ SamePhases [] s u ∧ SameCrews o.crews s u ∧ SameMem s u)
    (fun u k hm ⟨hflight, hphases, hcrews, hmem⟩ =>
      have h : Within (setpointKeys k) k (fun _ => ()) u (deliverTo o u k) := deliverTo_setp_within hk
      ⟨(deliverTo_setp_flight hk).trans hflight, hphases.trans h.samePhases,
        fun q hq => (h.crews q fun e => hq (List.mem_singleton.mp e ▸ hm)).trans (hcrews q hq), hmem.trans h.sameMem⟩)
    ⟨rfl, .refl, .refl, .refl⟩

/-- Each leaf crew that is not in calibration takes the command as if it were the only one. -/
theorem deliverAll_taken (hnd : o.crews.Nodup) (hc : c ∈ o.crews) (hcal : (s.crew c).calRun = false) :
    CommandTaken c o.id code slew s (forAll o.crews (deliverTo o) s) := by
  obtain ⟨u, hu, ht⟩ := forAll_reaches (R := SameAt) (s := s) (q := c) (F := deliverTo o) (fun _ _ => .refl)
    (fun _ _ _ _ h h' => h.trans h') (fun u k _ q _ hne => .of_within (deliverTo_setp_within hk) hne) hnd hc
  rw [deliverTo_setp hk (by rw [hu.crew, hcal])] at ht
  exact setpoint_taken.of_same hu ht
end

/-! ## A tick of REF (R135) -/

/-- The fields that a tick of REF may change while the crew regulates. -/
def refFields : List Fld := [CREW_SP_REF.REF, CREW_SP_STAT.DIR, CREW_SP_STAT.SLEWING, CREW_SP_SEQ.DONE_SEQ]

/-- The same at crew c. -/
def refKeys (c : Nat) : List FKey := refFields.map (·.key c)

theorem mem_refKeys {g : Fld} (h : g ∈ refFields) : g.key c ∈ refKeys c := List.mem_map_of_mem (f := (·.key c)) h

theorem not_mem_refKeys (h : ∀ g ∈ refFields, f.reg ≠ g.reg ∨ f.lo ≠ g.lo) : f.key i ∉ refKeys c := by
  intro hk
  obtain ⟨g, hg, he⟩ := List.mem_map.mp hk
  obtain ⟨hreg, -, hlo⟩ := FKey.mk.inj he
  exact (h g hg).elim (fun hne => hne hreg.symm) fun hne => hne hlo.symm

/-- REF a tick on: twice the slew in force nearer to T, or to 0 in a ramp down, and not past it. -/
def State.refNext (s : State) (c : Nat) : Nat :=
  let ref := s.get CREW_SP_REF.REF c
  let dest := if s.ramping c then 0 else s.target c
  if ref < dest then min (ref + 2 * s.rateOf c) dest else max (ref - 2 * s.rateOf c) dest

/-- The state in which REF of crew c has gone to n, as SLEWING and DIR show. -/
def moveRef (c n : Nat) (s : State) : State :=
  let ref := s.get CREW_SP_REF.REF c
  let s := s.put CREW_SP_REF.REF c n
  let s := s.onCrew c (fun k => { k with sdir := if ref < n then 1 else if n < ref then -1 else 0 })
  let s := if ref = n then s else s.mark CREW_SP_STAT.DIR c (decide (n < ref))
  showSlewing c s

/-- The state in which what ends with REF at n has ended: a ramp down, a command, soft start. -/
def settleRef (c n : Nat) (s : State) : State :=
  if s.ramping c then (if n ≤ 1000000 then rampEnd c s else s)
  else if n = s.target c then
    let s := complete c s
    (if (s.crew c).softStart then (reachOn c s).onCrew c (fun k => { k with softStart := false }) else s)
  else s

theorem refStep_eq : refStep c s = if ¬ (s.crew c).reg ∧ ¬ s.shutting c then s
    else settleRef c (s.refNext c) (moveRef c (s.refNext c) s) := rfl

theorem refStep_regulating (hreg : (s.crew c).reg = true) :
    refStep c s = settleRef c (s.refNext c) (moveRef c (s.refNext c) s) := by
  rw [refStep_eq, if_neg (by simp [hreg])]

theorem moveRef_within : Within (refKeys c) c Crew.softStart s (moveRef c n s) := by
  unfold moveRef
  extract_lets ref s1 s2 s3
  have h2 : Within (refKeys c) c Crew.softStart s s2 := .onCrew (.put .refl (mem_refKeys (by simp [refFields]))) rfl
  have h3 : Within (refKeys c) c Crew.softStart s s3 := .ite h2 (h2.mark (mem_refKeys (by simp [refFields])))
  exact showSlewing_within h3 (mem_refKeys (by simp [refFields]))

theorem moveRef_ref : (moveRef c n s).get CREW_SP_REF.REF c = n % 2 ^ 32 := by
  unfold moveRef
  extract_lets ref s1 s2 s3
  have h3 : s3.get CREW_SP_REF.REF c = s2.get CREW_SP_REF.REF c := by
    unfold s3
    split
    · rfl
    · exact get_put_reg (by decide)
  rw [showSlewing_get (by decide), h3]
  exact get_put_self

theorem moveRef_ramping : (moveRef c n s).ramping c = s.ramping c := by
  unfold moveRef
  extract_lets ref s1 s2 s3
  show s3.ramping c = _
  unfold s3
  split <;> rfl

/-- A completion changes DONE_SEQ, the crew's command and the tracks. -/
theorem complete_within : Within (refKeys c) c Crew.softStart s (complete c s) := by
  unfold complete
  extract_lets k s1
  have h1 : Within (refKeys c) c Crew.softStart s s1 := .onCrew (.put .refl (mem_refKeys (by simp [refFields]))) rfl
  split
  · split
    · exact h1.trans ⟨.refl, rfl, rfl, rfl, .refl, rfl⟩
    · exact h1
  · exact .refl

theorem complete_ref : (complete c s).get CREW_SP_REF.REF c = s.get CREW_SP_REF.REF c := by
  unfold complete
  extract_lets k s1
  have h1 : s1.get CREW_SP_REF.REF c = s.get CREW_SP_REF.REF c := get_put_reg (by decide)
  split
  · split <;> exact h1
  · rfl

/-- The effective target does not depend on what a tick of REF changes. -/
theorem target_of_refKeys (h : SameRegs (refKeys c) s t) : t.target q = s.target q := by
  have hget : ∀ f i, (∀ g ∈ refFields, f.reg ≠ g.reg ∨ f.lo ≠ g.lo) → t.get f i = s.get f i := fun f i hf =>
    h f i (not_mem_refKeys hf)
  have hopen : t.flag CREW_SP_STAT.OPEN_OFS q = s.flag CREW_SP_STAT.OPEN_OFS q := by
    rw [State.flag, State.flag, hget _ _ (by decide)]
  simp (disch := decide) only [State.target, State.winHi, hopen, hget]

section
variable (hramp : (s.plane (planeOf c)).ramp = .none)
include hramp

theorem not_ramping : s.ramping c = false := by
  rw [State.ramping, hramp]; rfl

theorem exec_refStep : exec (.refStep c) s = .next (refStep c s) :=
  congrArg Host.Outcome.next (if_neg fun h => by rw [not_ramping hramp] at h; exact Bool.false_ne_true h.1)

theorem rateOf_command (hsoft : (s.crew c).softStart = false) (hraised : s.flag CREW_GB_STAT.RAISED c = false) :
    s.rateOf c = s.get CREW_SP_STAT.SLEW c := by
  simp [State.rateOf, hramp, hsoft, hraised]

/-- On the command's slew REF goes 2 × SLEW nearer to T. -/
theorem refNext_command (hsoft : (s.crew c).softStart = false) (hraised : s.flag CREW_GB_STAT.RAISED c = false) :
    s.refNext c = if s.get CREW_SP_REF.REF c < s.target c then
      min (s.get CREW_SP_REF.REF c + 2 * s.get CREW_SP_STAT.SLEW c) (s.target c)
      else max (s.get CREW_SP_REF.REF c - 2 * s.get CREW_SP_STAT.SLEW c) (s.target c) := by
  simp only [State.refNext, not_ramping hramp, rateOf_command hramp hsoft hraised, Bool.false_eq_true, if_false]

theorem refNext_lt (h1 : s.target c < 2 ^ 32) (h2 : s.get CREW_SP_REF.REF c < 2 ^ 32) : s.refNext c < 2 ^ 32 := by
  simp only [State.refNext, not_ramping hramp, Bool.false_eq_true, if_false]
  split
  · exact (min_le_right _ _).trans_lt h1
  · exact max_lt ((Nat.sub_le _ _).trans_lt h2) h1
end

/-- Out of ramps down and soft start it is a command that ends, where REF is at T. -/
theorem settleRef_command (hramp : s.ramping c = false) (hsoft : (s.crew c).softStart = false) :
    settleRef c n s = if n = s.target c then complete c s else s := by
  have hdone : ((complete c s).crew c).softStart = false := complete_within.crew.trans hsoft
  simp only [settleRef, hramp, hdone, Bool.false_eq_true, if_false]

theorem settleRef_within (hramp : s.ramping c = false) (hsoft : (s.crew c).softStart = false) :
    Within (refKeys c) c Crew.softStart s (settleRef c n s) := by
  rw [settleRef_command hramp hsoft]
  exact .ite complete_within .refl

theorem settleRef_ref (hramp : s.ramping c = false) (hsoft : (s.crew c).softStart = false) :
    (settleRef c n s).get CREW_SP_REF.REF c = s.get CREW_SP_REF.REF c := by
  rw [settleRef_command hramp hsoft]
  split
  · exact complete_ref
  · rfl

end Sys2Proof.Machine

namespace Sys2Proof.Proofs.Datapath

open Sys2Proof Sys2Proof.Machine

/-- Settles O9: a setpoint command changes at another crew nothing that the command finds there (`SameAt`), so that each leaf crew
takes it as if alone (`deliverAll_taken`); a tick takes REF to `refNext`, and what then completes leaves it there. -/
theorem slewAndSetpoint : Obligations.SlewAndSetpoint := by
  refine ⟨?command, ?tick⟩
  case command =>
    intro op rest code slew quiet s hflight hk hnd hcal
    obtain ⟨hrest, hphases, hcrews, hmem⟩ := deliverAll_frame (s := s.fly rest) hk
    refine ⟨_, exec_setpointCommand hflight hk, hrest, hphases, hcrews, hmem, fun c hc => ?_⟩
    have h := deliverAll_taken (s := s.fly rest) hk hnd hc (hcal c hc)
    exact ⟨h.target, h.slew, h.accepted, h.superseded, h.ref, h.cmdOp⟩
  case tick =>
    intro c s hreg hramp hsoft hraised htarget href
    refine ⟨_, exec_refStep hramp, ?_⟩
    rw [refStep_regulating hreg]
    have hmove : Within (refKeys c) c Crew.softStart s (moveRef c (s.refNext c) s) := moveRef_within
    have hstill : (moveRef c (s.refNext c) s).ramping c = false := moveRef_ramping.trans (not_ramping hramp)
    have hon : ((moveRef c (s.refNext c) s).crew c).softStart = false := hmove.crew.trans hsoft
    have hall := hmove.trans (settleRef_within (n := s.refNext c) hstill hon)
    refine ⟨?_, target_of_refKeys hall.regs, hall.frame⟩
    rw [settleRef_ref hstill hon, moveRef_ref, Nat.mod_eq_of_lt (refNext_lt hramp htarget href),
      refNext_command hramp hsoft hraised]

end Sys2Proof.Proofs.Datapath

/-! The statements of the family 06_forecast_and_start: windows and their instructions, forecast ports and the intake, start
requests, heats and stretches. -/

namespace Sys2Proof.Machine

open Sys2Proof

variable {s t u : State} {m : Master} {f g : Fld} {c d0 i j k n op p r v w code src tile : Nat} {st : Stamp}

/-! ## The state that counts an issue: windows, stamps and marshals -/

/-- Counting an issue changes register values, the engine and the record of the cycle at most. -/
theorem issued_eq : ∃ l e y, s.issued n = { s with fld := l, eng := e, cyc := y } := by
  unfold State.issued
  dsimp only
  split <;> exact ⟨_, _, _, rfl⟩

@[simp] theorem issued_fcRet : (s.issued n).fcRet = s.fcRet := by
  obtain ⟨l, e, y, h⟩ := issued_eq (s := s) (n := n); rw [h]
@[simp] theorem issued_fcUnread : (s.issued n).fcUnread = s.fcUnread := by
  obtain ⟨l, e, y, h⟩ := issued_eq (s := s) (n := n); rw [h]
@[simp] theorem issued_fcEnd : (s.issued n).fcEnd = s.fcEnd := by
  obtain ⟨l, e, y, h⟩ := issued_eq (s := s) (n := n); rw [h]
@[simp] theorem issued_mar : (s.issued n).mar k = s.mar k := by
  obtain ⟨l, e, y, h⟩ := issued_eq (s := s) (n := n); rw [h]; rfl
@[simp] theorem issued_markNo : (s.issued n).markNo = s.markNo := issued_get (by decide)
@[simp] theorem issued_ticks : (s.issued n).ticks = s.ticks := by
  obtain ⟨l, e, y, h⟩ := issued_eq (s := s) (n := n); rw [h]; rfl
@[simp] theorem issued_offset {a b : Nat} {z : Int} : (s.issued n).offset a b z = s.offset a b z := by
  obtain ⟨l, e, y, h⟩ := issued_eq (s := s) (n := n); rw [h]; rfl

@[simp] theorem issued_winStamp : (s.issued n).winStamp w k = s.winStamp w k := by
  simp (disch := decide) only [State.winStamp, State.flag, issued_get, issued_fcEnd]
  rfl

@[simp] theorem issued_selected {x : PWord} : (s.issued n).selected n x = s.selected n x := by
  simp only [State.selected, issued_winStamp, issued_offset, issued_vreg, issued_markNo, issued_ticks]

@[simp] theorem issued_supWindow : (s.issued n).supWindow w = s.supWindow w := by
  simp (disch := decide) only [State.supWindow, State.flag, State.lst, issued_get]

/-- With room at the collector an event of the program engine that an instruction of context n raises waits last, and nothing
else changes. -/
theorem raise_issued (hroom : s.room) (hcode : code / 256 = 7) : (s.issued n).raise code 4 src d0 =
    { s.issued n with intake := s.intake ++ [s.eventOf code 4 src (d0 % 2 ^ 32)] } := by
  rw [raise_context (by simpa only [State.room, issued_intake] using hroom), issued_intake, stampOf_engine hcode,
    issued_stampNow, State.eventOf, stampOf_engine hcode]
  rfl

/-- An instruction that raises such an event and goes on. -/
theorem writesNone_raise (h : s.Issues n op) (hroom : s.room) (hcode : code / 256 = 7) :
    WritesNone n s (fall n ((s.issued n).raise code 4 src d0)) := by
  rw [raise_issued hroom hcode]
  exact writesNone_of h rfl rfl rfl rfl rfl rfl rfl

/-! ## Changes of register values alone -/

/-- From s to t nothing has changed but register values. -/
def OnlyRegs (s t : State) : Prop := ∃ l, t = { s with fld := l }

theorem OnlyRegs.refl : OnlyRegs s s := ⟨_, rfl⟩

theorem OnlyRegs.put (h : OnlyRegs s t) : OnlyRegs s (t.put f i v) := by
  obtain ⟨l, rfl⟩ := h
  exact ⟨_, rfl⟩

/-! ## Openings of windows (R187, R188) -/

/-- The registers that tell of an opening of a window. -/
def openingRegs : List Reg :=
  [.FCW_STAT, .FCW_ARRIVALS, .FCW_EARLY, .FCW_LATE, .FCW_END, .FCW_TICKS, .FCW_SUM]

/-- The state in which the registers of window w are those of a new opening. -/
def freshWindow (w : Nat) (s : State) : State :=
  let s := ((s.put FCW_STAT.STATE w 2).put FCW_ARRIVALS.ARRIVALS w 0).put FCW_STAT.STAMPS_VALID w 0
  let s := ((s.put FCW_STAT.END_OPEN w 0).put FCW_EARLY.MARK w 0).put FCW_LATE.MARK w 0
  let s := (((s.put FCW_END.MARK w 0).put FCW_TICKS.EARLY w 0).put FCW_TICKS.LATE w 0).put FCW_TICKS.END w 0
  forAll (List.range 16) (fun s e => s.put FCW_SUM.SUM (16 * w + e) 0) s

/-- The state in which window w has no unread slot and awaits no arrival or END stamp of an earlier opening. -/
def freeSlots (w : Nat) (s : State) : State :=
  { s.put FCW_PTR.RD w (s.get FCW_PTR.WR w) with
    fcArr := s.fcArr.filter (fun v => v != w)
    fcEnd := s.fcEnd.filter (fun v => v != w)
    fcRet := s.fcRet ++ (tget [] s.fcUnread w).map (fun r => { r with status := 0 })
    fcUnread := tset s.fcUnread w [] }

theorem windowOpen_disabled (h : s.get FCW_STAT.STATE w = 0) : windowOpen w s = s := if_pos h

theorem windowOpen_enabled (h : s.get FCW_STAT.STATE w ≠ 0) : windowOpen w s = freeSlots w (freshWindow w s) := if_neg h

theorem windowClose_disabled (h : s.get FCW_STAT.STATE w = 0) : windowClose w s = s := if_pos h

theorem windowClose_enabled (h : s.get FCW_STAT.STATE w ≠ 0) : windowClose w s = s.put FCW_STAT.STATE w 1 := if_neg h

/-- The clear of a window's sums leaves the other registers. -/
theorem clearSums_get {l : List Nat} (h : f.reg ≠ .FCW_SUM) :
    (forAll l (fun s e => s.put FCW_SUM.SUM (16 * w + e) 0) s).get f i = s.get f i :=
  forAll_keeps (P := fun x => x.get f i = s.get f i) (fun _ _ _ hx => (get_put_reg h).trans hx) rfl

theorem freshWindow_sum {e : Nat} (he : e < 16) : (freshWindow w s).get FCW_SUM.SUM (16 * w + e) = 0 := by
  refine forAll_each (P := fun e x => x.get FCW_SUM.SUM (16 * w + e) = 0) (fun _ _ => get_put_self) (fun u k q hq => ?_)
    (List.mem_range.mpr he)
  by_cases hk : q = k
  · rw [hk]; exact get_put_self
  · rw [get_put_inst (by omega), hq]

theorem freshWindow_state : (freshWindow w s).get FCW_STAT.STATE w = 2 := by
  simp (disch := decide) only [freshWindow, clearSums_get, get_put_reg, get_put_lo, get_put_self]
  rfl

theorem freshWindow_arrivals : (freshWindow w s).get FCW_ARRIVALS.ARRIVALS w = 0 := by
  simp (disch := decide) only [freshWindow, clearSums_get, get_put_reg, get_put_self, Nat.zero_mod]

theorem freshWindow_stampsValid : (freshWindow w s).get FCW_STAT.STAMPS_VALID w = 0 := by
  simp (disch := decide) only [freshWindow, clearSums_get, get_put_reg, get_put_lo, get_put_self, Nat.zero_mod]

theorem freshWindow_endOpen : (freshWindow w s).get FCW_STAT.END_OPEN w = 0 := by
  simp (disch := decide) only [freshWindow, clearSums_get, get_put_reg, get_put_self, Nat.zero_mod]

theorem freshWindow_state_ne (h : v ≠ w) : (freshWindow w s).get FCW_STAT.STATE v = s.get FCW_STAT.STATE v := by
  simp (disch := decide) only [freshWindow, clearSums_get, get_put_inst h]

theorem freshWindow_get (h : f.reg ∉ openingRegs) : (freshWindow w s).get f i = s.get f i := by
  simp only [openingRegs, List.mem_cons, List.not_mem_nil, or_false, not_or] at h
  obtain ⟨hstat, harr, hearly, hlate, hend, hticks, hsum⟩ := h
  rw [freshWindow, clearSums_get hsum, get_put_reg hticks, get_put_reg hticks, get_put_reg hticks, get_put_reg hend,
    get_put_reg hlate, get_put_reg hearly, get_put_reg hstat, get_put_reg hstat, get_put_reg harr, get_put_reg hstat]

theorem freeSlots_get (h : f.reg ≠ .FCW_PTR) : (freeSlots w s).get f i = s.get f i := get_put_reg h

/-- A new opening changes register values alone. -/
theorem freshWindow_onlyRegs : OnlyRegs s (freshWindow w s) :=
  forAll_keeps (P := OnlyRegs s) (fun _ _ _ h => h.put) (.put <| .put <| .put <| .put <| .put <| .put <| .put <| .put <| .put <|
    .put .refl)

@[simp] theorem freshWindow_ctxs : (freshWindow w s).ctxs = s.ctxs := by
  obtain ⟨l, h⟩ := freshWindow_onlyRegs (w := w) (s := s); rw [h]
@[simp] theorem freshWindow_fcRet : (freshWindow w s).fcRet = s.fcRet := by
  obtain ⟨l, h⟩ := freshWindow_onlyRegs (w := w) (s := s); rw [h]
@[simp] theorem freshWindow_fcUnread : (freshWindow w s).fcUnread = s.fcUnread := by
  obtain ⟨l, h⟩ := freshWindow_onlyRegs (w := w) (s := s); rw [h]

theorem freshWindow_block : SameBlock s (freshWindow w s) := by
  obtain ⟨l, h⟩ := freshWindow_onlyRegs (w := w) (s := s)
  rw [h]
  exact SameBlock.refl.congr rfl rfl rfl rfl

theorem freeSlots_block (h : SameBlock s t) : SameBlock s (freeSlots w t) := h.congr rfl rfl rfl rfl
theorem fall_block (h : SameBlock s t) : SameBlock s (fall n t) := h.congr rfl rfl rfl rfl

theorem SameBlock.trans (h : SameBlock s t) (h' : SameBlock t u) : SameBlock s u := by
  obtain ⟨hphases, hcrews, hmem⟩ := h
  obtain ⟨hphases', hcrews', hmem'⟩ := h'
  exact ⟨hphases.trans hphases', fun c hc => (hcrews' c hc).trans (hcrews c hc), hmem.trans hmem'⟩

theorem issued_block : SameBlock s (s.issued n) :=
  ⟨fun _ _ => issued_phase, fun _ _ => issued_crew, SameMem.refl.congr issued_mem issued_flash⟩

/-- A new opening leaves every context and every index as it was. -/
theorem freeSlots_ctxs : (freeSlots w s).ctxs = s.ctxs := rfl

theorem opened_ctx : (freeSlots w (freshWindow w s)).ctx n = s.ctx n := by
  rw [State.ctx, freeSlots_ctxs, freshWindow_ctxs, State.ctx]

theorem opened_pc : (freeSlots w (freshWindow w s)).pc n = s.pc n :=
  (freeSlots_get (by decide)).trans (freshWindow_get (by decide))

/-! ## The window instructions (R270) -/

theorem fall_get_reg (h : f.reg ≠ .LANE_STAT) : (fall n s).get f i = s.get f i :=
  fall_get fun e => h (congrArg FKey.reg e)

@[simp] theorem fall_fcRet : (fall n s).fcRet = s.fcRet := rfl
@[simp] theorem fall_fcUnread : (fall n s).fcUnread = s.fcUnread := rfl
@[simp] theorem fall_fcArr : (fall n s).fcArr = s.fcArr := rfl
@[simp] theorem fall_fcEnd : (fall n s).fcEnd = s.fcEnd := rfl
@[simp] theorem fall_mar : (fall n s).mar k = s.mar k := rfl

section
variable (hmay : n < 8 ∨ s.supWindow ((s.word n).unit % 64) = true)
include hmay

/-- A context that may use a window is not refused. -/
theorem not_refused_window : ¬ (8 ≤ n ∧ (s.issued n).supWindow ((s.word n).unit % 64) = false) := by
  rintro ⟨hn, hsup⟩
  rw [issued_supWindow] at hsup
  rcases hmay with h | h
  · omega
  · rw [hsup] at h; cases h

theorem exec_wopen (h : s.Issues n 0x40) :
    exec (.wopen n) s = .next (fall n (windowOpen ((s.word n).unit % 64) (s.issued n))) := by
  show Host.Outcome.next (issue n 0x40 _ s) = _
  rw [issue_acts h (by decide) (fun _ => by decide), if_neg (not_refused_window hmay)]

theorem exec_wclose (h : s.Issues n 0x41) :
    exec (.wclose n) s = .next (fall n (windowClose ((s.word n).unit % 64) (s.issued n))) := by
  show Host.Outcome.next (issue n 0x41 _ s) = _
  rw [issue_acts h (by decide) (fun _ => by decide), if_neg (not_refused_window hmay)]
end

section
variable (hn : 8 ≤ n) (hsup : s.supWindow ((s.word n).unit % 64) = false)
include hn hsup

theorem exec_wopen_refused (h : s.Issues n 0x40) :
    exec (.wopen n) s = .next (fall n (supRefused n ((s.word n).unit % 64) (s.issued n))) := by
  show Host.Outcome.next (issue n 0x40 _ s) = _
  rw [issue_acts h (by decide) (fun _ => by decide), if_pos ⟨hn, by rw [issued_supWindow, hsup]⟩]

theorem exec_wclose_refused (h : s.Issues n 0x41) :
    exec (.wclose n) s = .next (fall n (supRefused n ((s.word n).unit % 64) (s.issued n))) := by
  show Host.Outcome.next (issue n 0x41 _ s) = _
  rw [issue_acts h (by decide) (fun _ => by decide), if_pos ⟨hn, by rw [issued_supWindow, hsup]⟩]
end

/-- What an opening of window w shows (R187), in a state that goes on from one whose unread slots and returns are s's. -/
theorem opened_shows (h1 : t.fcRet = s.fcRet) (h2 : t.fcUnread = s.fcUnread) :
    let u := fall n (freeSlots w (freshWindow w t))
    u.get FCW_STAT.STATE w = 2 ∧ u.get FCW_ARRIVALS.ARRIVALS w = 0 ∧ u.get FCW_STAT.STAMPS_VALID w = 0 ∧
      u.get FCW_STAT.END_OPEN w = 0 ∧ (∀ e, e < 16 → u.get FCW_SUM.SUM (16 * w + e) = 0) ∧ w ∉ u.fcArr ∧ w ∉ u.fcEnd ∧
      u.fcRet = s.fcRet ++ (tget [] s.fcUnread w).map (fun r => { r with status := 0 }) ∧ tget [] u.fcUnread w = [] ∧
      ∀ v, v ≠ w → u.get FCW_STAT.STATE v = t.get FCW_STAT.STATE v := by
  have hget : ∀ f i, f.reg ≠ .LANE_STAT → f.reg ≠ .FCW_PTR →
      (fall n (freeSlots w (freshWindow w t))).get f i = (freshWindow w t).get f i :=
    fun f i hl hp => (fall_get_reg hl).trans (freeSlots_get hp)
  refine ⟨?_, ?_, ?_, ?_, fun e he => ?_, ?_, ?_, ?_, tget_tset_self, fun v hv => ?_⟩
  · rw [hget _ _ (by decide) (by decide), freshWindow_state]
  · rw [hget _ _ (by decide) (by decide), freshWindow_arrivals]
  · rw [hget _ _ (by decide) (by decide), freshWindow_stampsValid]
  · rw [hget _ _ (by decide) (by decide), freshWindow_endOpen]
  · rw [hget _ _ (by decide) (by decide), freshWindow_sum he]
  · simp [freeSlots]
  · simp [freeSlots]
  · simp [freeSlots, freshWindow_fcRet, freshWindow_fcUnread, h1, h2]
  · rw [hget _ _ (by decide) (by decide), freshWindow_state_ne hv]

/-! ## HEAT (R200, R271) -/

/-- The sequence that HEAT for a stamp leaves of a GATED field's sequence. -/
def HeatSeq.gated (st : Stamp) : HeatSeq → HeatSeq
  | .running h => .running h
  | _ => .due st

/-- HEAT changes the marshals alone. -/
theorem openGated_eq : ∃ l, openGated k st s = { s with msh := l } := by
  unfold openGated
  dsimp only
  split
  · exact ⟨_, rfl⟩
  · split <;> exact ⟨_, rfl⟩

theorem openGated_mar : (openGated k st s).mar k =
    { s.mar k with seq := if s.get MSH_CTL.MODE k = 0 then (s.mar k).seq else (s.mar k).seq.gated st } := by
  unfold openGated
  dsimp only
  split
  · next h hrun => rw [hrun, HeatSeq.gated, ite_self, ← hrun]
  · next hrun =>
    split
    · rfl
    · rw [setMar_mar_self]
      cases hseq : (s.mar k).seq with
      | running h => exact absurd hseq (hrun h)
      | none => rfl
      | due x => rfl

theorem setMar_mar_ne {x : Marshal} (h : j ≠ k) : (s.setMar k x).mar j = s.mar j := tget_tset_ne h

theorem openGated_mar_ne (h : j ≠ k) : (openGated k st s).mar j = s.mar j := by
  unfold openGated
  dsimp only
  split
  · rfl
  · split
    · rfl
    · exact setMar_mar_ne h

end Sys2Proof.Machine

namespace Sys2Proof.Proofs.Forecast

open Sys2Proof Sys2Proof.Machine

/-- Settles O24: an instruction acts in the state that counts its issue, in which stamps and windows read as before; ARM and FCST
deliver, HEAT puts its field's sequence, WOPEN and WCLOSE change their window alone, and what is refused raises its event. -/
theorem windowsArmsAndHeats : Obligations.WindowsArmsAndHeats := by
  refine ⟨?arm, ?armAbsent, ?fcstEnd, ?fcstMax, ?fcstAbsent, ?heat, ?wopen, ?wopenIdle, ?wclose, ?wcloseIdle, ?wopenRefused,
    ?wcloseRefused⟩
  case arm =>
    intro n st s h hm hst
    exact issue_delivers (kind := .arm st _) h (by decide) (by decide) hm (by simp only [issued_selected, hst])
  case armAbsent =>
    intro n s h hst hroom
    refine ⟨_, rfl, ?_⟩
    rw [issue_acts h (by decide) (fun _ => by decide)]
    simp only [issued_selected, hst, stampAbsent, issued_pc]
    exact ⟨writesNone_raise h hroom (by decide), by simp, by rw [fall_intake, raise_issued hroom (by decide)]⟩
  case fcstEnd =>
    intro n st s h hm hst
    exact issue_delivers (kind := .cover (some st) _) h (by decide) (by decide) hm (by
      simp only [issued_winStamp, hst, issued_now])
  case fcstMax =>
    intro n s h hm hst hmax
    exact issue_delivers (kind := .cover none _) h (by decide) (by decide) hm (by
      simp only [issued_winStamp, hst, issued_now, hmax, if_false])
  case fcstAbsent =>
    intro n s h hst hmax hroom
    refine ⟨_, rfl, ?_⟩
    rw [issue_acts h (by decide) (fun _ => by decide)]
    simp only [issued_winStamp, hst, hmax, if_true, stampAbsent, issued_pc]
    exact ⟨writesNone_raise h hroom (by decide), by simp, by rw [fall_intake, raise_issued hroom (by decide)]⟩
  case heat =>
    intro n f st s h hu hf hst
    refine ⟨_, rfl, ?_⟩
    rw [issue_acts h (by decide) (fun _ => by decide)]
    have hrange : ¬ ((s.word n).unit < 0x6E0 ∨ 0x6E8 ≤ (s.word n).unit) := by omega
    have hfield : (s.word n).unit - 0x6E0 = f := by omega
    simp only [hrange, if_false, issued_selected, hst, hfield]
    obtain ⟨l, hl⟩ := openGated_eq (k := f) (st := st) (s := s.issued n)
    refine ⟨?_, ?_, ?_, fun g hg => ?_⟩
    · rw [hl]; exact writesNone_of h rfl rfl rfl rfl rfl rfl rfl
    · rw [fall_mar, openGated_mar, issued_mar, issued_get (by decide)]
      dsimp only
      split
      · rfl
      · cases (s.mar f).seq <;> rfl
    · rw [fall_mar, openGated_mar, issued_mar]
    · rw [fall_mar, openGated_mar_ne hg, issued_mar]
  case wopen =>
    rintro n w s h rfl hmay hen
    have hen' : (s.issued n).get FCW_STAT.STATE ((s.word n).unit % 64) ≠ 0 := by rwa [issued_get (by decide)]
    refine ⟨_, exec_wopen hmay h, ?_⟩
    rw [windowOpen_enabled hen']
    obtain ⟨hstate, harr, hvalid, hend, hsums, hnoArr, hnoEnd, hret, hunread, hother⟩ :=
      opened_shows (n := n) (w := (s.word n).unit % 64) (s := s) (t := s.issued n) issued_fcRet issued_fcUnread
    refine ⟨hstate, harr, hvalid, hend, hsums, hnoArr, hnoEnd, hret, hunread,
      fun v hv => (hother v hv).trans (issued_get (by decide)), goesOn (opened_pc.trans issued_pc) ?_ ?_ ?_, fun k _ => ?_,
      fall_block (freeSlots_block (issued_block.trans freshWindow_block))⟩
    · rw [opened_ctx, issued_ctx]
    · rw [opened_ctx, issued_ctx]
    · rw [opened_ctx, issued_ctx, h.wait]
    · rw [fall_vreg, State.vreg, opened_ctx, issued_ctx, State.vreg]
  case wopenIdle =>
    rintro n w s h rfl hmay hdis
    refine ⟨_, exec_wopen hmay h, ?_⟩
    rw [windowOpen_disabled (by rwa [issued_get (by decide)])]
    exact writesNone h
  case wclose =>
    rintro n w s h rfl hmay hen
    refine ⟨_, exec_wclose hmay h, ?_⟩
    rw [windowClose_enabled (by rwa [issued_get (by decide)])]
    refine ⟨?_, goesOn ?_ (by simp) (by simp) (by simpa using h.wait),
      fun k _ => by rw [fall_vreg, State.vreg, put_ctx, issued_ctx, State.vreg],
      ((issued_frame.mono (by simp)).put (by simp) (by decide)).fall⟩
    · rw [fall_get_reg (by decide), get_put_self]; rfl
    · rw [State.pc, get_put_reg (by decide)]; exact issued_pc
  case wcloseIdle =>
    rintro n w s h rfl hmay hdis
    refine ⟨_, exec_wclose hmay h, ?_⟩
    rw [windowClose_disabled (by rwa [issued_get (by decide)])]
    exact writesNone h
  case wopenRefused =>
    rintro n w s h rfl hn hsup hroom
    refine ⟨_, exec_wopen_refused hn hsup h, ?_⟩
    rw [supRefused, issued_pc]
    refine ⟨?_, ?_, writesNone_raise h hroom (by decide), ?_⟩
    all_goals simp only [fall_fcRet, fall_fcUnread, fall_intake, raise_issued hroom (code := 0x0701) (by decide)]
    · exact issued_fcRet
    · exact issued_fcUnread
  case wcloseRefused =>
    rintro n w s h rfl hn hsup hroom
    refine ⟨_, exec_wclose_refused hn hsup h, ?_⟩
    rw [supRefused, issued_pc]
    exact ⟨writesNone_raise h hroom (by decide), by rw [fall_intake, raise_issued hroom (by decide)]⟩

end Sys2Proof.Proofs.Forecast

namespace Sys2Proof.Machine

open Sys2Proof

variable {s t : State} {m : Master} {f g : Fld} {i j p q v w rd tile width : Nat} {words : List Nat} {r e : FRec} {b : Bool}

/-! ## Forecast ports (R177, R178, R190) -/

/-- What goes before no entry of a list joins it last. -/
theorem insBy_last {α : Type} {before : α → α → Bool} {x : α} {l : List α} (h : ∀ y ∈ l, before x y = false) :
    insBy before x l = l ++ [x] := by
  induction l with
  | nil => rfl
  | cons y l ih =>
    rw [insBy, h y List.mem_cons_self, if_neg Bool.false_ne_true, ih fun z hz => h z (List.mem_cons_of_mem _ hz)]
    rfl

/-- A record accepted later goes before none accepted earlier. -/
theorem not_sooner (h : e.cyc < r.cyc) : r.sooner e = false := by
  simp only [FRec.sooner, decide_eq_false_iff_not]
  omega

/-- The record of a write that a tile presents now. -/
def State.presented (s : State) (tile w : Nat) (words : List Nat) (width : Nat) : FRec :=
  ⟨tilePort tile, tile, w, words.take 12, width, ⟨0, 0⟩, 0, 0, false, s.now, 0⟩

/-- A tile may present a write of this form: it is of the block, and its port holds none of it (R177, R182). -/
structure State.mayPresent (s : State) (tile w width : Nat) : Prop where
  tile_lt : tile < 9216
  win_lt : w < 64
  size : width ∈ [8, 16, 32, 48, 64]
  free : s.fcHeld.any (fun r => r.tile == tile) = false

section
variable (h : s.mayPresent tile w width)
include h

theorem exec_forecastWrite : exec (.forecastWrite tile w words width) s =
    if s.fcReady (s.presented tile w words width) then .next (fcAccept (s.presented tile w words width) s)
    else match s.fcLoser (s.presented tile w words width) with
      | some e => .next (fcDisplace (s.presented tile w words width) e s)
      | none => .next (fcHold (s.presented tile w words width) s) := by
  have hform : ¬ (9216 ≤ tile ∨ 64 ≤ w ∨ width ∉ [8, 16, 32, 48, 64] ∨ s.fcHeld.any (fun r => r.tile == tile) = true) := by
    obtain ⟨ht, hw, hwidth, hfree⟩ := h
    rw [hfree]
    simp only [Bool.false_eq_true, or_false, not_or]
    exact ⟨by omega, by omega, not_not.mpr hwidth⟩
  show (if _ then _ else _ : Out) = _
  rw [if_neg hform]
  rfl

theorem exec_forecastWrite_accepts (hready : s.fcReady (s.presented tile w words width) = true) :
    exec (.forecastWrite tile w words width) s = .next (fcAccept (s.presented tile w words width) s) := by
  rw [exec_forecastWrite h, if_pos hready]

theorem exec_forecastWrite_displaces (hready : s.fcReady (s.presented tile w words width) = false)
    (hl : s.fcLoser (s.presented tile w words width) = some e) :
    exec (.forecastWrite tile w words width) s = .next (fcDisplace (s.presented tile w words width) e s) := by
  rw [exec_forecastWrite h, hready, if_neg Bool.false_ne_true, hl]

theorem exec_forecastWrite_holds (hready : s.fcReady (s.presented tile w words width) = false)
    (hl : s.fcLoser (s.presented tile w words width) = none) :
    exec (.forecastWrite tile w words width) s = .next (fcHold (s.presented tile w words width) s) := by
  rw [exec_forecastWrite h, hready, if_neg Bool.false_ne_true, hl]
end

/-- A window that is not IDLE takes a write with a credit, and only so (R178). -/
theorem fcReady_credit (h : s.get FCW_STAT.STATE r.win ≠ 0) : s.fcReady r = s.hasCredit r.port r.win := by
  rw [State.fcReady, beq_false_of_ne h, Bool.false_or]

theorem fcReady_idle (h : s.get FCW_STAT.STATE r.win = 0) : s.fcReady r = true := by
  rw [State.fcReady, h]; rfl

theorem fcAccept_credit (h : s.get FCW_STAT.STATE r.win ≠ 0) : fcAccept r s =
    { fcEnqueue (s.arrive r true) s with
      fcOut := tset s.fcOut (64 * r.port + r.win) (s.outOf r.port r.win + 1) }.bump FCW_STAT.OUT r.win := by
  simp only [fcAccept, bne_iff_ne.mpr h, if_true]
  rfl

theorem fcAccept_idle (h : s.get FCW_STAT.STATE r.win = 0) : fcAccept r s = fcEnqueue (s.arrive r false) s := by
  simp only [fcAccept, h, bne_self_eq_false, Bool.false_eq_true, if_false]

theorem fcEnqueue_port : tget [] (fcEnqueue r s).fcPort r.port = insBy FRec.sooner r (tget [] s.fcPort r.port) := tget_tset_self

theorem fcEnqueue_port_ne (h : p ≠ r.port) : tget [] (fcEnqueue r s).fcPort p = tget [] s.fcPort p := tget_tset_ne h

/-- A record accepted now goes behind those accepted earlier. -/
theorem arrive_behind {l : List FRec} (h : ∀ e ∈ l, e.cyc < s.now) :
    insBy FRec.sooner (s.arrive r b) l = l ++ [s.arrive r b] :=
  insBy_last fun e he => not_sooner (h e he)

theorem fcLoser_none (h : ∀ e ∈ tget [] s.fcPort r.port, e.win = r.win → e.credit = true → e.cyc = s.now → e.shown = s.now →
    e.tile ≤ r.tile) : s.fcLoser r = none := by
  rw [State.fcLoser, List.getLast?_eq_none_iff, List.filter_eq_nil_iff]
  intro e he hlost
  simp only [Bool.and_eq_true, beq_iff_eq, decide_eq_true_eq] at hlost
  obtain ⟨⟨⟨⟨hwin, hcredit⟩, hcyc⟩, hshown⟩, htile⟩ := hlost
  exact absurd (h e he hwin hcredit hcyc hshown) (by omega)

/-- Of several writes of higher tiles that took a credit in this cycle the one that loses it is the last of the queue. -/
theorem fcLoser_last {l : List FRec} (hq : tget [] s.fcPort r.port = l ++ [e]) (hwin : e.win = r.win) (hcredit : e.credit = true)
    (hcyc : e.cyc = s.now) (hshown : e.shown = s.now) (htile : r.tile < e.tile) : s.fcLoser r = some e := by
  rw [State.fcLoser, hq, List.filter_append, List.filter_singleton]
  simp [hwin, hcredit, hcyc, hshown, htile]

/-- The last record of a queue leaves it as it was before that record. -/
theorem erase_last {l : List FRec} (h : e ∉ l) : (l ++ [e]).erase e = l := by
  rw [List.erase_append_right _ h, List.erase_cons_head, List.append_nil]

theorem fcRelease_none (h : s.fcHeld = []) : fcRelease s = s := by
  rw [fcRelease, h]
  exact congrArg (fun l => { s with fcHeld := l }) h.symm

/-- The state in which a return with a credit has reached its port, and the credit is there again. -/
def takeBack (r : FRet) (rest : List FRet) (s : State) : State :=
  { s with
    fcRet := rest
    fcReply := some r
    fcOut := tset s.fcOut (64 * r.port + r.win) (s.outOf r.port r.win - 1) }.put FCW_STAT.OUT r.win
      (s.get FCW_STAT.OUT r.win - 1)

/-- A credit that returns where no write is held (R190). -/
theorem exec_creditReturn {r : FRet} {rest : List FRet} (h : s.fcRet = r :: rest) (hheld : s.fcHeld = [])
    (hcredit : r.credit = true) : exec .creditReturn s = .next (takeBack r rest s) := by
  show execCreditReturn s = _
  simp only [execCreditReturn, h, hcredit, if_true]
  exact congrArg Host.Outcome.next (fcRelease_none (s := takeBack r rest s) hheld)

theorem exec_arrival {rest : List Nat} (h : s.fcArr = w :: rest) :
    exec .arrival s = .next ({ s with fcArr := rest }.wrap FCW_ARRIVALS.ARRIVALS w) := by
  show execArrival s = _
  rw [execArrival, h]

/-! ## Settings of windows (R185) and releases of slots (R192) -/

theorem exec_fcwCfgWrite (h : s.Takes m .FCW_CFG w v) :
    exec (.fcwCfgWrite m w v) s = .next ((fcwCfg w (v % 2 ^ 32) s).answered 0) :=
  congrArg Host.Outcome.next (regWrite_takes h (by decide))

theorem exec_ringRelease (h : s.Takes m .FCW_PTR w v) :
    exec (.ringRelease m w v) s = .next ((ringRelease w (FCW_PTR.RD.ofWord v) s).answered 0) := by
  rw [← ofWord_mod (f := FCW_PTR.RD) (by decide)]
  exact congrArg Host.Outcome.next (regWrite_takes h (by decide))

/-- The pointers of window w restart where KEEP or CREDITS changes (R191, R192). -/
def restartRing (w v : Nat) (s : State) : State :=
  if bits v 30 30 = s.get FCW_CFG.KEEP w ∧ bits v 26 24 = s.get FCW_CFG.CREDITS w then s
  else (s.put FCW_PTR.WR w 0).put FCW_PTR.RD w 0

/-- The STATE that EN of the word v gives window w. -/
def State.enabledState (s : State) (w v : Nat) : Nat :=
  if bits v 31 31 = 0 then 0 else if s.get FCW_CFG.EN w = 0 then 1 else s.get FCW_STAT.STATE w

/-- The state in which FCW_CFG of window w holds the word v. -/
def storeFcwCfg (w v : Nat) (s : State) : State :=
  let s := ((s.put FCW_CFG.EN w (bits v 31 31)).put FCW_CFG.KEEP w (bits v 30 30)).put FCW_CFG.CREDITS w (bits v 26 24)
  ((s.put FCW_CFG.MIN_LEAD w (bits v 23 16)).put FCW_CFG.SUPER w (bits v 8 8)).put FCW_CFG.OWNER w (bits v 2 0)

theorem fcwCfg_refused (h : s.cfgRefused w v = true) : fcwCfg w v s = s.setOver FCW_STAT.CFG_ERR w := if_pos h

theorem storeFcwCfg_fcHeld : (storeFcwCfg w v s).fcHeld = s.fcHeld := rfl

theorem restartRing_fcHeld : (restartRing w v s).fcHeld = s.fcHeld := by
  rw [restartRing]
  split <;> rfl

theorem fcwCfg_taken (h : s.cfgRefused w v = false) (hheld : s.fcHeld = []) :
    fcwCfg w v s = (storeFcwCfg w v (restartRing w v s)).put FCW_STAT.STATE w (s.enabledState w v) := by
  rw [fcwCfg, h, if_neg Bool.false_ne_true]
  exact fcRelease_none (s := (storeFcwCfg w v (restartRing w v s)).put FCW_STAT.STATE w (s.enabledState w v))
    (by rw [put_fcHeld, storeFcwCfg_fcHeld, restartRing_fcHeld, hheld])

theorem restartRing_block : SameBlock s (restartRing w v s) := by
  rw [restartRing]
  split
  · exact .refl
  · exact SameBlock.refl.put.put

theorem restartRing_pointers (h : bits v 30 30 ≠ s.get FCW_CFG.KEEP w ∨ bits v 26 24 ≠ s.get FCW_CFG.CREDITS w) :
    (restartRing w v s).get FCW_PTR.WR w = 0 ∧ (restartRing w v s).get FCW_PTR.RD w = 0 := by
  rw [restartRing, if_neg fun e => h.elim (fun hne => hne e.1) fun hne => hne e.2]
  exact ⟨by rw [get_put_lo (by decide), get_put_self]; rfl, get_put_self⟩

theorem storeFcwCfg_block : SameBlock s (storeFcwCfg w v s) := SameBlock.refl.put.put.put.put.put.put

theorem storeFcwCfg_get (h : f.reg ≠ .FCW_CFG) : (storeFcwCfg w v s).get f i = s.get f i := by
  rw [storeFcwCfg, get_put_reg h, get_put_reg h, get_put_reg h, get_put_reg h, get_put_reg h, get_put_reg h]

theorem storeFcwCfg_field (h : f ∈ Reg.fields .FCW_CFG) : (storeFcwCfg w v s).get f w = f.ofWord v := by
  simp only [Reg.fields, List.mem_cons, List.not_mem_nil, or_false] at h
  rcases h with rfl | rfl | rfl | rfl | rfl | rfl <;>
    simp (disch := decide) only [storeFcwCfg, get_put_lo, get_put_self] <;> exact bits_mod_width rfl

section
variable (hkeep : s.flag FCW_CFG.KEEP w = true) (hrd : rd < s.ringSize w)
  (hd : (rd + s.ringSize w - s.get FCW_PTR.RD w) % s.ringSize w ≤ (tget [] s.fcUnread w).length)
include hkeep hrd hd

theorem ringRelease_releases : ringRelease w rd s = { s.put FCW_PTR.RD w rd with
    fcRet := s.fcRet ++ (tget [] s.fcUnread w).take ((rd + s.ringSize w - s.get FCW_PTR.RD w) % s.ringSize w)
    fcUnread := tset s.fcUnread w
      ((tget [] s.fcUnread w).drop ((rd + s.ringSize w - s.get FCW_PTR.RD w) % s.ringSize w)) } := by
  refine if_neg ?_
  rintro (h | h | h)
  · exact h hkeep
  · omega
  · omega
end

theorem ringRelease_ignored (h : s.flag FCW_CFG.KEEP w = false ∨ s.ringSize w ≤ rd ∨
    (tget [] s.fcUnread w).length < (rd + s.ringSize w - s.get FCW_PTR.RD w) % s.ringSize w) : ringRelease w rd s = s :=
  if_pos (h.imp (fun hk => by simp [hk]) id)

end Sys2Proof.Machine

namespace Sys2Proof.Proofs.Forecast

open Sys2Proof Sys2Proof.Machine

/-- Settles O32: a write by what its port does with it (accept, hold, or take the credit of a higher tile's), the settings by what
the register's own write stores, and a release by whether the slots named are unread. -/
theorem forecastPortsAndWindows : Obligations.ForecastPortsAndWindows := by
  refine ⟨?credit, ?idle, ?held, ?displaced, ?returned, ?arrival, ?refused, ?stored, ?opened, ?released, ?beyond, ?noKeep⟩
  case credit =>
    intro tile w words width s htile hw hwidth hfree hstate hcredit
    have hstate' : s.get FCW_STAT.STATE (s.presented tile w words width).win ≠ 0 := hstate
    refine ⟨_, exec_forecastWrite_accepts ⟨htile, hw, hwidth, hfree⟩ ((fcReady_credit hstate').trans hcredit), ?_⟩
    rw [fcAccept_credit hstate']
    exact ⟨⟨s.arrive (s.presented tile w words width) true, fcEnqueue_port, fun hold => fcEnqueue_port.trans (arrive_behind hold),
      rfl, rfl, rfl, rfl, rfl, rfl, rfl, rfl, rfl, rfl, rfl⟩, fun p hp => fcEnqueue_port_ne hp, tget_tset_self, get_bump_self, rfl,
      (SameRegs.refl.congr rfl rfl).bump (by exact List.mem_singleton_self _), SameBlock.refl.congr rfl rfl rfl rfl⟩
  case idle =>
    intro tile w words width s htile hw hwidth hfree hstate
    have hstate' : s.get FCW_STAT.STATE (s.presented tile w words width).win = 0 := hstate
    refine ⟨_, exec_forecastWrite_accepts ⟨htile, hw, hwidth, hfree⟩ (fcReady_idle hstate'), ?_⟩
    rw [fcAccept_idle hstate']
    exact ⟨⟨s.arrive (s.presented tile w words width) false, fcEnqueue_port, fun hold => fcEnqueue_port.trans (arrive_behind hold),
      rfl, rfl, rfl, rfl, rfl⟩, rfl, rfl, SameRegs.refl.congr rfl rfl, SameBlock.refl.congr rfl rfl rfl rfl⟩
  case held =>
    intro tile w words width s htile hw hwidth hfree hstate hcredit hlower
    refine ⟨_, exec_forecastWrite_holds ⟨htile, hw, hwidth, hfree⟩ ((fcReady_credit hstate).trans hcredit)
      (fcLoser_none hlower), ?_⟩
    exact ⟨⟨s.presented tile w words width, rfl, rfl, rfl, rfl, rfl⟩, rfl, rfl, SameRegs.refl.congr rfl rfl,
      SameBlock.refl.congr rfl rfl rfl rfl⟩
  case displaced =>
    intro tile w words width q e s htile hw hwidth hfree hstate hcredit hq hnew hwin hecredit hcyc hshown hlt
    refine ⟨_, exec_forecastWrite_displaces ⟨htile, hw, hwidth, hfree⟩ ((fcReady_credit hstate).trans hcredit)
      (fcLoser_last hq hwin hecredit hcyc hshown hlt), ?_⟩
    refine ⟨⟨s.arrive (s.presented tile w words width) true, ?_, rfl, rfl, rfl, rfl⟩, rfl, rfl, SameRegs.refl.congr rfl rfl,
      SameBlock.refl.congr rfl rfl rfl rfl⟩
    have hport : tget [] (tset s.fcPort (tilePort tile) ((tget [] s.fcPort (tilePort tile)).erase e)) (tilePort tile) = q := by
      rw [tget_tset_self, hq, erase_last hnew]
    exact fcEnqueue_port.trans (congrArg _ hport)
  case returned =>
    intro r rest s hret hheld hcredit
    exact ⟨_, exec_creditReturn hret hheld hcredit, rfl, rfl, tget_tset_self, get_put_self,
      (SameRegs.refl.congr rfl rfl).put (List.mem_singleton_self _), SameBlock.refl.congr rfl rfl rfl rfl⟩
  case arrival =>
    intro w rest s harr
    exact ⟨_, exec_arrival harr, rfl, get_wrap_self, (SameRegs.refl.congr rfl rfl).wrap (List.mem_singleton_self _),
      SameBlock.refl.congr rfl rfl rfl rfl⟩
  case refused =>
    intro m w data s h href
    refine ⟨_, exec_fcwCfgWrite h, ?_⟩
    rw [fcwCfg_refused href]
    exact ⟨get_setOver_self, (SameRegs.refl.put (List.mem_singleton_self _)).congr rfl rfl, SameBlock.refl.congr rfl rfl rfl rfl⟩
  case stored =>
    intro m w data s h href hheld
    refine ⟨_, exec_fcwCfgWrite h, ?_⟩
    rw [fcwCfg_taken href hheld]
    have hfield : ∀ f ∈ Reg.fields .FCW_CFG,
        (((storeFcwCfg w (data % 2 ^ 32) (restartRing w (data % 2 ^ 32) s)).put FCW_STAT.STATE w
          (s.enabledState w (data % 2 ^ 32))).answered 0).get f w = f.ofWord data := fun f hf => by
      obtain ⟨hreg, hword⟩ : f.reg ≠ .FCW_STAT ∧ f.lo ≤ f.hi ∧ f.hi < 32 := by revert f; decide
      rw [answered_get, get_put_reg hreg, storeFcwCfg_field hf, ofWord_mod hword]
    have hen : bits (data % 2 ^ 32) 31 31 = FCW_CFG.EN.ofWord data := ofWord_mod (f := FCW_CFG.EN) (by decide)
    have hkeep : bits (data % 2 ^ 32) 30 30 = FCW_CFG.KEEP.ofWord data := ofWord_mod (f := FCW_CFG.KEEP) (by decide)
    have hcredits : bits (data % 2 ^ 32) 26 24 = FCW_CFG.CREDITS.ofWord data := ofWord_mod (f := FCW_CFG.CREDITS) (by decide)
    refine ⟨hfield _ (by simp [Reg.fields]), hfield _ (by simp [Reg.fields]), hfield _ (by simp [Reg.fields]),
      hfield _ (by simp [Reg.fields]), hfield _ (by simp [Reg.fields]), hfield _ (by simp [Reg.fields]),
      fun h0 => ?_, fun h1 hwas => ?_, fun hnew => ?_,
      (restartRing_block.trans (storeFcwCfg_block.trans SameBlock.refl.put)).answered⟩
    · rw [answered_get, get_put_self, State.enabledState, hen, if_pos h0]; rfl
    · rw [answered_get, get_put_self, State.enabledState, hen, h1, if_neg (by decide), if_pos hwas]; rfl
    · rw [← hkeep, ← hcredits] at hnew
      obtain ⟨hwr, hrd⟩ := restartRing_pointers hnew
      constructor
      · rw [answered_get, get_put_reg (by decide), storeFcwCfg_get (by decide), hwr]
      · rw [answered_get, get_put_reg (by decide), storeFcwCfg_get (by decide), hrd]
  case opened =>
    intro w s hopen v
    simp [State.cfgRefused, hopen]
  case released =>
    rintro m w data rd n d s h rfl rfl rfl hkeep hrd hd
    refine ⟨_, exec_ringRelease h, ?_⟩
    rw [ringRelease_releases hkeep hrd hd]
    refine ⟨?_, rfl, tget_tset_self, (SameRegs.refl.put (List.mem_singleton_self _)).congr rfl rfl,
      SameBlock.refl.congr rfl rfl rfl rfl⟩
    exact get_put_self.trans ofWord_mod_width
  case beyond =>
    rintro m w data rd n s h rfl rfl hcase
    refine ⟨_, exec_ringRelease h, ?_⟩
    rw [ringRelease_ignored (.inr hcase)]
    exact ⟨rfl, rfl, SameRegs.refl.answered, SameBlock.refl.answered⟩
  case noKeep =>
    intro m w data s h hkeep
    refine ⟨_, exec_ringRelease h, ?_⟩
    rw [ringRelease_ignored (.inl hkeep)]
    exact ⟨rfl, rfl, SameRegs.refl.answered, SameBlock.refl.answered⟩

end Sys2Proof.Proofs.Forecast

namespace Sys2Proof.Machine

open Sys2Proof

variable {s t u : State} {f g : Fld} {i j k n p q v w fd status : Nat} {r e : FRec} {rest : List FRec} {b : Bool} {z : Int}
  {st : Stamp}

/-! ## The choice of the next record (R177, R179) -/

theorem fcOffers_iff : s.fcOffers p = true ↔ ∃ r rest, tget [] s.fcPort p = r :: rest ∧ s.earlier r.cyc = true := by
  rw [State.fcOffers]
  cases tget [] s.fcPort p with
  | nil => simp
  | cons r rest => simp

/-- Once cycles count, what came earlier came in an earlier cycle. -/
theorem earlier_iff {c : Nat} (h : s.cyc.on = true) : s.earlier c = true ↔ c < s.now := by
  simp [State.earlier, h]

theorem fcNext_none (h : ∀ k, k < 16 → s.fcOffers (16 * fd + k) = false) : s.fcNext fd = none := by
  rw [State.fcNext, List.find?_eq_none]
  intro k hk
  obtain ⟨x, -, rfl⟩ := List.mem_map.mp hk
  rw [h _ (Nat.mod_lt _ (by decide))]
  exact Bool.false_ne_true

theorem fcNext_some (h : s.fcNext fd = some k) : k < 16 ∧ s.fcOffers (16 * fd + k) = true := by
  obtain ⟨x, -, hx⟩ := List.mem_map.mp (List.mem_of_find?_eq_some h)
  exact ⟨hx ▸ Nat.mod_lt _ (by decide), List.find?_some (p := fun k => s.fcOffers (16 * fd + k)) h⟩

/-- The state in which local port k of field fd has given up its oldest record. -/
def takeOff (fd k : Nat) (rest : List FRec) (s : State) : State :=
  { s with fcPort := tset s.fcPort (16 * fd + k) rest, fcLast := tset s.fcLast fd k }

theorem exec_intake_none (h : s.fcNext fd = none) : exec (.intake fd) s = .next s := by
  show execIntake fd s = _
  rw [execIntake, h]

theorem exec_intake (h : s.fcNext fd = some k) (hq : tget [] s.fcPort (16 * fd + k) = r :: rest) :
    exec (.intake fd) s = .next (fcTake r (takeOff fd k rest s)) := by
  show execIntake fd s = _
  simp only [execIntake, h, hq]
  rfl

theorem takeOff_port : tget [] (takeOff fd k rest s).fcPort (16 * fd + k) = rest := tget_tset_self
theorem takeOff_last : tget 15 (takeOff fd k rest s).fcLast fd = k := tget_tset_self
@[simp] theorem takeOff_addTicks : (takeOff fd k rest s).addTicks st n = s.addTicks st n := rfl
@[simp] theorem takeOff_get : (takeOff fd k rest s).get f i = s.get f i := rfl
theorem takeOff_block : SameBlock s (takeOff fd k rest s) := SameBlock.refl.congr rfl rfl rfl rfl

/-! ## Discarded records (R189) -/

/-- The status with which record r is discarded: its window is IDLE or CLOSED, or it is malformed. -/
theorem fcTake_discards (h : (s.get FCW_STAT.STATE r.win = 0 ∧ status = 3) ∨ (s.get FCW_STAT.STATE r.win = 1 ∧ status = 2) ∨
    (s.get FCW_STAT.STATE r.win = 2 ∧ r.malformed = true ∧ status = 4)) : fcTake r s = fcDiscard r status s := by
  rcases h with ⟨hst, rfl⟩ | ⟨hst, rfl⟩ | ⟨hst, hbad, rfl⟩
  · simp only [fcTake, hst, if_true]
  · simp [fcTake, hst]
  · simp [fcTake, hst, hbad]

/-! ## Accepted records (R183, R184, R190, R192, R194) -/

/-- The lead of a record in ticks. -/
def FRec.lead (r : FRec) : Nat := cyclesToTicks (r.word 1) r.period r.rate

/-- The lead of record r is below MIN_LEAD of its window. -/
def State.isShort (s : State) (r : FRec) : Bool := decide (r.lead < s.get FCW_CFG.MIN_LEAD r.win)

/-- The state in which record r is counted where it is SHORT. -/
def countShort (r : FRec) (s : State) : State := if s.isShort r then s.bump FCW_STAT.SHORTS r.win else s

/-- The state in which the arrival of record r is to be counted. -/
def noteArrival (w : Nat) (s : State) : State := { s with fcArr := s.fcArr ++ [w] }

theorem countShort_get (h : f.reg ≠ .FCW_STAT ∨ f.lo ≠ FCW_STAT.SHORTS.lo) : (countShort r s).get f i = s.get f i := by
  rw [countShort]
  split
  · exact h.elim (fun hr => get_bump_reg hr) fun hl => get_bump_lo hl
  · rfl

theorem countShort_shorts : (countShort r s).get FCW_STAT.SHORTS r.win =
    if s.isShort r then FCW_STAT.SHORTS.count (s.get FCW_STAT.SHORTS r.win) else s.get FCW_STAT.SHORTS r.win := by
  rw [countShort]
  split
  · exact get_bump_self
  · rfl

theorem countShort_regs : SameRegs [FCW_STAT.SHORTS.key r.win] s (countShort r s) := by
  rw [countShort]
  split
  · exact SameRegs.refl.bump (List.mem_singleton_self _)
  · exact .refl

/-! ### The summary (R194) -/

/-- The registers of a window's stamps. -/
def stampRegs : List Reg := [.FCW_EARLY, .FCW_LATE, .FCW_END, .FCW_TICKS]

theorem keepEarly_get (h : f.reg ∉ stampRegs) : (s.keepEarly w b st).get f i = s.get f i := by
  simp only [stampRegs, List.mem_cons, List.not_mem_nil, or_false, not_or] at h
  obtain ⟨hearly, -, -, hticks⟩ := h
  rw [State.keepEarly]
  split
  · rfl
  · rw [get_put_reg hticks, get_put_reg hearly]

theorem keepLate_get (h : f.reg ∉ stampRegs) : (s.keepLate w b st).get f i = s.get f i := by
  simp only [stampRegs, List.mem_cons, List.not_mem_nil, or_false, not_or] at h
  obtain ⟨-, hlate, -, hticks⟩ := h
  rw [State.keepLate]
  split
  · rfl
  · rw [get_put_reg hticks, get_put_reg hlate]

theorem keepEnd_get (h : f.reg ∉ stampRegs) : (s.keepEnd w st).get f i = s.get f i := by
  simp only [stampRegs, List.mem_cons, List.not_mem_nil, or_false, not_or] at h
  obtain ⟨-, -, hend, hticks⟩ := h
  rw [State.keepEnd]
  split
  · rfl
  · exact (get_put_reg hticks).trans (get_put_reg hend)

theorem unsg_lt : unsg 32 z < 2 ^ 32 := by
  rw [unsg]; omega

/-- What two's complement of 32 bits holds is read back as it was. -/
theorem sgn_unsg_32 (h1 : -2147483648 ≤ z) (h2 : z ≤ 2147483647) : sgn 32 (unsg 32 z) = z := by
  norm_num [sgn, unsg]
  split_ifs <;> omega

theorem sat32_bounds : -2147483648 ≤ sat32 z ∧ sat32 z ≤ 2147483647 := clampI_bounds (by decide)

theorem addSum_getI : (addSum w q z s).getI FCW_SUM.SUM (16 * w + q) = sat32 (s.getI FCW_SUM.SUM (16 * w + q) + z) := by
  rw [addSum, State.getI, State.putI, get_put_self]
  exact (congrArg (sgn 32) (Nat.mod_eq_of_lt unsg_lt)).trans (sgn_unsg_32 sat32_bounds.1 sat32_bounds.2)

theorem addSum_getI_ne (h : q ≠ p) : (addSum w p z s).getI FCW_SUM.SUM (16 * w + q) = s.getI FCW_SUM.SUM (16 * w + q) := by
  rw [State.getI, State.getI, addSum, State.putI, get_put_inst (by omega)]

theorem addSum_get (h : f.reg ≠ .FCW_SUM) : (addSum w q z s).get f i = s.get f i := get_put_reg h

/-- The state in which the steps of record r are added to the sums of its field. -/
def addSteps (r : FRec) (s : State) : State :=
  addSum r.win (2 * (r.first / 1152) + 1) (sgn 16 (bits (r.word 3) 31 16) * ((r.span + 1 : Nat) : Int))
    (addSum r.win (2 * (r.first / 1152)) (sgn 16 (bits (r.word 3) 15 0) * ((r.span + 1 : Nat) : Int)) s)

/-- The state in which instant st counts among the stamps EARLY and LATE of window w. -/
def keepSpan (w : Nat) (st : Stamp) (s : State) : State :=
  let v := s.flag FCW_STAT.STAMPS_VALID w
  ((s.keepEarly w v st).keepLate w v st).put FCW_STAT.STAMPS_VALID w 1

/-- The state in which the end of record r, of instant st, counts for END of its window, or makes its end open. -/
def noteEnd (r : FRec) (st : Stamp) (s : State) : State :=
  if r.word 2 = 0 then s.put FCW_STAT.END_OPEN r.win 1
  else s.keepEnd r.win (s.addTicks st (cyclesToTicks (r.word 2) r.period r.rate))

theorem fcSummary_step (h : r.kind = 1) : fcSummary r st s = noteEnd r st (keepSpan r.win st (addSteps r s)) :=
  if_neg (not_not.mpr h)

theorem fcSummary_other (h : r.kind ≠ 1) : fcSummary r st s = s := if_pos h

theorem keepSpan_get (h1 : f.reg ∉ stampRegs) (h2 : f.reg ≠ .FCW_STAT ∨ f.lo ≠ FCW_STAT.STAMPS_VALID.lo) :
    (keepSpan w st s).get f i = s.get f i :=
  (h2.elim (fun hr => get_put_reg hr) fun hl => get_put_lo hl).trans ((keepLate_get h1).trans (keepEarly_get h1))

theorem noteEnd_get (h1 : f.reg ∉ stampRegs) (h2 : f.reg ≠ .FCW_STAT ∨ f.lo ≠ FCW_STAT.END_OPEN.lo) :
    (noteEnd r st s).get f i = s.get f i := by
  rw [noteEnd]
  split
  · exact h2.elim (fun hr => get_put_reg hr) fun hl => get_put_lo hl
  · exact keepEnd_get h1

/-- The fields of a window's summary. -/
def summaryFields : List Fld := [FCW_STAT.STAMPS_VALID, FCW_STAT.END_OPEN]

theorem fcSummary_get (h1 : f.reg ∉ stampRegs) (h2 : f.reg ≠ .FCW_SUM)
    (h3 : ∀ g ∈ summaryFields, f.reg ≠ g.reg ∨ f.lo ≠ g.lo) :
    (fcSummary r st s).get f i = s.get f i := by
  by_cases hk : r.kind = 1
  · rw [fcSummary_step hk, noteEnd_get h1 (h3 FCW_STAT.END_OPEN (by simp [summaryFields])),
      keepSpan_get h1 (h3 FCW_STAT.STAMPS_VALID (by simp [summaryFields])), addSteps, addSum_get h2,
      addSum_get h2]
  · rw [fcSummary_other hk]

/-- What counting and summing a record may change: register values, the record of the cycle, the windows with an END stamp. -/
def Sums (s t : State) : Prop := ∃ l x y, t = { s with fld := l, fcEnd := x, cyc := y }

namespace Sums

theorem refl : Sums s s := ⟨_, _, _, rfl⟩

theorem trans (h : Sums s t) (h' : Sums t u) : Sums s u := by
  obtain ⟨l, x, y, rfl⟩ := h
  obtain ⟨l', x', y', rfl⟩ := h'
  exact ⟨_, _, _, rfl⟩

theorem put : Sums s (s.put f i v) := ⟨_, _, _, rfl⟩

theorem bump : Sums s (s.bump f i v) := ⟨_, _, _, rfl⟩

theorem ite {c : Prop} [Decidable c] (ht : Sums s t) (hu : Sums s u) : Sums s (if c then t else u) := by
  split
  · exact ht
  · exact hu

theorem keepEarly : Sums s (s.keepEarly w b st) := ite refl (put.trans put)

theorem keepLate : Sums s (s.keepLate w b st) := ite refl (put.trans put)

theorem keepEnd : Sums s (s.keepEnd w st) := ite refl (put.trans (put.trans ⟨_, _, _, rfl⟩))

theorem countShort : Sums s (countShort r s) := ite bump refl

theorem fcSummary : Sums s (fcSummary r st s) := by
  by_cases hk : r.kind = 1
  · rw [fcSummary_step hk]
    exact (put.trans put).trans ((keepEarly.trans (keepLate.trans put)).trans (ite put keepEnd))
  · rw [fcSummary_other hk]
    exact refl

theorem block (h : Sums s t) : SameBlock s t := by
  obtain ⟨l, x, y, rfl⟩ := h
  exact SameBlock.refl.congr rfl rfl rfl rfl

theorem fcPort (h : Sums s t) : t.fcPort = s.fcPort := by obtain ⟨l, x, y, rfl⟩ := h; rfl
theorem fcRet (h : Sums s t) : t.fcRet = s.fcRet := by obtain ⟨l, x, y, rfl⟩ := h; rfl
theorem fcArr (h : Sums s t) : t.fcArr = s.fcArr := by obtain ⟨l, x, y, rfl⟩ := h; rfl
theorem fcUnread (h : Sums s t) : t.fcUnread = s.fcUnread := by obtain ⟨l, x, y, rfl⟩ := h; rfl
theorem phases (h : Sums s t) : t.phases = s.phases := by obtain ⟨l, x, y, rfl⟩ := h; rfl
theorem crews (h : Sums s t) : t.crews = s.crews := by obtain ⟨l, x, y, rfl⟩ := h; rfl
theorem mem (h : Sums s t) : t.mem = s.mem := by obtain ⟨l, x, y, rfl⟩ := h; rfl

end Sums

/-- What a STEP record leaves in its window's summary. -/
theorem fcSummary_shows (hk : r.kind = 1) : let t := fcSummary r st s
    t.get FCW_STAT.STAMPS_VALID r.win = 1 ∧
    t.getI FCW_SUM.SUM (16 * r.win + 2 * (r.first / 1152)) = sat32 (s.getI FCW_SUM.SUM (16 * r.win + 2 * (r.first / 1152)) +
      sgn 16 (bits (r.word 3) 15 0) * (r.span + 1 : Nat)) ∧
    t.getI FCW_SUM.SUM (16 * r.win + 2 * (r.first / 1152) + 1) =
      sat32 (s.getI FCW_SUM.SUM (16 * r.win + 2 * (r.first / 1152) + 1) + sgn 16 (bits (r.word 3) 31 16) * (r.span + 1 : Nat)) ∧
    (r.word 2 = 0 → t.get FCW_STAT.END_OPEN r.win = 1) := by
  have hsum : ∀ i, (noteEnd r st (keepSpan r.win st (addSteps r s))).getI FCW_SUM.SUM i = (addSteps r s).getI FCW_SUM.SUM i :=
    fun i => congrArg (sgn 32) ((noteEnd_get (by decide) (by decide)).trans (keepSpan_get (by decide) (by decide)))
  rw [fcSummary_step hk]
  refine ⟨?_, ?_, ?_, fun hopen => ?_⟩
  · rw [noteEnd_get (by decide) (by decide)]; exact get_put_self
  · rw [hsum, addSteps, addSum_getI_ne (by omega), addSum_getI]
  · rw [hsum, addSteps, Nat.add_assoc, addSum_getI, addSum_getI_ne (by omega)]
  · rw [noteEnd, if_pos hopen]; exact get_put_self

/-! ### Credits returned, slots written (R180, R190, R192) -/

theorem fcKeep_absorbs (h : s.get FCW_CFG.KEEP r.win = 0) :
    fcKeep r status st s = { s with fcRet := s.fcRet ++ [r.back status] } := if_pos h

/-- The address of the ring slot that window w writes next. -/
def State.slotAddr (s : State) (w : Nat) : Nat := 0x290000 + 64 * ((s.get FCW_RING.BASE w + s.get FCW_PTR.WR w) % 4096)

@[simp] theorem takeOff_slotAddr : (takeOff fd k rest s).slotAddr w = s.slotAddr w := by
  simp only [State.slotAddr, takeOff_get]

/-- The bytes of a record in its ring slot. -/
def FRec.slotBytes (r : FRec) (status : Nat) (st : Stamp) : List Byte := (r.stored status st).flatMap (leBytes 4)

/-- The state in which slot wr of window w is unread, `back` is due for it, and the write pointer is past it. -/
def pushUnread (w wr : Nat) (back : FRet) (s : State) : State :=
  { s.put FCW_PTR.WR w ((wr + 1) % s.ringSize w) with fcUnread := tset s.fcUnread w (tget [] s.fcUnread w ++ [back]) }

theorem fcKeep_writes (h : s.get FCW_CFG.KEEP r.win = 1) : fcKeep r status st s =
    pushUnread r.win (s.get FCW_PTR.WR r.win) (r.back status) (s.wrBytes (s.slotAddr r.win) (r.slotBytes status st)) := by
  rw [fcKeep, h, if_neg (by decide)]
  rfl

theorem slotBytes_length : (r.slotBytes status st).length = 64 := by
  simp only [FRec.slotBytes, FRec.stored, leBytes, List.length_flatMap, List.map_append, List.map_map, List.length_map,
    List.length_range, List.sum_append, Function.comp_def]
  rfl

/-- What a record leaves that is written to slot wr of window w, at address a, and counted. -/
structure SlotWritten (w wr a : Nat) (back : FRet) (bytes : List Byte) (s t : State) : Prop where
  fcRet : t.fcRet = s.fcRet
  fcArr : t.fcArr = s.fcArr ++ [w]
  unread : tget [] t.fcUnread w = tget [] s.fcUnread w ++ [back]
  pointer : t.get FCW_PTR.WR w = (wr + 1) % s.ringSize w % 2 ^ 10
  mem : t.mem = msetList 0 s.mem a bytes
  phases : t.phases = s.phases
  crews : t.crews = s.crews

theorem SlotWritten.of_sums {wr a : Nat} {back : FRet} {bytes : List Byte} (h : Sums s t) (hsize : t.ringSize w = s.ringSize w) :
    SlotWritten w wr a back bytes s (noteArrival w (pushUnread w wr back (t.wrBytes a bytes))) where
  fcRet := h.fcRet
  fcArr := congrArg (· ++ [w]) h.fcArr
  unread := tget_tset_self.trans (congrArg (fun l => tget [] l w ++ [back]) h.fcUnread)
  pointer := get_put_self.trans (by rw [← hsize]; rfl)
  mem := congrArg (msetList 0 · a bytes) h.mem
  phases := h.phases
  crews := h.crews

/-- Record r is counted where it is SHORT, and summed. -/
def summed (r : FRec) (s : State) : State := fcSummary r (s.addTicks r.arr r.lead) (countShort r s)

theorem summed_sums : Sums s (summed r s) := Sums.countShort.trans Sums.fcSummary

theorem summed_get (h1 : f.reg ∉ stampRegs) (h2 : f.reg ≠ .FCW_SUM) (h3 : f.reg ≠ .FCW_STAT) :
    (summed r s).get f i = s.get f i := by
  have hfields : ∀ g ∈ summaryFields, f.reg ≠ g.reg ∨ f.lo ≠ g.lo := fun g hg => .inl (by
    simp only [summaryFields, List.mem_cons, List.not_mem_nil, or_false] at hg
    rcases hg with rfl | rfl <;> exact h3)
  rw [summed, fcSummary_get h1 h2 hfields, countShort_get (.inl h3)]

theorem summed_shorts : (summed r s).get FCW_STAT.SHORTS r.win =
    if s.isShort r then FCW_STAT.SHORTS.count (s.get FCW_STAT.SHORTS r.win) else s.get FCW_STAT.SHORTS r.win := by
  rw [summed, fcSummary_get (by decide) (by decide) (by decide), countShort_shorts]

theorem summed_regs (hk : r.kind ≠ 1) : SameRegs [FCW_STAT.SHORTS.key r.win] s (summed r s) := by
  rw [summed, fcSummary_other hk]
  exact countShort_regs

/-- What a STEP record leaves in its window's summary. -/
theorem summed_shows (hk : r.kind = 1) : (summed r s).get FCW_STAT.STAMPS_VALID r.win = 1 ∧
    (summed r s).getI FCW_SUM.SUM (16 * r.win + 2 * (r.first / 1152)) =
      sat32 (s.getI FCW_SUM.SUM (16 * r.win + 2 * (r.first / 1152)) + sgn 16 (bits (r.word 3) 15 0) * (r.span + 1 : Nat)) ∧
    (summed r s).getI FCW_SUM.SUM (16 * r.win + 2 * (r.first / 1152) + 1) =
      sat32 (s.getI FCW_SUM.SUM (16 * r.win + 2 * (r.first / 1152) + 1) +
        sgn 16 (bits (r.word 3) 31 16) * (r.span + 1 : Nat)) ∧
    (r.word 2 = 0 → (summed r s).get FCW_STAT.END_OPEN r.win = 1) := by
  have hcount : ∀ i, (countShort r s).getI FCW_SUM.SUM i = s.getI FCW_SUM.SUM i :=
    fun i => congrArg (sgn 32) (countShort_get (by decide))
  rw [← hcount, ← hcount]
  exact fcSummary_shows hk

theorem fcTake_accepts (hst : s.get FCW_STAT.STATE r.win = 2) (hok : r.malformed = false) : fcTake r s =
    noteArrival r.win (fcKeep r (s.isShort r).toNat (s.addTicks r.arr r.lead) (summed r s)) := by
  simp only [fcTake, hst, hok, Bool.false_eq_true, if_false]
  rfl

/-- A record accepted for a KEEP window is written to the slot at the window's write pointer. -/
theorem fcTake_keeps (hst : s.get FCW_STAT.STATE r.win = 2) (hok : r.malformed = false) (hkeep : s.get FCW_CFG.KEEP r.win = 1) :
    SlotWritten r.win (s.get FCW_PTR.WR r.win) (s.slotAddr r.win) (r.back (s.isShort r).toNat)
      (r.slotBytes (s.isShort r).toNat (s.addTicks r.arr r.lead)) s (fcTake r s) := by
  have hget : ∀ g i, g.reg ∉ stampRegs → g.reg ≠ .FCW_SUM → g.reg ≠ .FCW_STAT → (summed r s).get g i = s.get g i :=
    fun _ _ h1 h2 h3 => summed_get h1 h2 h3
  have hmode : (summed r s).get FCW_CFG.KEEP r.win = 1 := (hget _ _ (by decide) (by decide) (by decide)).trans hkeep
  have haddr : (summed r s).slotAddr r.win = s.slotAddr r.win := by
    rw [State.slotAddr, hget _ _ (by decide) (by decide) (by decide), hget _ _ (by decide) (by decide) (by decide), State.slotAddr]
  have hsize : (summed r s).ringSize r.win = s.ringSize r.win := by
    rw [State.ringSize, hget _ _ (by decide) (by decide) (by decide), State.ringSize]
  rw [fcTake_accepts hst hok, fcKeep_writes hmode, haddr, hget FCW_PTR.WR _ (by decide) (by decide) (by decide)]
  exact .of_sums summed_sums hsize

end Sys2Proof.Machine

namespace Sys2Proof.Proofs.Forecast

open Sys2Proof Sys2Proof.Machine

/-- Settles O33: the round robin by what `find?` returns; a record by whether it is discarded or summed, and then absorbed or
written to its slot. -/
theorem forecastIntake : Obligations.ForecastIntake := by
  refine ⟨?none, ?some, ?discarded, ?absorbed, ?kept⟩
  case none =>
    intro f s hon hlate
    refine exec_intake_none (fcNext_none fun k hk => ?_)
    rw [Bool.eq_false_iff]
    intro hoffers
    obtain ⟨r, rest, hq, hearlier⟩ := fcOffers_iff.mp hoffers
    exact absurd ((earlier_iff hon).mp hearlier) (Nat.not_lt.mpr (hlate k hk r rest hq))
  case some =>
    intro f k s hnext
    obtain ⟨hk, hoffers⟩ := fcNext_some hnext
    obtain ⟨r, rest, hq, hearlier⟩ := fcOffers_iff.mp hoffers
    exact ⟨hk, r, rest, hq, fun hon => (earlier_iff hon).mp hearlier⟩
  case discarded =>
    intro f k r rest st s hnext hq hcase
    refine ⟨_, exec_intake hnext hq, ?_⟩
    rw [fcTake_discards (s := takeOff f k rest s) hcase]
    exact ⟨takeOff_port, takeOff_last (rest := rest), rfl, rfl, get_bump_self,
      ((SameRegs.refl.congr rfl rfl).bump (List.mem_singleton_self _)).congr rfl rfl, SameBlock.refl.congr rfl rfl rfl rfl⟩
  case absorbed =>
    intro f k r rest s hnext hq hopen hok hkeep
    refine ⟨_, exec_intake hnext hq, ?_⟩
    have hsums : Sums (takeOff f k rest s) (summed r (takeOff f k rest s)) := summed_sums
    have hmode : (summed r (takeOff f k rest s)).get FCW_CFG.KEEP r.win = 0 :=
      (summed_get (by decide) (by decide) (by decide)).trans hkeep
    rw [fcTake_accepts (s := takeOff f k rest s) hopen hok, fcKeep_absorbs hmode]
    refine ⟨?_, congrArg (· ++ [_]) hsums.fcRet, congrArg (· ++ [r.win]) hsums.fcArr, summed_shorts, fun hk => ?_,
      fun hk => summed_shows hk, (takeOff_block.trans hsums.block).congr rfl rfl rfl rfl⟩
    · exact (congrArg (tget [] · (16 * f + k)) hsums.fcPort).trans takeOff_port
    · exact (summed_regs (s := takeOff f k rest s) (by rw [hk]; decide)).congr rfl rfl
  case kept =>
    intro f k r rest s hinv hnext hq hopen hok hkeep
    refine ⟨_, exec_intake hnext hq, ?_⟩
    have hw := fcTake_keeps (s := takeOff f k rest s) hopen hok hkeep
    rw [takeOff_slotAddr, takeOff_addTicks] at hw
    refine ⟨hw.fcRet, hw.fcArr, hw.unread, hw.pointer, fun b hb => ?_, fun b hb => ?_, SamePhases.refl.congr hw.phases,
      SameCrews.refl.congr hw.crews⟩
    · rw [hw.mem]
      exact mget_msetList hinv.mem (by rwa [slotBytes_length])
    · rw [hw.mem]
      exact mget_msetList_ne hinv.mem (by rwa [slotBytes_length])

end Sys2Proof.Proofs.Forecast

namespace Sys2Proof.Machine

open Sys2Proof

variable {s t u : State} {f g : Fld} {c i j k n ps q r v acc lim code kd src d0 d1 now tile cls : Nat} {b half : Bool} {h : Held}
  {x : Marshal} {e : MReq} {l : List MReq}

/-! ## Start marshals (R196, R202) -/

theorem SameBlock.setMar (h : SameBlock s t) : SameBlock s (t.setMar k x) := h.congr rfl rfl rfl rfl
theorem SameRegs.setMar {ks : List FKey} (h : SameRegs ks s t) : SameRegs ks s (t.setMar k x) := h.congr rfl rfl

/-- The state in which no spell of a plane out of ON is recorded for field k. -/
def endSpell (k : Nat) (s : State) : State := s.setMar k { s.mar k with heldRec := false }

theorem startHeld_on (h : s.vlgOn k = true) : startHeld k s = endSpell k s := if_pos h

@[simp] theorem endSpell_mar : (endSpell k s).mar k = { s.mar k with heldRec := false } := setMar_mar_self ..
@[simp] theorem endSpell_arrived : ((endSpell k s).mar k).arrived (endSpell k s).now = (s.mar k).arrived s.now := by
  rw [endSpell_mar]; rfl
theorem endSpell_mar_ne (h : j ≠ k) : (endSpell k s).mar j = s.mar j := setMar_mar_ne h
theorem endSpell_block (h : SameBlock s t) : SameBlock s (endSpell k t) := h.setMar
theorem endSpell_regs {ks : List FKey} (h : SameRegs ks s t) : SameRegs ks s (endSpell k t) := h.setMar

/-! ### The queue (R177, R196) -/

theorem insBy_perm {α : Type} {before : α → α → Bool} {a : α} {l : List α} : (insBy before a l).Perm (a :: l) := by
  induction l with
  | nil => exact .refl _
  | cons y l ih =>
    rw [insBy]
    split
    · exact .refl _
    · exact (ih.cons y).trans (.swap ..)

theorem foldr_insBy_perm {α : Type} {before : α → α → Bool} {l m : List α} : (l.foldr (insBy before) m).Perm (l ++ m) := by
  induction l with
  | nil => exact .refl _
  | cons y l ih => exact insBy_perm.trans (ih.cons y)

theorem foldl_insBy_perm {α : Type} {before : α → α → Bool} {l m : List α} :
    (l.foldl (fun m y => insBy before y m) m).Perm (l ++ m) := by
  induction l generalizing m with
  | nil => exact .refl _
  | cons y l ih => exact ih.trans ((insBy_perm.append_left l).trans List.perm_middle)

/-- A request of the queue that its port has not forwarded before cycle now. -/
def MReq.stays (now : Nat) (r e : MReq) : Bool := decide (now ≤ e.at_ ∧ tilePort e.tile = tilePort r.tile)

/-- The requests of a port, in the order in which they were presented, forwarded four in a cycle from now on. -/
def forwarded (now : Nat) (l : List MReq) : List MReq := l.zipIdx.map fun e => { e.1 with at_ := now + e.2 / 4 }

theorem joinQueue_eq {r : MReq} : joinQueue now r l =
    (forwarded now ((l.filter (r.stays now)).foldr (insBy MReq.sooner) [r])).foldl (fun m e => insBy MReq.ahead e m)
      (l.filter fun e => !r.stays now e) := rfl

/-- Forwarding changes cycles, not requests. -/
theorem forwarded_map {α : Type} {F : MReq → α} (hF : ∀ e a, F { e with at_ := a } = F e) : (forwarded now l).map F = l.map F := by
  rw [forwarded, List.map_map]
  conv_rhs => rw [← List.zipIdx_map_fst 0 l, List.map_map]
  exact List.map_congr_left fun e _ => hF _ _

/-- The queue holds the request presented and those that it held. -/
theorem joinQueue_perm {α : Type} {F : MReq → α} (hF : ∀ e a, F { e with at_ := a } = F e) {r : MReq} :
    ((joinQueue now r l).map F).Perm (F r :: l.map F) := by
  have hport : ((forwarded now ((l.filter (r.stays now)).foldr (insBy MReq.sooner) [r])).map F).Perm
      (F r :: (l.filter (r.stays now)).map F) := by
    rw [forwarded_map hF]
    exact ((foldr_insBy_perm.map F).trans (by rw [List.map_append]; exact List.perm_append_singleton ..))
  have hparts : ((joinQueue now r l).map F).Perm
      (F r :: (l.filter (r.stays now) ++ l.filter fun e => !r.stays now e).map F) := by
    rw [joinQueue_eq]
    refine (foldl_insBy_perm.map F).trans ?_
    rw [List.map_append, List.map_append]
    exact hport.append_right _
  exact hparts.trans (((List.filter_append_perm _ l).map F).cons _)

/-- Behind requests that all arrived earlier the one presented now comes last. -/
theorem joinQueue_behind {r : MReq} (hr : r.at_ = now) (h : ∀ e ∈ l, e.at_ < now) : joinQueue now r l = l ++ [r] := by
  have hnone : ∀ e ∈ l, r.stays now e = false := fun e he => decide_eq_false fun hs => absurd (h e he) (Nat.not_lt.mpr hs.1)
  have hstay : l.filter (r.stays now) = [] := List.filter_eq_nil_iff.mpr fun e he => by rw [hnone e he]; exact Bool.false_ne_true
  have hgone : (l.filter fun e => !r.stays now e) = l := List.filter_eq_self.mpr fun e he => by rw [hnone e he]; rfl
  have hlast : insBy MReq.ahead r l = l ++ [r] := insBy_last fun e he => by
    have := h e he
    simp only [MReq.ahead, decide_eq_false_iff_not]
    omega
  have hnow : forwarded now [r] = [r] := by rw [← hr]; simp [forwarded]
  rw [joinQueue_eq, hstay, hgone, List.foldr_nil, hnow]
  exact hlast

/-! ### Requests, heats and grants (R197 to R201) -/

/-- The sequence of field k after a request in a state in which its heats may open (R200). -/
def State.askedSeq (s : State) (k : Nat) : HeatSeq :=
  if s.get MSH_CTL.MODE k = 0 ∧ s.seqIdle k = true then .running false else (s.mar k).seq

/-- The request that a tile presents now. -/
def State.asked (s : State) (tile cls : Nat) : MReq := ⟨tile, cls % 8, s.now, s.now⟩

/-- The state in which a request of a tile has joined its field's queue. -/
def joinStart (tile cls : Nat) (s : State) : State :=
  s.setMar (tileField tile) { s.mar (tileField tile) with
    queue := joinQueue s.now (s.asked tile cls) (s.mar (tileField tile)).queue
    seq := s.askedSeq (tileField tile) }

section
variable (ht : tile < 9216)
include ht

theorem exec_startRequest_dup (hq : (s.mar (tileField tile)).queue.any (fun e => e.tile == tile) = true) :
    exec (.startRequest tile cls) s =
      .next ((s.setMar (tileField tile) { s.mar (tileField tile) with dup := some tile }).bump MSH_REQ_CNT.DUPS (tileField tile)) := by
  show execStartRequest tile cls s = _
  simp only [execStartRequest, Nat.not_le.mpr ht, if_false, hq, if_true]

theorem exec_startRequest (hq : (s.mar (tileField tile)).queue.any (fun e => e.tile == tile) = false)
    (hon : s.vlgOn (tileField tile) = true) (hheld : s.heatsHeld = false) :
    exec (.startRequest tile cls) s = .next (endSpell (tileField tile) (joinStart tile cls s)) := by
  show execStartRequest tile cls s = _
  simp only [execStartRequest, Nat.not_le.mpr ht, if_false, hq, Bool.false_eq_true, hon, hheld, not_false_eq_true, and_true]
  exact congrArg Host.Outcome.next (startHeld_on hon)
end

theorem exec_heatOpen (hheld : s.heatsHeld = false) (hon : s.vlgOn k = true) (hseq : (s.mar k).seq = .running half) :
    exec (.heatOpen k) s = .next (heat k half (endSpell k s)) := by
  have hseq' : ((endSpell k s).mar k).seq = .running half := by rw [endSpell_mar, ← hseq]
  show execHeatOpen k s = _
  simp only [execHeatOpen, hheld, hon, Bool.false_eq_true, not_true_eq_false, or_self, if_false, startHeld_on hon, hseq']

/-- The state in which a heat of field k has taken the n oldest of the requests that have arrived. -/
def takeHeat (k : Nat) (half : Bool) (n : Nat) (s : State) : State :=
  (s.setMar k { s.mar k with
    queue := ((s.mar k).arrived s.now).drop n ++ (s.mar k).coming s.now
    seq := .running half
    lastHeat := some s.now
    grants := (s.mar k).grants ++ [(((s.mar k).arrived s.now).take n).map (·.tile)] }).bump MSH_HEAT_CNT.HEATS k

theorem heat_ends (h : (s.mar k).arrived s.now = []) : heat k half s = s.setMar k { s.mar k with seq := .none } := if_pos h

theorem heat_opens (h : (s.mar k).arrived s.now ≠ [])
    (hn : heatTake ((if half then 5 else 10) * s.heatBudget k) ((s.mar k).arrived s.now) 0 = n) (h0 : n ≠ 0) :
    heat k half s = takeHeat k half n s := by
  subst hn
  exact (if_neg h).trans (if_neg h0)

theorem takeHeat_mar : (takeHeat k half n s).mar k = { s.mar k with
    queue := ((s.mar k).arrived s.now).drop n ++ (s.mar k).coming s.now
    seq := .running half
    lastHeat := some s.now
    grants := (s.mar k).grants ++ [(((s.mar k).arrived s.now).take n).map (·.tile)] } := setMar_mar_self ..

/-- The steps that a heat takes before its last are below the limit (R197). -/
theorem heatTake_below : heatTake lim l acc = 0 ∨
    2 * acc + ((l.take (heatTake lim l acc)).dropLast.map fun e => 2 * e.cls).sum < lim := by
  induction l generalizing acc with
  | nil => exact .inl rfl
  | cons e l ih =>
    rw [heatTake]
    split
    · next hlt =>
      right
      rw [Nat.add_comm 1, List.take_succ_cons]
      cases htake : l.take (heatTake lim l (acc + e.cls)) with
      | nil => simpa using hlt
      | cons y m =>
        rcases ih (acc := acc + e.cls) with h0 | hsum
        · rw [h0] at htake; cases htake
        · rw [htake] at hsum
          rw [List.dropLast_cons_cons, List.map_cons, List.sum_cons]
          omega
    · exact .inl rfl

/-- A heat leaves requests only where the steps taken reach the limit (R197). -/
theorem heatTake_reaches (h : heatTake lim l acc < l.length) :
    lim ≤ 2 * acc + ((l.take (heatTake lim l acc)).map fun e => 2 * e.cls).sum := by
  induction l generalizing acc with
  | nil => exact absurd h (Nat.not_lt_zero _)
  | cons e l ih =>
    rw [heatTake] at h ⊢
    split
    · next hlt =>
      rw [if_pos hlt, List.length_cons] at h
      have hrest := ih (acc := acc + e.cls) (by omega)
      rw [Nat.add_comm 1, List.take_succ_cons, List.map_cons, List.sum_cons]
      omega
    · next hge => simpa using hge

theorem exec_heatGrant {gr : List Nat} {rest : List (List Nat)} (h : (s.mar k).grants = gr :: rest) :
    exec (.heatGrant k) s = .next (s.setMar k { s.mar k with grants := rest, granted := gr }) := by
  show execHeatGrant k s = _
  simp only [execHeatGrant, h]

/-- The state in which field k, whose requests stalled, runs a half-budget sequence. -/
def startHalf (k : Nat) (s : State) : State :=
  (s.setMar k { s.mar k with seq := .running true }).bump MSH_REQ_CNT.STALLS k

theorem startHalf_mar : (startHalf k s).mar k = { s.mar k with seq := .running true } := setMar_mar_self ..

theorem startHalf_regs : SameRegs [MSH_REQ_CNT.STALLS.key k] s (startHalf k s) :=
  SameRegs.refl.setMar.bump (List.mem_singleton_self _)

theorem startHalf_block : SameBlock s (startHalf k s) := SameBlock.refl.setMar.bump

theorem exec_startStalled (hmode : s.get MSH_CTL.MODE k ≠ 0) (hq : (s.mar k).arrived s.now ≠ []) (hseq : (s.mar k).seq = .none)
    (hon : s.vlgOn k = true) (hheld : s.heatsHeld = false) :
    exec (.startStalled k) s = .next ((startHalf k s).raise 0x0606 1 (0x6E0 + k)) := by
  show execStartStalled k s = _
  simp only [execStartStalled, hmode, hq, hseq, hon, hheld, ne_eq, not_true_eq_false, Bool.false_eq_true, or_self, if_false]
  rfl

/-- With room at the collector an event that names no crew waits last, and nothing else changes. -/
theorem raise_noCrew (hsrc : srcCrew kd src = none) (hroom : s.room) : s.raise code kd src d0 d1 =
    { s with intake := s.intake ++ [⟨code, kd, src, s.stampOf code kd src, d0 % 2 ^ 32, d1 % 2 ^ 32, 0, false⟩] } := by
  simp only [State.raise, State.raiseEv, hsrc]
  exact if_neg fun e => absurd hroom (Nat.not_lt.mpr e.2)

/-- An event that names no crew has the coordinator's stamp. -/
theorem stampOf_noCrew (hsrc : srcCrew kd src = none) : s.stampOf code kd src = s.stampNow := by
  rw [State.stampOf, hsrc, ite_self]

theorem startHalf_stampNow : (startHalf k s).stampNow = s.stampNow := by
  have hmark : (startHalf k s).markNo = s.markNo := get_bump_reg (by decide)
  rw [State.stampNow, hmark]
  rfl

/-! ## Stretches (R195, R203 to R206) -/

/-- States in which the present instant and the lengths of marks are the same. -/
structure SameTime (s t : State) : Prop where
  now : t.now = s.now
  markStart : t.markStart = s.markStart
  markLen : t.markLen = s.markLen
  pastLens : t.pastLens = s.pastLens
  strobe : t.strobe = s.strobe
  markNo : t.markNo = s.markNo
  period : t.get TB_CTL.PERIOD 0 = s.get TB_CTL.PERIOD 0

theorem SameTime.trans (h : SameTime s t) (h' : SameTime t u) : SameTime s u :=
  ⟨h'.now.trans h.now, h'.markStart.trans h.markStart, h'.markLen.trans h.markLen, h'.pastLens.trans h.pastLens,
    h'.strobe.trans h.strobe, h'.markNo.trans h.markNo, h'.period.trans h.period⟩

theorem SameTime.before {x y : Stamp} (h : SameTime s t) : t.before x y = s.before x y := by
  have hlen : t.lenOf = s.lenOf := by
    funext m
    simp only [State.lenOf, h.markLen, h.pastLens, h.strobe, h.markNo, h.period]
  have hnorm : ∀ k st, t.normN k st = s.normN k st := by
    intro k
    induction k with
    | zero => exact fun _ => rfl
    | succ k ih => intro st; simp only [State.normN, hlen, ih]
  simp only [State.before, State.norm, hnorm]
  rfl

theorem SameTime.crewReached {st : Stamp} (h : SameTime s t) (hc : t.crew c = s.crew c) : t.crewReached c st = s.crewReached c st := by
  simp only [State.crewReached, State.crewStamp, State.ticks, h.before, hc, h.markNo, h.now, h.markStart]

theorem SameTime.postpone (ht : SameTime s t) (hc : t.crew c = s.crew c) : t.postpone c ps h = s.postpone c ps h := by
  simp only [State.postpone, ht.now, ht.crewReached hc]

/-- A stamp still to come that a stretch may postpone moves by it (R195). -/
theorem postpone_moves (hb : h.bound = true) (hfrom : h.from_ ≤ s.now) (hcome : s.crewReached c h.instant = false)
    (hp : h.post + ps ≤ 256000) : (s.postpone c ps h).1 = { h with post := h.post + ps } := by
  simp [State.postpone, hb, hcome, Nat.not_lt.mpr hfrom, hp]

/-- A stamp that is not bound, not yet delivered, or postponed too far already, does not move. -/
theorem postpone_stays (hs : h.bound = false ∨ s.now < h.from_ ∨ 256000 < h.post + ps) : (s.postpone c ps h).1.post = h.post := by
  rw [State.postpone]
  split
  · rfl
  · next hmay =>
    rw [not_or, not_or, not_not] at hmay
    obtain ⟨hb, hfrom, -⟩ := hmay
    rw [hb, Bool.true_eq_false, false_or] at hs
    rw [if_neg (Nat.not_le.mpr (hs.resolve_left hfrom))]

/-- From s to t nothing has changed but crews, waiting events with what counts dropped ones, and the record of the cycle. -/
structure OnlyEvents (s t : State) : Prop where
  eq : ∃ l cr x y, t = { s with fld := l, crews := cr, intake := x, cyc := y }
  regs : SameRegs dropKeys s t

namespace OnlyEvents

theorem refl : OnlyEvents s s := ⟨⟨_, _, _, _, rfl⟩, .refl⟩

theorem trans (h : OnlyEvents s t) (h' : OnlyEvents t u) : OnlyEvents s u := by
  refine ⟨?_, fun f i hf => (h'.regs f i hf).trans (h.regs f i hf)⟩
  obtain ⟨l, cr, x, y, rfl⟩ := h.eq
  obtain ⟨l', cr', x', y', rfl⟩ := h'.eq
  exact ⟨_, _, _, _, rfl⟩

theorem setCrew {k : Crew} : OnlyEvents s (s.setCrew c k) := ⟨⟨_, _, _, _, rfl⟩, SameRegs.refl.setCrew⟩

theorem raise : OnlyEvents s (s.raise code kd src d0 d1) :=
  ⟨raise_eq, SameRegs.refl.raise (by simp [dropKeys]) (by simp [dropKeys])⟩

theorem ite {p : Prop} [Decidable p] (ht : OnlyEvents s t) (hu : OnlyEvents s u) : OnlyEvents s (if p then t else u) := by
  split
  · exact ht
  · exact hu

theorem foldl {α : Type} {l : List α} {F : State → α → State} (hF : ∀ x e, OnlyEvents x (F x e)) : OnlyEvents s (l.foldl F s) := by
  induction l generalizing s with
  | nil => exact refl
  | cons e l ih => exact (hF s e).trans ih

theorem phases (h : OnlyEvents s t) : t.phases = s.phases := by obtain ⟨l, cr, x, y, rfl⟩ := h.eq; rfl
theorem mem (h : OnlyEvents s t) : t.mem = s.mem := by obtain ⟨l, cr, x, y, rfl⟩ := h.eq; rfl
theorem flash (h : OnlyEvents s t) : t.flash = s.flash := by obtain ⟨l, cr, x, y, rfl⟩ := h.eq; rfl
theorem strReq (h : OnlyEvents s t) : t.strReq = s.strReq := by obtain ⟨l, cr, x, y, rfl⟩ := h.eq; rfl
theorem strDroops (h : OnlyEvents s t) : t.strDroops = s.strDroops := by obtain ⟨l, cr, x, y, rfl⟩ := h.eq; rfl
theorem strAligns (h : OnlyEvents s t) : t.strAligns = s.strAligns := by obtain ⟨l, cr, x, y, rfl⟩ := h.eq; rfl

theorem get (h : OnlyEvents s t) (hf : f.reg ≠ .FLT_DROP) : t.get f i = s.get f i :=
  h.regs f i fun hk => by
    simp only [dropKeys, List.mem_cons, List.not_mem_nil, or_false] at hk
    exact hk.elim (fun e => hf (congrArg FKey.reg e)) fun e => hf (congrArg FKey.reg e)

theorem sameTime (h : OnlyEvents s t) : SameTime s t := by
  have hmark : t.markNo = s.markNo := h.get (by decide)
  have hperiod : t.get TB_CTL.PERIOD 0 = s.get TB_CTL.PERIOD 0 := h.get (by decide)
  obtain ⟨l, cr, x, y, rfl⟩ := h.eq
  exact ⟨rfl, rfl, rfl, rfl, rfl, hmark, hperiod⟩

end OnlyEvents

/-! ### The stamps of one crew (R195, R388) -/

/-- What crew c holds after a stretch of ps of its region. -/
def State.postponed (s : State) (c ps : Nat) : Crew :=
  { s.crew c with
    arm := ((s.crew c).arm.map (s.postpone c ps)).map (·.1)
    heldOps := ((s.crew c).heldOps.map fun o => (s.postpone c ps o.held, o.op)).map fun x => ⟨x.2, x.1.1⟩
    cover := (s.crew c).cover.map fun v => { v with
      endSt := v.endSt.bind fun _ => ((s.crew c).cover.bind fun v => v.endSt.map (s.postpone c ps)).map (·.1) } }

/-- "Hold limit" of crew c is recorded where b holds. -/
def noteLimit (c : Nat) (b : Bool) (s : State) : State := if b then s.raiseCrew 0x0604 c else s

/-- The records of the stamps of crew c that a stretch of ps would have led past the limit. -/
def noteLimits (c ps : Nat) (old s : State) : State :=
  noteLimit c ((((old.crew c).cover.bind fun v => v.endSt.map (old.postpone c ps)).map (·.2)).getD false)
    (noteLimit c ((((old.crew c).arm.map (old.postpone c ps)).map (·.2)).getD false)
      (((old.crew c).heldOps.map fun o => (old.postpone c ps o.held, o.op)).foldl (fun s x => noteLimit c x.1.2 s) s))

theorem postponeCrew_eq : postponeCrew ps s c = noteLimits c ps s (s.setCrew c (s.postponed c ps)) := rfl

theorem noteLimit_only : OnlyEvents s (noteLimit c b s) := .ite .raise .refl

theorem noteLimits_only : OnlyEvents s (noteLimits c ps u s) :=
  (OnlyEvents.foldl fun _ _ => noteLimit_only).trans (noteLimit_only.trans noteLimit_only)

theorem postponeCrew_only : OnlyEvents s (postponeCrew ps s c) := OnlyEvents.setCrew.trans noteLimits_only

/-- What a record of crew c leaves of another crew, and of crew c's stamps. -/
structure LeavesStamps (c : Nat) (s t : State) : Prop where
  others : ∀ q, q ≠ c → t.crew q = s.crew q
  arm : (t.crew c).arm = (s.crew c).arm
  cover : (t.crew c).cover = (s.crew c).cover

theorem LeavesStamps.trans (h : LeavesStamps c s t) (h' : LeavesStamps c t u) : LeavesStamps c s u :=
  ⟨fun q hq => (h'.others q hq).trans (h.others q hq), h'.arm.trans h.arm, h'.cover.trans h.cover⟩

theorem LeavesStamps.refl : LeavesStamps c s s := ⟨fun _ _ => rfl, rfl, rfl⟩

theorem noteLimit_leaves : LeavesStamps c s (noteLimit c b s) := by
  rw [noteLimit]
  split
  · obtain ⟨m, a, hcrew⟩ := raise_crew (s := s) (code := 0x0604) (kind := 1) (src := crewUnit c) (d0 := 0) (d1 := 0) c
    refine ⟨fun q hq => (SameCrews.refl.raiseCrew (List.mem_singleton_self c)) q (by simpa using hq), ?_, ?_⟩ <;>
      rw [State.raiseCrew, hcrew]
  · exact .refl

theorem noteLimits_leaves : LeavesStamps c s (noteLimits c ps u s) := by
  have hops : ∀ (l : List ((Held × Bool) × Op)) x, LeavesStamps c x (l.foldl (fun s x => noteLimit c x.1.2 s) x) := by
    intro l
    induction l with
    | nil => exact fun _ => .refl
    | cons y l ih => exact fun x => noteLimit_leaves.trans (ih _)
  exact (hops _ s).trans (noteLimit_leaves.trans noteLimit_leaves)

theorem postponeCrew_crew_ne (hq : q ≠ c) : (postponeCrew ps s c).crew q = s.crew q :=
  (noteLimits_leaves.others q hq).trans (setCrew_crew_ne (h := hq) ..)

theorem postponeCrew_arm : ((postponeCrew ps s c).crew c).arm = (s.crew c).arm.map fun h => (s.postpone c ps h).1 := by
  rw [postponeCrew_eq, noteLimits_leaves.arm, setCrew_crew_self, State.postponed, Option.map_map]
  rfl

theorem postponeCrew_cover : ((postponeCrew ps s c).crew c).cover =
    (s.crew c).cover.map fun v => { v with endSt := v.endSt.map fun h => (s.postpone c ps h).1 } := by
  rw [postponeCrew_eq, noteLimits_leaves.cover, setCrew_crew_self, State.postponed]
  cases hcover : (s.crew c).cover with
  | none => rfl
  | some v => cases hend : v.endSt <;> simp [hend]

/-! ### A region's stretch (R204, R206) -/

theorem slips_only : OnlyEvents s (slips r s) := .foldl fun _ _ => .ite .raise .refl

/-- A slip names regions, and no crew. -/
theorem slips_crew : (slips r s).crew q = s.crew q := by
  refine forAll_keeps (P := fun x => x.crew q = s.crew q) (fun x k _ hx => ?_) rfl
  split
  · exact (raise_crew_ne (by simp [srcCrew])).trans hx
  · exact hx

theorem regionCrews_nodup : (regionCrews r).Nodup := by
  refine List.nodup_range.filterMap fun a a' y ha ha' => ?_
  rw [Option.mem_def] at ha ha'
  split_ifs at ha ha'
  have h := Option.some.inj (ha.trans ha'.symm)
  omega

/-- The state in which a droop stretch of region r is counted, and its request taken. -/
def countDroop (r : Nat) (s : State) : State :=
  { s.wrap MSH_STR_CNT.STRETCHES r with
    strReq := s.strReq.filter fun b => b != r
    strDroops := tset s.strDroops r (tget 0 s.strDroops r + 1) }

/-- The state after a requested stretch of region r. -/
def stretchDroop (r : Nat) (s : State) : State :=
  slips r (forAll (regionCrews r) (postponeCrew (s.halfPeriod r)) (countDroop r s))

theorem exec_stretch (hr : r < 24) (hreq : s.strReq.contains r = true) (hx : s.xcalHold = false) :
    exec (.stretch r) s = .next (stretchDroop r s) := by
  show execStretch r s = _
  simp only [execStretch, hreq, hx, decide_eq_false (Nat.not_le.mpr hr), Bool.not_true, Bool.false_and, Bool.or_self,
    Bool.false_eq_true, if_false, if_true]
  rfl

theorem exec_stretch_held (hx : s.xcalHold = true) : exec (.stretch r) s = .next s := by
  show execStretch r s = _
  simp only [execStretch, hx, Bool.or_true, if_true]

theorem countDroop_sameTime : SameTime s (countDroop r s) :=
  ⟨rfl, rfl, rfl, rfl, rfl, get_wrap_reg (by decide), get_wrap_reg (by decide)⟩

theorem countDroop_regs : SameRegs [MSH_STR_CNT.STRETCHES.key r] s (countDroop r s) :=
  (SameRegs.refl.wrap (List.mem_singleton_self _)).congr rfl rfl

theorem countDroop_count : (countDroop r s).get MSH_STR_CNT.STRETCHES r = (s.get MSH_STR_CNT.STRETCHES r + 1) % 2 ^ 32 :=
  get_wrap_self

theorem postponeAll_only {cs : List Nat} : OnlyEvents s (forAll cs (postponeCrew ps) s) := .foldl fun _ _ => postponeCrew_only

theorem stretchDroop_only : OnlyEvents (countDroop r s) (stretchDroop r s) := postponeAll_only.trans slips_only

theorem stretchDroop_others (hq : q ∉ regionCrews r) : (stretchDroop r s).crew q = s.crew q :=
  slips_crew.trans (forAll_keeps (P := fun x => x.crew q = s.crew q)
    (fun _ _ hk hx => (postponeCrew_crew_ne fun e => hq (by rw [e]; exact hk)).trans hx) rfl)

/-- Each crew of the region finds its stamps postponed as if it were the only one. -/
theorem stretchDroop_crew (hc : c ∈ regionCrews r) : ((stretchDroop r s).crew c).arm =
      (s.crew c).arm.map (fun h => (s.postpone c (s.halfPeriod r) h).1) ∧
    ((stretchDroop r s).crew c).cover =
      (s.crew c).cover.map fun v => { v with endSt := v.endSt.map fun h => (s.postpone c (s.halfPeriod r) h).1 } := by
  obtain ⟨u, ⟨hu, hcrew⟩, -, hlast⟩ := forAll_reaches (R := fun q x y => OnlyEvents x y ∧ y.crew q = x.crew q)
    (s := countDroop r s) (F := postponeCrew (s.halfPeriod r)) (fun _ _ => ⟨.refl, rfl⟩)
    (fun _ _ _ _ h h' => ⟨h.1.trans h'.1, h'.2.trans h.2⟩)
    (fun _ _ _ _ _ hne => ⟨postponeCrew_only, postponeCrew_crew_ne hne⟩) regionCrews_nodup hc
  have hcrew' : u.crew c = s.crew c := hcrew
  have hmove : ∀ h, u.postpone c (s.halfPeriod r) h = s.postpone c (s.halfPeriod r) h :=
    fun h => (countDroop_sameTime.trans hu.sameTime).postpone hcrew'
  rw [stretchDroop, slips_crew, hlast, postponeCrew_arm, postponeCrew_cover, hcrew']
  simp only [hmove, and_self]

/-! ### Realignments (R205) -/

theorem exec_realignment {d : Int} (hr : r < 24) (hd : s.alignLead r = some d) (hen : s.flag MSH_ALIGN_CTL.ALIGN_EN 0 = true)
    (hx : s.xcalHold = false) (hnew : thas s.strTarget r = false) : exec (.realignment r) s =
      .next { s with strTarget := tset s.strTarget r (unsg 32 ((s.get MSH_STR_CNT.STRETCHES r : Int) + max d 0)) } := by
  have hfind : s.strTarget.find? (fun e => e.1 == r) = none := List.find?_eq_none.mpr fun e he => List.any_eq_false.mp hnew e he
  show execRealignment r s = _
  simp only [execRealignment, hd, hen, hx, hfind, decide_eq_false (Nat.not_le.mpr hr), Bool.not_true, Bool.or_self,
    Bool.false_eq_true, if_false]

end Sys2Proof.Machine

namespace Sys2Proof.Proofs.Forecast

open Sys2Proof Sys2Proof.Machine

/-- Settles O34: requests and heats by what they put in their field's marshal; a stretch by what its fold does to each crew of the
region, to which those of the other crews are nothing (`stretchDroop_crew`). -/
theorem heatsAndStretches : Obligations.HeatsAndStretches := by
  refine ⟨?dup, ?joins, ?heats, ?ends, ?budget, ?grant, ?stalled, ?stretch, ?calibrating, ?realignment⟩
  case dup =>
    intro tile cls s ht hq
    exact ⟨_, exec_startRequest_dup ht hq, setMar_mar_self .., fun f hf => setMar_mar_ne hf, get_bump_self,
      SameRegs.refl.setMar.bump (List.mem_singleton_self _), SameBlock.refl.setMar.bump⟩
  case joins =>
    intro tile cls s ht hq hon hheld
    have hmar : (endSpell (tileField tile) (joinStart tile cls s)).mar (tileField tile) = { s.mar (tileField tile) with
        queue := joinQueue s.now (s.asked tile cls) (s.mar (tileField tile)).queue
        seq := s.askedSeq (tileField tile)
        heldRec := false } := by rw [endSpell_mar, joinStart, setMar_mar_self]
    have hqueue := congrArg Marshal.queue hmar
    refine ⟨_, exec_startRequest ht hq hon hheld, hqueue, fun hold => hqueue.trans (joinQueue_behind rfl hold), ?_,
      congrArg Marshal.seq hmar, fun f hf => (endSpell_mar_ne hf).trans (setMar_mar_ne hf), endSpell_regs SameRegs.refl.setMar,
      endSpell_block SameBlock.refl.setMar⟩
    rw [hqueue]
    exact joinQueue_perm (F := fun e => (e.tile, e.cls)) fun _ _ => rfl
  case heats =>
    intro f half n s hheld hon hseq harr hn h0
    refine ⟨_, exec_heatOpen hheld hon hseq, ?_⟩
    rw [heat_opens (by rwa [endSpell_arrived]) (by rw [endSpell_arrived]; exact hn.symm) h0]
    have hmar := takeHeat_mar (k := f) (half := half) (n := n) (s := endSpell f s)
    rw [endSpell_mar] at hmar
    exact ⟨congrArg Marshal.queue hmar, congrArg Marshal.seq hmar, congrArg Marshal.lastHeat hmar, congrArg Marshal.grants hmar,
      get_bump_self, fun g hg => (setMar_mar_ne hg).trans (endSpell_mar_ne hg),
      (endSpell_regs .refl).setMar.bump (List.mem_singleton_self _), (endSpell_block .refl).setMar.bump⟩
  case ends =>
    intro f half s hheld hon hseq harr
    refine ⟨_, exec_heatOpen hheld hon hseq, ?_⟩
    rw [heat_ends (by rwa [endSpell_arrived])]
    have hmar : ((endSpell f s).setMar f { (endSpell f s).mar f with seq := .none }).mar f =
        { s.mar f with heldRec := false, seq := .none } := by rw [setMar_mar_self, endSpell_mar]
    refine ⟨?_, ?_, ?_, (endSpell_regs .refl).setMar, (endSpell_block .refl).setMar⟩ <;> rw [hmar]
  case budget =>
    intro lim q
    constructor
    · rcases heatTake_below (lim := lim) (l := q) (acc := 0) with h0 | hlt
      · exact .inr h0
      · exact .inl (by simpa using hlt)
    · intro hlt
      simpa using heatTake_reaches hlt
  case grant =>
    intro f gr rest s hg
    exact ⟨_, exec_heatGrant hg, setMar_mar_self .., fun h hh => setMar_mar_ne hh, SameRegs.refl.setMar, SameBlock.refl.setMar⟩
  case stalled =>
    intro f s hmode harr hseq hon hheld hroom
    have hsrc : srcCrew 1 (0x6E0 + f) = none := by
      rw [srcCrew, if_neg (by omega), if_neg (by omega)]
    refine ⟨_, exec_startStalled hmode harr hseq hon hheld, ?_⟩
    rw [raise_noCrew (s := startHalf f s) hsrc (room_congr rfl hroom), stampOf_noCrew hsrc, startHalf_stampNow]
    have hqueue : ((startHalf f s).mar f).queue = (s.mar f).queue := by rw [startHalf_mar]
    refine ⟨congrArg Marshal.seq startHalf_mar, hqueue, get_bump_self, ?_, startHalf_regs.congr rfl rfl,
      (startHalf_block (k := f)).congr rfl rfl rfl rfl⟩
    rw [State.eventOf, stampOf_noCrew hsrc]
    rfl
  case stretch =>
    intro r s hr hreq hx
    have honly : OnlyEvents (countDroop r s) (stretchDroop r s) := stretchDroop_only
    refine ⟨_, exec_stretch hr hreq hx, (honly.get (by decide)).trans countDroop_count, ?_, ?_, honly.strAligns, ?arm, ?cover,
      ?coverStays, ?armStays, ?_, SamePhases.refl.congr honly.phases, fun q hq => stretchDroop_others hq,
      SameMem.refl.congr honly.mem honly.flash⟩
    case arm =>
      intro c hc h harm hb hfrom hcome hp
      rw [(stretchDroop_crew hc).1, harm, Option.map_some, postpone_moves hb hfrom hcome hp]
    case cover =>
      intro c hc v h hcover hend hb hfrom hcome hp
      rw [(stretchDroop_crew hc).2, hcover, Option.map_some, hend, Option.map_some, postpone_moves hb hfrom hcome hp]
    case coverStays =>
      intro c hc v h hcover hend hs
      rw [(stretchDroop_crew hc).2, hcover, Option.map_some, hend, Option.map_some, Option.map_some, Option.map_some,
        postpone_stays hs]
    case armStays =>
      intro c hc h harm hs
      rw [(stretchDroop_crew hc).1, harm, Option.map_some, Option.map_some, postpone_stays hs]
    · rw [honly.strReq]
      simp [countDroop]
    · rw [honly.strDroops]
      exact tget_tset_self
    · intro f i hf
      rw [List.mem_cons, not_or] at hf
      exact (honly.regs f i hf.2).trans (countDroop_regs f i (by simpa using hf.1))
  case calibrating => exact fun r s hx => exec_stretch_held hx
  case realignment =>
    intro r d s hr hd hen hx hnew
    exact ⟨_, exec_realignment hr hd hen hx hnew, tget_tset_self, SameRegs.refl.congr rfl rfl, SameBlock.refl.congr rfl rfl rfl rfl⟩

end Sys2Proof.Proofs.Forecast

/-! The statements of the family 07_psiul_programming_model: the control of lanes by LANE_CTL and by their watchdogs, and the end
of a load. -/

namespace Sys2Proof.Machine

open Sys2Proof

variable {s t : State} {m : Master} {f g : Fld} {b i j k n v pc cause : Nat} {L : List FKey} {ls : List Nat} {c : Instr}

/-! ## Frames of contexts and signals -/

theorem SameCtxs.refl : SameCtxs ls s s := fun _ _ => rfl

theorem SameCtxs.congr {u : State} (h : SameCtxs ls s t) (he : u.ctxs = t.ctxs) : SameCtxs ls s u :=
  fun q hq => by rw [State.ctx, he]; exact h q hq

theorem SameCtxs.setCtx {x : Ctx} (h : SameCtxs ls s t) (hn : n ∈ ls) : SameCtxs ls s (t.setCtx n x) :=
  fun q hq => (setCtx_ctx_ne _ _ _ _ fun e => hq (by rw [e]; exact hn)).trans (h q hq)

theorem SameCtxs.setLane {x : Lane} (h : SameCtxs ls s t) : SameCtxs ls s (t.setLane n x) := h.congr rfl
theorem SameCtxs.put (h : SameCtxs ls s t) : SameCtxs ls s (t.put f i v) := h.congr rfl
theorem SameCtxs.answered {d : Nat} (h : SameCtxs ls s t) : SameCtxs ls s (t.answered d) := h.congr rfl
theorem SameCtxs.sigSupers (h : SameCtxs ls s t) : SameCtxs ls s (Machine.sigSupers b t) := h.congr sigSupers_ctxs

theorem SameBlock.setCtx {x : Ctx} (h : SameBlock s t) : SameBlock s (t.setCtx n x) := h.congr rfl rfl rfl rfl
theorem SameBlock.setLane {x : Lane} (h : SameBlock s t) : SameBlock s (t.setLane n x) := h.congr rfl rfl rfl rfl
theorem SameBlock.sigSupers (h : SameBlock s t) : SameBlock s (Machine.sigSupers b t) :=
  h.congr sigSupers_phases sigSupers_crews sigSupers_mem sigSupers_flash

theorem SameRegs.setCtx {x : Ctx} (h : SameRegs L s t) : SameRegs L s (t.setCtx n x) := h.congr rfl rfl
theorem SameRegs.setLane {x : Lane} (h : SameRegs L s t) : SameRegs L s (t.setLane n x) := h.congr rfl rfl
theorem SameRegs.mono {L' : List FKey} (h : SameRegs L s t) (hL : L ⊆ L') : SameRegs L' s t :=
  fun f i hf => h f i fun e => hf (hL e)

/-- Where the signals of the supervisor contexts stand. -/
def superSigs : List FKey := [8, 9, 10, 11].map LANE_SIG.SIG.key

theorem SameRegs.sigSupers (h : SameRegs L s t) (hL : superSigs ⊆ L) : SameRegs L s (Machine.sigSupers b t) :=
  forAll_keeps (P := SameRegs L s) (fun _ _ hk hu => hu.put (hL (List.mem_map_of_mem hk))) h

@[simp] theorem answered_lst : (s.answered i).lst n = s.lst n := rfl
@[simp] theorem answered_pc : (s.answered i).pc n = s.pc n := rfl

/-! ## Writes of LANE_CTL (R213) -/

/-- A write of LANE_CTL that is taken is the lane's control, whatever command stands for it. -/
theorem exec_laneCtl (hc : c ∈ [Instr.start m n v, .stop m n v, .unload m n v]) (h : s.Takes m .LANE_CTL n v) :
    exec c s = .next ((laneCtl n v s).answered 0) := by
  have hwrite : regWrite m .LANE_CTL n v s = (laneCtl n v s).answered 0 := by
    rw [regWrite_takes h (by decide)]
    show (laneCtl n (v % 2 ^ 32) s).answered 0 = _
    simp (disch := decide) only [laneCtl, bits_mod_word]
  rw [← hwrite]
  simp only [List.mem_cons, List.not_mem_nil, or_false] at hc
  rcases hc with rfl | rfl | rfl <;> rfl

/-- The actions of a write of LANE_CTL are its last three bits. -/
theorem laneCtl_bits : bits v 2 0 = v % 8 := by simp [bits]

theorem laneCtl_start (hv : v % 8 = 1) (hst : s.lst n = 2 ∨ s.lst n = 5) (hbar : s.startBarred = false) :
    laneCtl n v s = laneStart n s := by
  simp [laneCtl, laneCtl_bits, hv, hst, hbar]

theorem laneCtl_stop (hv : v % 8 = 2) (hst : s.lst n = 3 ∨ s.lst n = 4) : laneCtl n v s = laneStop n s := by
  simp [laneCtl, laneCtl_bits, hv, hst]

theorem laneCtl_unload (hv : v % 8 = 4) (hst : s.lst n ∈ [2, 5, 6]) : laneCtl n v s = laneUnload n s := by
  simp only [List.mem_cons, List.not_mem_nil, or_false] at hst
  simp [laneCtl, laneCtl_bits, hv, hst]

/-- The writes of LANE_CTL that lane n refuses: an action that its state does not allow, a start that is barred, and several
actions at once. -/
def State.refusesCtl (s : State) (n v : Nat) : Prop :=
  (v % 8 = 1 ∧ (s.lst n ∉ [2, 5] ∨ s.startBarred = true)) ∨ (v % 8 = 2 ∧ s.lst n ∉ [3, 4]) ∨
    (v % 8 = 4 ∧ s.lst n ∉ [2, 5, 6]) ∨ v % 8 ∈ [3, 5, 6, 7]

theorem laneCtl_refuses (h : s.refusesCtl n v) : laneCtl n v s = s.setOver LANE_STAT.CTL_REFUSED n := by
  simp only [State.refusesCtl, List.mem_cons, List.not_mem_nil, or_false] at h
  rcases h with ⟨hv, h⟩ | ⟨hv, h⟩ | ⟨hv, h⟩ | hv | hv | hv | hv
  · have hno : ¬ ((s.lst n = 2 ∨ s.lst n = 5) ∧ ¬ s.startBarred) := fun ⟨hst, hbar⟩ => h.elim (· hst) hbar
    simp only [laneCtl, laneCtl_bits, hv, if_neg hno]
  · simp only [laneCtl, laneCtl_bits, hv, if_neg h]
  · simp only [laneCtl, laneCtl_bits, hv, if_neg h]
  all_goals simp only [laneCtl, laneCtl_bits, hv]

/-- A refused write of LANE_CTL sets CTL_REFUSED and does nothing else. -/
theorem exec_laneCtl_refused (hc : c ∈ [Instr.start m n v, .stop m n v, .unload m n v]) (h : s.Takes m .LANE_CTL n v)
    (hr : s.refusesCtl n v) : Does (exec c s) fun t => t.get LANE_STAT.CTL_REFUSED n = 1 ∧ t.ctxs = s.ctxs ∧ t.lanes = s.lanes ∧
      SameRegs [LANE_STAT.CTL_REFUSED.key n] s t ∧ SameBlock s t := by
  refine ⟨_, exec_laneCtl hc h, ?_⟩
  rw [laneCtl_refuses hr]
  have hregs : SameRegs [LANE_STAT.CTL_REFUSED.key n] s (s.put LANE_STAT.CTL_REFUSED n 1) := SameRegs.refl.put (by simp)
  exact ⟨get_setOver_self, rfl, rfl, hregs.congr rfl rfl, SameBlock.refl.congr rfl rfl rfl rfl⟩

/-! ### START (R209) -/

/-- The state without the setpoint commands of context n to track. -/
def State.untracked (s : State) (n : Nat) : State := { s with tracks := s.tracks.filter (fun k => k.issuer != n) }

@[simp] theorem untracked_lane : (s.untracked n).lane i = s.lane i := rfl
@[simp] theorem untracked_ctx : (s.untracked n).ctx i = s.ctx i := rfl
@[simp] theorem untracked_now : (s.untracked n).now = s.now := rfl
theorem SameRegs.untracked (h : SameRegs L s t) : SameRegs L s (t.untracked n) := h.congr rfl rfl
theorem SameCtxs.untracked (h : SameCtxs ls s t) : SameCtxs ls s (t.untracked n) := h.congr rfl
theorem SameBlock.untracked (h : SameBlock s t) : SameBlock s (t.untracked n) := h.congr rfl rfl rfl rfl

/-- The registers of a lane that starts are 0 but for the argument, which stands in v0. -/
def State.startCtx (s : State) (n : Nat) : Ctx :=
  { evts := (s.ctx n).evts, dropped := (s.ctx n).dropped, regs := tset [] 0 (s.get LANE_ARG.ARG n) }

/-- Lane n runs from its ENTRY with its watchdog restarted. -/
def runFromEntry (n : Nat) (s : State) : State :=
  let s := s.setLane n { s.lane n with wdogAt := s.now, stopAt := none }
  ((s.setPc n (s.lane n).entry).put LANE_STAT.FAULT n 0).setLst n 3

theorem runFromEntry_eq : runFromEntry n s = (((s.setLane n { s.lane n with wdogAt := s.now, stopAt := none }).put LANE_STAT.PC n
    (s.lane n).entry).put LANE_STAT.FAULT n 0).put LANE_STAT.STATE n 3 := by
  simp only [runFromEntry, setLane_lane_self]
  rfl

theorem laneStart_eq : laneStart n s =
    (((((s.setCtx n (s.startCtx n)).untracked n).setLane n { s.lane n with wdogAt := s.now, stopAt := none }).put LANE_STAT.PC n
      (s.lane n).entry).put LANE_STAT.FAULT n 0).put LANE_STAT.STATE n 3 := by
  have hstart : laneStart n s = runFromEntry n ((s.setCtx n (s.startCtx n)).untracked n) := rfl
  rw [hstart, runFromEntry_eq]
  simp only [untracked_lane, untracked_now, setCtx_lane, setCtx_now]

/-- A started lane runs at its ENTRY. -/
theorem laneStart_stat : (laneStart n s).lst n = 3 ∧ (laneStart n s).pc n = (s.lane n).entry % 2 ^ 15 ∧
    (laneStart n s).get LANE_STAT.FAULT n = 0 := by
  rw [laneStart_eq]
  simp (disch := decide) only [State.lst, State.pc, get_put_lo, get_put_self]
  exact ⟨rfl, rfl, rfl⟩

theorem laneStart_ctx : (laneStart n s).ctx n = s.startCtx n := by
  rw [laneStart_eq]
  simp only [put_ctx, setLane_ctx, untracked_ctx, setCtx_ctx_self]

theorem laneStart_lane : (laneStart n s).lane n = { s.lane n with wdogAt := s.now, stopAt := none } := by
  rw [laneStart_eq]
  simp only [put_lane, setLane_lane_self]

theorem laneStart_tracks : (laneStart n s).tracks = s.tracks.filter (fun k => k.issuer != n) := by
  rw [laneStart_eq]
  rfl

theorem laneStart_regs : SameRegs [LANE_STAT.STATE.key n, LANE_STAT.PC.key n, LANE_STAT.FAULT.key n] s (laneStart n s) := by
  rw [laneStart_eq]
  exact (((SameRegs.refl.setCtx.untracked.setLane).put (by simp)).put (by simp)).put (by simp)

theorem laneStart_ctxs : SameCtxs [n] s (laneStart n s) := by
  rw [laneStart_eq]
  exact (SameCtxs.refl.setCtx (by simp)).untracked.setLane.put.put.put

theorem laneStart_block : SameBlock s (laneStart n s) := by
  rw [laneStart_eq]
  exact SameBlock.refl.setCtx.untracked.setLane.put.put.put

/-! ### STOP (R213, R214) -/

theorem laneStop_running (h : (s.ctx n).wait = none) : laneStop n s = stopHalt n (s.pc n) s := by
  simp only [laneStop, h]

theorem laneStop_waiting {w : Wait} (h : (s.ctx n).wait = some w) (hw : w.cond ≠ .rdt) :
    laneStop n s = stopHalt n (s.pc n) (fall n (s.rested n)) := by
  obtain ⟨cond, rd, at_, timeout⟩ := w
  simp only [laneStop, h]
  cases cond with
  | rdt => exact absurd rfl hw
  | _ => rfl

theorem laneStop_stalled {w : Wait} (h : (s.ctx n).wait = some w) (hw : w.cond = .rdt) :
    laneStop n s = s.onCtx n (fun k => { k with stopPend := true }) := by
  obtain ⟨cond, rd, at_, timeout⟩ := w
  subst hw
  simp only [laneStop, h]

/-- A halted lane, its wait over, has its STOP noted for a watchdog of the same cycle and the supervisors signalled. -/
theorem stopHalt_eq : stopHalt n pc s = sigSupers 8 (((s.setLane n { s.lane n with stopAt := some (s.now, pc) }).setCtx n
    { s.ctx n with wait := none, stopPend := false }).put LANE_STAT.STATE n 5) := rfl

theorem stopHalt_lst : (stopHalt n pc s).lst n = 5 := by
  rw [State.lst, stopHalt_eq, sigSupers_get (by decide)]
  exact get_put_self

theorem stopHalt_pc : (stopHalt n pc s).pc n = s.pc n := by
  rw [State.pc, stopHalt_eq, sigSupers_get (by decide), get_put_lo (by decide)]
  rfl

theorem stopHalt_ctx : (stopHalt n pc s).ctx n = { s.ctx n with wait := none, stopPend := false } := by
  rw [stopHalt_eq, State.ctx, sigSupers_ctxs]
  exact setCtx_ctx_self ..

theorem stopHalt_sig (h8 : 8 ≤ k) (h12 : k < 12) : bitAt ((stopHalt n pc s).get LANE_SIG.SIG k) 8 = true := by
  rw [stopHalt_eq]
  exact sigSupers_bit (by decide) h8 h12

theorem stopHalt_regs : SameRegs (LANE_STAT.STATE.key n :: superSigs) s (stopHalt n pc s) := by
  rw [stopHalt_eq]
  exact (SameRegs.refl.setLane.setCtx.put (by simp)).sigSupers (List.subset_cons_self ..)

theorem stopHalt_ctxs : SameCtxs [n] s (stopHalt n pc s) := by
  rw [stopHalt_eq]
  exact (SameCtxs.refl.setLane.setCtx (by simp)).put.sigSupers

theorem SameBlock.stopHalt (h : SameBlock s t) : SameBlock s (Machine.stopHalt n pc t) := by
  rw [stopHalt_eq]
  exact h.setLane.setCtx.put.sigSupers

theorem SameBlock.fall (h : SameBlock s t) : SameBlock s (Machine.fall n t) := by
  rw [fall_eq]
  exact h.setCtx.put

@[simp] theorem rested_pc : (s.rested n).pc k = s.pc k := rfl
@[simp] theorem rested_ctx : (s.rested n).ctx k = s.ctx k := rfl
theorem SameBlock.rested (h : SameBlock s t) : SameBlock s (t.rested n) := h.congr rfl rfl rfl rfl

/-- A lane that is halted in its wait goes on behind it. -/
theorem stopHalt_goesOn : GoesOn n s (stopHalt n pc (fall n (s.rested n))) := by
  refine ⟨?_, ?_, ?_, ?_⟩
  · rw [stopHalt_pc, fall_pc, rested_pc, rested_ctx]
  all_goals simp only [stopHalt_ctx, fall_ctx, rested_pc, rested_ctx]

theorem GoesOn.answered {d : Nat} (h : GoesOn n s t) : GoesOn n s (t.answered d) := h

/-! ### UNLOAD (R44, R213) -/

/-- A field mapped by g at every unit of a list. -/
def State.mapFld (s : State) (f : Fld) (g : Nat → Nat) (us : List Nat) : State :=
  forAll us (fun s u => s.put f u (g (s.get f u))) s

section
variable {F : Nat → Nat} {u : Nat} {us : List Nat}

/-- A list without repeats maps the field once at each of its units. -/
theorem mapFld_get (hus : us.Nodup) (hu : u ∈ us) : (s.mapFld f F us).get f u = F (s.get f u) % 2 ^ f.width := by
  obtain ⟨r, hbefore, hafter⟩ := forAll_reaches (R := fun q x y => y.get f q = x.get f q) (s := s)
    (F := fun s u => s.put f u (F (s.get f u))) (fun _ _ => rfl) (fun _ _ _ _ h h' => h'.trans h)
    (fun _ _ _ _ _ hne => get_put_inst hne) hus hu
  exact hafter.trans (get_put_self.trans (by rw [hbefore]))

theorem mapFld_regs : SameRegs (us.map f.key) s (s.mapFld f F us) :=
  forAll_keeps (P := SameRegs (us.map f.key) s) (fun _ _ hk h => h.put (List.mem_map_of_mem hk)) SameRegs.refl

theorem mapFld_onlyRegs : OnlyRegs s (s.mapFld f F us) := forAll_keeps (P := OnlyRegs s) (fun _ _ _ h => h.put) .refl
end

theorem OnlyRegs.ctxs (h : OnlyRegs s t) : t.ctxs = s.ctxs := by obtain ⟨l, rfl⟩ := h; rfl
theorem OnlyRegs.models (h : OnlyRegs s t) : t.models = s.models := by obtain ⟨l, rfl⟩ := h; rfl
theorem OnlyRegs.load (h : OnlyRegs s t) : t.load = s.load := by obtain ⟨l, rfl⟩ := h; rfl
theorem OnlyRegs.mem (h : OnlyRegs s t) : t.mem = s.mem := by obtain ⟨l, rfl⟩ := h; rfl
theorem OnlyRegs.block (h : OnlyRegs s t) : SameBlock s t := by
  obtain ⟨l, rfl⟩ := h
  exact SameBlock.refl.congr rfl rfl rfl rfl

/-- The units whose references lane n has raised have given them back. -/
def State.released (s : State) (n : Nat) : State := s.mapFld DESC_W7.PROG_REFS (· - 1) (s.lane n).refs

@[simp] theorem setLane_models {x : Lane} : (s.setLane n x).models = s.models := rfl

/-- Lane n is IDLE without a program, and its region of the store is free. -/
def freeLane (n : Nat) (s : State) : State :=
  (((((s.put LANE_STAT.STATE n 0).put LANE_STAT.FAULT n 0).put LANE_IMAGE.COUNT n 0).put LANE_IMAGE.BASE n 0).put
    LANE_JOB.JOB_ID n 0).setLane n {}

theorem freeLane_models : (freeLane n s).models = s.models := by
  simp only [freeLane, setLane_models, put_models]

/-- UNLOAD of a lane without a model gives back its references and its region of the store. -/
theorem laneUnload_eq (h : thas s.models n = false) : laneUnload n s = freeLane n (s.released n) := by
  have hunload : laneUnload n s = if thas (freeLane n (s.released n)).models n then dropModel n (freeLane n (s.released n))
      else freeLane n (s.released n) := rfl
  have hmodels : (freeLane n (s.released n)).models = s.models := by
    rw [freeLane_models]
    exact mapFld_onlyRegs.models
  rw [hunload, hmodels, h, if_neg Bool.false_ne_true]

theorem laneUnload_lane (h : thas s.models n = false) : (laneUnload n s).lane n = {} := by
  rw [laneUnload_eq h, freeLane, setLane_lane_self]

theorem laneUnload_stat (h : thas s.models n = false) : (laneUnload n s).lst n = 0 ∧ (laneUnload n s).get LANE_IMAGE.BASE n = 0 ∧
    (laneUnload n s).get LANE_IMAGE.COUNT n = 0 ∧ (laneUnload n s).get LANE_JOB.JOB_ID n = 0 := by
  rw [laneUnload_eq h, freeLane]
  simp (disch := decide) only [State.lst, setLane_get, get_put_reg, get_put_lo, get_put_self]
  exact ⟨rfl, rfl, rfl, rfl⟩

theorem laneUnload_refs (h : thas s.models n = false) (hrefs : (s.lane n).refs.Nodup) (hu : k ∈ (s.lane n).refs) :
    (laneUnload n s).get DESC_W7.PROG_REFS k = (s.get DESC_W7.PROG_REFS k - 1) % 2 ^ 8 := by
  rw [laneUnload_eq h, freeLane]
  simp (disch := decide) only [setLane_get, get_put_reg]
  exact mapFld_get hrefs hu

theorem laneUnload_regs (h : thas s.models n = false) : SameRegs ([LANE_STAT.STATE.key n, LANE_STAT.FAULT.key n,
    LANE_IMAGE.BASE.key n, LANE_IMAGE.COUNT.key n, LANE_JOB.JOB_ID.key n] ++ (s.lane n).refs.map DESC_W7.PROG_REFS.key) s
      (laneUnload n s) := by
  rw [laneUnload_eq h, freeLane]
  have hrefs : SameRegs ((s.lane n).refs.map DESC_W7.PROG_REFS.key) s (s.released n) := mapFld_regs
  exact ((((((hrefs.mono (List.subset_append_right ..)).put (by simp)).put (by simp)).put (by simp)).put (by simp)).put
    (by simp)).setLane

theorem laneUnload_ctxs (h : thas s.models n = false) : SameCtxs [] s (laneUnload n s) := by
  rw [laneUnload_eq h, freeLane]
  exact (SameCtxs.refl.congr mapFld_onlyRegs.ctxs).put.put.put.put.put.setLane

theorem laneUnload_block (h : thas s.models n = false) : SameBlock s (laneUnload n s) := by
  rw [laneUnload_eq h, freeLane]
  exact mapFld_onlyRegs.block.put.put.put.put.put.setLane

/-! ## The watchdog (R214, R216, R217) -/

/-- The watchdog of a lane that runs or waits, once it has run out, faults the lane at the index that its PC shows. -/
theorem exec_watchdog (hn : n < 8) (hw : (s.lane n).wdog ≠ 0) (hst : s.lst n = 3 ∨ s.lst n = 4)
    (ht : (s.lane n).wdogAt + 500 * (s.lane n).wdog ≤ s.now) :
    exec (.watchdog n) s = .next (laneFault n 1 (s.pcShown n) s) := by
  have hpc : s.wdogPc n = some (s.pcShown n) := if_pos hst
  show execWatchdog n s = _
  simp only [execWatchdog, hpc]
  exact if_neg (by omega)

/-- A watchdog that is off does nothing. -/
theorem exec_watchdog_off (hw : (s.lane n).wdog = 0) : exec (.watchdog n) s = .next s := by
  show execWatchdog n s = _
  unfold execWatchdog
  split
  · rfl
  · exact if_pos (.inr (.inl hw))

/-- Out of the stalls a lane's PC shows its own index. -/
theorem pcShown_self (h : ∀ w, (s.ctx n).wait = some w → w.cond ≠ .rdt ∧ ∀ k a b d, w.cond ≠ .access k a b d) :
    s.pcShown n = s.pc n := by
  unfold State.pcShown
  split
  case h_1 hw => exact absurd rfl (h _ hw).1
  case h_2 hw => exact ((h _ hw).2 _ _ _ _ rfl).elim
  case h_3 => rfl

/-- In the stall of an urgent RDT it shows the index of the instruction behind. -/
theorem pcShown_rdt {w : Wait} (h : (s.ctx n).wait = some w) (hw : w.cond = .rdt) :
    s.pcShown n = (fallLoops (s.pc n) (s.ctx n).loops).1 := by
  obtain ⟨cond, rd, at_, timeout⟩ := w
  subst hw
  simp only [State.pcShown, h]

theorem laneFault_lst : (laneFault n cause pc s).lst n = 6 := by
  rw [State.lst, laneFault_stat rfl]
  simp (disch := decide) only [State.faulted, State.setPc, State.setLst, get_put_lo, get_put_self]
  rfl

theorem laneFault_cause (hc : cause < 16) : (laneFault n cause pc s).get LANE_STAT.FAULT n = cause := by
  rw [laneFault_stat rfl]
  simp (disch := decide) only [State.faulted, State.setPc, get_put_lo, get_put_self]
  exact Nat.mod_eq_of_lt hc

theorem laneFault_pc : (laneFault n cause pc s).pc n = pc % 2 ^ 15 := by
  rw [State.pc, laneFault_stat rfl]
  exact get_put_self

theorem laneFault_ctxs : SameCtxs [n] s (laneFault n cause pc s) :=
  fun k hk => by rw [laneFault_ctx, if_neg (by simpa using hk)]

theorem laneFault_block : SameBlock s (laneFault n cause pc s) :=
  SameBlock.refl.congr laneFault_phases laneFault_crews laneFault_mem laneFault_flash

/-- A lane that faults at its own index faults. -/
theorem laneFault_here (hc : cause < 16) : LaneFaults n cause s (laneFault n cause (s.pc n) s) := by
  refine ⟨laneFault_lst, laneFault_cause hc, laneFault_pc, ?_, ?_, fun k h8 h12 => sigSupers_bit (by decide) h8 h12,
    fun hroom => ?_, laneFault_ctxs, laneFault_block⟩
  · rw [laneFault_ctx, if_pos rfl]
  · rw [laneFault_ctx, if_pos rfl]
  · rw [laneFault_intake hroom, State.eventOf, stampOf_engine (by decide)]

end Sys2Proof.Machine

namespace Sys2Proof.Proofs.Psiul

open Sys2Proof Sys2Proof.Machine

/-- Settles O28: a write of LANE_CTL by its action and the lane's state, a watchdog by the index that the lane's PC shows. -/
theorem laneControl : Obligations.LaneControl := by
  refine ⟨?start, ?startRefused, ?stop, ?stopWaiting, ?stopRefused, ?unloadRefused, ?several, ?stopStalled, ?unload,
    ?watchdog, ?watchdogStalled, fun n s hw => exec_watchdog_off hw⟩
  case start =>
    intro m n v s h hv hst hbar hentry
    refine ⟨_, exec_laneCtl (by simp) h, ?_⟩
    rw [laneCtl_start hv hst hbar]
    obtain ⟨hlst, hpc, hfault⟩ := laneStart_stat (n := n) (s := s)
    simp only [answered_lst, answered_pc, answered_get, answered_ctx, answered_lane, answered_tracks, State.vreg,
      laneStart_ctx, laneStart_tracks]
    refine ⟨hlst, hpc.trans (Nat.mod_eq_of_lt hentry), hfault, tget_tset_self, fun k h0 h16 => tget_tset_ne (by omega), rfl, rfl,
      rfl, rfl, laneStart_lane, by simp, laneStart_regs.answered, laneStart_ctxs.answered, laneStart_block.answered⟩
  case startRefused =>
    intro m n v s h hv hr
    obtain ⟨t, ht, hset, hctxs, -, hframe⟩ := exec_laneCtl_refused (c := .start m n v) (by simp) h (.inl ⟨hv, hr⟩)
    exact ⟨t, ht, hset, hctxs, hframe⟩
  case stop =>
    intro m n v s h hv hst hw
    refine ⟨_, exec_laneCtl (by simp) h, ?_⟩
    rw [laneCtl_stop hv (.inl hst), laneStop_running hw]
    simp only [answered_lst, answered_pc, answered_get, answered_ctx, stopHalt_ctx]
    exact ⟨stopHalt_lst, stopHalt_pc, trivial, fun k => stopHalt_sig, stopHalt_regs.answered,
      stopHalt_ctxs.answered, SameBlock.refl.stopHalt.answered⟩
  case stopWaiting =>
    intro m n v w s h hv hst hw hcond
    refine ⟨_, exec_laneCtl (by simp) h, ?_⟩
    rw [laneCtl_stop hv (.inr hst), laneStop_waiting hw hcond]
    simp only [answered_lst, answered_ctx, stopHalt_ctx, fall_ctx, rested_ctx]
    exact ⟨stopHalt_lst, stopHalt_goesOn.answered, trivial, SameBlock.refl.rested.fall.stopHalt.answered⟩
  case stopRefused =>
    exact fun m n v s h hv hst => exec_laneCtl_refused (by simp) h (.inr (.inl ⟨hv, hst⟩))
  case unloadRefused =>
    exact fun m n v s h hv hst => exec_laneCtl_refused (by simp) h (.inr (.inr (.inl ⟨hv, hst⟩)))
  case several =>
    exact fun m n v s h hv c hc => exec_laneCtl_refused hc h (.inr (.inr (.inr hv)))
  case stopStalled =>
    intro m n v w s h hv hst hw hcond
    refine ⟨_, exec_laneCtl (by simp) h, ?_⟩
    rw [laneCtl_stop hv (.inl hst), laneStop_stalled hw hcond]
    simp only [answered_lst, answered_ctx, onCtx_ctx, onCtx_lst]
    exact ⟨trivial, hst, SameRegs.refl.setCtx.answered, (SameCtxs.refl.setCtx (by simp)).answered,
      SameBlock.refl.setCtx.answered⟩
  case unload =>
    intro m n v s h hv hst hrefs hm
    refine ⟨_, exec_laneCtl (by simp) h, ?_⟩
    rw [laneCtl_unload hv hst]
    simp only [answered_lst, answered_get, answered_lane]
    obtain ⟨hlst, hbase, hcount, hjob⟩ := laneUnload_stat hm
    exact ⟨hlst, laneUnload_lane hm, hbase, hcount, hjob, fun u hu => laneUnload_refs hm hrefs hu,
      (laneUnload_regs hm).answered, (laneUnload_ctxs hm).answered, (laneUnload_block hm).answered⟩
  case watchdog =>
    intro n s hn hw hst ht hwait
    refine ⟨_, exec_watchdog hn hw hst ht, ?_⟩
    rw [pcShown_self hwait]
    exact laneFault_here (by decide)
  case watchdogStalled =>
    intro n w s hn hw hst ht hwait hcond
    refine ⟨_, exec_watchdog hn hw (.inl hst) ht, ?_⟩
    rw [pcShown_rdt hwait hcond]
    exact ⟨laneFault_lst, laneFault_cause (by decide), laneFault_pc, laneFault_ctxs, laneFault_block⟩

end Sys2Proof.Proofs.Psiul

namespace Sys2Proof.Machine

open Sys2Proof

variable {s t u : State} {f : Fld} {b : List Byte} {a base code i isUnit index k l n reason : Nat} {L : List FKey} {ls : List Nat}
  {x : Load} {decls : List UDecl} {ws : List PWord}

/-! ## The result of a load (R229) -/

/-- Where the result of a load of lane l stands. -/
def reportKeys (l : Nat) : List FKey :=
  [LANE_LOAD_STAT.REASON.key l, LANE_LOAD_STAT.IS_UNIT.key l, LANE_LOAD_STAT.INDEX.key l] ++ superSigs

theorem SameRegs.loadReport (h : SameRegs L s t) (hL : reportKeys l ⊆ L) :
    SameRegs L s (Machine.loadReport l reason isUnit index t) :=
  (((h.put (hL (by simp [reportKeys]))).put (hL (by simp [reportKeys]))).put (hL (by simp [reportKeys]))).sigSupers
    fun _ hk => hL (List.mem_append_right _ hk)

theorem SameCtxs.loadReport (h : SameCtxs ls s t) : SameCtxs ls s (Machine.loadReport l reason isUnit index t) :=
  h.put.put.put.sigSupers

theorem SameBlock.loadReport (h : SameBlock s t) : SameBlock s (Machine.loadReport l reason isUnit index t) :=
  h.put.put.put.sigSupers

@[simp] theorem sigSupers_load : (sigSupers k s).load = s.load := rfl
@[simp] theorem sigSupers_lanes : (sigSupers k s).lanes = s.lanes := rfl

@[simp] theorem loadReport_load : (loadReport l reason isUnit index s).load = s.load := by
  simp only [loadReport, sigSupers_load, put_load]

@[simp] theorem loadReport_lanes : (loadReport l reason isUnit index s).lanes = s.lanes := by
  simp only [loadReport, sigSupers_lanes, put_lanes]

@[simp] theorem loadReport_mem : (loadReport l reason isUnit index s).mem = s.mem := by
  simp only [loadReport, sigSupers_mem, put_mem]

theorem loadReport_get (h : f.reg ≠ .LANE_LOAD_STAT) (hsig : f.reg ≠ .LANE_SIG) :
    (loadReport l reason isUnit index s).get f i = s.get f i := by
  rw [loadReport, sigSupers_get hsig, get_put_reg h, get_put_reg h, get_put_reg h]

theorem loadReport_reason (hr : reason < 2 ^ 8) : (loadReport l reason isUnit index s).get LANE_LOAD_STAT.REASON l = reason := by
  rw [loadReport, sigSupers_get (by decide)]
  simp (disch := decide) only [get_put_lo, get_put_self]
  exact Nat.mod_eq_of_lt hr

theorem loadReport_sig (h8 : 8 ≤ k) (h12 : k < 12) :
    bitAt ((loadReport l reason isUnit index s).get LANE_SIG.SIG k) 9 = true := sigSupers_bit (by decide) h8 h12

/-! ## The end of a load (R229, R231) -/

/-- The state in which no load runs. -/
def State.loaderIdle (s : State) : State := { s with load := none }

@[simp] theorem loaderIdle_load : s.loaderIdle.load = none := rfl
@[simp] theorem loaderIdle_get : s.loaderIdle.get f i = s.get f i := rfl
@[simp] theorem loaderIdle_mem : s.loaderIdle.mem = s.mem := rfl
theorem SameRegs.loaderIdle (h : SameRegs L s t) : SameRegs L s t.loaderIdle := h.congr rfl rfl
theorem SameCtxs.loaderIdle (h : SameCtxs ls s t) : SameCtxs ls s t.loaderIdle := h.congr rfl
theorem SameBlock.loaderIdle (h : SameBlock s t) : SameBlock s t.loaderIdle := h.congr rfl rfl rfl rfl

theorem exec_loadComplete (h : s.load = some x) : exec .loadComplete s = .next (finishLoad x s.loaderIdle) := by
  show execLoadComplete s = _
  simp only [execLoadComplete, h]
  rfl

/-! ### Refused images (R231) -/

theorem loadRefuse_lst : (loadRefuse l code isUnit index s).lst l = 0 := by
  rw [State.lst, loadRefuse, loadReport_get (by decide) (by decide)]
  exact get_put_self

@[simp] theorem loadRefuse_load : (loadRefuse l code isUnit index s).load = s.load := loadReport_load

@[simp] theorem loadRefuse_lanes : (loadRefuse l code isUnit index s).lanes = s.lanes := loadReport_lanes

theorem loadRefuse_regs (hL : LANE_STAT.STATE.key l :: reportKeys l ⊆ L) (h : SameRegs L s t) :
    SameRegs L s (loadRefuse l code isUnit index t) :=
  (h.put (hL (by simp))).loadReport fun _ hk => hL (List.mem_cons_of_mem _ hk)

/-- Lane l has been left IDLE by a load that a code refuses. -/
def LoadRefused (l code : Nat) (s t : State) : Prop :=
  t.load = none ∧ t.lst l = 0 ∧ t.get LANE_LOAD_STAT.REASON l = code ∧ t.lanes = s.lanes ∧
  (∀ k, 8 ≤ k → k < 12 → bitAt (t.get LANE_SIG.SIG k) 9 = true) ∧
  SameRegs (LANE_STAT.STATE.key l :: reportKeys l) s t ∧ SameCtxs [] s t ∧ SameBlock s t

theorem loadRefuse_refused (hc : code < 2 ^ 8) : LoadRefused l code s (loadRefuse l code isUnit index s.loaderIdle) :=
  ⟨loadRefuse_load, loadRefuse_lst, loadReport_reason hc, loadRefuse_lanes, fun _ => loadReport_sig,
    loadRefuse_regs (fun _ h => h) SameRegs.refl.loaderIdle, SameCtxs.refl.loaderIdle.put.loadReport,
    SameBlock.refl.loaderIdle.put.loadReport⟩

theorem finishLoad_header (h : headerBad x.img = true) : finishLoad x s = loadRefuse x.lane 0x05 0 0 s := if_pos h

/-- The load comes to the check of the CRC (R231): its header is good, its source was readable, and its region is free. -/
structure State.reachesCrc (s : State) (x : Load) : Prop where
  header : headerBad x.img = false
  source : x.srcOk = true
  room : s.noRoom x.lane x.base (hword x.img 2) = false

theorem finishLoad_crc (h : s.reachesCrc x)
    (hcrc : crc32 ((x.img.drop 0x40).take (hword x.img 8 - 0x40)) ≠ hword x.img 9) :
    finishLoad x s.loaderIdle = loadRefuse x.lane 0x06 0 0 s.loaderIdle := by
  have hroom : s.loaderIdle.noRoom x.lane x.base (hword x.img 2) = false := h.room
  simp [finishLoad, h.header, h.source, hroom, hcrc]

/-! ### Accepted images (R229) -/

/-- The code of an image. -/
def imageCode (b : List Byte) : List Byte := (b.drop (codeAt b)).take (8 * hword b 2)

/-- The instructions of an image. -/
def imageWords (b : List Byte) : List PWord :=
  (List.range (hword b 2)).map (fun k => PWord.ofNat (cval b (codeAt b + 8 * k) 8))

/-- The declarations of an image. -/
def imageDecls (b : List Byte) : List UDecl := (unitTable b).map declOf

/-- An image without a model that passes every check is accepted in the state that has its code. -/
theorem finishLoad_accepts (h : s.reachesCrc x)
    (hcrc : crc32 ((x.img.drop 0x40).take (hword x.img 8 - 0x40)) = hword x.img 9)
    (hu : u = s.loaderIdle.wrBytes (0x840000 + 8 * x.base) (imageCode x.img))
    (htab : u.tableCode x.lane (unitTable x.img) 0 [] = none)
    (hcode : u.codeCode x.lane (imageDecls x.img) (imageWords x.img) (imageWords x.img) 0 = none)
    (hflow : flowCode (imageWords x.img) (hword x.img 5) = none) (hmodel : hword x.img 6 = 0) :
    finishLoad x s.loaderIdle = loadAccept x.lane x.base x.img (imageDecls x.img) (imageWords x.img) u := by
  subst hu
  simp only [imageCode, imageDecls, imageWords] at htab hcode hflow ⊢
  have hroom : s.loaderIdle.noRoom x.lane x.base (hword x.img 2) = false := h.room
  simp [finishLoad, h.header, h.source, hroom, hcrc, htab, hcode, hflow, hmodel]

/-- Without a model the image ends with its code. -/
theorem codeEnd_of_header (h : headerBad b = false) (hmodel : hword b 6 = 0) : hword b 8 = codeAt b + 8 * hword b 2 := by
  simp only [headerBad, hmodel, if_true, Bool.or_eq_false_iff, bne_eq_false_iff_eq] at h
  obtain ⟨⟨-, -, hend⟩, -⟩ := h
  exact hend

theorem imageCode_length (h : b.length = codeAt b + 8 * hword b 2) : (imageCode b).length = 8 * hword b 2 := by
  rw [imageCode, List.length_take, List.length_drop]
  omega

theorem imageCode_getD (hk : k < 8 * hword b 2) : (imageCode b).getD k 0 = b.getD (codeAt b + k) 0 := by
  simp only [imageCode, List.getD_eq_getElem?_getD, List.getElem?_take, List.getElem?_drop, hk, if_true]

/-- No unit stands twice among those of a list without its duplicates. -/
theorem nodup_eraseDups : ∀ us : List Nat, us.eraseDups.Nodup
  | [] => by simp
  | v :: us => by
    rw [List.eraseDups_cons, List.nodup_cons]
    exact ⟨by simp [List.mem_eraseDups], nodup_eraseDups (us.filter fun w => !w == v)⟩
termination_by us => us.length
decreasing_by exact Nat.lt_succ_of_le (List.length_filter_le ..)

/-- The units whose references an image raises: those that it declares and the fields of its HEATs (R44, R228). -/
def imageRefs (decls : List UDecl) (ws : List PWord) : List Nat :=
  (decls.map (·.unit) ++ ws.filterMap (fun w => if w.op = 0x43 then some w.unit else none)).eraseDups

/-- Lane l holds an image at its region of the store, LOADED at its ENTRY. -/
def programLane (l base : Nat) (b : List Byte) (decls : List UDecl) (ws : List PWord) (s : State) : State :=
  (((((s.setLane l ⟨hword b 4, hword b 5, decls, (ws.filterMap namedWindow).eraseDups, imageRefs decls ws, 0, none⟩).put
    LANE_IMAGE.BASE l base).put LANE_IMAGE.COUNT l (hword b 2)).put LANE_JOB.JOB_ID l (hword b 10)).put LANE_STAT.PC l
      (hword b 4)).put LANE_STAT.STATE l 2

@[simp] theorem setLane_load {x : Lane} : (s.setLane n x).load = s.load := rfl

theorem programLane_load : (programLane l base b decls ws s).load = s.load := by
  simp only [programLane, put_load, setLane_load]

theorem programLane_mem : (programLane l base b decls ws s).mem = s.mem := by
  simp only [programLane, put_mem, setLane_mem]

theorem programLane_lane : (programLane l base b decls ws s).lane l =
    ⟨hword b 4, hword b 5, decls, (ws.filterMap namedWindow).eraseDups, imageRefs decls ws, 0, none⟩ := by
  simp only [programLane, put_lane, setLane_lane_self]

/-- The state in which the references of an image's units have risen. -/
def State.claimed (s : State) (decls : List UDecl) (ws : List PWord) : State :=
  s.mapFld DESC_W7.PROG_REFS (· + 1) (imageRefs decls ws)

theorem loadAccept_eq (hmodel : hword b 6 = 0) : loadAccept l base b decls ws s =
    loadReport l 0 0 0 (programLane l base b decls ws (s.claimed decls ws)) := by
  simp only [loadAccept, hmodel, if_true]
  rfl

theorem claimed_onlyRegs : OnlyRegs s (s.claimed decls ws) := mapFld_onlyRegs

section
variable (hmodel : hword b 6 = 0)
include hmodel

theorem loadAccept_load : (loadAccept l base b decls ws s).load = s.load := by
  rw [loadAccept_eq hmodel, loadReport_load, programLane_load, claimed_onlyRegs.load]

theorem loadAccept_mem : (loadAccept l base b decls ws s).mem = s.mem := by
  rw [loadAccept_eq hmodel, loadReport_mem, programLane_mem, claimed_onlyRegs.mem]

theorem loadAccept_reason : (loadAccept l base b decls ws s).get LANE_LOAD_STAT.REASON l = 0 := by
  rw [loadAccept_eq hmodel, loadReport_reason (by decide)]

/-- An accepted image leaves its lane LOADED at its ENTRY, with its region of the store. -/
theorem loadAccept_stat : (loadAccept l base b decls ws s).lst l = 2 ∧
    (loadAccept l base b decls ws s).pc l = hword b 4 % 2 ^ 15 ∧
    (loadAccept l base b decls ws s).get LANE_IMAGE.BASE l = base % 2 ^ LANE_IMAGE.BASE.width ∧
    (loadAccept l base b decls ws s).get LANE_IMAGE.COUNT l = hword b 2 % 2 ^ LANE_IMAGE.COUNT.width := by
  rw [loadAccept_eq hmodel]
  simp (disch := decide) only [State.lst, State.pc, loadReport_get, programLane, get_put_reg, get_put_lo, get_put_self]
  exact ⟨rfl, rfl, trivial, trivial⟩

theorem loadAccept_lane : (loadAccept l base b decls ws s).lane l =
    ⟨hword b 4, hword b 5, decls, (ws.filterMap namedWindow).eraseDups, imageRefs decls ws, 0, none⟩ := by
  rw [loadAccept_eq hmodel, State.lane, loadReport_lanes]
  exact programLane_lane

/-- The references of each unit that it declares have risen. -/
theorem loadAccept_refs {d : UDecl} (hd : d ∈ decls) : (loadAccept l base b decls ws s).get DESC_W7.PROG_REFS d.unit =
    (s.get DESC_W7.PROG_REFS d.unit + 1) % 2 ^ 8 := by
  have hmem : d.unit ∈ imageRefs decls ws :=
    List.mem_eraseDups.mpr (List.mem_append_left _ (List.mem_map_of_mem hd))
  rw [loadAccept_eq hmodel]
  simp (disch := decide) only [loadReport_get, programLane, get_put_reg, setLane_get]
  exact mapFld_get (nodup_eraseDups _) hmem

theorem loadAccept_ctxs : SameCtxs ls s (loadAccept l base b decls ws s) := by
  rw [loadAccept_eq hmodel]
  exact (SameCtxs.refl.congr claimed_onlyRegs.ctxs).setLane.put.put.put.put.put.loadReport

theorem loadAccept_block : SameBlock s (loadAccept l base b decls ws s) := by
  rw [loadAccept_eq hmodel]
  exact claimed_onlyRegs.block.setLane.put.put.put.put.put.loadReport
end

/-! ### The code in the store (R229) -/

@[simp] theorem wrBytes_load {bytes : List Byte} : (s.wrBytes a bytes).load = s.load := rfl
@[simp] theorem wrBytes_mem {bytes : List Byte} : (s.wrBytes a bytes).mem = msetList 0 s.mem a bytes := rfl
@[simp] theorem wrBytes_get {bytes : List Byte} : (s.wrBytes a bytes).get f i = s.get f i := rfl

end Sys2Proof.Machine

namespace Sys2Proof.Proofs.Psiul

open Sys2Proof Sys2Proof.Machine

/-- Settles O29: a load by the first check that its image fails; of an image that passes them all the code is a write of bytes
in the store, and the rest the lane's own registers. -/
theorem loaderOutcome : Obligations.LoaderOutcome := by
  refine ⟨?header, ?crc, ?accepted⟩
  case header =>
    intro x s hload hbad
    refine ⟨_, exec_loadComplete hload, ?_⟩
    rw [finishLoad_header hbad]
    exact loadRefuse_refused (by decide)
  case crc =>
    intro x s hload hheader hsrc hroom hcrc
    refine ⟨_, exec_loadComplete hload, ?_⟩
    rw [finishLoad_crc ⟨hheader, hsrc, hroom⟩ hcrc]
    obtain ⟨hidle, hlst, hreason, hlanes, -, -, -, hblock⟩ := loadRefuse_refused (l := x.lane) (code := 0x06) (isUnit := 0)
      (index := 0) (s := s) (by decide)
    exact ⟨hidle, hlst, hreason, hlanes, hblock⟩
  case accepted =>
    intro x ws decls s u hinv hload hheader hsrc hroom hcrc hlen hu hws hdecls htab hcode hflow hmodel
    subst hws hdecls
    refine ⟨_, exec_loadComplete hload, ?_⟩
    rw [finishLoad_accepts ⟨hheader, hsrc, hroom⟩ hcrc hu htab hcode hflow hmodel]
    have hsize : (imageCode x.img).length = 8 * hword x.img 2 :=
      imageCode_length (hlen.trans (codeEnd_of_header hheader hmodel))
    replace hu : u = s.loaderIdle.wrBytes (0x840000 + 8 * x.base) (imageCode x.img) := hu
    have hmem : u.mem = msetList 0 s.mem (0x840000 + 8 * x.base) (imageCode x.img) := by
      rw [hu, wrBytes_mem, loaderIdle_mem]
    obtain ⟨hlst, hpc, hbase, hcount⟩ := loadAccept_stat (l := x.lane) (base := x.base) (decls := imageDecls x.img)
      (ws := imageWords x.img) (s := u) hmodel
    obtain ⟨hphases, hcrews, -⟩ := loadAccept_block (l := x.lane) (base := x.base) (decls := imageDecls x.img)
      (ws := imageWords x.img) (s := u) hmodel
    simp only [loadAccept_load hmodel, loadAccept_lane hmodel, loadAccept_mem hmodel, hmem]
    refine ⟨?idle, hlst, loadAccept_reason hmodel, hpc, trivial, trivial, rfl, hbase, hcount, ?refs, ?written, ?kept, ?ctxs,
      ?phases, ?crews⟩
    case idle => rw [hu, wrBytes_load, loaderIdle_load]
    case refs =>
      intro d hd
      rw [← loaderIdle_get (s := s), ← wrBytes_get (s := s.loaderIdle), ← hu]
      exact loadAccept_refs hmodel hd
    case written =>
      intro k hk
      rw [mget_msetList hinv.mem (by rw [hsize]; exact hk), imageCode_getD hk]
    case kept =>
      intro a ha
      exact mget_msetList_ne hinv.mem (by rw [hsize]; exact ha)
    case ctxs => exact fun q hq => (loadAccept_ctxs hmodel q hq).trans (by rw [hu]; rfl)
    case phases => exact fun q hq => (hphases q hq).trans (by rw [hu]; rfl)
    case crews => exact fun q hq => (hcrews q hq).trans (by rw [hu]; rfl)

end Sys2Proof.Proofs.Psiul

/-! The statements of the family 08_psiul_instruction_reference: the effects of the instructions on their contexts, waits and
barriers, telemetry reads, supervisor accesses and controls, and the datapath updates that LLS and GSEL act on. -/

/-! ## The issue of an instruction by its command (R210, R211, R243) -/

namespace Sys2Proof.Machine

open Sys2Proof

variable {s t : State} {n op r v k cause : Nat} {i : Instr} {act : PWord → State → State} {L : List FKey}

/-- A command that issues an instruction is the issue of its opcode with some effect. -/
theorem exec_issue (h : issueOf i = some (n, op)) : op ∈ opcodes ∧ ∃ act, ∀ s, exec i s = .next (issue n op act s) := by
  unfold issueOf at h
  split at h <;> cases h <;> exact ⟨by decide, _, fun _ => rfl⟩

/-- An instruction whose predicate is false takes its issue opportunity and goes on (R237). -/
theorem issue_idle (hc : s.canIssue n = true) (hf : s.fetch n = (s, true)) (hop : (s.word n).op = op) (ho : op ∈ opcodes)
    (hn : n < 8 → op < 0x60) (hp : (s.word n).predBad = false) (ha : (s.word n).acts (s.ctx n).preds = false) :
    issue n op act s = fall n (s.issued n) := by
  have hfits : s.fits n op = true := by
    have : 8 ≤ n ∨ op < 0x60 := by omega
    simp [State.fits, hf, hop, hp, ho, this]
  simp [issue, toTurn_self hc, hfits, hc, issueNow, hf, hop, ho, hp, ha]

/-- Nothing of an instruction but its issue is left where it only goes on. -/
theorem fall_issued_writesNone (hw : (s.ctx n).wait = none) : WritesNone n s (fall n (s.issued n)) :=
  ⟨goesOn (by simp) (by simp) (by simp) (by simpa using hw), by simp, by simp, issued_frame.fall⟩

end Sys2Proof.Machine

/-! ## Arithmetic and comparison (R240, R252, R253) -/

namespace Sys2Proof.Machine

open Sys2Proof

variable {s : State} {n a b k : Nat} {x : Ctx} {y : Bool}

theorem setP_p_self : (x.setP k y).p k = y := bitAt_setBit_self

theorem setP_p_ne {j : Nat} (h : j % 4 ≠ k % 4) : (x.setP k y).p j = x.p j := bitAt_setBit_ne h

/-- The predicate field of CMP names one of four predicates. -/
theorem bits_1_0 : bits k 1 0 = k % 4 := by simp [bits]

/-- Of two words that do not lie half the range apart, the sign of their wrapped difference tells which mark is later (R194). -/
theorem sgn_sub_neg_iff_markLater (ha : a < 2 ^ 32) (hb : b < 2 ^ 32) (h : (a + 2 ^ 32 - b) % 2 ^ 32 ≠ 2 ^ 31) :
    decide (sgn 32 (unsg 32 ((a : Int) - b)) < 0) = markLater b a := by
  unfold markLater sgn unsg
  refine decide_eq_decide.mpr ?_
  split_ifs <;> omega

end Sys2Proof.Machine

namespace Sys2Proof.Proofs.Instructions

open Sys2Proof Sys2Proof.Machine

/-- Settles O18: each arithmetic instruction is the write of its register with its value (`arith_writes`); of MIN and MAX the value
is the operand that is chosen. -/
theorem arithmeticResults : Obligations.ArithmeticResults := by
  refine ⟨?movi, ?mov, ?add, ?sub, ?mulq, ?shr, ?shl, ?and, ?or, ?min, ?max, ?clamp⟩
  case min =>
    intro n s h
    obtain ⟨t, ht, hw⟩ := arith_writes (val := fun w k => if sgn 32 (k.v w.rs) ≤ sgn 32 (w.b k) then k.v w.rs else w.b k) h
      (by decide) (by decide)
    exact ⟨t, ht, _, hw, (apply_ite (sgn 32) ..).trans (min_def ..).symm⟩
  case max =>
    intro n s h
    obtain ⟨t, ht, hw⟩ := arith_writes (val := fun w k => if sgn 32 (w.b k) ≤ sgn 32 (k.v w.rs) then k.v w.rs else w.b k) h
      (by decide) (by decide)
    exact ⟨t, ht, _, hw, (apply_ite (sgn 32) ..).trans (max_def' ..).symm⟩
  case movi => exact fun n s h => arith_writes (val := fun w _ => w.imm) h (by decide) (by decide)
  case mov => exact fun n s h => arith_writes (val := fun w k => k.v w.rs) h (by decide) (by decide)
  case add => exact fun n s h => arith_writes (val := fun w k => k.v w.rs + w.b k) h (by decide) (by decide)
  case sub => exact fun n s h => arith_writes (val := fun w k => unsg 32 ((k.v w.rs : Int) - w.b k)) h (by decide) (by decide)
  case mulq =>
    exact fun n s h => arith_writes
      (val := fun w k => unsg 32 (sat32 (asr (sgn 32 (k.v w.rs) * w.bMul k) (bits w.imm 4 0)))) h (by decide) (by decide)
  case shr => exact fun n s h => arith_writes (val := fun w k => k.v w.rs / 2 ^ (w.b k % 32)) h (by decide) (by decide)
  case shl => exact fun n s h => arith_writes (val := fun w k => k.v w.rs * 2 ^ (w.b k % 32)) h (by decide) (by decide)
  case and => exact fun n s h => arith_writes (val := fun w k => Nat.land (k.v w.rs) (w.b k)) h (by decide) (by decide)
  case or => exact fun n s h => arith_writes (val := fun w k => Nat.lor (k.v w.rs) (w.b k)) h (by decide) (by decide)
  case clamp =>
    exact fun n s h => arith_writes
      (val := fun w k => unsg 32 (min (max (sgn 32 (k.v w.rs)) (w.clampLo k)) (w.clampHi k))) h (by decide) (by decide)

/-- Settles O19: CMP changes its predicate alone, to what `cmpCond` gives; that the serial condition is the order of marks is
`sgn_sub_neg_iff_markLater`. -/
theorem compareConditions : Obligations.CompareConditions := by
  intro n s h
  refine ⟨_, rfl, ?_⟩
  rw [issue_acts h (by decide) (fun _ => by decide)]
  refine ⟨goesOn issued_pc (by simp [Ctx.setP]) (by simp [Ctx.setP]) (by simpa [Ctx.setP] using h.wait), issued_frame.setCtx.fall,
    fun k _ => by simp [State.vreg, Ctx.v, Ctx.setP], fun k hk hne => ?other, fun code a b p hcode ha hb hp => ?cond⟩
  case other =>
    simp only [fall_ctx, onCtx_ctx, issued_ctx]
    exact setP_p_ne (by rw [bits_1_0]; omega)
  case cond =>
    have hpred : p = cmpCond code a b := by
      rw [hp, hcode, ha, hb, ← bits_1_0]
      simp only [fall_ctx, onCtx_ctx, issued_ctx]
      exact setP_p_self
    rw [hpred]
    refine ⟨?_, ?_, ?_, ?_, ?_, ?_, ?_, ?_, ?_⟩ <;> rintro rfl
    case refine_2 => exact (decide_not ..).symm
    case refine_8 => exact sgn_sub_neg_iff_markLater
    case refine_1 => exact Bool.beq_eq_decide_eq ..
    all_goals rfl

end Sys2Proof.Proofs.Instructions
/-! ## Control (R246 to R251) -/

namespace Sys2Proof.Machine

open Sys2Proof

variable {s t : State} {n op v k b cause code src d0 d1 e : Nat} {c : Cond} {x : Ctx} {f : Fld} {i : Nat} {L : List FKey}

/-! ### Halts and endless waits -/

theorem IssueFrame.sigSupers (h : IssueFrame n L s t) (hL : superSigs ⊆ L) : IssueFrame n L s (Machine.sigSupers b t) :=
  forAll_keeps (P := IssueFrame n L s)
    (fun _ _ hk hu => hu.put (List.mem_append_right _ (hL (List.mem_map_of_mem hk))) (by decide)) h

/-- A halted lane waits no more, and signals the supervisor contexts. -/
theorem laneHalt_eq : laneHalt n s =
    sigSupers 8 ((s.setCtx n { s.ctx n with wait := none, stopPend := false }).put LANE_STAT.STATE n 5) := rfl

theorem laneHalt_lst : (laneHalt n s).lst n = 5 := by
  rw [State.lst, laneHalt_eq, sigSupers_get (by decide)]
  exact get_put_self

theorem laneHalt_pc : (laneHalt n s).pc n = s.pc n := by
  rw [State.pc, laneHalt_eq, sigSupers_get (by decide), get_put_lo (by decide)]
  rfl

theorem laneHalt_ctx : (laneHalt n s).ctx n = { s.ctx n with wait := none, stopPend := false } := by
  rw [laneHalt_eq, State.ctx, sigSupers_ctxs]
  exact setCtx_ctx_self ..

/-- A lane that halts as it goes on has gone on. -/
theorem laneHalt_goesOn : GoesOn n s (laneHalt n (fall n (s.issued n))) := by
  refine ⟨?_, ?_, ?_, ?_⟩
  · rw [laneHalt_pc, fall_pc, issued_pc, issued_ctx]
  all_goals simp only [laneHalt_ctx, fall_ctx, issued_ctx, issued_pc]

theorem haltCtx_lane (hn : n < 8) : haltCtx n s = laneHalt n (fall n s) := if_pos hn

/-- An endless wait is a wait that no condition ends. -/
theorem waitForever_issued : waitForever n (s.issued n) = s.waiting n .endless 0 0 := by
  simp only [waitForever, State.waiting, issued_now]

/-- A wait without a timeout goes on while its condition does not hold. -/
theorem tryEnd_waits {r a : Nat} (hw : (s.ctx n).wait = some ⟨c, r, a, 0⟩) (ho : s.outcome n c = none) : tryEnd n s = s := by
  simp only [tryEnd, hw, ho, timeOut, ne_eq, not_true, false_and, if_false]

/-! ### Faults of supervisor contexts (R246) -/

/-- Of a supervisor context only the engine counts the issue. -/
theorem issued_sup_eq (hn : 8 ≤ n) : ∃ e, s.issued n = { s with eng := e } := by
  unfold State.issued
  dsimp only
  rw [if_neg (by omega)]
  exact ⟨_, rfl⟩

theorem issued_sup_sameRegs (hn : 8 ≤ n) : SameRegs L s (s.issued n) := by
  obtain ⟨e, h⟩ := issued_sup_eq (s := s) hn
  rw [h]
  exact SameRegs.refl.congr rfl rfl

/-- An event of a context that is of class FC2 always finds room, and changes nothing else. -/
theorem raise_context_sure (h : 2 ≤ classNo code) : s.raise code 4 src d0 d1 =
    { s with intake := s.intake ++ [⟨code, 4, src, s.stampOf code 4 src, d0 % 2 ^ 32, d1 % 2 ^ 32, 0, false⟩] } := by
  simp only [State.raise, State.raiseEv, srcCrew]
  exact if_neg (by omega)

/-- A supervisor context's fault is an endless wait with its event. -/
theorem supFault_issued : supFault n cause (s.issued n) =
    (s.waiting n .faulted 0 0).raise 0x0706 4 n (cause + 2 ^ 16 * s.pc n) := by
  simp only [supFault, State.waiting, issued_now, issued_pc]

theorem waiting_stampNow : (s.waiting n c k v).stampNow = s.stampNow := by
  rw [State.stampNow, waiting_markNo]
  exact congrArg (fun k => Stamp.mk s.markNo (k % 256)) issued_ticks

theorem waiting_intake : (s.waiting n c k v).intake = s.intake := issued_intake

theorem supFault_faults (hn : 8 ≤ n) : SupFaults n cause s (supFault n cause (s.issued n)) := by
  obtain ⟨hwait, hlst, hpc, hregs, -, -, -, -, -, hctxs, hphases, hcrews, hmem⟩ :=
    waiting_waitsFor (s := s) (n := n) (c := .faulted) (r := 0) (v := 0)
  have hsame : SameRegs [LANE_STAT.STATE.key n] s (s.waiting n .faulted 0 0) :=
    (issued_sup_sameRegs hn).setCtx.put (by simp)
  rw [supFault_issued, raise_context_sure (by decide)]
  refine ⟨hwait, hlst, hpc, hregs, ?_, hsame.congr rfl rfl, hctxs.congr rfl, hphases.congr rfl, hcrews.congr rfl,
    hmem.congr rfl rfl⟩
  show (s.waiting n .faulted 0 0).intake ++ _ = _
  rw [waiting_intake, State.eventOf, stampOf_engine (by decide), stampOf_engine (by decide), waiting_stampNow,
    Nat.zero_mod]

/-! ### Jumps -/

theorem jump_near (hv : v < 2 ^ 15) : jump n v s = s.setPc n v := if_neg (by omega)

theorem jump_far (hn : 8 ≤ n) (hv : 2 ^ 15 ≤ v) : jump n v s = supFault n 5 s := if_pos ⟨hn, hv⟩

/-- A context whose instruction ends at an index of the store. -/
theorem setPc_frame (hv : v < 2 ^ 15) (hx : t.ctx n = x) (F : IssueFrame n [] s t) :
    (t.setPc n v).pc n = v ∧ (t.setPc n v).ctx n = x ∧ IssueFrame n [] s (t.setPc n v) :=
  ⟨get_put_self.trans (Nat.mod_eq_of_lt hv), hx, F.put (by simp) (by decide)⟩

theorem IssueFrame.onCtx {g : Ctx → Ctx} (h : IssueFrame n L s t) : IssueFrame n L s (t.onCtx n g) := h.setCtx

end Sys2Proof.Machine

namespace Sys2Proof.Proofs.Instructions

open Sys2Proof Sys2Proof.Machine

/-- Settles O20: a halted lane is one that went on and halted, a halted supervisor context waits for a condition that never holds;
of an instruction whose predicate is false only the issue is left (`issue_idle`). -/
theorem haltYieldNop : Obligations.HaltYieldNop := by
  refine ⟨?haltLane, ?haltSup, ?yield, ?nop, ?idle⟩
  case haltLane =>
    intro n s h hn
    refine ⟨_, rfl, ?_⟩
    rw [issue_acts h (by decide) (fun _ => by decide), haltCtx_lane hn]
    refine ⟨laneHalt_lst, laneHalt_goesOn, by simp [laneHalt_ctx], by simp [laneHalt_ctx], fun k => sigSupers_bit (by decide),
      ?_, ?_⟩
    · rw [laneHalt_eq, sigSupers_intake, put_intake]
      exact issued_intake
    · rw [laneHalt_eq]
      exact (((issued_frame.mono (List.nil_subset _)).fall.setCtx).put (by simp) (by decide)).sigSupers
        (List.subset_cons_self ..)
  case haltSup =>
    intro n s h hn
    refine ⟨_, rfl, ?_⟩
    rw [issue_acts h (by decide) (fun _ => by decide), haltCtx, if_neg (by omega), waitForever_issued]
    have hw := waiting_waitsFor (s := s) (n := n) (c := .endless) (r := 0) (v := 0)
    refine ⟨hw, waiting_intake, congrArg Host.Outcome.next ?_⟩
    exact (if_pos hw.2.1).trans (tryEnd_waits hw.1 rfl)
  case yield =>
    intro n s h
    refine ⟨_, rfl, ?_⟩
    rw [issue_acts h (by decide) (fun _ => by decide)]
    split
    · exact ⟨writesNone_of h rfl rfl rfl rfl rfl rfl rfl, by simp [State.setLane]⟩
    · exact ⟨writesNone h, issued_lanes⟩
  case nop =>
    intro n s h
    refine ⟨_, rfl, ?_⟩
    rw [issue_acts h (by decide) (fun _ => by decide)]
    exact ⟨writesNone h, issued_lanes, issued_intake, issued_flight⟩
  case idle =>
    intro i n op s hi hc hf hop hn hp ha
    obtain ⟨ho, act, hact⟩ := exec_issue hi
    refine ⟨_, hact s, ?_⟩
    rw [issue_idle hc hf hop ho hn hp ha]
    exact ⟨fall_issued_writesNone (canIssue_noWait hc), issued_intake, issued_flight⟩

/-- Settles O21: a jump that stays in the store sets the index alone, one that leaves it is a fault of a supervisor context; CALL
and LOOP push their entry before they jump, and RET pops its own before it falls through. -/
theorem branchesAndCalls : Obligations.BranchesAndCalls := by
  refine ⟨?br, ?brFar, ?brc, ?brcFalls, ?brcFar, ?callFar, ?call, ?callFull, ?ret, ?retEmpty, ?retHalts, ?loopSkips, ?loop,
    ?loopFull, ?loopBack⟩
  all_goals
    intros
    refine ⟨_, rfl, ?_⟩
    rw [issue_acts ‹State.Issues ..› (by decide) (fun _ => by decide)]
  case br n s _ hv =>
    rw [PWord.target, jump_near hv]
    exact setPc_frame hv issued_ctx issued_frame
  case brFar n s _ hn hv =>
    rw [PWord.target, jump_far hn hv]
    exact supFault_faults hn
  case brc n s _ hv hp =>
    rw [bits_1_0, issued_ctx, if_pos (bne_iff_ne.mpr hp), PWord.target, jump_near hv]
    exact setPc_frame hv issued_ctx issued_frame
  case brcFalls n s h hp =>
    rw [bits_1_0, issued_ctx, if_neg (by simp [hp])]
    exact writesNone h
  case brcFar n s _ hn hv hp =>
    rw [bits_1_0, issued_ctx, if_pos (bne_iff_ne.mpr hp), PWord.target, jump_far hn hv]
    exact supFault_faults hn
  case callFar n s _ hn hlen hv =>
    rw [issued_ctx, if_neg (by omega), PWord.target, if_pos ⟨hn, hv⟩]
    exact supFault_faults hn
  case call n s _ hv hlen =>
    rw [issued_ctx, if_neg (by omega), PWord.target, if_neg (by omega)]
    refine setPc_frame hv ?_ issued_frame.onCtx
    rw [onCtx_ctx, issued_ctx, issued_pc, List.take_of_length_le (by simpa using hlen)]
  case callFull n s _ hn hlen =>
    rw [issued_ctx, if_pos ⟨hn, hlen⟩]
    exact supFault_faults hn
  case ret n i rest s _ hret hi =>
    simp only [issued_ctx, hret]
    obtain ⟨hpc, hctx, hframe⟩ := setPc_frame (n := n) hi onCtx_ctx
      (issued_frame.onCtx (s := s) (g := fun k => { k with ret := rest }))
    rw [fall_pc, fall_ctx, hpc, hctx, issued_ctx]
    exact ⟨rfl, rfl, hframe.fall⟩
  case retEmpty n s _ hn hret =>
    simp only [issued_ctx, hret, if_neg (show ¬ n < 8 by omega)]
    exact supFault_faults hn
  case retHalts n s _ hn hret =>
    simp only [issued_ctx, hret, if_pos hn, haltCtx_lane hn]
    exact ⟨laneHalt_lst, laneHalt_goesOn⟩
  case loopSkips n s _ he hcount =>
    rw [issued_pc, if_neg (by omega), if_pos hcount]
    exact ⟨get_put_self, issued_ctx, issued_frame.put (by simp) (by decide)⟩
  case loop n s _ he hcount hlen =>
    rw [issued_pc, issued_ctx, if_neg (by omega), if_neg hcount, if_neg (by omega)]
    have hlt : bits (s.word n).imm 14 0 < 2 ^ 15 := Nat.mod_lt _ (by decide)
    refine setPc_frame (by omega) ?_ issued_frame.onCtx
    rw [onCtx_ctx, issued_ctx, List.take_of_length_le (by simpa using hlen)]
  case loopFull n s _ hn he hcount hlen =>
    rw [issued_pc, issued_ctx, if_neg (by omega), if_neg hcount, if_pos ⟨hn, hlen⟩]
    exact supFault_faults hn
  case loopBack n s _ hn he =>
    rw [issued_pc, if_pos ⟨hn, he⟩]
    exact supFault_faults hn

end Sys2Proof.Proofs.Instructions
/-! ## Waits and barriers (R223 to R225, R264 to R269) -/

namespace Sys2Proof.Machine

open Sys2Proof

variable {s t u : State} {n op v r k q o a tm m num mask code src d0 : Nat} {c : Cond} {act : PWord → State → State} {f : Fld}
  {i : Nat} {L : List FKey} {w : Wait}

/-! ### The end of a wait -/

theorem fall_get_lo (h : f.lo ≠ LANE_STAT.PC.lo) : (fall n s).get f i = s.get f i :=
  fall_get fun e => h (congrArg FKey.lo e)

/-- What a WAITE of context n that is met takes from its signals (R225). -/
def spendSig (n o : Nat) (c : Cond) (s : State) : State :=
  match c with
  | .sig mask => if o = 0 then s.put LANE_SIG.SIG n (s.get LANE_SIG.SIG n - Nat.land (s.sigSeen n) mask) else s
  | _ => s

/-- Context n runs on behind its wait, with the outcome o in its register r. -/
def runOn (n r o : Nat) (s : State) : State :=
  fall n ((((s.rested n).onCtx n (fun k => { k with wait := none })).setV n r o).setLst n 3)

theorem endWait_some (h : (s.ctx n).wait = some w) : endWait n o s = runOn n w.rd o (spendSig n o w.cond s) := by
  unfold endWait
  rw [h]
  rfl

theorem endWait_none (h : (s.ctx n).wait = none) : endWait n o s = s := by
  unfold endWait
  rw [h]

theorem spendSig_other (h : ∀ m, c ≠ .sig m) : spendSig n o c s = s := by
  cases c with
  | sig m => exact absurd rfl (h m)
  | _ => rfl

@[simp] theorem spendSig_ctx : (spendSig n o c s).ctx k = s.ctx k := by
  unfold spendSig
  split
  · split <;> rfl
  · rfl

theorem spendSig_get (h : f.reg ≠ .LANE_SIG) : (spendSig n o c s).get f i = s.get f i := by
  unfold spendSig
  split
  · split
    · exact get_put_reg h
    · rfl
  · rfl

theorem spendSig_block : SameBlock s (spendSig n o c s) := by
  unfold spendSig
  split
  · split
    · exact SameBlock.refl.put
    · exact .refl
  · exact .refl

theorem runOn_ctx : (runOn n r o s).ctx n =
    { (s.ctx n).setV r o with wait := none, loops := (fallLoops (s.pc n) (s.ctx n).loops).2 } := by
  simp only [runOn, fall_ctx, setLst_ctx, setLst_pc, setV_ctx, setV_pc, onCtx_ctx, onCtx_pc, rested_ctx, rested_pc, Ctx.setV]

theorem GoesOn.of_same (h : GoesOn n u t) (hp : u.pc n = s.pc n) (hl : (u.ctx n).loops = (s.ctx n).loops)
    (hr : (u.ctx n).ret = (s.ctx n).ret) : GoesOn n s t := by
  obtain ⟨hpc, hloops, hret, hwait⟩ := h
  exact ⟨by rw [hpc, hp, hl], by rw [hloops, hp, hl], hret.trans hr, hwait⟩

theorem runOn_goesOn : GoesOn n s (runOn n r o s) := by
  refine ⟨?_, ?_, ?_, ?_⟩
  · rw [runOn, fall_pc, setLst_pc, setLst_ctx, setV_pc, setV_ctx, onCtx_pc, onCtx_ctx]; rfl
  all_goals rw [runOn_ctx]
  rfl

theorem runOn_vreg (hk : k < 16) (hr : r < 16) : (runOn n r o s).vreg n k = if k = r then o % 2 ^ 32 else s.vreg n k := by
  rw [runOn, fall_vreg, setLst_vreg, setV_vreg hk hr]
  simp only [State.vreg, onCtx_ctx, rested_ctx, Ctx.v]

theorem runOn_lst : (runOn n r o s).lst n = 3 := by
  rw [State.lst, runOn, fall_get_lo (by decide)]
  exact get_put_self

theorem SameCtxs.rested {ls : List Nat} (h : SameCtxs ls s t) : SameCtxs ls s (t.rested n) := h.congr rfl
theorem SameCtxs.onCtx {ls : List Nat} {g : Ctx → Ctx} (h : SameCtxs ls s t) (hn : n ∈ ls) : SameCtxs ls s (t.onCtx n g) :=
  h.setCtx hn
theorem SameCtxs.setV {ls : List Nat} (h : SameCtxs ls s t) (hn : n ∈ ls) : SameCtxs ls s (t.setV n r v) := h.onCtx hn
theorem SameCtxs.setLst {ls : List Nat} (h : SameCtxs ls s t) : SameCtxs ls s (t.setLst n v) := h.put
theorem SameCtxs.fall {ls : List Nat} (h : SameCtxs ls s t) (hn : n ∈ ls) : SameCtxs ls s (Machine.fall n t) := (h.setCtx hn).put
theorem SameBlock.onCtx {g : Ctx → Ctx} (h : SameBlock s t) : SameBlock s (t.onCtx n g) := h.setCtx
theorem SameBlock.setV (h : SameBlock s t) : SameBlock s (t.setV n r v) := h.onCtx
theorem SameBlock.setLst (h : SameBlock s t) : SameBlock s (t.setLst n v) := h.put

theorem runOn_sameRegs (h : SameRegs L s t) (h1 : LANE_STAT.STATE.key n ∈ L) (h2 : LANE_STAT.PC.key n ∈ L) :
    SameRegs L s (runOn n r o t) :=
  (((h.congr (u := (((t.rested n).onCtx n (fun k => { k with wait := none })).setV n r o)) rfl rfl).put h1).setCtx).put h2

theorem runOn_sameCtxs : SameCtxs [n] s (runOn n r o s) :=
  (((SameCtxs.refl.rested.onCtx (by simp)).setV (by simp)).setLst).fall (by simp)

theorem runOn_block (h : SameBlock s t) : SameBlock s (runOn n r o t) :=
  h.rested.onCtx.setV.setLst.fall

theorem runOn_frame (h : IssueFrame n L s t) (hL : LANE_STAT.STATE.key n ∈ L) : IssueFrame n L s (runOn n r o t) :=
  ((((h.congr (u := t.rested n) rfl rfl rfl rfl rfl rfl rfl).onCtx).setV).put (List.mem_append_right _ hL) (by decide)).fall

/-- A context that runs before and after has its STATE as it was. -/
theorem IssueFrame.stateBack (h : IssueFrame n (LANE_STAT.STATE.key n :: L) s t) (h1 : s.lst n = 3) (h2 : t.lst n = 3) :
    IssueFrame n L s t := by
  refine ⟨fun f i hf => ?_, h.2⟩
  by_cases e : f.key i = LANE_STAT.STATE.key n
  · exact get_of_lst h1 h2 e
  · exact h.1 f i (by simpa [e] using hf)

/-- A wait that WAIT_END finds met, of no barrier and no signal. -/
theorem exec_waitEnd_met (hst : s.lst n = 4) (hw : (s.ctx n).wait = some ⟨c, r, a, tm⟩) (hc : ∀ m k, c ≠ .barl m k)
    (hs : ∀ m, c ≠ .sig m) (ho : s.outcome n c = some o) : exec (.waitEnd n) s = .next (runOn n r o s) :=
  congrArg Host.Outcome.next ((if_pos hst).trans (tryEnd_met hw hc hs ho))

/-- A wait that WAIT_END finds unmet after its timeout has run out (R223). -/
theorem exec_waitEnd_late (hst : s.lst n = 4) (hw : (s.ctx n).wait = some ⟨c, r, a, tm⟩) (hs : ∀ m, c ≠ .sig m)
    (ho : s.outcome n c = none) (h0 : tm ≠ 0) (ht : a + 4 * tm ≤ s.now) : exec (.waitEnd n) s = .next (runOn n r 1 s) := by
  refine congrArg Host.Outcome.next ((if_pos hst).trans ?_)
  simp only [tryEnd, hw, ho, timeOut]
  rw [if_pos ⟨h0, by omega⟩, endWait_some hw, spendSig_other hs]

theorem exec_waitEnd_none (h : (s.ctx n).wait = none) : exec (.waitEnd n) s = .next s := by
  have hnone : tryEnd n s = s := by
    unfold tryEnd
    rw [h]
  exact congrArg Host.Outcome.next ((congrArg (ite (s.lst n = 4) · s) hnone).trans (ite_self s))

/-- What the end of a wait shows: its outcome, a lane that runs, and nothing else. -/
theorem runOn_ends (hr : r < 16) : GoesOn n s (runOn n r o s) ∧ (runOn n r o s).vreg n r = o % 2 ^ 32 ∧
    (runOn n r o s).lst n = 3 ∧
    SameRegs [LANE_STAT.STATE.key n, LANE_STAT.PC.key n] s (runOn n r o s) ∧ SameCtxs [n] s (runOn n r o s) ∧
    SameBlock s (runOn n r o s) :=
  ⟨runOn_goesOn, (runOn_vreg hr hr).trans (if_pos rfl), runOn_lst, runOn_sameRegs .refl (by simp) (by simp), runOn_sameCtxs,
    runOn_block .refl⟩

/-! ### Waits met at once or begun -/

theorem outcome_arrive {g : Nat} {y : Nat} : s.outcome n (.arrive y g) =
    if sgn 32 (unsg 32 ((s.get FCW_ARRIVALS.ARRIVALS y : Int) - g)) < 0 then none else some 0 := by
  simp only [State.outcome, ← not_lt, ite_not]

/-! ### WAITE (R225, R269) -/

/-- Of the bits of a mask none is left in a word that has lost them. -/
theorem sub_land_land (x m : Nat) : (x - (x &&& m)) &&& m = 0 := by
  induction x using Nat.strongRecOn generalizing m with
  | ind x ih =>
    rcases Nat.eq_zero_or_pos x with rfl | hx
    · simp
    · have hle : x &&& m ≤ x := Nat.and_le_left
      have hdiv : (x &&& m) / 2 = x / 2 &&& m / 2 := Nat.and_div_two
      have hmod : (x &&& m) % 2 = 1 ↔ x % 2 = 1 ∧ m % 2 = 1 := Nat.and_mod_two_eq_one
      have hhigh : ((x - (x &&& m)) &&& m) / 2 = 0 := by
        rw [Nat.and_div_two, show (x - (x &&& m)) / 2 = x / 2 - (x / 2 &&& m / 2) by omega]
        exact ih (x / 2) (by omega) (m / 2)
      have hlow : ¬ ((x - (x &&& m)) &&& m) % 2 = 1 := by
        rw [Nat.and_mod_two_eq_one]
        omega
      omega

/-- A WAITE sees the signals of the cycle in which it issues (R225). -/
theorem waiting_sigSeen : (s.waiting n c r v).sigSeen n = s.get LANE_SIG.SIG n := by
  simp only [State.sigSeen, waiting_waitsFor.1, waiting_now, if_true]
  exact waiting_get (by decide) (by simp [Fld.key, LANE_SIG.SIG, LANE_STAT.STATE])

/-- A WAITE for bits that are set runs on, and the bits are spent. -/
theorem beginWait_sig (hsig : Nat.land (s.get LANE_SIG.SIG n) mask ≠ 0) :
    beginWait n (.sig mask) r v (s.issued n) = runOn n r 0 (spendSig n 0 (.sig mask) (s.waiting n (.sig mask) r v)) := by
  have hout : (s.waiting n (.sig mask) r v).outcome n (.sig mask) = some 0 := by
    rw [State.outcome, waiting_sigSeen]
    exact if_pos hsig
  have hwait : ((s.waiting n (.sig mask) r v).ctx n).wait = some ⟨.sig mask, r, s.now, v⟩ := waiting_waitsFor.1
  rw [beginWait_eq, hout]
  simp only [tryEnd, hwait, hout]
  rw [endWait_some hwait]

theorem spendSig_sig : spendSig n 0 (.sig mask) s =
    s.put LANE_SIG.SIG n (s.get LANE_SIG.SIG n - Nat.land (s.sigSeen n) mask) := by
  simp only [spendSig, if_true]

theorem runOn_get (h : f.reg ≠ .LANE_STAT) : (runOn n r o s).get f i = s.get f i := by
  rw [runOn, fall_get_reg h, State.setLst, get_put_reg h]
  rfl

/-- The signals of a WAITE that is met hold no bit of its mask. -/
theorem spent_land : Nat.land ((spendSig n 0 (.sig mask) (s.waiting n c r v)).get LANE_SIG.SIG n) mask = 0 := by
  have hget : (s.waiting n c r v).get LANE_SIG.SIG n = s.get LANE_SIG.SIG n :=
    waiting_get (by decide) (by simp [Fld.key, LANE_SIG.SIG, LANE_STAT.STATE])
  rw [spendSig_sig, get_put_self, waiting_sigSeen, hget]
  show ((_ - (_ &&& _)) % _) &&& mask = 0
  rw [← Nat.and_two_pow_sub_one_eq_mod, Nat.and_right_comm, sub_land_land, Nat.zero_and]

/-- What a WAITE that is met leaves. -/
theorem spent_frame (h : s.lst n = 3) :
    IssueFrame n [LANE_SIG.SIG.key n] s (runOn n r 0 (spendSig n 0 (.sig mask) (s.waiting n c k v))) := by
  have hF : IssueFrame n [LANE_STAT.STATE.key n, LANE_SIG.SIG.key n] s (spendSig n 0 (.sig mask) (s.waiting n c k v)) := by
    obtain ⟨-, -, -, -, -, -, -, hwaiting⟩ := waiting_waitsFor (s := s) (n := n) (c := c) (r := k) (v := v)
    rw [spendSig_sig]
    exact (hwaiting.mono (by simp)).put (by simp) (by decide)
  exact (runOn_frame hF (by simp)).stateBack h runOn_lst

/-! ### BARL (R266) -/

theorem mem_joined : k ∈ s.joined num ↔
    k < 8 ∧ s.lst k = 4 ∧ ∃ mask r a tm, (s.ctx k).wait = some ⟨.barl mask num, r, a, tm⟩ := by
  simp only [State.joined, List.mem_filter, List.mem_range, Bool.and_eq_true, beq_iff_eq]
  refine and_congr_right fun _ => and_congr_right fun _ => ⟨fun h => ?_, ?_⟩
  · split at h
    · next m x r a tm hw =>
      obtain rfl := beq_iff_eq.mp h
      exact ⟨m, r, a, tm, hw⟩
    · cases h
  · rintro ⟨m, r, a, tm, hw⟩
    simp only [hw, beq_self_eq_true]

theorem barMet_iff : s.barMet mask num = true ↔ ∀ j, j < 8 → bitAt mask j = true → j ∈ s.joined num := by
  simp only [State.barMet, List.all_eq_true, List.contains_iff_mem, mem_maskList, and_imp]

/-- The lanes joined to a number whose own condition holds. -/
def State.releases (s : State) (num : Nat) : List Nat :=
  (s.joined num).filter fun n => match (s.ctx n).wait with
    | some ⟨.barl mask _, _, _, _⟩ => s.barMet mask num
    | _ => false

theorem endBarrier_eq : endBarrier num s = forAll (s.releases num) (fun s n => endWait n 0 s) s := rfl

theorem mem_releases (hw : (s.ctx k).wait = some ⟨.barl mask num, r, a, tm⟩) :
    k ∈ s.releases num ↔ k ∈ s.joined num ∧ s.barMet mask num = true := by
  simp only [State.releases, List.mem_filter, hw]

theorem releases_nodup : (s.releases num).Nodup := (List.nodup_range.filter _).filter _

/-- From s to t context q is as it was, at its index, in its state. -/
def SameLane (q : Nat) (s t : State) : Prop := t.ctx q = s.ctx q ∧ t.lst q = s.lst q ∧ t.pc q = s.pc q

theorem SameLane.trans (h : SameLane q s t) (h' : SameLane q t u) : SameLane q s u :=
  ⟨h'.1.trans h.1, h'.2.1.trans h.2.1, h'.2.2.trans h.2.2⟩

/-- The end of a wait of context n leaves every other context. -/
theorem endWait_sameLane (h : q ≠ n) : SameLane q s (endWait n o s) := by
  cases hw : (s.ctx n).wait with
  | none => rw [endWait_none hw]; exact ⟨rfl, rfl, rfl⟩
  | some w =>
    rw [endWait_some hw]
    have hregs : SameRegs [LANE_STAT.STATE.key n, LANE_STAT.PC.key n] (spendSig n o w.cond s)
        (runOn n w.rd o (spendSig n o w.cond s)) := runOn_sameRegs .refl (by simp) (by simp)
    refine ⟨(runOn_sameCtxs q (by simpa using h)).trans spendSig_ctx, ?_, ?_⟩
    all_goals exact (hregs _ _ (by simp [Fld.key, h])).trans (spendSig_get (by decide))

theorem endWait_block (h : SameBlock s t) : SameBlock s (endWait n o t) := by
  cases hw : (t.ctx n).wait with
  | none => rwa [endWait_none hw]
  | some w => rw [endWait_some hw]; exact runOn_block (h.trans spendSig_block)

theorem endBarrier_block : SameBlock s (endBarrier num s) := by
  rw [endBarrier_eq]
  exact forAll_keeps (P := SameBlock s) (fun _ _ _ h => endWait_block h) .refl

/-- A lane whose condition holds is released with the outcome MET. -/
theorem endBarrier_releases (h : q ∈ s.releases num) (hw : (s.ctx q).wait = some ⟨.barl mask num, r, a, tm⟩) (hr : r < 16) :
    ((endBarrier num s).ctx q).wait = none ∧ (endBarrier num s).lst q = 3 ∧ (endBarrier num s).vreg q r = 0 := by
  obtain ⟨u, ⟨hctx, -, -⟩, hctx', hlst', -⟩ := forAll_reaches (R := SameLane) (s := s) (q := q)
    (F := fun s n => endWait n 0 s) (fun _ _ => ⟨rfl, rfl, rfl⟩) (fun _ _ _ _ h h' => h.trans h')
    (fun _ _ _ _ _ hne => endWait_sameLane hne) releases_nodup h
  have hend : endWait q 0 u = runOn q r 0 u := by
    rw [endWait_some (hctx ▸ hw), spendSig_other (by simp)]
  rw [endBarrier_eq, State.vreg, hctx', hlst', hend]
  exact ⟨by rw [runOn_ctx], runOn_lst, (runOn_vreg hr hr).trans (if_pos rfl)⟩

/-- A lane whose condition does not hold waits on. -/
theorem endBarrier_keeps (h : q ∉ s.releases num) : SameLane q s (endBarrier num s) := by
  rw [endBarrier_eq]
  exact forAll_keeps (P := SameLane q s)
    (fun _ _ hk hx => hx.trans (endWait_sameLane fun e => h (e ▸ hk))) ⟨rfl, rfl, rfl⟩

section
variable (h : s.Issues n 0x34) (hn : n < 8)
include h hn

/-- The state in which the joining of lane n is judged. -/
theorem exec_barl : exec (.barl n) s = .next (endBarrier (bits (s.word n).imm 23 20) (s.waiting n
    (.barl (bits (s.word n).imm 31 24) (bits (s.word n).imm 23 20)) (s.word n).rd (bits (s.word n).imm 19 0))) := by
  show Host.Outcome.next (issue n 0x34 _ s) = _
  rw [issue_acts h (by decide) (fun _ => by decide), if_neg (by omega)]
  simp only [State.waiting, issued_now]
end

/-- The joining of lane n changes the contexts and states of no other lane. -/
theorem waiting_sameLane (h : q ≠ n) : SameLane q s (s.waiting n c r v) := by
  obtain ⟨-, -, -, -, -, -, -, hregs, -, hctxs, -⟩ := waiting_waitsFor (s := s) (n := n) (c := c) (r := r) (v := v)
  refine ⟨hctxs q (by simpa using h), ?_, ?_⟩ <;>
    exact waiting_get (by decide) (by simp [Fld.key, h, LANE_STAT.PC, LANE_STAT.STATE])

theorem waiting_block : SameBlock s (s.waiting n c r v) := issued_block.onCtx.setLst

/-- Joined to a number are the lane that has just joined it, and those that were. -/
theorem mem_joined_waiting (hn : n < 8) : k ∈ (s.waiting n (.barl mask num) r v).joined num ↔ k = n ∨ k ∈ s.joined num := by
  obtain ⟨hwait, hlst, -⟩ := waiting_waitsFor (s := s) (n := n) (c := .barl mask num) (r := r) (v := v)
  by_cases hk : k = n
  · subst hk
    exact iff_of_true (mem_joined.mpr ⟨hn, hlst, _, _, _, _, hwait⟩) (.inl rfl)
  · obtain ⟨hctx, hst, -⟩ := waiting_sameLane (s := s) (c := .barl mask num) (r := r) (v := v) hk
    rw [mem_joined, mem_joined, hctx, hst]
    simp only [hk, false_or]

/-- The condition of a barrier of which lane n was the last to join. -/
theorem barMet_waiting (hn : n < 8) (h : ∀ j, j < 8 → bitAt m j = true → j ≠ n → j ∈ s.joined num) :
    (s.waiting n (.barl mask num) r v).barMet m num = true :=
  barMet_iff.mpr fun j hj hbit => (mem_joined_waiting hn).mpr ((em (j = n)).imp_right (h j hj hbit))

/-! ### MARKQ and the refusals of supervisor contexts -/

/-- An instruction that writes register r and goes on, in a state with the registers and the frame of the issue's. -/
theorem writesReg_of (h : s.Issues n op) (hr : r < 16) (h1 : t.fld = (s.issued n).fld) (h2 : t.fuse = (s.issued n).fuse)
    (h3 : t.ctxs = (s.issued n).ctxs) (h4 : t.phases = (s.issued n).phases) (h5 : t.crews = (s.issued n).crews)
    (h6 : t.mem = (s.issued n).mem) (h7 : t.flash = (s.issued n).flash) : WritesReg n r v s (fall n (t.setV n r v)) := by
  have hc : t.ctx n = s.ctx n := by simpa [State.ctx, h3] using issued_ctx (s := s) (n := n) (k := n)
  have hp : t.pc n = s.pc n := (get_congr h1 h2).trans issued_pc
  refine ⟨goesOn hp (by simp [hc, Ctx.setV]) (by simp [hc, Ctx.setV]) (by simp [hc, Ctx.setV, h.wait]), ?_, fun k hk hne => ?_,
    by simp [hc, Ctx.setV], (issued_frame.congr h1 h2 h3 h4 h5 h6 h7).setV.fall⟩
  · rw [fall_vreg, setV_vreg hr hr, if_pos rfl]
  · rw [fall_vreg, setV_vreg hk hr, if_neg hne, State.vreg, hc, State.vreg]

/-- The pair that a field of four bits names lies in the registers. -/
theorem pairOf_lt (hr : r < 16) : pairOf r + 1 < 16 := by
  unfold pairOf
  omega

theorem setV_setV_vreg (hk : k < 16) (hr : r + 1 < 16) : ((s.setV n r v).setV n (r + 1) o).vreg n k =
    if k = r + 1 then o % 2 ^ 32 else if k = r then v % 2 ^ 32 else s.vreg n k := by
  rw [setV_vreg hk hr, setV_vreg hk (by omega)]

end Sys2Proof.Machine

namespace Sys2Proof.Proofs.Instructions

open Sys2Proof Sys2Proof.Machine

/-- Settles O22: a wait is met at once or begun by its outcome at the issue (`issue_waits`); a met WAITE spends its signals; the
joining of a barrier releases the lanes whose conditions then hold, each as if it were the only one (`endBarrier_releases`). -/
theorem waitsMarksAndBarriers : Obligations.WaitsMarksAndBarriers := by
  refine ⟨?waitt, ?waitm, ?waits, ?waita, ?waite, ?waiteMet, ?markq, fun n s => exec_waitEnd_none, ?markEnds, ?arriveLate,
    ?barlMet, ?barlWaits, ?barlSup⟩
  case waitt =>
    intro n s h
    cases hsel : s.selected n (s.word n) with
    | none =>
      refine ⟨_, rfl, ?_⟩
      rw [issue_acts h (by decide) (fun _ => by decide), issued_selected, hsel]
      exact writesReg h word_rd_lt
    | some st =>
      refine ⟨_, rfl, ?_⟩
      rw [issue_acts h (by decide) (fun _ => by decide), issued_selected, hsel]
      by_cases hr : s.reached st = true
      · simp only [if_pos hr]
        exact beginWait_met h word_rd_lt (by simp) (by simp) (if_pos hr)
      · simp only [if_neg hr]
        exact beginWait_waits h.wait (by simp) (if_neg hr)
  case waitm =>
    intro n s h
    refine ⟨_, rfl, ?_⟩
    rw [issue_acts h (by decide) (fun _ => by decide), issued_markNo, issued_vreg]
    generalize ((if bitAt (s.word n).unit 0 = true then s.markNo else s.vreg n (s.word n).rs) + (s.word n).imm) % 2 ^ 32 = m
    dsimp only
    split
    · next hm => exact beginWait_waits h.wait (by simp) (if_pos hm)
    · next hm => exact beginWait_met h word_rd_lt (by simp) (by simp) (if_neg hm)
  case waits =>
    intro n s h
    refine ⟨_, rfl, ?_⟩
    rw [issue_acts h (by decide) (fun _ => by decide)]
    cases htrack : s.trackOf n (s.word n).unit with
    | none => exact beginWait_met h word_rd_lt (by simp) (by simp) (by simp only [State.outcome, htrack])
    | some k =>
      by_cases hsup : k.superseded = true
      · simp only [if_pos hsup]
        exact beginWait_met h word_rd_lt (by simp) (by simp) (by simp only [State.outcome, htrack, if_pos hsup])
      · by_cases hdone : k.waiting = []
        · simp only [if_neg hsup, if_pos hdone]
          exact beginWait_met h word_rd_lt (by simp) (by simp)
            (by simp only [State.outcome, htrack, if_neg hsup, if_pos hdone])
        · simp only [if_neg hsup, if_neg hdone]
          exact beginWait_waits h.wait (by simp) (by simp only [State.outcome, htrack, if_neg hsup, if_neg hdone])
  case waita =>
    intro n s h
    refine ⟨_, rfl, ?_⟩
    rw [issue_acts h (by decide) (fun _ => by decide), issued_vreg]
    split
    · next hlow => exact beginWait_waits h.wait (by simp) (outcome_arrive.trans (if_pos hlow))
    · next hlow => exact beginWait_met h word_rd_lt (by simp) (by simp) (outcome_arrive.trans (if_neg hlow))
  case waite =>
    intro n s h hsig
    refine ⟨_, rfl, ?_⟩
    rw [issue_acts h (by decide) (fun _ => by decide)]
    refine beginWait_waits h.wait (by simp) ?_
    simp only [State.outcome, State.sigSeen, h.wait, hsig, ne_eq, not_true, if_false]
  case waiteMet =>
    intro n s h hsig
    refine ⟨_, rfl, ?_⟩
    rw [issue_acts h (by decide) (fun _ => by decide), beginWait_sig hsig]
    obtain ⟨-, -, hpc, -, -, hloops, hret, -⟩ := waiting_waitsFor (s := s) (n := n)
      (c := .sig (bits (s.word n).imm 31 20)) (r := (s.word n).rd) (v := bits (s.word n).imm 19 0)
    refine ⟨?_, (runOn_vreg word_rd_lt word_rd_lt).trans (if_pos rfl), spent_frame h.running, ?_, runOn_lst.trans h.running.symm⟩
    · refine runOn_goesOn.of_same ((spendSig_get (by decide)).trans hpc) ?_ ?_ <;> rwa [spendSig_ctx]
    · rw [runOn_get (by decide)]
      exact spent_land
  case markq =>
    intro n s h
    refine ⟨_, rfl, ?_⟩
    rw [issue_acts h (by decide) (fun _ => by decide)]
    have hpair := pairOf_lt (word_rd_lt (s := s) (n := n))
    refine ⟨goesOn (by simp) (by simp [Ctx.setV]) (by simp [Ctx.setV]) (by simpa [Ctx.setV] using h.wait),
      issued_frame.setV.setV.fall, ?_, ?_, fun k hk h1 h2 => ?_⟩
    · rw [fall_vreg, setV_setV_vreg (by omega) hpair, if_neg (by omega), if_pos rfl, issued_markNo]
    · rw [fall_vreg, setV_setV_vreg hpair hpair, if_pos rfl, issued_ticks]
    · rw [fall_vreg, setV_setV_vreg hk hpair, if_neg h2, if_neg h1, issued_vreg]
  case markEnds =>
    intro n m r at_ tm s hst hr hw hm
    refine ⟨_, exec_waitEnd_met (o := 0) hst hw (by simp) (by simp) (by simp [State.outcome, hm]), ?_⟩
    exact runOn_ends hr
  case arriveLate =>
    intro n w g r at_ tm s hst hr hw hlow h0 ht
    refine ⟨_, exec_waitEnd_late hst hw (by simp) (outcome_arrive.trans (if_pos hlow)) h0 ht, ?_⟩
    exact runOn_ends hr
  case barlMet =>
    intro n s h hn hall
    refine ⟨_, exec_barl h hn, ?_⟩
    obtain ⟨hwait, -⟩ := waiting_waitsFor (s := s) (n := n) (r := (s.word n).rd) (v := bits (s.word n).imm 19 0)
      (c := .barl (bits (s.word n).imm 31 24) (bits (s.word n).imm 23 20))
    have hjoins := (mem_releases hwait).mpr ⟨(mem_joined_waiting hn).mpr (.inl rfl), barMet_waiting hn hall⟩
    obtain ⟨hnone, hrun, hout⟩ := endBarrier_releases hjoins hwait word_rd_lt
    refine ⟨hnone, hrun, hout, fun k m r at_ tm hk hne hst hw hm hr => ?_, waiting_block.trans endBarrier_block⟩
    rw [← (waiting_sameLane hne).1] at hw
    obtain ⟨hnone', -, hout'⟩ := endBarrier_releases ((mem_releases hw).mpr ⟨(mem_joined_waiting hn).mpr
      (.inr (mem_joined.mpr ⟨hk, hst, _, _, _, _, (waiting_sameLane hne).1 ▸ hw⟩)), barMet_waiting hn hm⟩) hw hr
    exact ⟨hnone', hout'⟩
  case barlWaits =>
    intro n k s h hn hk hbit hne hnot
    refine ⟨_, exec_barl h hn, ?_⟩
    obtain ⟨hwait, hst, hpc, -⟩ := waiting_waitsFor (s := s) (n := n) (r := (s.word n).rd) (v := bits (s.word n).imm 19 0)
      (c := .barl (bits (s.word n).imm 31 24) (bits (s.word n).imm 23 20))
    have hstays : n ∉ State.releases _ (bits (s.word n).imm 23 20) := fun hmem =>
      ((mem_joined_waiting hn).mp (barMet_iff.mp ((mem_releases hwait).mp hmem).2 k hk hbit)).elim hne hnot
    obtain ⟨hctx, hst', hpc'⟩ := endBarrier_keeps hstays
    exact ⟨by rw [hctx]; exact hwait, hst'.trans hst, hpc'.trans hpc, waiting_block.trans endBarrier_block⟩
  case barlSup =>
    intro n s h hn hroom
    refine ⟨_, rfl, ?_⟩
    rw [issue_acts h (by decide) (fun _ => by decide), if_pos hn, laneOnlyWait, supRefused, raise_issued hroom (by decide),
      issued_pc]
    exact ⟨writesReg_of h word_rd_lt rfl rfl rfl rfl rfl rfl rfl, rfl⟩

end Sys2Proof.Proofs.Instructions
/-! ## Telemetry reads, CAPQ and EVT (R262, R263, R272, R275) -/

namespace Sys2Proof.Machine

open Sys2Proof

variable {s t : State} {n op v r k c u sel a tm : Nat} {e : Event} {g : Ctx → Ctx} {rest : List (Nat × Nat)}

/-! ### What an instruction reads in the state that counts its issue -/

/-- A lane's issue counter is all that the issue changes among the registers. -/
theorem issued_sameRegs : SameRegs [LANE_ISSUE_CNT.ISSUED.key n] s (s.issued n) := by
  unfold State.issued
  dsimp only
  split
  · exact SameRegs.bump (fun _ _ _ => rfl) (by simp)
  · exact fun _ _ _ => rfl

@[simp] theorem issued_snap : (s.issued n).snap c = s.snap c := by rw [State.snap, issued_snapDone, State.snap]

@[simp] theorem issued_estMode : (s.issued n).estMode = s.estMode := by
  obtain ⟨l, e, y, h⟩ := issued_eq (s := s) (n := n)
  have hactive : (s.issued n).estActive = s.estActive := by rw [h]
  simp (disch := decide) only [State.estMode, State.notConv, State.flag, issued_get, issued_crew, hactive]

@[simp] theorem issued_estOf : (s.issued n).estOf u = s.estOf u := by
  obtain ⟨l, e, y, h⟩ := issued_eq (s := s) (n := n)
  have hcal : (s.issued n).estCal = s.estCal := by rw [h]
  simp (disch := decide) only [State.estOf, State.crewMeas, issued_leafCrews, issued_get, hcal, issued_estMode]

@[simp] theorem issued_capq : (s.issued n).capq sel u = s.capq sel u := by
  simp (disch := decide) only [State.capq, issued_get, issued_estMode, issued_estOf]

/-- The first four selectors of CAPQ are the allocation and the margins below the three limits; the rest have a rule each. -/
theorem capq_eq : s.capq sel u = match sel with
    | 0 => s.get CAP_VALS.VALUE 1
    | 1 => unsg 32 ((s.get CAP_LIM.LIMIT 0 : Int) - s.get CAP_VALS.VALUE 1)
    | 2 => unsg 32 ((s.get CAP_LIM.LIMIT 1 : Int) - s.get CAP_VALS.VALUE 2)
    | 3 => unsg 32 ((s.get CAP_LIM.LIMIT 2 : Int) - s.get CAP_VALS.VALUE 3)
    | k => s.capq k u := by
  split <;> rfl

/-! ### The snapshot of a crew (R262) -/

/-- What selector sel names in the last complete snapshot of crew c. -/
def State.crewReading (s : State) (c sel : Nat) : Nat :=
  match sel with
  | 0 => if (s.snap c).state ∈ [0, 1, 5, 6, 8, 9] then 0 else (s.snap c).current
  | 1 => if (s.snap c).noData then 0 else (roundOpen ((125 * (s.snap c).volt : Nat) : Int) 2).toNat
  | 2 => if (s.snap c).noData then 0 else (roundOpen ((125 * (s.snap c).volt : Nat) : Int) 2).toNat
  | 3 => unsg 32 (s.snap c).temp
  | 4 => if (s.snap c).faultAny then (s.snap c).fault else 2 ^ 31
  | 5 => (s.snap c).phases
  | 6 => s.get DESC_W3.CONT_RATING (0x600 + c)
  | _ => 0

/-- The record of a crew's unit is the crew's own. -/
theorem unitRec_crew (hc : c < 192) : s.unitRec (0x600 + c) = (s.snap c).leaf (0x600 + c)
    (if (s.snap c).state ∈ [0, 1, 5, 6, 8, 9] then 0 else (s.snap c).current) (s.snap c).phases false := by
  rw [State.unitRec, State.unitRecN, if_neg (by omega), if_pos (by omega), Nat.add_sub_cancel_left]

/-- A crew without data reads as 0 µV. -/
theorem microvolts_noData {y : Nat} {b : Bool} : (roundOpen ((125 * (if b = true then 0 else y) : Nat) : Int) 2).toNat =
    if b = true then 0 else (roundOpen ((125 * y : Nat) : Int) 2).toNat := by
  split
  · rfl
  · rfl

theorem rdtValue_crew (hc : c < 192) : s.rdtValue (0x600 + c) sel = s.crewReading c sel := by
  unfold State.rdtValue State.crewReading
  rw [unitRec_crew hc]
  simp only [Snap.leaf, microvolts_noData]
  rfl

/-! ### An answer to an urgent RDT (R263) -/

/-- The stall of context n ends with v in its register r, and the other answers stay. -/
def rdtEnd (n r v : Nat) (rest : List (Nat × Nat)) (s : State) : State :=
  fall n (((({ s with rdtAns := rest }).unstalled n).onCtx n (fun k => { k with wait := none, stopPend := false })).setV n r v)

/-- An answer ends the stall of a context that no STOP waits for. -/
theorem exec_rdtResult (hans : s.rdtAns = (n, v) :: rest) (hw : (s.ctx n).wait = some ⟨.rdt, r, a, tm⟩)
    (hstop : (s.ctx n).stopPend = false) : exec .rdtResult s = .next (rdtEnd n r v rest s) := by
  show execRdtResult s = _
  have hctx : ({ s with rdtAns := rest } : State).ctx n = s.ctx n := rfl
  simp only [execRdtResult, hans, hctx, hw, hstop, Bool.false_eq_true, false_and, if_false]
  rfl

theorem rdtEnd_ctx : (rdtEnd n r v rest s).ctx n = { (s.ctx n).setV r v with
    loops := (fallLoops (s.pc n) (s.ctx n).loops).2, wait := none, stopPend := false } := by
  rw [rdtEnd, fall_ctx, setV_ctx, onCtx_ctx]
  rfl

theorem rdtEnd_goesOn : GoesOn n s (rdtEnd n r v rest s) := by
  refine ⟨?_, ?_, ?_, ?_⟩
  · rw [rdtEnd, fall_pc, setV_ctx, onCtx_ctx]
    rfl
  · rw [rdtEnd_ctx]
  · rw [rdtEnd_ctx]; rfl
  · rw [rdtEnd_ctx]

theorem rdtEnd_vreg (hk : k < 16) (hr : r < 16) : (rdtEnd n r v rest s).vreg n k = if k = r then v % 2 ^ 32 else s.vreg n k := by
  rw [rdtEnd, fall_vreg, setV_vreg hk hr]
  refine ite_congr rfl (fun _ => rfl) fun _ => ?_
  rw [State.vreg, onCtx_ctx]
  rfl

theorem rdtEnd_regs : SameRegs [LANE_STAT.PC.key n] s (rdtEnd n r v rest s) :=
  fun _ _ hf => fall_get (List.mem_singleton.not.mp hf)

theorem rdtEnd_ctxs : SameCtxs [n] s (rdtEnd n r v rest s) :=
  ((SameCtxs.onCtx (t := State.unstalled { s with rdtAns := rest } n) (fun _ _ => rfl) (by simp)).setV (by simp)).fall (by simp)

theorem rdtEnd_block : SameBlock s (rdtEnd n r v rest s) :=
  ((SameBlock.refl.congr rfl rfl rfl rfl : SameBlock s (State.unstalled { s with rdtAns := rest } n)).onCtx.setV).fall

/-! ### Recorded events of programs (R275) -/

/-- An instruction that leaves its context what programs read of it. -/
theorem setCtx_writesNone {x : Ctx} (h : s.Issues n op) (hregs : x.regs = (s.ctx n).regs) (hpreds : x.preds = (s.ctx n).preds)
    (hloops : x.loops = (s.ctx n).loops) (hret : x.ret = (s.ctx n).ret) (hw : x.wait = (s.ctx n).wait) :
    WritesNone n s (fall n ((s.issued n).setCtx n x)) := by
  refine ⟨goesOn issued_pc ?_ ?_ ?_, fun k _ => ?_, ?_, issued_frame.setCtx.fall⟩
  · rw [setCtx_ctx_self, hloops]
  · rw [setCtx_ctx_self, hret]
  · rw [setCtx_ctx_self, hw, h.wait]
  · rw [fall_vreg, State.vreg, setCtx_ctx_self, Ctx.v, hregs, State.vreg, Ctx.v]
  · rw [fall_ctx, setCtx_ctx_self, hpreds]

/-- With room at the collector an event of a context waits last, as it is. -/
theorem raiseEv_context (hk : e.kind = 4) (h : s.room) : s.raiseEv e = { s with intake := s.intake ++ [e] } := by
  simp only [State.raiseEv, hk, srcCrew]
  exact if_neg fun hfull => absurd h (Nat.not_lt.mpr hfull.2)

/-- What waits at the collector is no part of what an instruction leaves as it was. -/
theorem WritesNone.intake {l : List Event} (h : WritesNone n s t) : WritesNone n s { t with intake := l } := by
  obtain ⟨hgoes, hvreg, hpreds, hframe⟩ := h
  exact ⟨hgoes, hvreg, hpreds, hframe.congr rfl rfl rfl rfl rfl rfl rfl⟩

/-- A context that has recorded one more event, and one that has dropped one more. -/
def Ctx.recorded (x : Ctx) : Ctx := { x with evts := x.evts + 1, dropped := 0 }
def Ctx.overran (x : Ctx) : Ctx := { x with dropped := x.dropped + 1 }

/-- The event of an EVT. -/
def State.progEvent (s : State) (n : Nat) : Event :=
  ⟨0x0703, 4, n, s.stampNow, s.pc n + 2 ^ 16 * bits (s.word n).imm 15 0, s.vreg n (s.word n).rs, min (s.ctx n).dropped 255, false⟩

theorem exec_evt (h : s.Issues n 0x50) : exec (.evt n) s = .next (
    if 16 ≤ (s.ctx n).evts then fall n ((s.issued n).setCtx n (s.ctx n).overran)
    else fall n (((s.issued n).setCtx n (s.ctx n).recorded).raiseEv (s.progEvent n))) := by
  show Host.Outcome.next (issue n 0x50 _ s) = _
  rw [issue_acts h (by decide) (fun _ => by decide), issued_ctx, issued_stampNow, issued_pc]
  rfl

/-- An event within the count of its mark is recorded, and the count of the dropped ones starts again. -/
theorem exec_evt_recorded (h : s.Issues n 0x50) (hev : (s.ctx n).evts < 16) (hroom : s.room) : exec (.evt n) s = .next
    { fall n ((s.issued n).setCtx n (s.ctx n).recorded) with
      intake := s.intake ++ [s.progEvent n] } := by
  have hroom' : ((s.issued n).setCtx n (s.ctx n).recorded).room := by
    rw [State.room, setCtx_intake, issued_intake]
    exact hroom
  rw [exec_evt h, if_neg (by omega), raiseEv_context rfl hroom', setCtx_intake, issued_intake]
  rfl

end Sys2Proof.Machine

namespace Sys2Proof.Proofs.Instructions

open Sys2Proof Sys2Proof.Machine

/-- Settles O25: an RDT and CAPQ read the same in the state that counts their issue; an urgent RDT stalls with its request, which
its answer ends; EVT writes its context's counts alone. -/
theorem telemetryReads : Obligations.TelemetryReads := by
  refine ⟨?snapshot, ?urgent, ?answer, ?capq, ?recorded, ?counted⟩
  case snapshot =>
    intro n c s h hform hu hc
    refine ⟨_, rfl, ?_⟩
    have hexists : (s.issued n).unitExists (0x600 + c) = true := by
      simp only [State.unitExists, decide_eq_true (show 0x600 + c < 0x6EC by omega), Bool.true_or]
    rw [issue_acts h (by decide) (fun _ => by decide)]
    simp only [hu, hform, if_true, hexists, Bool.true_eq_false, and_false, if_false, rdtValue_crew hc]
    have hread : (s.issued n).crewReading c = s.crewReading c := by
      funext sel
      simp (disch := decide) only [State.crewReading, issued_snap, issued_get]
    rw [hread]
    exact writesReg h word_rd_lt
  case urgent =>
    intro n c s h hform hu hc hch
    refine ⟨_, rfl, ?_⟩
    rw [issue_acts h (by decide) (fun _ => by decide)]
    have hleaf : ¬ (0x600 + c < 0x600 ∨ 0x6C0 ≤ 0x600 + c) := by omega
    simp only [hu, hform, Bool.true_eq_false, if_false, hleaf, Nat.not_le.mpr hch, Nat.add_sub_cancel_left]
    refine ⟨?wait, issued_pc, ?regs, ?crew, fun f i hf => issued_sameRegs f i hf, ?ctxs, ?phases, ?crews, ?mem⟩
    case wait => simp only [onCtx_ctx, onCrew_now, issued_now]
    case regs => simp only [onCtx_ctx, State.onCrew, setCrew_ctx, issued_ctx]
    case crew => rw [State.onCtx, setCtx_crew, onCrew_crew, issued_crew]
    case ctxs => exact SameCtxs.onCtx (fun k _ => issued_ctx) (by simp)
    case phases => exact fun q _ => issued_phase
    case crews => exact SameCrews.congr (SameCrews.set (fun _ _ => issued_crew) (by simp)) rfl
    case mem => exact SameMem.refl.congr issued_mem issued_flash
  case answer =>
    intro n v rest r at_ tm s hans hw hr hstop
    exact ⟨_, exec_rdtResult hans hw hstop, rfl, rdtEnd_goesOn, by rw [rdtEnd_vreg hr hr, if_pos rfl],
      fun k hk hne => by rw [rdtEnd_vreg hk hr, if_neg hne], rdtEnd_regs, rdtEnd_ctxs, rdtEnd_block⟩
  case capq =>
    intro n s h hmay
    refine ⟨_, rfl, ?_⟩
    rw [issue_acts h (by decide) (fun _ => by decide), if_neg (by rintro ⟨hn, hsel, -⟩; omega), issued_capq]
    have hwrites (v : Nat) : WritesReg n (s.word n).rd v s (fall n ((s.issued n).setV n (s.word n).rd v)) :=
      writesReg h word_rd_lt
    generalize bits (s.word n).imm 3 0 = sel
    rw [capq_eq]
    exact hwrites _
  case recorded =>
    intro n s h hev hroom
    have hwrites : WritesNone n s (fall n ((s.issued n).setCtx n (s.ctx n).recorded)) := setCtx_writesNone h rfl rfl rfl rfl rfl
    have hctx := fall_ctx (n := n) (s := (s.issued n).setCtx n (s.ctx n).recorded)
    rw [setCtx_ctx_self] at hctx
    exact ⟨_, exec_evt_recorded h hev hroom, rfl, congrArg Ctx.evts hctx, congrArg Ctx.dropped hctx, hwrites.intake⟩
  case counted =>
    intro n s h hev
    refine ⟨fall n ((s.issued n).setCtx n (s.ctx n).overran), by rw [exec_evt h, if_pos hev], ?_, ?_,
      setCtx_writesNone h rfl rfl rfl rfl rfl⟩
    · rw [fall_intake, setCtx_intake, issued_intake]
    · rw [fall_ctx, setCtx_ctx_self]
      rfl

end Sys2Proof.Proofs.Instructions
/-! ## Loads behind a waiting store (R415): a memory out of order -/

namespace Sys2Proof.Proofs.Instructions

open Sys2Proof Sys2Proof.Machine Sys2Proof.Proofs.Scope

/-- The state `unordered` with a store of 0 to its first word, which waits in a cycle that the sender has let pass. -/
def unorderedStore : State :=
  { unordered with cyc := { on := true }, pending := [.registerWrite (.sup 0) 0x400000 8 0 0] }

/-- Refutes O26: the clause on a load behind a waiting store speaks of every state, and not only of those with the invariant.
In the state `unorderedStore` the waiting store of 0 does not find the byte at 0x400000, which stands behind a higher address, and
leaves it at 1. -/
theorem not_supervisorAccesses : ¬ Obligations.SupervisorAccesses := by
  rintro ⟨-, -, -, -, -, -, -, -, hstore, -⟩
  have hperm : unorderedStore.permitted (masterCode (.sup 0)) 0x400000 8 false true = true := by decide
  have hbank : unorderedStore.offline 0x400000 = false := by decide
  have hzero := hstore (.sup 0) 0x400000 0 0 [] unorderedStore rfl rfl rfl (by decide) (by decide) hperm hbank
  have hone : unorderedStore.readThrough 8 0x400000 = 1 := by decide
  exact absurd (hzero.symm.trans hone) (by decide)

end Sys2Proof.Proofs.Instructions

/-! ## GRANT, LOADP and SIGNAL (R278 to R280) -/

namespace Sys2Proof.Machine

open Sys2Proof

variable {s t : State} {n v r k l x a base b : Nat} {f : Fld} {L : List FKey} {ws : List Nat}

/-! ### An instruction that writes registers and goes on -/

/-- An instruction that writes register r and goes on, after an effect that leaves its own context and index. -/
theorem fall_setV_goesOn (hpc : t.pc n = s.pc n) (hctx : t.ctx n = s.ctx n) (hw : (s.ctx n).wait = none) :
    GoesOn n s (fall n (t.setV n r v)) := by
  refine goesOn hpc ?_ ?_ ?_
  · rw [setV_ctx, hctx]; rfl
  · rw [setV_ctx, hctx]; rfl
  · rw [setV_ctx, hctx]; exact hw

/-- One that writes no register. -/
theorem fall_same_goesOn (hpc : t.pc n = s.pc n) (hctx : t.ctx n = s.ctx n) (hw : (s.ctx n).wait = none) : GoesOn n s (fall n t) :=
  goesOn hpc (by rw [hctx]) (by rw [hctx]) (by rw [hctx, hw])

/-! ### The grant of a lane (R218) -/

/-- Where the grant of lane l stands. -/
def grantKeys (l : Nat) : List FKey :=
  (List.range 6).map (fun k => LANE_GRANT.CREWS.key (6 * l + k)) ++ [LANE_GRANTX.FIELDS.key l, LANE_GRANTX.REGATTA.key l]

theorem setGrant_frame (h : IssueFrame n L s t) (hL : grantKeys l ⊆ L) : IssueFrame n L s (setGrant l ws x t) := by
  have hcrews : IssueFrame n L s (forAll (List.range 6) (fun s k => s.put LANE_GRANT.CREWS (6 * l + k) (ws.getD k 0)) t) :=
    forAll_keeps (P := IssueFrame n L s) (fun _ k hk hu => hu.put
      (List.mem_append_right _ (hL (List.mem_append_left _ (List.mem_map_of_mem hk)))) (by decide)) h
  exact (hcrews.put (List.mem_append_right _ (hL (by simp [grantKeys]))) (by decide)).put
    (List.mem_append_right _ (hL (by simp [grantKeys]))) (by decide)

theorem setGrant_crews (hk : k < 6) : (setGrant l ws x s).get LANE_GRANT.CREWS (6 * l + k) = ws.getD k 0 % 2 ^ 32 := by
  rw [setGrant, get_put_reg (by decide), get_put_reg (by decide)]
  refine forAll_each (P := fun k u => u.get LANE_GRANT.CREWS (6 * l + k) = ws.getD k 0 % 2 ^ 32) (fun _ _ => get_put_self)
    (fun u j q hu => ?_) (List.mem_range.mpr hk)
  by_cases e : q = j
  · rw [e]; exact get_put_self
  · rw [get_put_inst (by omega)]; exact hu

theorem setGrant_fields : (setGrant l ws x s).get LANE_GRANTX.FIELDS l = bits x 7 0 := by
  rw [setGrant, get_put_self]
  exact bits_mod_width rfl

theorem setGrant_regatta : (setGrant l ws x s).get LANE_GRANTX.REGATTA l = bits x 8 8 := by
  rw [setGrant, get_put_lo (by decide), get_put_self]
  exact bits_mod_width rfl

theorem setGrant_get (h : f.reg ≠ .LANE_GRANT) (hx : f.reg ≠ .LANE_GRANTX) : (setGrant l ws x s).get f k = s.get f k := by
  rw [setGrant, get_put_reg hx, get_put_reg hx]
  exact forAll_keeps (P := fun u => u.get f k = s.get f k) (fun _ _ _ hu => (get_put_reg h).trans hu) rfl

@[simp] theorem setGrant_ctx : (setGrant l ws x s).ctx k = s.ctx k :=
  forAll_keeps (P := fun u => u.ctx k = s.ctx k) (ks := List.range 6) (fun _ _ _ hu => hu) rfl

/-- The results of a GRANT are 0 to 3. -/
theorem grantResult_lt : s.grantResult l ws x < 4 := by
  unfold State.grantResult
  dsimp only
  split
  · decide
  split
  · decide
  split <;> decide

/-- A lane that is not IDLE is refused first. -/
theorem grantResult_busy (h : s.lst l ≠ 0) : s.grantResult l ws x = 1 := if_pos h

theorem issued_grantResult (hn : 8 ≤ n) : (s.issued n).grantResult l ws x = s.grantResult l ws x := by
  obtain ⟨e, he⟩ := issued_sup_eq (s := s) hn
  rw [he]
  rfl

/-- The words and the result of a GRANT of context n to lane l. -/
def State.grantWords (s : State) (n : Nat) : List Nat := (List.range 6).map fun k => s.vreg n ((s.word n).rs + k)
def State.granting (s : State) (n : Nat) : Nat :=
  s.grantResult (bits (s.word n).unit 2 0) (s.grantWords n) (s.vreg n ((s.word n).rs + 6))

/-- The state after a GRANT, before its context goes on. -/
def State.granted (s : State) (n : Nat) : State :=
  if s.granting n = 0 then setGrant (bits (s.word n).unit 2 0) (s.grantWords n) (s.vreg n ((s.word n).rs + 6)) (s.issued n)
  else s.issued n

theorem exec_grant (hn : 8 ≤ n) (h : s.Issues n 0x64) : exec (.grant n) s =
    .next (fall n ((s.granted n).setV n (s.word n).rd (s.granting n))) := by
  show Host.Outcome.next (issue n 0x64 _ s) = _
  rw [issue_acts h (by decide) (by omega)]
  simp only [issued_vreg, issued_grantResult hn]
  rfl

theorem granted_frame : IssueFrame n (grantKeys (bits (s.word n).unit 2 0)) s (s.granted n) := by
  unfold State.granted
  split
  · exact setGrant_frame (issued_frame.mono (by simp)) (by simp)
  · exact issued_frame.mono (by simp)

theorem granted_ctx : (s.granted n).ctx k = s.ctx k := by
  unfold State.granted
  split
  · rw [setGrant_ctx, issued_ctx]
  · exact issued_ctx

theorem granted_pc : (s.granted n).pc n = s.pc n := by
  unfold State.granted
  split
  · exact (setGrant_get (by decide) (by decide)).trans issued_pc
  · exact issued_pc

theorem granted_vreg : (s.granted n).vreg n k = s.vreg n k := by rw [State.vreg, granted_ctx, State.vreg]

@[simp] theorem setV_get : (s.setV n r v).get f k = s.get f k := rfl

/-- A register that a GRANT which succeeds writes. -/
theorem granted_get (h : s.granting n = 0) (hf : f.reg ≠ .LANE_STAT) :
    (fall n ((s.granted n).setV n r v)).get f k = (setGrant (bits (s.word n).unit 2 0) (s.grantWords n)
      (s.vreg n ((s.word n).rs + 6)) (s.issued n)).get f k := by
  rw [fall_get_reg hf, setV_get, State.granted, if_pos h]

/-- A GRANT that is refused is nothing but an issue. -/
theorem granted_refused (h : s.granting n ≠ 0) : s.granted n = s.issued n := if_neg h

theorem grantWords_getD (hk : k < 6) : (s.grantWords n).getD k 0 = s.vreg n ((s.word n).rs + k) := by
  simp [State.grantWords, hk]

/-! ### The start of a load (R229, R231) -/

theorem readCheck_clean (h : s.clean) (hb : s.get ID_MEM_STAT.BANKS 0 = 0) : readCheck 0 a s = (s, true) := by
  obtain ⟨hbad, hflips⟩ := h
  have hbank : ∀ k, s.bankSt k = 0 := fun k => by rw [State.bankSt, hb, bits, Nat.zero_div, Nat.zero_mod]
  unfold readCheck
  dsimp only
  cases bankOf a with
  | none => rfl
  | some k => simp [hbank, hbad, hflips, tget]

theorem readChecks_clean (h : s.clean) (hb : s.get ID_MEM_STAT.BANKS 0 = 0) : readChecks a b s = (s, true) := by
  unfold readChecks
  induction List.range ((a % 8 + b + 7) / 8) with
  | nil => rfl
  | cons k ks ih => rw [List.foldl_cons, if_pos rfl, readCheck_clean h hb, ih]

/-- The image that lane l loads from a clean memory. -/
theorem startLoad_reads (hbar : s.loadBar l = 0) (ha : a % 8 = 0) (hb : s.get ID_MEM_STAT.BANKS 0 = 0) (hclean : s.clean)
    (hhead : s.loaderMay a 64 = true) (hall : s.loaderMay a (min (max 64 (s.rd 4 (a + 0x20))) 0x100000) = true) :
    startLoad l a base s = { s.setLst l 1 with
      load := some ⟨l, base, mgetList 0 s.mem a (min (max 64 (s.rd 4 (a + 0x20))) 0x100000), true⟩ } := by
  unfold startLoad
  simp only [hbar, ha, hhead, readChecks_clean hclean hb, hall, ne_eq, not_true_eq_false, if_false, if_true, Bool.true_eq_false,
    or_self]

/-- A load that a check before the source refuses. -/
theorem startLoad_barred (hbar : s.loadBar l ≠ 0) : startLoad l a base s = loadReport l (s.loadBar l) 0 0 s := if_pos hbar

theorem loadBar_lt : s.loadBar l < 2 ^ 8 := by
  unfold State.loadBar
  split
  · decide
  split
  · decide
  split
  · decide
  split <;> decide

theorem issued_loadBar (hn : 8 ≤ n) : (s.issued n).loadBar l = s.loadBar l := by
  obtain ⟨e, he⟩ := issued_sup_eq (s := s) hn
  rw [he]
  rfl

theorem issued_loaderMay (hn : 8 ≤ n) : (s.issued n).loaderMay a b = s.loaderMay a b := by
  obtain ⟨e, he⟩ := issued_sup_eq (s := s) hn
  rw [he]
  rfl

theorem issued_clean (hn : 8 ≤ n) (h : s.clean) : (s.issued n).clean := by
  obtain ⟨e, he⟩ := issued_sup_eq (s := s) hn
  rw [he]
  exact h

@[simp] theorem issued_rd : (s.issued n).rd b a = s.rd b a := by rw [State.rd, issued_mem, State.rd]

theorem exec_loadp (hn : 8 ≤ n) (h : s.Issues n 0x65) : exec (.loadp n) s = .next (fall n
    (startLoad (bits (s.word n).unit 2 0) (s.vreg n (s.word n).rs) (bits (s.word n).imm 14 0) (s.issued n))) := by
  show Host.Outcome.next (issue n 0x65 _ s) = _
  rw [issue_acts h (by decide) (by omega), issued_vreg]

/-- A LOADP of an image that can be read. -/
theorem exec_loadp_starts (hn : 8 ≤ n) (h : s.Issues n 0x65) (hbar : s.loadBar (bits (s.word n).unit 2 0) = 0)
    (ha : s.vreg n (s.word n).rs = a) (halign : a % 8 = 0) (hb : s.get ID_MEM_STAT.BANKS 0 = 0) (hclean : s.clean)
    (hhead : s.loaderMay a 64 = true) (hall : s.loaderMay a (min (max 64 (s.rd 4 (a + 0x20))) 0x100000) = true) :
    exec (.loadp n) s = .next (fall n { (s.issued n).setLst (bits (s.word n).unit 2 0) 1 with
      load := some ⟨bits (s.word n).unit 2 0, bits (s.word n).imm 14 0,
        mgetList 0 s.mem a (min (max 64 (s.rd 4 (a + 0x20))) 0x100000), true⟩ }) := by
  have hbar' := (issued_loadBar (s := s) hn).trans hbar
  have hhead' := (issued_loaderMay hn).trans hhead
  have hall' := (issued_loaderMay hn).trans hall
  have hb' : (s.issued n).get ID_MEM_STAT.BANKS 0 = 0 := (issued_get (by decide)).trans hb
  rw [← issued_rd (n := n)] at hall'
  rw [exec_loadp hn h, ha, startLoad_reads hbar' halign hb' (issued_clean hn hclean) hhead' hall', issued_rd, issued_mem]

/-- A LOADP that a check before the source refuses. -/
theorem exec_loadp_barred (hn : 8 ≤ n) (h : s.Issues n 0x65) (hbar : s.loadBar (bits (s.word n).unit 2 0) ≠ 0) :
    exec (.loadp n) s = .next (fall n (loadReport (bits (s.word n).unit 2 0) (s.loadBar (bits (s.word n).unit 2 0)) 0 0
      (s.issued n))) := by
  rw [exec_loadp hn h, startLoad_barred (by rw [issued_loadBar hn]; exact hbar), issued_loadBar hn]

@[simp] theorem issued_load : (s.issued n).load = s.load := by
  obtain ⟨l, e, y, h⟩ := issued_eq (s := s) (n := n)
  rw [h]

@[simp] theorem fall_load : (fall n s).load = s.load := rfl

theorem IssueFrame.load {y : Option Load} (h : IssueFrame n L s t) : IssueFrame n L s { t with load := y } :=
  h.congr rfl rfl rfl rfl rfl rfl rfl

theorem IssueFrame.loadReport (h : IssueFrame n L s t) (hL : reportKeys l ⊆ L) :
    IssueFrame n L s (Machine.loadReport l x b k t) :=
  (((h.put (List.mem_append_right _ (hL (by simp [reportKeys]))) (by decide)).put
    (List.mem_append_right _ (hL (by simp [reportKeys]))) (by decide)).put
    (List.mem_append_right _ (hL (by simp [reportKeys]))) (by decide)).sigSupers fun _ hk => hL (List.mem_append_right _ hk)

theorem loadReport_ctx {j : Nat} : (loadReport l x b k s).ctx j = s.ctx j :=
  (SameCtxs.refl (ls := [])).loadReport j (by simp)

/-! ### Bits of LANE_SIG (R225, R280) -/

theorem setSig_frame (h : IssueFrame n L s t) (hk : LANE_SIG.SIG.key k ∈ L) : IssueFrame n L s (setSig k x t) :=
  h.put (List.mem_append_right _ hk) (by decide)

theorem setSig_sig : (setSig k x s).get LANE_SIG.SIG k = Nat.lor (s.get LANE_SIG.SIG k) x % 2 ^ 12 := get_put_self

theorem setSig_pc {j : Nat} : (setSig k x s).pc j = s.pc j := get_put_reg (by decide)

@[simp] theorem setSig_ctx {j : Nat} : (setSig k x s).ctx j = s.ctx j := rfl

theorem exec_signal (hn : 8 ≤ n) (h : s.Issues n 0x66) (hlt : bits (s.word n).unit 3 0 < 12) : exec (.signal n) s =
    .next (fall n (setSig (bits (s.word n).unit 3 0) (bits (s.word n).imm 7 0) (s.issued n))) := by
  show Host.Outcome.next (issue n 0x66 _ s) = _
  rw [issue_acts h (by decide) (by omega)]
  dsimp only
  rw [if_pos hlt]

end Sys2Proof.Machine

namespace Sys2Proof.Proofs.Instructions

open Sys2Proof Sys2Proof.Machine

/-- Settles O27: the three instructions act in the state that counts their issue, which differs in the engine alone. -/
theorem supervisorControl : Obligations.SupervisorControl := by
  refine ⟨?grant, ?loads, ?refused, ?signal⟩
  case grant =>
    intro n s hn h
    refine ⟨_, exec_grant hn h, fall_setV_goesOn granted_pc granted_ctx h.wait, ?_, ?_, ?_, ?_, grantResult_busy,
      granted_frame.setV.fall⟩
    · rw [fall_vreg, setV_vreg word_rd_lt word_rd_lt, if_pos rfl]
      exact Nat.mod_eq_of_lt (lt_trans grantResult_lt (by decide))
    · intro k hk hne
      rw [fall_vreg, setV_vreg hk word_rd_lt, if_neg hne, granted_vreg]
    · intro h0
      refine ⟨fun k hk => ?_, ?_, ?_⟩
      · rw [granted_get h0 (by decide), setGrant_crews hk, grantWords_getD hk]
      · rw [granted_get h0 (by decide), setGrant_fields]
      · rw [granted_get h0 (by decide), setGrant_regatta]
    · intro h0
      rw [granted_refused h0]
      exact issued_frame.setV.fall
  case loads =>
    intro n l a s hn h hl ha hbar halign hbanks hclean hhead hall
    subst hl
    refine ⟨_, exec_loadp_starts hn h hbar ha.symm halign hbanks hclean hhead hall, ?_, rfl, ?_, ?_⟩
    · rw [State.lst, fall_get_lo (by decide)]
      exact get_put_self
    · exact fall_same_goesOn (setLst_pc.trans issued_pc) issued_ctx h.wait
    · exact ((issued_frame.mono (by simp)).put (by simp) (by decide)).load.fall
  case refused =>
    intro n l s hn h hl hbar
    subst hl
    refine ⟨_, exec_loadp_barred hn h hbar, ?_, ?_, ?_, ?_, ?_, ?_⟩
    · rw [fall_get_reg (by decide), loadReport_reason loadBar_lt]
    · intro k hk hk'
      rw [fall_get_reg (by decide)]
      exact loadReport_sig hk hk'
    · rw [fall_load, loadReport_load, issued_load]
    · rw [State.lst, fall_get_lo (by decide), loadReport_get (by decide) (by decide)]
      exact issued_lst
    · exact fall_same_goesOn ((loadReport_get (by decide) (by decide)).trans issued_pc) (loadReport_ctx.trans issued_ctx) h.wait
    · exact (IssueFrame.loadReport (issued_frame.mono (by simp)) (List.Subset.refl _)).fall
  case signal =>
    intro n c s hn h hc hlt
    subst hc
    refine ⟨_, exec_signal hn h hlt, ?_, ?_, ?_, ?_⟩
    · rw [fall_get_reg (by decide), setSig_sig, issued_get (by decide)]
    · exact fall_same_goesOn (setSig_pc.trans issued_pc) (setSig_ctx.trans issued_ctx) h.wait
    · intro k _
      rw [fall_vreg, State.vreg, setSig_ctx, issued_ctx, State.vreg]
    · exact (setSig_frame (issued_frame.mono (by simp)) (by simp)).fall

end Sys2Proof.Proofs.Instructions
/-! ## The updates of a crew's datapath, and the delivery of slopes and gain sets (R119, R120, R139, R257) -/

namespace Sys2Proof.Machine

open Sys2Proof

variable {s t u : State} {c i j k n v code d0 d1 t8 : Nat} {x : Int} {f g : Fld} {l : List Nat} {b : Bool}

/-! ## Changes that spare one field and the memories -/

/-- From s to t no byte of a memory has changed, and field f nowhere. -/
def Spares (f : Fld) (s t : State) : Prop := (∀ i, t.get f i = s.get f i) ∧ SameMem s t

namespace Spares

theorem refl : Spares f s s := ⟨fun _ => rfl, .refl⟩

theorem congr (h : Spares f s t) (h1 : u.fld = t.fld) (h2 : u.fuse = t.fuse) (h3 : u.mem = t.mem) (h4 : u.flash = t.flash) :
    Spares f s u := ⟨fun i => (get_congr h1 h2).trans (h.1 i), h.2.congr h3 h4⟩

theorem put (hg : f.reg ≠ g.reg) (h : Spares f s t) : Spares f s (t.put g j v) :=
  ⟨fun i => (get_put_reg hg).trans (h.1 i), h.2.congr rfl rfl⟩

theorem mark (hg : f.reg ≠ g.reg) (h : Spares f s t) : Spares f s (t.mark g j b) := h.put hg
theorem putI (hg : f.reg ≠ g.reg) (h : Spares f s t) : Spares f s (t.putI g j x) := h.put hg
theorem bump (hg : f.reg ≠ g.reg) (h : Spares f s t) : Spares f s (t.bump g j n) := (h.put hg).congr rfl rfl rfl rfl
theorem onCrew {G : Crew → Crew} (h : Spares f s t) : Spares f s (t.onCrew c G) := h.congr rfl rfl rfl rfl
theorem setPhase {p : Phase} (h : Spares f s t) : Spares f s (t.setPhase n p) := h.congr rfl rfl rfl rfl

theorem raise {kind src : Nat} (hf : f.reg ≠ .FLT_DROP) (h : Spares f s t) : Spares f s (t.raise code kind src d0 d1) :=
  ⟨fun i => (raise_get hf).trans (h.1 i), h.2.congr raise_mem raise_flash⟩

theorem latchStatus {vout iout temp : Nat} (h : Spares f s t) : Spares f s (Machine.latchStatus n vout iout temp t) :=
  h.congr rfl rfl rfl rfl

theorem ite {p : Prop} [Decidable p] (ht : Spares f s t) (hu : Spares f s u) : Spares f s (if p then t else u) := by
  split
  · exact ht
  · exact hu

end Spares

/-! ## What an update leaves of the samples (R119) -/

theorem startRing_spares (hf : f.reg ∉ [.CREW_PH_TRIM, .CREW_RING_STAT]) (h : Spares f s t) : Spares f s (startRing c t) := by
  simp only [List.mem_cons, List.not_mem_nil, or_false, not_or] at hf
  obtain ⟨htrim, hring⟩ := hf
  have hphases : Spares f s (forAll (crewPhases c) (fun s ph => let p := s.phase ph
      if p.st = .idle ∨ p.st = .stopping then s.setPhase ph { p with st := .ready, lowSide := true } else s) t) :=
    forAll_keeps (P := Spares f s) (fun _ _ _ hu => .ite hu.setPhase hu) h
  exact ((hphases.put htrim).put hring).put hring

theorem startHeld_spares (hf : f.reg ≠ .FLT_DROP) (h : Spares f s t) : Spares f s (startHeld n t) := by
  unfold startHeld
  exact .ite (h.congr rfl rfl rfl rfl) (.ite h ((h.congr rfl rfl rfl rfl : Spares f s (t.setMar n _)).raise hf))

theorem reachOn_spares (hf : f.reg ∉ [.CREW_PWR_STAT, .FLT_DROP]) (h : Spares f s t) : Spares f s (reachOn c t) := by
  simp only [List.mem_cons, List.not_mem_nil, or_false, not_or] at hf
  exact startHeld_spares hf.2 (h.put hf.1)

theorem schedule_spares (hf : f.reg ≠ .CREW_DP_STAT) (h : Spares f s t) : Spares f s (schedule c t) :=
  (((h.put hf).put hf).put hf).onCrew

theorem showSlewing_spares (hf : f.reg ≠ .CREW_SP_STAT) (h : Spares f s t) : Spares f s (showSlewing c t) := h.mark hf

theorem showMargin_spares (hf : f.reg ∉ [.CREW_GB_STAT, .FLT_DROP]) (h : Spares f s t) : Spares f s (showMargin c t) := by
  simp only [List.mem_cons, List.not_mem_nil, or_false, not_or] at hf
  obtain ⟨hmargin, hdrop⟩ := hf
  refine ⟨fun i => (showMargin_get hmargin hdrop).trans (h.1 i), h.2.trans (showMargin_within (ks := [CREW_GB_STAT.RAISED.key c,
    CREW_GB_STAT.UNREACH.key c] ++ dropKeys) (by simp) (by simp) (List.subset_append_right _ _)).sameMem⟩

theorem stepIF_spares (hf : f.reg ≠ .CREW_DP_IFILT) (h : Spares f s t) : Spares f s (stepIF c t) := .ite (h.putI hf) h

/-- The registers that the start of regulation and an update's computation write. -/
def updateRegs : List Reg := [.CREW_PH_TRIM, .CREW_RING_STAT, .CREW_SP_REF, .CREW_DP_STAT, .CREW_PWR_STAT, .CREW_TR_STAT,
  .CREW_GB_STAT, .CREW_SP_STAT, .CREW_DP_IFILT, .CREW_DP_FALLBACKS, .FLT_DROP]

theorem beginRegulation_spares (hf : f.reg ∉ updateRegs) (h : Spares f s t) : Spares f s (beginRegulation c x t) := by
  have hne : ∀ r ∈ updateRegs, f.reg ≠ r := fun r hr e => hf (e ▸ hr)
  have hnot : ∀ rs : List Reg, rs ⊆ updateRegs → f.reg ∉ rs := fun rs hrs hm => hf (hrs hm)
  unfold beginRegulation
  extract_lets s1 s2 law s3 cal s4 s5 s6 s7 s8
  have h1 : Spares f s s1 := startRing_spares (hnot _ (by decide)) h
  have h2 : Spares f s s2 := .ite (h1.put (hne _ (by decide))).onCrew h1
  have h3 : Spares f s s3 := (h2.put (hne _ (by decide))).onCrew
  clear_value s3
  have h4 : Spares f s s4 := .ite (h3.congr rfl rfl rfl rfl) h3
  have h5 : Spares f s s5 := schedule_spares (hne _ (by decide)) h4
  have h6 : Spares f s s6 := h5.put (hne _ (by decide))
  have h7 : Spares f s s7 := .ite (reachOn_spares (hnot _ (by decide)) h6) h6
  have h8 : Spares f s s8 := h7.mark (hne _ (by decide))
  exact showSlewing_spares (hne _ (by decide)) (showMargin_spares (hnot _ (by decide)) h8)

theorem compute_spares (hf : f.reg ∉ updateRegs) (h : Spares f s t) : Spares f s (compute c x t) := by
  have hne : ∀ r ∈ updateRegs, f.reg ≠ r := fun r hr e => hf (e ▸ hr)
  unfold compute
  extract_lets s1 k resumed away want change s2 law0 law s3 e enter s4
  have h1 : Spares f s s1 := schedule_spares (hne _ (by decide)) (stepIF_spares (hne _ (by decide)) h)
  have h2 : Spares f s s2 := h1.put (hne _ (by decide))
  have h3 : Spares f s s3 := .ite (((h2.put (hne _ (by decide))).put (hne _ (by decide))).raise (hne _ (by decide))) h2
  have h4 : Spares f s s4 := .ite (((h3.put (hne _ (by decide))).bump (hne _ (by decide))).raise (hne _ (by decide))) h3
  exact h4.onCrew

/-! ### The update of a landed pair (R119) -/

/-- The pair sum of crew c's channels. -/
def State.pairSum (s : State) (c : Nat) : Int := s.getI CREW_AB.SAMPLE (abI c false) + s.getI CREW_AB.SAMPLE (abI c true)

/-- Crew c begins to regulate on its first pair, if this is it. -/
def beginFirst (c : Nat) (x : Int) (s : State) : State :=
  if (s.crew c).firstPair ∧ (s.crew c).pairB then beginRegulation c x s else s

/-- The law of a crew that regulates. -/
def computeReg (c : Nat) (x : Int) (s : State) : State := if (s.crew c).reg then compute c x s else s

/-- The pair is taken from A, and its law computed. -/
def startUpdate (c : Nat) (s : State) : State :=
  computeReg c (s.pairSum c) (beginFirst c (s.pairSum c) (s.put CREW_AB.NEW (abI c false) 0))

/-- Crew c is in an update, of plane voltage v and target z. -/
def Crew.updating (k : Crew) (v : Nat) (z : Int) : Crew := { k with busy := true, bLate := false, vNext := v, tNext := z }

/-- The conditions of an update: interleaved mode, no update in progress, a landed pair. -/
structure State.PairWaits (s : State) (c : Nat) : Prop where
  mode : s.flag CREW_AB_STAT.MODE_ACT c = false
  idle : (s.crew c).busy = false
  newA : s.flag CREW_AB.NEW (abI c false) = true
  newB : s.flag CREW_AB.NEW (abI c true) = true

theorem exec_datapathUpdate (h : s.PairWaits c) : ∃ v, exec (.datapathUpdate c) s =
    .next ((startUpdate c s).onCrew c (fun k => k.updating v ((startUpdate c s).regTarget c))) := by
  obtain ⟨hmode, hidle, hnewA, hnewB⟩ := h
  refine ⟨min (((beginFirst c (s.pairSum c) (s.put CREW_AB.NEW (abI c false) 0)).get CREW_SP_REF.REF c / 625 : Nat) +
    s.pairSum c).toNat 65535, ?_⟩
  show execDatapathUpdate c s = _
  unfold execDatapathUpdate
  extract_lets a b x s1 s2 v s3
  rw [if_neg (by simp [hmode, hidle, hnewA, hnewB, a, b])]
  rfl

theorem abI_ne : abI c true ≠ abI c false := by simp [abI]

/-- What the start of an update leaves of the samples: all but A's, which is taken. -/
theorem startUpdate_spares : Spares CREW_AB.NEW (s.put CREW_AB.NEW (abI c false) 0) (startUpdate c s) := by
  have hfirst : Spares CREW_AB.NEW (s.put CREW_AB.NEW (abI c false) 0)
      (beginFirst c (s.pairSum c) (s.put CREW_AB.NEW (abI c false) 0)) := .ite (beginRegulation_spares (by decide) .refl) .refl
  exact .ite (compute_spares (by decide) hfirst) hfirst

theorem startUpdate_newA : (startUpdate c s).get CREW_AB.NEW (abI c false) = 0 := (startUpdate_spares.1 _).trans get_put_self

theorem startUpdate_newB : (startUpdate c s).get CREW_AB.NEW (abI c true) = s.get CREW_AB.NEW (abI c true) :=
  (startUpdate_spares.1 _).trans (get_put_inst abI_ne)

theorem startUpdate_mem : SameMem s (startUpdate c s) :=
  (SameMem.refl.congr rfl rfl : SameMem s (s.put _ _ _)).trans startUpdate_spares.2

/-! ### The main law of a regulating crew (R120, R130, R132) -/

/-- The state in which filter, bands and region of crew c have been brought up to an update. -/
def scheduled (c : Nat) (s : State) : State :=
  (schedule c (stepIF c s)).put CREW_DP_STAT.REGION c ((schedule c (stepIF c s)).regionWanted c)

/-- What the main law answers on pair sum x in the scheduled state s; `change` when the region changes. -/
def State.mainLaw (s : State) (c : Nat) (x : Int) (change : Bool) : Law × Int :=
  lawStep (s.coef c (s.get CREW_DP_STAT.REGION c)) (s.crew c).law (s.errorOf c x) ((s.crew c).sdir * s.rateOf c) change

/-- A crew whose main law has answered, and asks for no more. -/
def Crew.answered (k : Crew) (a : Law × Int) : Crew :=
  { k with law := a.1, uMain := a.2, transfer := false, fbDue := false, resumeNow := false, uNext := a.2 }

/-- Crew c runs the main law, and nothing asks for another. -/
structure State.MainRuns (s : State) (c : Nat) : Prop where
  reg : (s.crew c).reg = true
  first : (s.crew c).firstPair = false
  transfer : (s.crew c).transfer = false
  resume : (s.crew c).resumeNow = false
  due : (s.crew c).fbDue = false
  law : s.flag CREW_DP_STAT.LAW c = false

/-- What a crew holds but for the bands that its current has passed. -/
def Crew.unbanded (k : Crew) : Crew := { k with passed := (false, false, false) }

/-- Where the filtered current and the region of crew c stand. -/
def bandKeys (c : Nat) : List FKey := [CREW_DP_IFILT.I_F.key c, CREW_DP_STAT.CB.key c, CREW_DP_STAT.PB.key c,
  CREW_DP_STAT.AUTO_REGION.key c, CREW_DP_STAT.REGION.key c]

theorem stepIF_within : Within (bandKeys c) c Crew.unbanded s (stepIF c s) := .ite (Within.refl.putI (by simp [bandKeys])) .refl

theorem schedule_within : Within (bandKeys c) c Crew.unbanded s (schedule c s) := by
  have hputs (a b d : Nat) (q : Bool × Bool × Bool) : Within (bandKeys c) c Crew.unbanded s
      ((((s.put CREW_DP_STAT.CB c a).put CREW_DP_STAT.PB c b).put CREW_DP_STAT.AUTO_REGION c d).onCrew c
        (fun k => { k with passed := q })) :=
    (((Within.refl.put (by simp [bandKeys])).put (by simp [bandKeys])).put (by simp [bandKeys])).onCrew rfl
  exact hputs _ _ _ _

/-- The filter and the bands alone, and no other field of the register but their own. -/
theorem banded_within : Within (bandKeys c) c Crew.unbanded s (schedule c (stepIF c s)) := stepIF_within.trans schedule_within

theorem scheduled_within : Within (bandKeys c) c Crew.unbanded s (scheduled c s) := banded_within.put (by simp [bandKeys])

theorem banded_get (h : f.reg ∉ [.CREW_DP_IFILT, .CREW_DP_STAT, .CREW_DP_STAT, .CREW_DP_STAT, .CREW_DP_STAT]) :
    (schedule c (stepIF c s)).get f i = s.get f i := banded_within.get rfl h

theorem scheduled_get (h : f.reg ∉ [.CREW_DP_IFILT, .CREW_DP_STAT, .CREW_DP_STAT, .CREW_DP_STAT, .CREW_DP_STAT]) :
    (scheduled c s).get f i = s.get f i := scheduled_within.get rfl h

/-- The bands leave the other fields of their register. -/
theorem banded_stat (h : f.reg = .CREW_DP_STAT)
    (hlo : f.lo ∉ [CREW_DP_STAT.CB.lo, CREW_DP_STAT.PB.lo, CREW_DP_STAT.AUTO_REGION.lo]) :
    (schedule c (stepIF c s)).get f i = s.get f i := by
  simp only [List.mem_cons, List.not_mem_nil, or_false, not_or] at hlo
  obtain ⟨hcb, hpb, hauto⟩ := hlo
  have hstep : (stepIF c s).get f i = s.get f i := by
    unfold stepIF
    split
    · exact get_put_reg (by rw [h]; decide)
    · rfl
  exact (get_put_lo hauto).trans ((get_put_lo hpb).trans ((get_put_lo hcb).trans hstep))

/-- A region that is asked for is one of sixteen. -/
theorem banded_wanted (h : s.get CREW_DP_GS.FORCE_REGION c < 16) : (schedule c (stepIF c s)).regionWanted c < 16 := by
  unfold State.regionWanted
  split
  · exact lt_of_eq_of_lt (banded_get (by decide)) h
  · exact lt_of_eq_of_lt get_put_self (Nat.mod_lt _ (by decide))

/-- A crew that runs the main law, and that nothing asks for another, answers by it on the pair. -/
theorem compute_main (h : s.MainRuns c) : ∃ a, compute c x s = (scheduled c s).onCrew c (fun k => k.answered a) ∧
    (s.get CREW_DP_GS.FORCE_REGION c < 16 → (scheduled c s).get CREW_DP_STAT.REGION c = s.get CREW_DP_STAT.REGION c →
      a = (scheduled c s).mainLaw c x false) := by
  obtain ⟨hreg, hfirst, htransfer, hresume, hdue, hlaw⟩ := h
  have hcrew := banded_within (c := c) (s := s).crew
  have htransfer' : ((schedule c (stepIF c s)).crew c).transfer = false := (congrArg Crew.transfer hcrew).trans htransfer
  have hresume' : ((schedule c (stepIF c s)).crew c).resumeNow = false := (congrArg Crew.resumeNow hcrew).trans hresume
  have hdue' : ((schedule c (stepIF c s)).crew c).fbDue = false := (congrArg Crew.fbDue hcrew).trans hdue
  have hlaw' : (schedule c (stepIF c s)).flag CREW_DP_STAT.LAW c = false := by
    rw [State.flag, banded_stat rfl (by decide)]
    exact hlaw
  have hlaw'' (v : Nat) : ((schedule c (stepIF c s)).put CREW_DP_STAT.REGION c v).flag CREW_DP_STAT.LAW c = false := by
    rw [State.flag, get_put_lo (by decide)]
    exact hlaw'
  have hregion : (schedule c (stepIF c s)).get CREW_DP_STAT.REGION c = s.get CREW_DP_STAT.REGION c := banded_stat rfl (by decide)
  have hwant := banded_wanted (c := c) (s := s)
  generalize hS : schedule c (stepIF c s) = S at *
  refine ⟨lawStep ((scheduled c s).coef c (S.regionWanted c)) (S.crew c).law ((scheduled c s).errorOf c x)
    ((S.crew c).sdir * (scheduled c s).rateOf c) (S.regionWanted c != S.get CREW_DP_STAT.REGION c), ?_, ?_⟩
  · simp only [compute, scheduled, hS, State.mainAway, hresume', hdue', htransfer', hlaw', hlaw'', Bool.false_and,
      Bool.false_eq_true, if_false, Bool.not_false, Bool.or_false, Bool.and_false]
    rfl
  · intro hforce hstays
    have hput : (scheduled c s).get CREW_DP_STAT.REGION c = S.regionWanted c := by
      rw [scheduled, hS, get_put_self]
      exact Nat.mod_eq_of_lt (hwant hforce)
    rw [State.mainLaw, hput, hregion, ← hstays, hput, bne_self_eq_false]
    have hsame : (scheduled c s).crew c = S.crew c := by rw [scheduled, hS, put_crew]
    rw [hsame]

/-- What the error and its reference depend on of a crew: the slope in force before and the fold offset. -/
theorem onCrew_errorOf {G : Crew → Crew} (h1 : (G (s.crew c)).llsOld = (s.crew c).llsOld)
    (h2 : (G (s.crew c)).foldUv = (s.crew c).foldUv) : (s.onCrew c G).errorOf c x = s.errorOf c x := by
  have hlls : (s.onCrew c G).llsOf c = s.llsOf c := by
    unfold State.llsOf
    rw [onCrew_crew, h1]
    rfl
  have hfold : (s.onCrew c G).foldOfs c = s.foldOfs c := by
    unfold State.foldOfs
    rw [onCrew_crew, h2]
    rfl
  unfold State.errorOf
  rw [hlls, hfold]
  rfl

theorem scheduled_planes : (scheduled c s).planes = s.planes := by
  unfold scheduled schedule stepIF
  split
  · rfl
  · rfl

/-- The schedule leaves the slew in force. -/
theorem scheduled_rateOf : (scheduled c s).rateOf c = s.rateOf c := by
  have hcrew := scheduled_within (c := c) (s := s).crew
  have hsoft : ((scheduled c s).crew c).softStart = (s.crew c).softStart := (congrArg Crew.softStart hcrew).trans rfl
  have hfell : ((scheduled c s).crew c).floorFell = (s.crew c).floorFell := (congrArg Crew.floorFell hcrew).trans rfl
  simp (disch := decide) only [State.rateOf, State.plane, scheduled_planes, hsoft, hfell, scheduled_get, State.flag, State.slewMax]
  rfl

theorem flag_put_reg (h : f.reg ≠ g.reg) : (s.put g j v).flag f i = s.flag f i := by rw [State.flag, get_put_reg h, State.flag]

theorem State.MainRuns.put (h : s.MainRuns c) (hg : CREW_DP_STAT.LAW.reg ≠ g.reg) : (s.put g j v).MainRuns c := by
  obtain ⟨hreg, hfirst, htransfer, hresume, hdue, hlaw⟩ := h
  exact ⟨hreg, hfirst, htransfer, hresume, hdue, (flag_put_reg hg).trans hlaw⟩

/-- An update of a crew that runs the main law starts with its answer on the pair. -/
theorem startUpdate_main (h : s.MainRuns c) : ∃ a, startUpdate c s =
    (scheduled c (s.put CREW_AB.NEW (abI c false) 0)).onCrew c (fun k => k.answered a) ∧
    (s.get CREW_DP_GS.FORCE_REGION c < 16 →
      (scheduled c (s.put CREW_AB.NEW (abI c false) 0)).get CREW_DP_STAT.REGION c = s.get CREW_DP_STAT.REGION c →
      a = (scheduled c (s.put CREW_AB.NEW (abI c false) 0)).mainLaw c (s.pairSum c) false) := by
  have hruns : (s.put CREW_AB.NEW (abI c false) 0).MainRuns c := h.put (by decide)
  obtain ⟨a, ha, hstays⟩ := compute_main (x := s.pairSum c) hruns
  rw [get_put_reg (by decide), get_put_reg (by decide)] at hstays
  refine ⟨a, ?_, hstays⟩
  rw [startUpdate, beginFirst, if_neg (by rw [hruns.first]; simp), computeReg, if_pos hruns.reg, ha]

theorem put_rateOf (h : g.reg ∉ [.CREW_PWR_CTL, .CREW_GB_STAT, .CREW_SP_STAT, .ID_SAFE_LIM0]) :
    (s.put g j v).rateOf c = s.rateOf c := by
  simp only [List.mem_cons, List.not_mem_nil, or_false, not_or] at h
  obtain ⟨hpwr, hmargin, hstat, hlim⟩ := h
  have hget {f : Fld} {i : Nat} (hf : f.reg ≠ g.reg) : (s.put g j v).get f i = s.get f i := get_put_reg hf
  simp only [State.rateOf, State.flag, State.slewMax, State.plane, hget (f := CREW_PWR_CTL.SS_SLEW) (Ne.symm hpwr),
    hget (f := CREW_GB_STAT.RAISED) (Ne.symm hmargin), hget (f := CREW_SP_STAT.SLEW) (Ne.symm hstat),
    hget (f := ID_SAFE_LIM0.SLEW_MAX) (Ne.symm hlim)]
  rfl

/-- What the main law answers depends on of the state before the schedule: its own state, the direction and the slew. -/
theorem mainLaw_scheduled {b : Bool} : (scheduled c s).mainLaw c x b =
    lawStep ((scheduled c s).coef c ((scheduled c s).get CREW_DP_STAT.REGION c)) (s.crew c).law ((scheduled c s).errorOf c x)
      ((s.crew c).sdir * s.rateOf c) b := by
  have hcrew := scheduled_within (c := c) (s := s).crew
  have hlaw : ((scheduled c s).crew c).law = (s.crew c).law := (congrArg Crew.law hcrew).trans rfl
  have hsdir : ((scheduled c s).crew c).sdir = (s.crew c).sdir := (congrArg Crew.sdir hcrew).trans rfl
  rw [State.mainLaw, hlaw, hsdir, scheduled_rateOf]

/-- The state in which crew c is in an update with the main law's answer. -/
def inUpdate (c : Nat) (a : Law × Int) (v : Nat) (z : Int) (s : State) : State :=
  (s.onCrew c (fun k => k.answered a)).onCrew c (fun k => k.updating v z)

theorem inUpdate_uNext {a : Law × Int} {z : Int} : ((inUpdate c a v z s).crew c).uNext = a.2 := by
  rw [inUpdate, onCrew_crew, onCrew_crew]; rfl

theorem inUpdate_errorOf {a : Law × Int} {z : Int} : (inUpdate c a v z s).errorOf c x = s.errorOf c x :=
  (onCrew_errorOf rfl rfl).trans (onCrew_errorOf rfl rfl)

theorem inUpdate_get {a : Law × Int} {z : Int} : (inUpdate c a v z s).get f i = s.get f i := rfl

theorem inUpdate_coef {a : Law × Int} {z : Int} : (inUpdate c a v z s).coef c n = s.coef c n := rfl

theorem exec_datapathUpdate_main (hw : s.PairWaits c) (h : s.MainRuns c) : ∃ a v z, exec (.datapathUpdate c) s =
    .next (inUpdate c a v z (scheduled c (s.put CREW_AB.NEW (abI c false) 0))) ∧
    (s.get CREW_DP_GS.FORCE_REGION c < 16 →
      (scheduled c (s.put CREW_AB.NEW (abI c false) 0)).get CREW_DP_STAT.REGION c = s.get CREW_DP_STAT.REGION c →
      a = (scheduled c (s.put CREW_AB.NEW (abI c false) 0)).mainLaw c (s.pairSum c) false) := by
  obtain ⟨v, hv⟩ := exec_datapathUpdate hw
  obtain ⟨a, ha, hstays⟩ := startUpdate_main h
  rw [ha] at hv
  exact ⟨a, v, _, hv, hstays⟩

theorem inUpdate_within {a : Law × Int} {z : Int} : Within (CREW_AB.NEW.key (abI c false) :: bandKeys c) c (fun _ => ()) s
    (inUpdate c a v z (scheduled c (s.put CREW_AB.NEW (abI c false) 0))) := by
  have hput : Within (CREW_AB.NEW.key (abI c false) :: bandKeys c) c (fun _ => ()) s (s.put CREW_AB.NEW (abI c false) 0) :=
    Within.refl.put (by simp)
  have hbands : Within (CREW_AB.NEW.key (abI c false) :: bandKeys c) c (fun _ => ()) (s.put CREW_AB.NEW (abI c false) 0)
      (scheduled c (s.put CREW_AB.NEW (abI c false) 0)) :=
    scheduled_within.forget.mono (by simp)
  exact ((hput.trans hbands).onCrew rfl).onCrew rfl

/-! ### The completion of an update (R119, R139, R141) -/

/-- The update of crew c is over; `away` when the main path sat it out, `fb` when the fallback law runs. -/
def endUpdate (c t8 : Nat) (fb away : Bool) (s : State) : State := s.onCrew c (fun k => { k with
  busy := false, bLate := false, ifOut := s.iF c
  goodRun := if away then k.goodRun else if t8 ≤ 64 then min 1024 (k.goodRun + 1) else 0
  mainLag := if away then k.mainLag - 64 else if fb then k.mainLag + t8 - 64 else 0 })

/-- B's sample is taken, unless the completion is late. -/
def takeB (c : Nat) (late : Bool) (s : State) : State := if late then s else s.put CREW_AB.NEW (abI c true) 0

/-- The output of a regulating crew is written. -/
def writeOut (c : Nat) (reg : Bool) (z : Int) (s : State) : State := if reg then s.putI CREW_DP_OUT.U c z else s

/-- The completion time feeds the counters of R139. -/
def countTime (c t8 : Nat) (s : State) : State :=
  let s := (s.put CREW_DP_TIME.TLAST c (min 255 t8)).raiseTo CREW_DP_TIME.TMAX c (min 255 t8)
  if s.get CREW_DP_CTL.WARN_TH c < t8 then s.bump CREW_DP_TIME.SLOW_CNT c else s

/-- It feeds the count of R141 and the histogram of R395. -/
def countShadow (c t8 : Nat) (fb away : Bool) (s : State) : State :=
  let s := if fb ∧ ¬ away ∧ 64 < t8 then s.bump CREW_DP_FALLBACKS.SHADOW_LATE c else s
  if s.flag CREW_HIST_CTL.T_EN c ∧ ¬ away then s.bump CREW_HIST_T.COUNT (64 * c + clampN (t8 - 16) 0 63) else s

/-- The state of crew c's update once it has completed, before its monitors. -/
def completed (c t8 : Nat) (s : State) : State :=
  countShadow c t8 (s.flag CREW_DP_STAT.LAW c) (s.mainAway c) (countTime c t8 (writeOut c (s.crew c).reg (s.crew c).uNext
    (takeB c (s.crew c).bLate (endUpdate c t8 (s.flag CREW_DP_STAT.LAW c) (s.mainAway c) s))))

/-- From s to t nothing has changed but registers of the list and what crew c holds, which is in an update as it was. -/
structure Touches (rs : List Reg) (c : Nat) (s t : State) : Prop where
  regs : ∀ f i, f.reg ∉ rs → t.get f i = s.get f i
  phases : SamePhases [] s t
  crews : SameCrews [c] s t
  mem : SameMem s t
  busy : (t.crew c).busy = (s.crew c).busy

namespace Touches

variable {rs : List Reg}

theorem refl : Touches rs c s s := ⟨fun _ _ _ => rfl, .refl, .refl, .refl, rfl⟩

theorem trans (h : Touches rs c s t) (h' : Touches rs c t u) : Touches rs c s u :=
  ⟨fun f i hf => (h'.regs f i hf).trans (h.regs f i hf), h.phases.trans h'.phases, fun q hq => (h'.crews q hq).trans (h.crews q hq),
    h.mem.trans h'.mem, h'.busy.trans h.busy⟩

theorem put (h : Touches rs c s t) (hg : g.reg ∈ rs) : Touches rs c s (t.put g j v) :=
  h.trans ⟨fun _ _ hf => get_put_reg fun e => hf (e ▸ hg), .refl, .refl, .refl, rfl⟩

theorem putI (h : Touches rs c s t) (hg : g.reg ∈ rs) : Touches rs c s (t.putI g j x) := h.put hg

theorem bump (h : Touches rs c s t) (hg : g.reg ∈ rs) : Touches rs c s (t.bump g j n) :=
  h.trans ⟨fun _ _ hf => get_bump_reg fun e => hf (e ▸ hg), .refl, .refl, .refl, rfl⟩

theorem raiseTo (h : Touches rs c s t) (hg : g.reg ∈ rs) : Touches rs c s (t.raiseTo g j v) :=
  h.trans ⟨fun f _ hf => get_raiseTo_ne fun e => hf ((show f.reg = g.reg from congrArg FKey.reg e) ▸ hg), .refl, .refl, .refl, rfl⟩

theorem onCrew {G : Crew → Crew} (h : Touches rs c s t) (hG : (G (t.crew c)).busy = (t.crew c).busy) :
    Touches rs c s (t.onCrew c G) :=
  h.trans ⟨fun _ _ _ => rfl, .refl, SameCrews.refl.set (by simp), .refl, by rw [onCrew_crew, hG]⟩

theorem ite {p : Prop} [Decidable p] (ht : Touches rs c s t) (hu : Touches rs c s u) : Touches rs c s (if p then t else u) := by
  split
  · exact ht
  · exact hu

end Touches

section
variable {rs : List Reg} {fb away late reg : Bool}

/-- The registers of the voltage monitors. -/
def monitorRegs : List Reg := [.CREW_VMIN, .CREW_VMIN_MARK, .CREW_VMAX, .CREW_VMAX_MARK, .CREW_HIST_V]

theorem monitors_touches (h : monitorRegs ⊆ rs) : Touches rs c s (monitors c v s) := by
  have hin : ∀ r ∈ monitorRegs, r ∈ rs := fun _ hr => h hr
  unfold monitors
  extract_lets k i s1 st sense s2 s3
  have h1 : Touches rs c s s1 := Touches.refl.onCrew rfl
  have h2 : Touches rs c s s2 := .ite ((((h1.put (hin _ (by decide))).put (hin _ (by decide))).put (hin _ (by decide))).put
    (hin _ (by decide))) h1
  have h3 : Touches rs c s s3 := .ite ((((h2.put (hin _ (by decide))).put (hin _ (by decide))).put (hin _ (by decide))).put
    (hin _ (by decide))) h2
  exact .ite h1 (.ite (h3.bump (hin _ (by decide))) h3)

theorem countShadow_touches (h : [.CREW_DP_FALLBACKS, .CREW_HIST_T] ⊆ rs) : Touches rs c s (countShadow c t8 fb away s) := by
  have hlate : Touches rs c s (if fb ∧ ¬ away ∧ 64 < t8 then s.bump CREW_DP_FALLBACKS.SHADOW_LATE c else s) :=
    .ite (Touches.refl.bump (h (by decide))) .refl
  exact .ite (hlate.bump (h (by decide))) hlate

theorem countTime_touches (h : .CREW_DP_TIME ∈ rs) : Touches rs c s (countTime c t8 s) := by
  have hlast : Touches rs c s ((s.put CREW_DP_TIME.TLAST c (min 255 t8)).raiseTo CREW_DP_TIME.TMAX c (min 255 t8)) :=
    (Touches.refl.put h).raiseTo h
  exact .ite (hlast.bump h) hlast

theorem writeOut_touches (h : .CREW_DP_OUT ∈ rs) : Touches rs c s (writeOut c reg x s) := .ite (Touches.refl.putI h) .refl

theorem takeB_touches (h : .CREW_AB ∈ rs) : Touches rs c s (takeB c late s) := .ite .refl (Touches.refl.put h)

end

/-- The state of crew c after its completion and its monitors. -/
def monitored (c t8 : Nat) (s : State) : State :=
  if (s.crew c).reg then monitors c (s.crew c).vNext (completed c t8 s) else completed c t8 s

theorem exec_updateCompletion (h : (s.crew c).busy = true) : exec (.updateCompletion c t8) s =
    .next (monitored c t8 s) := by
  show execUpdateCompletion c t8 s = _
  unfold execUpdateCompletion
  extract_lets k fb away s1 s2 s3 s4 s5 s6 s7
  rw [if_neg (by simp [k, h])]
  rfl

/-- The state in which crew c's update is over, with B's sample taken and the output written. -/
def written (c t8 : Nat) (s : State) : State := writeOut c (s.crew c).reg (s.crew c).uNext
  (takeB c (s.crew c).bLate (endUpdate c t8 (s.flag CREW_DP_STAT.LAW c) (s.mainAway c) s))

/-- What counts the completion and takes the voltage. -/
theorem monitored_timed : Touches ([.CREW_DP_FALLBACKS, .CREW_HIST_T] ++ monitorRegs) c (countTime c t8 (written c t8 s))
    (monitored c t8 s) := by
  have hshadow : Touches ([.CREW_DP_FALLBACKS, .CREW_HIST_T] ++ monitorRegs) c (countTime c t8 (written c t8 s))
      (completed c t8 s) := countShadow_touches (by simp)
  exact .ite (hshadow.trans (monitors_touches (by simp))) hshadow

theorem monitored_written : Touches (.CREW_DP_TIME :: ([.CREW_DP_FALLBACKS, .CREW_HIST_T] ++ monitorRegs)) c (written c t8 s)
    (monitored c t8 s) := by
  obtain ⟨hregs, hphases, hcrews, hmem, hbusy⟩ := monitored_timed (c := c) (t8 := t8) (s := s)
  exact (countTime_touches (by simp)).trans ⟨fun f i hf => hregs f i fun h => hf (List.mem_cons_of_mem _ h), hphases, hcrews,
    hmem, hbusy⟩

theorem written_touches {fb away : Bool} : Touches [.CREW_AB, .CREW_DP_OUT] c (endUpdate c t8 fb away s)
    (writeOut c (s.crew c).reg (s.crew c).uNext (takeB c (s.crew c).bLate (endUpdate c t8 fb away s))) :=
  (takeB_touches (by simp)).trans (writeOut_touches (by simp))

theorem endUpdate_crew {fb away : Bool} : ((endUpdate c t8 fb away s).crew c).busy = false := by rw [endUpdate, onCrew_crew]

theorem endUpdate_crews {fb away : Bool} : SameCrews [c] s (endUpdate c t8 fb away s) := SameCrews.refl.set (by simp)

theorem written_out : (written c t8 s).get CREW_DP_OUT.U c =
    if (s.crew c).reg then unsg 16 (s.crew c).uNext else s.get CREW_DP_OUT.U c := by
  have hkeep : (takeB c (s.crew c).bLate (endUpdate c t8 (s.flag CREW_DP_STAT.LAW c) (s.mainAway c) s)).get CREW_DP_OUT.U c =
      s.get CREW_DP_OUT.U c := (takeB_touches (rs := [.CREW_AB]) (by simp)).regs _ _ (by decide)
  unfold written writeOut
  split
  · refine get_put_self.trans (Nat.mod_eq_of_lt ?_)
    show unsg 16 _ < 2 ^ 16
    rw [unsg]
    omega
  · exact hkeep

theorem written_newB : (written c t8 s).flag CREW_AB.NEW (abI c true) = ((s.crew c).bLate && s.flag CREW_AB.NEW (abI c true)) := by
  have hout : (written c t8 s).get CREW_AB.NEW (abI c true) = (takeB c (s.crew c).bLate
      (endUpdate c t8 (s.flag CREW_DP_STAT.LAW c) (s.mainAway c) s)).get CREW_AB.NEW (abI c true) :=
    (writeOut_touches (rs := [.CREW_DP_OUT]) (by simp)).regs _ _ (by decide)
  rw [State.flag, hout]
  cases (s.crew c).bLate with
  | true => rfl
  | false => rw [takeB, if_neg (by simp), get_put_self]; rfl

theorem countTime_last : (countTime c t8 s).get CREW_DP_TIME.TLAST c = min 255 t8 := by
  have hlast : ((s.put CREW_DP_TIME.TLAST c (min 255 t8)).raiseTo CREW_DP_TIME.TMAX c (min 255 t8)).get CREW_DP_TIME.TLAST c =
      min 255 t8 := by
    refine (get_put_lo (by decide)).trans (get_put_self.trans (Nat.mod_eq_of_lt ?_))
    show min 255 t8 < 2 ^ 8
    omega
  unfold countTime
  dsimp only
  split
  · exact (get_bump_lo (by decide)).trans hlast
  · exact hlast

theorem countTime_slow : (countTime c t8 s).get CREW_DP_TIME.SLOW_CNT c = if s.get CREW_DP_CTL.WARN_TH c < t8 then
    CREW_DP_TIME.SLOW_CNT.count (s.get CREW_DP_TIME.SLOW_CNT c) else s.get CREW_DP_TIME.SLOW_CNT c := by
  have hslow : ((s.put CREW_DP_TIME.TLAST c (min 255 t8)).raiseTo CREW_DP_TIME.TMAX c (min 255 t8)).get CREW_DP_TIME.SLOW_CNT c =
      s.get CREW_DP_TIME.SLOW_CNT c := (get_put_lo (by decide)).trans (get_put_lo (by decide))
  have hwarn : ((s.put CREW_DP_TIME.TLAST c (min 255 t8)).raiseTo CREW_DP_TIME.TMAX c (min 255 t8)).get CREW_DP_CTL.WARN_TH c =
      s.get CREW_DP_CTL.WARN_TH c := (get_put_reg (by decide)).trans (get_put_reg (by decide))
  unfold countTime
  dsimp only
  rw [hwarn]
  split
  · rw [get_bump_self, hslow]; rfl
  · exact hslow

theorem written_get (h : f.reg ∉ [.CREW_AB, .CREW_DP_OUT]) : (written c t8 s).get f i = s.get f i := written_touches.regs f i h

/-- Where and what a completion changes: crew c alone, which is in no update any more. -/
theorem monitored_frame : ((monitored c t8 s).crew c).busy = false ∧ SamePhases [] s (monitored c t8 s) ∧
    SameCrews [c] s (monitored c t8 s) ∧ SameMem s (monitored c t8 s) := by
  obtain ⟨-, hphases, hcrews, hmem, hbusy⟩ := monitored_written (c := c) (t8 := t8) (s := s)
  obtain ⟨-, hphases', hcrews', hmem', hbusy'⟩ := written_touches (c := c) (t8 := t8) (s := s) (fb := s.flag CREW_DP_STAT.LAW c)
    (away := s.mainAway c)
  refine ⟨hbusy.trans (hbusy'.trans endUpdate_crew), hphases'.trans hphases, ?_, hmem'.trans hmem⟩
  exact fun q hq => (hcrews q hq).trans ((hcrews' q hq).trans (endUpdate_crews q hq))

/-! ### Slopes and gain sets delivered (R257) -/

section
variable {o : Op} {rest : List Op} {a d : Nat} {F G : State → Nat → State} {P : State → Prop} {ks : List FKey}

/-- Two steps that do the same in every state that a fold meets have the same fold. -/
theorem forAll_congr_of (h0 : P s) (hkeep : ∀ u k, k ∈ l → P u → P (G u k)) (heq : ∀ u k, k ∈ l → P u → F u k = G u k) :
    forAll l F s = forAll l G s := by
  induction l generalizing s with
  | nil => rfl
  | cons k r ih =>
    show forAll r F (F s k) = forAll r G (G s k)
    rw [heq s k (by simp) h0]
    exact ih (hkeep s k (by simp) h0) (fun u j hj => hkeep u j (by simp [hj])) fun u j hj => heq u j (by simp [hj])

/-- Every crew of the list takes operations: none is being calibrated, and every last calibration is valid (R386, R387). -/
def State.takers (s : State) (l : List Nat) : Prop := ∀ c ∈ l, (s.crew c).calRun = false ∧ s.flag TB_CAL.VALID c = true

theorem State.takers.of_same (h : s.takers l) (hcal : ∀ c, (t.crew c).calRun = (s.crew c).calRun)
    (hvalid : ∀ c, t.get TB_CAL.VALID c = s.get TB_CAL.VALID c) : t.takers l := fun c hc =>
  ⟨(hcal c).trans (h c hc).1, by rw [State.flag, hvalid]; exact (h c hc).2⟩

/-- An operation acts at a crew that takes operations. -/
theorem deliverTo_taker (h : s.takers l) (hc : c ∈ l) :
    deliverTo o s c = applyOp o (o.kind.held (s.tickStart + 4)) c s := by
  obtain ⟨hcal, hvalid⟩ := h c hc
  rw [deliverTo, if_neg (by simp [hcal]), deliverHeld, if_neg (by simp [hvalid])]

theorem llsWrite_within : Within [CREW_DP_LLS.LLS.key c] c Crew.calRun s (llsWrite c v s) :=
  (Within.refl.put (by simp)).onCrew rfl

/-- The slope in force before stays the slope of this tick. -/
theorem llsWrite_llsOf_self : (llsWrite c v s).llsOf c = s.llsOf c := by
  unfold llsWrite
  rw [State.llsOf, onCrew_crew]
  exact if_pos rfl

theorem llsWrite_llsOf : (llsWrite c v s).llsOf i = s.llsOf i := by
  by_cases h : i = c
  · rw [h]; exact llsWrite_llsOf_self
  · have hcrew : (llsWrite c v s).crew i = s.crew i := onCrew_crew_ne h
    have hget : (llsWrite c v s).get CREW_DP_LLS.LLS i = s.get CREW_DP_LLS.LLS i := get_put_inst h
    unfold State.llsOf
    rw [hcrew, hget]
    rfl

/-- GSEL at one crew. -/
def gselWrite (a d : Nat) (s : State) (c : Nat) : State := (s.put CREW_DP_GS.FORCE c a).put CREW_DP_GS.FORCE_REGION c d

theorem deliver_lls (hk : o.kind = .lls v) (h : s.takers o.crews) :
    forAll o.crews (deliverTo o) s = forAll o.crews (fun s c => llsWrite c v s) s := by
  refine forAll_congr_of (P := fun u => u.takers o.crews) h (fun u k _ hu => hu.of_same (fun c => ?_) fun c => get_put_reg (by decide))
    fun u k hm hu => ?_
  · by_cases e : c = k
    · rw [e]; exact llsWrite_within.crew
    · rw [llsWrite_within.crews c (by simpa using e)]
  · rw [deliverTo_taker hu hm, applyOp, hk]

theorem deliver_gsel (hk : o.kind = .gsel a d) (h : s.takers o.crews) :
    forAll o.crews (deliverTo o) s = forAll o.crews (gselWrite a d) s := by
  refine forAll_congr_of (P := fun u => u.takers o.crews) h (fun u k _ hu => hu.of_same (fun _ => rfl) fun c =>
    (get_put_reg (by decide)).trans (get_put_reg (by decide))) fun u k hm hu => ?_
  rw [deliverTo_taker hu hm, applyOp, hk]
  rfl

theorem exec_llsDelivery (hf : s.flight = o :: rest) (hk : o.kind = .lls v) (h : s.takers o.crews) :
    exec .llsDelivery s = .next (forAll o.crews (fun s c => llsWrite c v s) (s.fly rest)) := by
  rw [← deliver_lls hk (h.of_same (t := s.fly rest) (fun _ => rfl) fun _ => rfl)]
  show Host.Outcome.next (deliver _ s) = _
  simp only [deliver, hf, hk, if_true, State.fly]

theorem exec_gselDelivery (hf : s.flight = o :: rest) (hk : o.kind = .gsel a d) (h : s.takers o.crews) :
    exec .gselDelivery s = .next (forAll o.crews (gselWrite a d) (s.fly rest)) := by
  rw [← deliver_gsel hk (h.of_same (t := s.fly rest) (fun _ => rfl) fun _ => rfl)]
  show Host.Outcome.next (deliver _ s) = _
  simp only [deliver, hf, hk, if_true, State.fly]

/-- Where the slope of an LLS stands, and what it leaves. -/
theorem llsAll_slope (hc : c ∈ l) : (forAll l (fun s c => llsWrite c v s) s).get CREW_DP_LLS.LLS c = v % 2 ^ 10 := by
  refine forAll_each (P := fun c u => u.get CREW_DP_LLS.LLS c = v % 2 ^ 10) (fun _ _ => get_put_self) (fun _ k q hu => ?_) hc
  by_cases e : q = k
  · rw [e]; exact get_put_self
  · exact (get_put_inst e).trans hu

theorem llsAll_frame : (forAll l (fun s c => llsWrite c v s) s).flight = s.flight ∧
    (∀ c, (forAll l (fun s c => llsWrite c v s) s).llsOf c = s.llsOf c) ∧
    SameRegs (l.map CREW_DP_LLS.LLS.key) s (forAll l (fun s c => llsWrite c v s) s) ∧
    SamePhases [] s (forAll l (fun s c => llsWrite c v s) s) ∧ SameCrews l s (forAll l (fun s c => llsWrite c v s) s) ∧
    SameMem s (forAll l (fun s c => llsWrite c v s) s) :=
  forAll_keeps (P := fun u => u.flight = s.flight ∧ (∀ c, u.llsOf c = s.llsOf c) ∧ SameRegs (l.map CREW_DP_LLS.LLS.key) s u ∧
      SamePhases [] s u ∧ SameCrews l s u ∧ SameMem s u)
    (fun _ _ hm ⟨hflight, hlls, hregs, hphases, hcrews, hmem⟩ => ⟨hflight, fun c => llsWrite_llsOf.trans (hlls c),
      (hregs.put (List.mem_map_of_mem hm)).onCrew, hphases.congr rfl, (hcrews.put).set hm, hmem.congr rfl rfl⟩)
    ⟨rfl, fun _ => rfl, .refl, .refl, .refl, .refl⟩

/-- Where the gain set of a GSEL stands, and what it leaves. -/
theorem gselAll_force (hc : c ∈ l) : (forAll l (gselWrite a d) s).get CREW_DP_GS.FORCE c = a % 2 ∧
    (forAll l (gselWrite a d) s).get CREW_DP_GS.FORCE_REGION c = d % 16 := by
  refine forAll_each (P := fun c u => u.get CREW_DP_GS.FORCE c = a % 2 ∧ u.get CREW_DP_GS.FORCE_REGION c = d % 16) (fun _ _ => ?_)
    (fun _ k q ⟨hforce, hregion⟩ => ?_) hc
  · exact ⟨(get_put_lo (by decide)).trans get_put_self, get_put_self⟩
  · by_cases e : q = k
    · rw [e]; exact ⟨(get_put_lo (by decide)).trans get_put_self, get_put_self⟩
    · exact ⟨((get_put_inst e).trans (get_put_inst e)).trans hforce, ((get_put_inst e).trans (get_put_inst e)).trans hregion⟩

theorem gselAll_frame : (forAll l (gselWrite a d) s).flight = s.flight ∧
    SameRegs (l.map CREW_DP_GS.FORCE.key ++ l.map CREW_DP_GS.FORCE_REGION.key) s (forAll l (gselWrite a d) s) ∧
    SameBlock s (forAll l (gselWrite a d) s) :=
  forAll_keeps (P := fun u => u.flight = s.flight ∧
      SameRegs (l.map CREW_DP_GS.FORCE.key ++ l.map CREW_DP_GS.FORCE_REGION.key) s u ∧ SameBlock s u)
    (fun _ _ hm ⟨hflight, hregs, hblock⟩ => ⟨hflight, (hregs.put (List.mem_append_left _ (List.mem_map_of_mem hm))).put
      (List.mem_append_right _ (List.mem_map_of_mem hm)), hblock.put.put⟩)
    ⟨rfl, .refl, .refl⟩

end

end Sys2Proof.Machine

namespace Sys2Proof.Proofs.Instructions

open Sys2Proof Sys2Proof.Machine

/-- Settles O7: an update starts by the schedule and the main law, a completion by its counts and monitors, and a delivery writes
the same fields at every crew that takes operations. -/
theorem datapathUpdates : Obligations.DatapathUpdates := by
  refine ⟨?starts, ?main, ?completes, ?missWindow, ?lls, ?gsel⟩
  case starts =>
    intro c s hmode hidle hnewA hnewB
    obtain ⟨v, hv⟩ := exec_datapathUpdate ⟨hmode, hidle, hnewA, hnewB⟩
    refine ⟨_, hv, ?_, ?_, startUpdate_newA, ?_, startUpdate_mem.congr rfl rfl⟩
    · rw [onCrew_crew]; rfl
    · rw [onCrew_crew]; rfl
    · exact (congrArg (· == 1) startUpdate_newB).trans hnewB
  case main =>
    intro c s hmode hidle hnewA hnewB hreg hfirst htransfer hresume hdue hlaw hforce
    obtain ⟨a, v, z, he, hstays⟩ := exec_datapathUpdate_main ⟨hmode, hidle, hnewA, hnewB⟩
      ⟨hreg, hfirst, htransfer, hresume, hdue, hlaw⟩
    refine ⟨_, he, fun hregion => ?_, inUpdate_within.frame⟩
    rw [inUpdate_uNext, hstays hforce hregion, mainLaw_scheduled, inUpdate_errorOf, put_rateOf (by decide), put_crew, inUpdate_coef,
      inUpdate_get, State.pairSum]
  case completes =>
    intro c t8 s hbusy
    obtain ⟨hidle, hframe⟩ := monitored_frame (c := c) (t8 := t8) (s := s)
    refine ⟨_, exec_updateCompletion hbusy, hidle, ?_, ?_, ?_, ?_, hframe⟩
    · rw [monitored_written.regs _ _ (by decide), written_out]
    · rw [State.flag, monitored_written.regs _ _ (by decide)]
      exact written_newB
    · rw [monitored_timed.regs _ _ (by decide), countTime_last]
    · rw [monitored_timed.regs _ _ (by decide), countTime_slow, written_get (by decide), written_get (by decide)]
  case missWindow =>
    exact fun c s => ⟨_, rfl, get_put_self, SameRegs.refl.put (by simp), .refl, .refl, .refl⟩
  case lls =>
    intro op rest v s hflight hkind htakers
    obtain ⟨hrest, hlls, hregs, hphases, hcrews, hmem⟩ := llsAll_frame (l := op.crews) (v := v) (s := s.fly rest)
    exact ⟨_, exec_llsDelivery hflight hkind htakers, hrest, fun c hc => ⟨llsAll_slope hc, hlls c⟩, hregs, hphases, hcrews,
      hmem⟩
  case gsel =>
    intro op rest f r s hflight hkind htakers
    obtain ⟨hrest, hregs, hblock⟩ := gselAll_frame (l := op.crews) (a := f) (d := r) (s := s.fly rest)
    exact ⟨_, exec_gselDelivery hflight hkind htakers, hrest, fun c hc => gselAll_force hc, hregs, hblock⟩

end Sys2Proof.Proofs.Instructions
